-- ==== Sys2Proof/Word.lean ====
section
/-!
DEFINITION. The words of the device, the exact values its arithmetic works on (chapter 02), and the plainest
arithmetic over them.
-/
namespace Sys2Proof.Machine

/-- A byte of HBM, flash or a buffer. -/
abbrev Byte := BitVec 8

/-- The value of a register. A 32-bit register holds its value in the low word. -/
abbrev Word64 := BitVec 64

/-- A BF16 bit pattern (R42). -/
abbrev Bf16 := BitVec 16

/-- A value as arithmetic sees it (R42, Table 2.3, R121): a NaN, with the note whether a NaN was among the inputs
it came from (that decides between NAN_SEEN and INVALID, R70), a signed infinity, or an exact real. `neg` is the
sign of a zero (R51, R52); a nonzero real carries its sign in `q`. -/
inductive Val where
  | nan (seen : Bool)
  | inf (neg : Bool)
  | fin (neg : Bool) (q : Rat)
deriving DecidableEq, Repr

/-- A pound (R47, R50): its exact value and its five flags, with the note whether a NaN was among its terms. -/
structure Pound where
  q : Rat := 0
  nan : Bool := false
  seen : Bool := false
  pinf : Bool := false
  ninf : Bool := false
  any : Bool := false
  allNegZ : Bool := false
deriving DecidableEq, Repr

/-- The functions of Table 2.5 with one argument, and IDENT (Table 4.5). -/
inductive Fn where
  | ident | recip | sqrt | rsqrt | exp | exp2 | log | log2 | tanh | sigmoid | silu | gelu | erf | softplus | sin | cos
deriving DecidableEq, Repr

/-- Bits `[lo + w - 1 : lo]` of a natural number. -/
def bitsOf (n lo w : Nat) : Nat := (n >>> lo) % 2 ^ w

/-- Bit `i` of a natural number. -/
def bitOf (n i : Nat) : Bool := (n >>> i) % 2 == 1

/-- A field of a register. -/
def fld (v : Word64) (lo w : Nat) : Nat := bitsOf v.toNat lo w

/-- A register with bits `[lo + w - 1 : lo]` set to `x`. -/
def setFld (v : Word64) (lo w x : Nat) : Word64 :=
  let n := v.toNat
  BitVec.ofNat 64 (n - bitsOf n lo w * 2 ^ lo + (x % 2 ^ w) * 2 ^ lo)

/-- A register value from a natural number. -/
def w64 (n : Nat) : Word64 := BitVec.ofNat 64 n

/-- A Bool as a bit. -/
def b2n (b : Bool) : Nat := if b then 1 else 0

/-- The number that a little-endian byte list spells. -/
def leNat : List Byte → Nat
  | [] => 0
  | b :: bs => b.toNat + 256 * leNat bs

/-- The `n` little-endian bytes of a number. -/
def leBytes : Nat → Nat → List Byte
  | 0, _ => []
  | n + 1, x => BitVec.ofNat 8 (x % 256) :: leBytes n (x / 256)

/-- Saturating addition at `2^w - 1`. -/
def satAdd (w a b : Nat) : Nat := min (a + b) (2 ^ w - 1)

/-- A two's-complement reading of a `w`-bit number. -/
def signed (w n : Nat) : Int := if n % 2 ^ w ≥ 2 ^ (w - 1) then (n % 2 ^ w : Int) - 2 ^ w else (n % 2 ^ w : Int)

/-- The `w`-bit two's-complement form of an integer. -/
def unsigned (w : Nat) (z : Int) : Nat := (z % (2 ^ w : Int)).toNat

end Sys2Proof.Machine
end

