-- ==== Sys2Proof/Machine/RegMap.lean ====
section
/-!
DEFINITION. The register map (chapter 20): every register of the control space with its offset, width, access code,
reset value and reset kinds, which function's slice shows it and who may write it.
-/
namespace Sys2Proof.Machine

/-- The access codes of Table 0.3 that the map uses. RL and RH say only how a 64-bit register is read (R8). -/
inductive Acc where
  | ro | rw | wo | w1c | w1s | rc
deriving DecidableEq, Repr

/-- The blocks a BLOCK_RESET may name (R580). -/
inductive Block where
  | compute | dma | serve | rank | wharf
deriving DecidableEq, Repr

/-- The resets that reach a register (Table 20.4): PORESET and CHIP_RESET, PORESET alone, keeper power-on alone,
or none. -/
inductive ResetKind where
  | pc | p | k | fixed
deriving DecidableEq, Repr

/-- Which basin an instance of a per-basin family belongs to (Table 20.3). -/
inductive Sel where
  | none | first | firstPlus1 | queue | table | set | flt
deriving DecidableEq, Repr

/-- Who may write a register: nobody, every reader (its own bank), PF0 (and the control cores), PF0 and the I²C target
(R617), the owner basin's own function (R634), or PF0 in dry-dock (R562). -/
inductive Writer where
  | none | any | pf0 | pf0i2c | pf0Only | own | dry
deriving DecidableEq, Repr

/-- How a VF slice shows a register (column "VF"). -/
inductive VfView where
  | none | ro | same
deriving DecidableEq, Repr

/-- One row of the register map: a family of registers at `base + i*s1 + j*s2`. -/
structure RegRow where
  name : String
  base : Nat
  n1 : Nat := 1
  s1 : Nat := 0
  n2 : Nat := 1
  s2 : Nat := 0
  wide : Bool := false
  acc : Acc := .ro
  wmask : Nat := 0
  writer : Writer := .none
  sel : Sel := .none
  vf : VfView := .none
  kind : ResetKind := .pc
  blk : Option Block := Option.none
  rst : Nat := 0
deriving DecidableEq, Repr

/-- The registers of the region (Table 20.4). -/
def rowsGlb : List RegRow :=
  [
   { name := "GLB_ID", base := 0x0, vf := .ro, kind := .fixed, rst := 0x5F01A100 },
   { name := "GLB_STATUS", base := 0x4, acc := .w1c, wmask := 0x1, writer := .any, vf := .same },
   { name := "GLB_ROLE", base := 0x8, vf := .ro },
   { name := "GLB_RESET_CAUSE", base := 0x10, kind := .k },
   { name := "GLB_CHIP_RESET", base := 0x14, acc := .wo, wmask := 0xFFFFFFFF, writer := .pf0 },
   { name := "GLB_SEED", base := 0x100, n1 := 16, s1 := 0x8, wide := true, acc := .rw, wmask := 0xFFFFFFFFFFFFFFFF, writer := .own, sel := .first, vf := .same },
   { name := "GLB_ARITH_FLAGS", base := 0x180, n1 := 16, s1 := 0x4, acc := .w1c, wmask := 0x1F, writer := .own, sel := .first, vf := .same },
   { name := "GLB_OP_DONE", base := 0x200, n1 := 16, s1 := 0x8, wide := true, sel := .first, vf := .ro },
   { name := "GLB_GATE_ADD", base := 0x300, n1 := 16, s1 := 0x4, acc := .wo, wmask := 0xFFFFFFFF, writer := .own, sel := .first, vf := .same },
   { name := "GLB_GATE", base := 0x8000, n1 := 16, s1 := 0x800, n2 := 256, s2 := 0x8, wide := true, acc := .rw, wmask := 0xFFFFFFFFFFFFFFFF, writer := .own, sel := .first, vf := .same } ]

/-- The registers of the region (Table 20.4). -/
def rowsClkPac : List RegRow :=
  [
   { name := "CLK_STATUS", base := 0x10000 },
   { name := "CLK_DIV", base := 0x10004, acc := .rw, wmask := 0xFFFFFFFF, writer := .pf0, rst := 0xFA10080 },
   { name := "CLK_HBM", base := 0x10008 },
   { name := "CLK_GATE", base := 0x1000C, acc := .rw, wmask := 0x1FF, writer := .pf0 },
   { name := "CLK_GATE_STATUS", base := 0x10010 },
   { name := "CLK_IRO", base := 0x10018, wide := true },
   { name := "CLK_IRO_MEAS", base := 0x10020 },
   { name := "CLK_LOSS_TICK", base := 0x10028, wide := true },
   { name := "CLK_RELEASE_TICK", base := 0x10030, wide := true },
   { name := "TBS_COUNT", base := 0x18000, wide := true, vf := .ro },
   { name := "TBS_STATUS", base := 0x18008 },
   { name := "TBS_RTC", base := 0x18010, wide := true, vf := .ro, kind := .k },
   { name := "TBS_RTC_SET", base := 0x18018, wide := true, acc := .wo, wmask := 0xFFFFFFFFFFFFFFFF, writer := .pf0Only },
   { name := "TBS_RTC_TRIM", base := 0x18020, kind := .k },
   { name := "TBS_KEEPER", base := 0x18024, acc := .w1c, wmask := 0x60, writer := .pf0i2c, kind := .k, rst := 0x40 },
   { name := "TBS_CORR_TB", base := 0x18030, wide := true, vf := .ro },
   { name := "TBS_CORR_RTC", base := 0x18038, wide := true, vf := .ro },
   { name := "TBS_CORR_SEQ", base := 0x18040, vf := .ro },
   { name := "PAC_CTRL", base := 0x20000 },
   { name := "PAC_STATUS", base := 0x20004, acc := .w1c, wmask := 0x20, writer := .pf0 },
   { name := "PAC_TARGET", base := 0x20008, acc := .rw, wmask := 0xFFFBFFFF, writer := .pf0 },
   { name := "PAC_BOUNDS", base := 0x2000C, wide := true },
   { name := "PAC_LIMITS", base := 0x20014 },
   { name := "PAC_VDD", base := 0x20018, wide := true },
   { name := "PAC_PACE_SUM", base := 0x20020, wide := true },
   { name := "PAC_TEMP", base := 0x20028 },
   { name := "PAC_TILE", base := 0x20100, n1 := 96, s1 := 0x4, rst := 0xC0000 },
   { name := "PAC_ACT_MX", base := 0x20400, n1 := 16, s1 := 0x10, wide := true, sel := .first, vf := .ro },
   { name := "PAC_ACT_VX", base := 0x20408, n1 := 16, s1 := 0x10, wide := true, sel := .first, vf := .ro } ]

/-- The registers of the region (Table 20.4). -/
def rowsMem : List RegRow :=
  [
   { name := "MEM_STATUS", base := 0x30000 },
   { name := "MEM_SCRUB", base := 0x30008, wide := true },
   { name := "MEM_SCRUB_LAST", base := 0x30010, wide := true },
   { name := "MEM_CH", base := 0x30100, n1 := 16, s1 := 0x8, wide := true },
   { name := "MEM_BADPAGE", base := 0x30400, n1 := 256, s1 := 0x8, wide := true },
   { name := "MEM_ACT_RD", base := 0x31000, n1 := 16, s1 := 0x10, wide := true, sel := .first, vf := .ro },
   { name := "MEM_ACT_WR", base := 0x31008, n1 := 16, s1 := 0x10, wide := true, sel := .first, vf := .ro },
   { name := "LCK_WIN", base := 0x32000, n1 := 16, s1 := 0x200, n2 := 64, s2 := 0x8, wide := true, sel := .first, vf := .ro },
   { name := "LCK_LAST", base := 0x34000, n1 := 16, s1 := 0x20, n2 := 4, s2 := 0x8, wide := true, sel := .first, vf := .ro },
   { name := "LCK_COUNT", base := 0x34200, n1 := 16, s1 := 0x8, wide := true, sel := .first, vf := .ro },
   { name := "LCK_BASIN", base := 0x34300, n1 := 16, s1 := 0x4, sel := .first, vf := .ro },
   { name := "LCK_BASIN_RESET", base := 0x34340, acc := .wo, wmask := 0xFFFFFFFF, writer := .pf0 } ]

/-- The registers of the region (Table 20.4). -/
def rowsQueCdc : List RegRow :=
  [
   { name := "QUE_CFG", base := 0x40000, n1 := 256, s1 := 0x100, sel := .queue, vf := .ro },
   { name := "QUE_CTRL", base := 0x40004, n1 := 256, s1 := 0x100, acc := .wo, wmask := 0x3, writer := .own, sel := .queue, vf := .same },
   { name := "QUE_STATUS", base := 0x40008, n1 := 256, s1 := 0x100, sel := .queue, vf := .ro },
   { name := "QUE_PTR", base := 0x4000C, n1 := 256, s1 := 0x100, sel := .queue, vf := .ro },
   { name := "QUE_SQ_BASE", base := 0x40010, n1 := 256, s1 := 0x100, wide := true, acc := .rw, wmask := 0xFFFFFFFFF000, writer := .own, sel := .queue, vf := .same },
   { name := "QUE_CQ_BASE", base := 0x40018, n1 := 256, s1 := 0x100, wide := true, acc := .rw, wmask := 0xFFFFFFFFF000, writer := .own, sel := .queue, vf := .same },
   { name := "QUE_COAL", base := 0x40020, n1 := 256, s1 := 0x100, acc := .rw, wmask := 0xFFFFFF, writer := .own, sel := .queue, vf := .same },
   { name := "QUE_DONE", base := 0x40028, n1 := 256, s1 := 0x100, wide := true, sel := .queue, vf := .ro },
   { name := "DMA_STATUS", base := 0x50000, blk := some .dma },
   { name := "DMA_BLOCKS", base := 0x50008, wide := true },
   { name := "CDC_TBL", base := 0x58000, n1 := 256, s1 := 0x4, sel := .table, vf := .ro },
   { name := "CDC_CMD", base := 0x58400, n1 := 16, s1 := 0x4, acc := .wo, wmask := 0xFFFFFFFF, writer := .own, sel := .first, vf := .same },
   { name := "CDC_RESULT", base := 0x58440, n1 := 16, s1 := 0x4, sel := .first, vf := .ro, blk := some .dma },
   { name := "CDC_SURVEY", base := 0x58480, n1 := 16, s1 := 0x8, wide := true, sel := .first, vf := .ro, blk := some .dma },
   { name := "CDC_BLOCKS", base := 0x58500, n1 := 16, s1 := 0x10, n2 := 2, s2 := 0x8, wide := true, sel := .first, vf := .ro },
   { name := "CDC_STAGE", base := 0x59000, n1 := 16, s1 := 0x100, n2 := 64, s2 := 0x4, acc := .rw, wmask := 0xFFFFFFFF, writer := .own, sel := .first, vf := .same } ]

/-- The registers of the region (Table 20.4). -/
def rowsIbn : List RegRow :=
  [
   { name := "IBN_P_STATE", base := 0x60000, n1 := 16, s1 := 0x1000 },
   { name := "IBN_P_NEIGH", base := 0x60004, n1 := 16, s1 := 0x1000 },
   { name := "IBN_P_CTRL", base := 0x60008, n1 := 16, s1 := 0x1000, acc := .wo, wmask := 0xFFFFFFFF, writer := .pf0 },
   { name := "IBN_P_DELAY", base := 0x6000C, n1 := 16, s1 := 0x1000 },
   { name := "IBN_P_CNT", base := 0x60010, n1 := 16, s1 := 0x1000, n2 := 8, s2 := 0x8, wide := true },
   { name := "IBN_TIME", base := 0x70000, rst := 0x3 },
   { name := "IBN_MARK", base := 0x70008, wide := true },
   { name := "IBN_CFG", base := 0x70010 },
   { name := "IBN_REACH", base := 0x70014 },
   { name := "IBN_FLOWS", base := 0x70018, wide := true },
   { name := "IBN_FLOW_RESET", base := 0x70200, n1 := 16, s1 := 0x8, acc := .wo, wmask := 0xFFFFFFFF, writer := .own, sel := .first, vf := .same },
   { name := "IBN_FLOW_RESULT", base := 0x70204, n1 := 16, s1 := 0x8, sel := .first, vf := .ro },
   { name := "IBN_ACT_TX", base := 0x71000, n1 := 16, s1 := 0x10, wide := true, sel := .first, vf := .ro },
   { name := "IBN_ACT_RX", base := 0x71008, n1 := 16, s1 := 0x10, wide := true, sel := .first, vf := .ro },
   { name := "IBN_ROUTE", base := 0x74000, n1 := 4096, s1 := 0x4 } ]

/-- The registers of the region (Table 20.4). -/
def rowsRnkSrv : List RegRow :=
  [
   { name := "RNK_CMD", base := 0x80000, n1 := 16, s1 := 0x400, acc := .wo, wmask := 0x3F, writer := .own, sel := .first, vf := .same },
   { name := "RNK_ARG", base := 0x80008, n1 := 16, s1 := 0x400, wide := true, acc := .rw, wmask := 0xFFFFFFFFFFFF, writer := .own, sel := .first, vf := .same, blk := some .rank },
   { name := "RNK_SUBMIT", base := 0x80010, n1 := 16, s1 := 0x400, wide := true, acc := .wo, wmask := 0xFFFFFFFFFFFF, writer := .own, sel := .first, vf := .same },
   { name := "RNK_STATUS", base := 0x80018, n1 := 16, s1 := 0x400, acc := .w1c, wmask := 0x100, writer := .own, sel := .first, vf := .same, blk := some .rank },
   { name := "RNK_GRP", base := 0x80100, n1 := 16, s1 := 0x400, n2 := 16, s2 := 0x10, wide := true, sel := .first, vf := .ro },
   { name := "RNK_DONE", base := 0x80108, n1 := 16, s1 := 0x400, n2 := 16, s2 := 0x10, wide := true, sel := .first, vf := .ro },
   { name := "RNK_RESULT", base := 0x80200, n1 := 16, s1 := 0x400, n2 := 16, s2 := 0x4, sel := .first, vf := .ro, blk := some .rank },
   { name := "SRV_CFG", base := 0x90000, n1 := 16, s1 := 0x400, wide := true, sel := .first, vf := .ro },
   { name := "SRV_STATE", base := 0x90008, n1 := 16, s1 := 0x400, sel := .first, vf := .ro },
   { name := "SRV_STEP", base := 0x90010, n1 := 16, s1 := 0x400, wide := true, sel := .first, vf := .ro, blk := some .serve },
   { name := "SRV_MISS", base := 0x90018, n1 := 16, s1 := 0x400, wide := true, sel := .first, vf := .ro },
   { name := "SRV_PFX", base := 0x90020, n1 := 16, s1 := 0x400, wide := true, sel := .first, vf := .ro, blk := some .serve },
   { name := "SRV_KEY", base := 0x90028, n1 := 16, s1 := 0x400, n2 := 2, s2 := 0x8, wide := true, acc := .wo, wmask := 0xFFFFFFFFFFFFFFFF, writer := .own, sel := .first, vf := .same, blk := some .serve },
   { name := "SRV_TOKENS", base := 0x90038, n1 := 16, s1 := 0x400, wide := true, sel := .first, vf := .ro },
   { name := "SRV_VIEW", base := 0x90440, n1 := 15, s1 := 0x400, acc := .rw, wmask := 0x3, writer := .own, sel := .firstPlus1, vf := .same, blk := some .serve },
   { name := "SRV_RESETS", base := 0x94000 } ]

/-- The registers of the region (Table 20.4). -/
def rowsWhf : List RegRow :=
  [
   { name := "WHF_CFG", base := 0xA0000 },
   { name := "WHF_STATUS", base := 0xA0004, blk := some .wharf },
   { name := "WHF_DRV_SQDB", base := 0xA0100, n1 := 8, s1 := 0x40, wide := true, acc := .rw, wmask := 0xFFFFFFFFFFFFFFFF, writer := .pf0, blk := some .wharf },
   { name := "WHF_DRV_CQDB", base := 0xA0108, n1 := 8, s1 := 0x40, wide := true, acc := .rw, wmask := 0xFFFFFFFFFFFFFFFF, writer := .pf0, blk := some .wharf },
   { name := "WHF_DRV_CTRL", base := 0xA0110, n1 := 8, s1 := 0x40, acc := .rw, wmask := 0xFFFF000F, writer := .pf0, blk := some .wharf },
   { name := "WHF_DRV_NSID", base := 0xA0114, n1 := 8, s1 := 0x40, acc := .rw, wmask := 0xFFFFFFFF, writer := .pf0, blk := some .wharf },
   { name := "WHF_DRV_CMD", base := 0xA0118, n1 := 8, s1 := 0x40, acc := .wo, wmask := 0xFFFFFFFF, writer := .pf0 },
   { name := "WHF_DRV_STATUS", base := 0xA011C, n1 := 8, s1 := 0x40, blk := some .wharf },
   { name := "WHF_DRV_DONE", base := 0xA0120, n1 := 8, s1 := 0x40, wide := true, blk := some .wharf },
   { name := "WHF_DRV_ERRORS", base := 0xA0128, n1 := 8, s1 := 0x40, wide := true, blk := some .wharf },
   { name := "WHF_SET_CFG", base := 0xA1000, n1 := 16, s1 := 0x100, sel := .set, vf := .ro },
   { name := "WHF_SET_STATE", base := 0xA1004, n1 := 16, s1 := 0x100, sel := .set, vf := .ro, blk := some .wharf },
   { name := "WHF_SET_EPOCH", base := 0xA1008, n1 := 16, s1 := 0x100, wide := true, sel := .set, vf := .ro, blk := some .wharf },
   { name := "WHF_SET_PROGRESS", base := 0xA1010, n1 := 16, s1 := 0x100, wide := true, sel := .set, vf := .ro, blk := some .wharf },
   { name := "WHF_SET_COMMIT_TICK", base := 0xA1018, n1 := 16, s1 := 0x100, wide := true, sel := .set, vf := .ro, blk := some .wharf },
   { name := "WHF_SET_STALLS", base := 0xA1020, n1 := 16, s1 := 0x100, wide := true, sel := .set, vf := .ro },
   { name := "WHF_SET_CTRL", base := 0xA1028, n1 := 16, s1 := 0x100, acc := .wo, wmask := 0xFFFFFFFF, writer := .own, sel := .set, vf := .same },
   { name := "WHF_SET_AREA", base := 0xA1040, n1 := 16, s1 := 0x100, n2 := 16, s2 := 0x8, wide := true, sel := .set, vf := .ro },
   { name := "WHF_SET_RING", base := 0xA10C0, n1 := 16, s1 := 0x100, n2 := 8, s2 := 0x8, wide := true, sel := .set, vf := .ro, blk := some .wharf },
   { name := "WHF_GRANT", base := 0xA3000, n1 := 16, s1 := 0x100, n2 := 16, s2 := 0x8, wide := true, sel := .first, vf := .ro } ]

/-- The registers of the region (Table 20.4). DESIGN CHOICE (log entry 96): the bits [7:3] and [31:16] of MTR_CAL_STAGE + 0, which no table of
the spec names, are stored and read as written. -/
def rowsMtr : List RegRow :=
  [
   { name := "MTR_STATUS", base := 0xB0000 },
   { name := "MTR_CFG", base := 0xB0004 },
   { name := "MTR_WIN", base := 0xB0008, wide := true },
   { name := "MTR_WIN_TICK", base := 0xB0010, wide := true },
   { name := "MTR_FREQ", base := 0xB0018 },
   { name := "MTR_TEMP", base := 0xB001C },
   { name := "MTR_TOT", base := 0xB0020, n1 := 4, s1 := 0x4 },
   { name := "MTR_PH", base := 0xB0040, n1 := 3, s1 := 0x10, n2 := 4, s2 := 0x4 },
   { name := "MTR_CH", base := 0xB0100, n1 := 7, s1 := 0x80, n2 := 4, s2 := 0x4 },
   { name := "MTR_CH_FACT", base := 0xB0110, n1 := 7, s1 := 0x80, n2 := 3, s2 := 0x4 },
   { name := "MTR_CH_IMG", base := 0xB0120, n1 := 7, s1 := 0x80, n2 := 3, s2 := 0x4 },
   { name := "MTR_CH_RUN", base := 0xB0130, n1 := 7, s1 := 0x80, n2 := 3, s2 := 0x4 },
   { name := "MTR_CH_EFF", base := 0xB0140, n1 := 7, s1 := 0x80, n2 := 3, s2 := 0x4 },
   { name := "MTR_CH_CALCNT", base := 0xB0150, n1 := 7, s1 := 0x80 },
   { name := "MTR_CH_CALTICK", base := 0xB0158, n1 := 7, s1 := 0x80, n2 := 2, s2 := 0x8, wide := true },
   { name := "MTR_E", base := 0xB0500, n1 := 7, s1 := 0x8, wide := true },
   { name := "MTR_RES", base := 0xB0540, n1 := 7, s1 := 0x4, kind := .k },
   { name := "MTR_CF_CFG", base := 0xB0600 },
   { name := "MTR_CF_COUNT", base := 0xB0608, wide := true },
   { name := "MTR_CF_QUEUE", base := 0xB0610 },
   { name := "MTR_CF_FRAC", base := 0xB0614 },
   { name := "MTR_PIN_CFG", base := 0xB0680, n1 := 2, s1 := 0x20 },
   { name := "MTR_PIN_COUNT", base := 0xB0688, n1 := 2, s1 := 0x20, wide := true },
   { name := "MTR_PIN_DEV", base := 0xB0690, n1 := 2, s1 := 0x20 },
   { name := "MTR_PIN_XCHECK", base := 0xB0694, n1 := 2, s1 := 0x20 },
   { name := "MTR_THR", base := 0xB0700, n1 := 5, s1 := 0x4 },
   { name := "MTR_CAL_STAGE", base := 0xB0800, n1 := 4, s1 := 0x4, acc := .rw, wmask := 0xFFFFFFFF, writer := .pf0 },
   { name := "MTR_CAL_CMD", base := 0xB0810, acc := .wo, wmask := 0xFFFFFFFF, writer := .pf0 },
   { name := "MTR_CAL_RESULT", base := 0xB0814 },
   { name := "MTR_CAL_MEAS", base := 0xB0818, n1 := 3, s1 := 0x8, wide := true },
   { name := "MTR_CH_CTRL", base := 0xB0840, acc := .wo, wmask := 0xFFFFFFFF, writer := .pf0 },
   { name := "MTR_TAMPER", base := 0xB0880, wide := true, kind := .k },
   { name := "MTR_TAMPER_STATUS", base := 0xB0888, kind := .k },
   { name := "MTR_HARM", base := 0xB1000, n1 := 7, s1 := 0x80, n2 := 21, s2 := 0x4 },
   { name := "MTR_EVT", base := 0xB2000, n1 := 64, s1 := 0x20, n2 := 4, s2 := 0x8, wide := true, kind := .k },
   { name := "MTR_EVT_HEAD", base := 0xB2800, wide := true, kind := .k },
   { name := "MTR_TTAB", base := 0xB3000, n1 := 7, s1 := 0x40, n2 := 8, s2 := 0x8, wide := true } ]

/-- The registers of the region (Table 20.4). -/
def rowsTol : List RegRow :=
  [
   { name := "TOL_STATUS", base := 0xC0000 },
   { name := "TOL_CMD", base := 0xC0004, acc := .wo, wmask := 0xFFFFFFFF, writer := .pf0i2c },
   { name := "TOL_SNAP_STATUS", base := 0xC0008 },
   { name := "TOL_PENDING", base := 0xC0010, wide := true, kind := .k },
   { name := "TOL_W", base := 0xC0040, n1 := 7, s1 := 0x4 },
   { name := "TOL_MD_CFG", base := 0xC0060 },
   { name := "TOL_CAL_CMD", base := 0xC0064, acc := .wo, wmask := 0xFFFFFFFF, writer := .pf0 },
   { name := "TOL_CAL_STATUS", base := 0xC0068 },
   { name := "TOL_CAL_ACTIVE", base := 0xC006C, n1 := 2, s1 := 0x4, kind := .k },
   { name := "TOL_CAL_ACT", base := 0xC0078, wide := true, acc := .rw, wmask := 0xFFFFFFFFFFFFFFFF, writer := .pf0, kind := .k },
   { name := "TOL_JRN", base := 0xC0080, wide := true },
   { name := "TOL_JRN_LAST", base := 0xC0088, wide := true },
   { name := "TOL_RPT", base := 0xC00C0, n1 := 8, s1 := 0x8, wide := true },
   { name := "TOL_TRAY", base := 0xC0100, n1 := 7, s1 := 0x48, n2 := 9, s2 := 0x8, wide := true, kind := .k },
   { name := "TOL_BASIN", base := 0xC0400, n1 := 16, s1 := 0x48, n2 := 9, s2 := 0x8, wide := true, sel := .first, vf := .ro, kind := .k },
   { name := "TOL_RES", base := 0xC0900, n1 := 16, s1 := 0x8, wide := true, kind := .k },
   { name := "TOL_MD", base := 0xC0A00, n1 := 2, s1 := 0x90, n2 := 18, s2 := 0x8, wide := true, kind := .k },
   { name := "TOL_GAP", base := 0xC0C00, n1 := 16, s1 := 0x20, n2 := 4, s2 := 0x8, wide := true, kind := .k },
   { name := "TOL_PUBKEY", base := 0xC0E00, n1 := 8, s1 := 0x4 },
   { name := "TOL_SNAP", base := 0xC1000, n1 := 662, s1 := 0x4 },
   { name := "TOL_ARCH", base := 0xC4000, n1 := 12, s1 := 0xA80, n2 := 662, s2 := 0x4, kind := .k },
   { name := "TOL_CAL_STAGE", base := 0xCC000, n1 := 512, s1 := 0x4, acc := .rw, wmask := 0xFFFFFFFF, writer := .pf0 } ]

/-- The registers of the region (Table 20.4). -/
def rowsLcdCal : List RegRow :=
  [
   { name := "LCD_CFG", base := 0xD0000, kind := .k },
   { name := "LCD_STATUS", base := 0xD0004, kind := .k },
   { name := "LCD_PAGE", base := 0xD0010, n1 := 16, s1 := 0x4, kind := .k },
   { name := "LCD_CTRL", base := 0xD0050, acc := .rw, wmask := 0x1, writer := .pf0, kind := .k },
   { name := "LCD_HOLD", base := 0xD0054, acc := .wo, wmask := 0xFFFFFFFF, writer := .pf0 },
   { name := "LCD_SEG_RAM", base := 0xD0060, n1 := 5, s1 := 0x4, kind := .k },
   { name := "CAL_BG", base := 0xE0004 },
   { name := "CAL_IRO_FACT", base := 0xE0008, wide := true },
   { name := "CAL_TS", base := 0xE0100, n1 := 98, s1 := 0x8, wide := true },
   { name := "CAL_TILE", base := 0xE0600, n1 := 96, s1 := 0x4 },
   { name := "CAL_REC", base := 0xE1000, n1 := 112, s1 := 0x20, n2 := 2, s2 := 0x4 },
   { name := "CAL_REC_TIME", base := 0xE1008, n1 := 112, s1 := 0x20, n2 := 3, s2 := 0x8, wide := true } ]

/-- The registers of the region (Table 20.4). -/
def rowsFltStp : List RegRow :=
  [
   { name := "FLT_CTRL", base := 0xF0000, acc := .rw, wmask := 0xFFFFFFFF, writer := .pf0 },
   { name := "FLT_STATUS", base := 0xF0004, kind := .p },
   { name := "FLT_RELEASE", base := 0xF0010, acc := .wo, wmask := 0xFFFFFFFF, writer := .pf0 },
   { name := "FLT_TRIP", base := 0xF0100, n1 := 8, s1 := 0x4, acc := .w1c, wmask := 0xFFFFFFFF, writer := .pf0i2c, kind := .p },
   { name := "FLT_WIRE", base := 0xF0120, n1 := 8, s1 := 0x4, acc := .w1c, wmask := 0xFFFFFFFF, writer := .pf0, kind := .p },
   { name := "FLT_FORCE", base := 0xF0140, n1 := 8, s1 := 0x4, acc := .wo, wmask := 0xFFFFFFFF, writer := .pf0 },
   { name := "FLT_MODE", base := 0xF0160 },
   { name := "FLT_PIN", base := 0xF0180, n1 := 8, s1 := 0x4, kind := .p },
   { name := "FLT_SRC", base := 0xF0400, n1 := 256, s1 := 0x4 },
   { name := "FLT_EVENTS", base := 0xF0800, n1 := 256, s1 := 0x4, sel := .flt, vf := .ro },
   { name := "FLT_CAP", base := 0xF1000, n1 := 16, s1 := 0x20, n2 := 2, s2 := 0x8, wide := true, kind := .p },
   { name := "FLT_CAP_STAT", base := 0xF1010, n1 := 16, s1 := 0x20, kind := .p },
   { name := "FLT_CAP_CMD", base := 0xF1014, n1 := 16, s1 := 0x20, acc := .wo, wmask := 0x1, writer := .pf0 },
   { name := "STP_CFG", base := 0x100000 },
   { name := "STP_STATUS", base := 0x100004 },
   { name := "STP_NEXT_TILE", base := 0x100008, wide := true },
   { name := "STP_TAKEN", base := 0x100010, wide := true },
   { name := "STP_SKIPPED", base := 0x100018, wide := true },
   { name := "STP_MAX_DEFER", base := 0x100020, wide := true },
   { name := "STP_BATT", base := 0x100028, kind := .k },
   { name := "STP_BATT_RTC", base := 0x100030, wide := true, kind := .k } ]

/-- The registers of the region (Table 20.4). -/
def rowsPciImg : List RegRow :=
  [
   { name := "PCI_LINK", base := 0x110000 },
   { name := "PCI_OUT_HI", base := 0x110008, wide := true, acc := .rw, wmask := 0xFFFF800000000000, writer := .pf0 },
   { name := "PCI_P2P_RID", base := 0x110040, n1 := 8, s1 := 0x4, acc := .rw, wmask := 0x1FFFF, writer := .pf0 },
   { name := "PCI_ERR", base := 0x110080, wide := true },
   { name := "PCI_FLR", base := 0x110088 },
   { name := "BRD_STRAP", base := 0x111000, kind := .p },
   { name := "BRD_PWR", base := 0x111004 },
   { name := "BRD_GPIO", base := 0x111008, acc := .rw, wmask := 0xFF, writer := .pf0i2c },
   { name := "BRD_SPI", base := 0x111010 },
   { name := "BRD_PMB", base := 0x111018 },
   { name := "BRD_I2C", base := 0x111020 },
   { name := "IMG_STATUS", base := 0x120000 },
   { name := "IMG_SEQ", base := 0x120008, wide := true },
   { name := "IMG_SVN", base := 0x120010 },
   { name := "IMG_FAIL_A", base := 0x120018, wide := true },
   { name := "IMG_FAIL_B", base := 0x120020, wide := true },
   { name := "IMG_SERIAL", base := 0x120028, wide := true },
   { name := "IMG_OPEN_TICK", base := 0x120030, wide := true },
   { name := "IMG_DIGEST", base := 0x120040, n1 := 8, s1 := 0x4 },
   { name := "IMG_OWNER", base := 0x120060, n1 := 8, s1 := 0x4 },
   { name := "IMG_PROVISION", base := 0x120080, acc := .wo, wmask := 0xFFFFFFFF, writer := .pf0 },
   { name := "IMG_PROV_RESULT", base := 0x120084 },
   { name := "IMG_SELFTEST", base := 0x120088 },
   { name := "IMG_FLASH_ADDR", base := 0x120090, acc := .rw, wmask := 0xFFFFFFFF, writer := .dry },
   { name := "IMG_FLASH_CMD", base := 0x120094, acc := .wo, wmask := 0xFFFFFFFF, writer := .dry },
   { name := "IMG_FLASH_STATUS", base := 0x120098 },
   { name := "IMG_FLASH_BUF", base := 0x121000, n1 := 1024, s1 := 0x4, acc := .rw, wmask := 0xFFFFFFFF, writer := .dry },
   { name := "REQ_TABLE", base := 0x200000, n1 := 4096, s1 := 0x80, n2 := 16, s2 := 0x8, wide := true, blk := some .serve } ]

/-- Every register of the control space (R629, Table 20.4). -/
def regRows : List RegRow :=
  rowsGlb ++ rowsClkPac ++ rowsMem ++ rowsQueCdc ++ rowsIbn ++ rowsRnkSrv ++ rowsWhf ++ rowsMtr ++ rowsTol ++ rowsLcdCal ++ rowsFltStp ++ rowsPciImg

/-- Where an offset lies: the register's row, its indices, its own offset, and whether the offset is its high word. -/
structure Loc where
  row : RegRow
  i : Nat
  j : Nat
  reg : Nat
  high : Bool
deriving DecidableEq, Repr

/-- The place of a 4-byte aligned offset within one row. -/
def RegRow.find (r : RegRow) (off : Nat) : Option Loc :=
  if off < r.base then none
  else
    let d := off - r.base
    let i := if r.s1 = 0 then 0 else d / r.s1
    let d := d - i * r.s1
    let j := if r.s2 = 0 then 0 else d / r.s2
    let d := d - j * r.s2
    if i < r.n1 ∧ j < r.n2 ∧ (d = 0 ∨ (d = 4 ∧ r.wide = true)) then
      some { row := r, i := i, j := j, reg := off - d, high := decide (d = 4) }
    else none

/-- The register that holds a 4-byte aligned offset; none at a hole (R629). -/
def locate (off : Nat) : Option Loc := regRows.findSome? (fun r => r.find off)

/-- The reset value of the register at an offset (R4). -/
def regReset (off : Nat) : Word64 :=
  match off with
  | 0x0 => 0x5F01A100#64
  | 0x10004 => 0x0FA10080#64
  | 0x18024 => 0x40#64
  | 0x70000 => 3#64
  | _ => if 0x20100 ≤ off ∧ off < 0x20280 then 0x000C0000#64 else 0#64

/-! ### Offsets of the registers the meanings name -/

/-- GLB_ID. -/
abbrev rGlbId : Nat := 0x0
/-- GLB_STATUS. -/
abbrev rGlbStatus : Nat := 0x4
/-- GLB_ROLE. -/
abbrev rGlbRole : Nat := 0x8
/-- GLB_RESET_CAUSE. -/
abbrev rGlbResetCause : Nat := 0x10
/-- GLB_CHIP_RESET. -/
abbrev rGlbChipReset : Nat := 0x14
/-- GLB_SEED, instance i. -/
abbrev rGlbSeed (i : Nat) : Nat := 0x100 + 0x8 * i
/-- GLB_ARITH_FLAGS, instance i. -/
abbrev rGlbArithFlags (i : Nat) : Nat := 0x180 + 0x4 * i
/-- GLB_OP_DONE, instance i. -/
abbrev rGlbOpDone (i : Nat) : Nat := 0x200 + 0x8 * i
/-- GLB_GATE_ADD, instance i. -/
abbrev rGlbGateAdd (i : Nat) : Nat := 0x300 + 0x4 * i
/-- GLB_GATE, instance i, j. -/
abbrev rGlbGate (i j : Nat) : Nat := 0x8000 + 0x800 * i + 0x8 * j
/-- CLK_STATUS. -/
abbrev rClkStatus : Nat := 0x10000
/-- CLK_DIV. -/
abbrev rClkDiv : Nat := 0x10004
/-- CLK_HBM. -/
abbrev rClkHbm : Nat := 0x10008
/-- CLK_GATE. -/
abbrev rClkGate : Nat := 0x1000C
/-- CLK_GATE_STATUS. -/
abbrev rClkGateStatus : Nat := 0x10010
/-- CLK_IRO. -/
abbrev rClkIro : Nat := 0x10018
/-- CLK_IRO_MEAS. -/
abbrev rClkIroMeas : Nat := 0x10020
/-- CLK_LOSS_TICK. -/
abbrev rClkLossTick : Nat := 0x10028
/-- CLK_RELEASE_TICK. -/
abbrev rClkReleaseTick : Nat := 0x10030
/-- TBS_COUNT. -/
abbrev rTbsCount : Nat := 0x18000
/-- TBS_STATUS. -/
abbrev rTbsStatus : Nat := 0x18008
/-- TBS_RTC. -/
abbrev rTbsRtc : Nat := 0x18010
/-- TBS_RTC_SET. -/
abbrev rTbsRtcSet : Nat := 0x18018
/-- TBS_RTC_TRIM. -/
abbrev rTbsRtcTrim : Nat := 0x18020
/-- TBS_KEEPER. -/
abbrev rTbsKeeper : Nat := 0x18024
/-- TBS_CORR_TB. -/
abbrev rTbsCorrTb : Nat := 0x18030
/-- TBS_CORR_RTC. -/
abbrev rTbsCorrRtc : Nat := 0x18038
/-- TBS_CORR_SEQ. -/
abbrev rTbsCorrSeq : Nat := 0x18040
/-- PAC_CTRL. -/
abbrev rPacCtrl : Nat := 0x20000
/-- PAC_STATUS. -/
abbrev rPacStatus : Nat := 0x20004
/-- PAC_TARGET. -/
abbrev rPacTarget : Nat := 0x20008
/-- PAC_BOUNDS. -/
abbrev rPacBounds : Nat := 0x2000C
/-- PAC_LIMITS. -/
abbrev rPacLimits : Nat := 0x20014
/-- PAC_VDD. -/
abbrev rPacVdd : Nat := 0x20018
/-- PAC_PACE_SUM. -/
abbrev rPacPaceSum : Nat := 0x20020
/-- PAC_TEMP. -/
abbrev rPacTemp : Nat := 0x20028
/-- PAC_TILE, instance i. -/
abbrev rPacTile (i : Nat) : Nat := 0x20100 + 0x4 * i
/-- PAC_ACT_MX, instance i. -/
abbrev rPacActMx (i : Nat) : Nat := 0x20400 + 0x10 * i
/-- PAC_ACT_VX, instance i. -/
abbrev rPacActVx (i : Nat) : Nat := 0x20408 + 0x10 * i
/-- MEM_STATUS. -/
abbrev rMemStatus : Nat := 0x30000
/-- MEM_SCRUB. -/
abbrev rMemScrub : Nat := 0x30008
/-- MEM_SCRUB_LAST. -/
abbrev rMemScrubLast : Nat := 0x30010
/-- MEM_CH, instance i. -/
abbrev rMemCh (i : Nat) : Nat := 0x30100 + 0x8 * i
/-- MEM_BADPAGE, instance i. -/
abbrev rMemBadpage (i : Nat) : Nat := 0x30400 + 0x8 * i
/-- MEM_ACT_RD, instance i. -/
abbrev rMemActRd (i : Nat) : Nat := 0x31000 + 0x10 * i
/-- MEM_ACT_WR, instance i. -/
abbrev rMemActWr (i : Nat) : Nat := 0x31008 + 0x10 * i
/-- LCK_WIN, instance i, j. -/
abbrev rLckWin (i j : Nat) : Nat := 0x32000 + 0x200 * i + 0x8 * j
/-- LCK_LAST, instance i, j. -/
abbrev rLckLast (i j : Nat) : Nat := 0x34000 + 0x20 * i + 0x8 * j
/-- LCK_COUNT, instance i. -/
abbrev rLckCount (i : Nat) : Nat := 0x34200 + 0x8 * i
/-- LCK_BASIN, instance i. -/
abbrev rLckBasin (i : Nat) : Nat := 0x34300 + 0x4 * i
/-- LCK_BASIN_RESET. -/
abbrev rLckBasinReset : Nat := 0x34340
/-- QUE_CFG, instance i. -/
abbrev rQueCfg (i : Nat) : Nat := 0x40000 + 0x100 * i
/-- QUE_CTRL, instance i. -/
abbrev rQueCtrl (i : Nat) : Nat := 0x40004 + 0x100 * i
/-- QUE_STATUS, instance i. -/
abbrev rQueStatus (i : Nat) : Nat := 0x40008 + 0x100 * i
/-- QUE_PTR, instance i. -/
abbrev rQuePtr (i : Nat) : Nat := 0x4000C + 0x100 * i
/-- QUE_SQ_BASE, instance i. -/
abbrev rQueSqBase (i : Nat) : Nat := 0x40010 + 0x100 * i
/-- QUE_CQ_BASE, instance i. -/
abbrev rQueCqBase (i : Nat) : Nat := 0x40018 + 0x100 * i
/-- QUE_COAL, instance i. -/
abbrev rQueCoal (i : Nat) : Nat := 0x40020 + 0x100 * i
/-- QUE_DONE, instance i. -/
abbrev rQueDone (i : Nat) : Nat := 0x40028 + 0x100 * i
/-- DMA_STATUS. -/
abbrev rDmaStatus : Nat := 0x50000
/-- DMA_BLOCKS. -/
abbrev rDmaBlocks : Nat := 0x50008
/-- CDC_TBL, instance i. -/
abbrev rCdcTbl (i : Nat) : Nat := 0x58000 + 0x4 * i
/-- CDC_CMD, instance i. -/
abbrev rCdcCmd (i : Nat) : Nat := 0x58400 + 0x4 * i
/-- CDC_RESULT, instance i. -/
abbrev rCdcResult (i : Nat) : Nat := 0x58440 + 0x4 * i
/-- CDC_SURVEY, instance i. -/
abbrev rCdcSurvey (i : Nat) : Nat := 0x58480 + 0x8 * i
/-- CDC_BLOCKS, instance i, j. -/
abbrev rCdcBlocks (i j : Nat) : Nat := 0x58500 + 0x10 * i + 0x8 * j
/-- CDC_STAGE, instance i, j. -/
abbrev rCdcStage (i j : Nat) : Nat := 0x59000 + 0x100 * i + 0x4 * j
/-- IBN_P_STATE, instance i. -/
abbrev rIbnPState (i : Nat) : Nat := 0x60000 + 0x1000 * i
/-- IBN_P_NEIGH, instance i. -/
abbrev rIbnPNeigh (i : Nat) : Nat := 0x60004 + 0x1000 * i
/-- IBN_P_CTRL, instance i. -/
abbrev rIbnPCtrl (i : Nat) : Nat := 0x60008 + 0x1000 * i
/-- IBN_P_DELAY, instance i. -/
abbrev rIbnPDelay (i : Nat) : Nat := 0x6000C + 0x1000 * i
/-- IBN_P_CNT, instance i, j. -/
abbrev rIbnPCnt (i j : Nat) : Nat := 0x60010 + 0x1000 * i + 0x8 * j
/-- IBN_TIME. -/
abbrev rIbnTime : Nat := 0x70000
/-- IBN_MARK. -/
abbrev rIbnMark : Nat := 0x70008
/-- IBN_CFG. -/
abbrev rIbnCfg : Nat := 0x70010
/-- IBN_REACH. -/
abbrev rIbnReach : Nat := 0x70014
/-- IBN_FLOWS. -/
abbrev rIbnFlows : Nat := 0x70018
/-- IBN_FLOW_RESET, instance i. -/
abbrev rIbnFlowReset (i : Nat) : Nat := 0x70200 + 0x8 * i
/-- IBN_FLOW_RESULT, instance i. -/
abbrev rIbnFlowResult (i : Nat) : Nat := 0x70204 + 0x8 * i
/-- IBN_ACT_TX, instance i. -/
abbrev rIbnActTx (i : Nat) : Nat := 0x71000 + 0x10 * i
/-- IBN_ACT_RX, instance i. -/
abbrev rIbnActRx (i : Nat) : Nat := 0x71008 + 0x10 * i
/-- IBN_ROUTE, instance i. -/
abbrev rIbnRoute (i : Nat) : Nat := 0x74000 + 0x4 * i
/-- RNK_CMD, instance i. -/
abbrev rRnkCmd (i : Nat) : Nat := 0x80000 + 0x400 * i
/-- RNK_ARG, instance i. -/
abbrev rRnkArg (i : Nat) : Nat := 0x80008 + 0x400 * i
/-- RNK_SUBMIT, instance i. -/
abbrev rRnkSubmit (i : Nat) : Nat := 0x80010 + 0x400 * i
/-- RNK_STATUS, instance i. -/
abbrev rRnkStatus (i : Nat) : Nat := 0x80018 + 0x400 * i
/-- RNK_GRP, instance i, j. -/
abbrev rRnkGrp (i j : Nat) : Nat := 0x80100 + 0x400 * i + 0x10 * j
/-- RNK_DONE, instance i, j. -/
abbrev rRnkDone (i j : Nat) : Nat := 0x80108 + 0x400 * i + 0x10 * j
/-- RNK_RESULT, instance i, j. -/
abbrev rRnkResult (i j : Nat) : Nat := 0x80200 + 0x400 * i + 0x4 * j
/-- SRV_CFG, instance i. -/
abbrev rSrvCfg (i : Nat) : Nat := 0x90000 + 0x400 * i
/-- SRV_STATE, instance i. -/
abbrev rSrvState (i : Nat) : Nat := 0x90008 + 0x400 * i
/-- SRV_STEP, instance i. -/
abbrev rSrvStep (i : Nat) : Nat := 0x90010 + 0x400 * i
/-- SRV_MISS, instance i. -/
abbrev rSrvMiss (i : Nat) : Nat := 0x90018 + 0x400 * i
/-- SRV_PFX, instance i. -/
abbrev rSrvPfx (i : Nat) : Nat := 0x90020 + 0x400 * i
/-- SRV_KEY, instance i, j. -/
abbrev rSrvKey (i j : Nat) : Nat := 0x90028 + 0x400 * i + 0x8 * j
/-- SRV_TOKENS, instance i. -/
abbrev rSrvTokens (i : Nat) : Nat := 0x90038 + 0x400 * i
/-- SRV_VIEW, instance i. -/
abbrev rSrvView (i : Nat) : Nat := 0x90440 + 0x400 * i
/-- SRV_RESETS. -/
abbrev rSrvResets : Nat := 0x94000
/-- WHF_CFG. -/
abbrev rWhfCfg : Nat := 0xA0000
/-- WHF_STATUS. -/
abbrev rWhfStatus : Nat := 0xA0004
/-- WHF_DRV_SQDB, instance i. -/
abbrev rWhfDrvSqdb (i : Nat) : Nat := 0xA0100 + 0x40 * i
/-- WHF_DRV_CQDB, instance i. -/
abbrev rWhfDrvCqdb (i : Nat) : Nat := 0xA0108 + 0x40 * i
/-- WHF_DRV_CTRL, instance i. -/
abbrev rWhfDrvCtrl (i : Nat) : Nat := 0xA0110 + 0x40 * i
/-- WHF_DRV_NSID, instance i. -/
abbrev rWhfDrvNsid (i : Nat) : Nat := 0xA0114 + 0x40 * i
/-- WHF_DRV_CMD, instance i. -/
abbrev rWhfDrvCmd (i : Nat) : Nat := 0xA0118 + 0x40 * i
/-- WHF_DRV_STATUS, instance i. -/
abbrev rWhfDrvStatus (i : Nat) : Nat := 0xA011C + 0x40 * i
/-- WHF_DRV_DONE, instance i. -/
abbrev rWhfDrvDone (i : Nat) : Nat := 0xA0120 + 0x40 * i
/-- WHF_DRV_ERRORS, instance i. -/
abbrev rWhfDrvErrors (i : Nat) : Nat := 0xA0128 + 0x40 * i
/-- WHF_SET_CFG, instance i. -/
abbrev rWhfSetCfg (i : Nat) : Nat := 0xA1000 + 0x100 * i
/-- WHF_SET_STATE, instance i. -/
abbrev rWhfSetState (i : Nat) : Nat := 0xA1004 + 0x100 * i
/-- WHF_SET_EPOCH, instance i. -/
abbrev rWhfSetEpoch (i : Nat) : Nat := 0xA1008 + 0x100 * i
/-- WHF_SET_PROGRESS, instance i. -/
abbrev rWhfSetProgress (i : Nat) : Nat := 0xA1010 + 0x100 * i
/-- WHF_SET_COMMIT_TICK, instance i. -/
abbrev rWhfSetCommitTick (i : Nat) : Nat := 0xA1018 + 0x100 * i
/-- WHF_SET_STALLS, instance i. -/
abbrev rWhfSetStalls (i : Nat) : Nat := 0xA1020 + 0x100 * i
/-- WHF_SET_CTRL, instance i. -/
abbrev rWhfSetCtrl (i : Nat) : Nat := 0xA1028 + 0x100 * i
/-- WHF_SET_AREA, instance i, j. -/
abbrev rWhfSetArea (i j : Nat) : Nat := 0xA1040 + 0x100 * i + 0x8 * j
/-- WHF_SET_RING, instance i, j. -/
abbrev rWhfSetRing (i j : Nat) : Nat := 0xA10C0 + 0x100 * i + 0x8 * j
/-- WHF_GRANT, instance i, j. -/
abbrev rWhfGrant (i j : Nat) : Nat := 0xA3000 + 0x100 * i + 0x8 * j
/-- MTR_STATUS. -/
abbrev rMtrStatus : Nat := 0xB0000
/-- MTR_CFG. -/
abbrev rMtrCfg : Nat := 0xB0004
/-- MTR_WIN. -/
abbrev rMtrWin : Nat := 0xB0008
/-- MTR_WIN_TICK. -/
abbrev rMtrWinTick : Nat := 0xB0010
/-- MTR_FREQ. -/
abbrev rMtrFreq : Nat := 0xB0018
/-- MTR_TEMP. -/
abbrev rMtrTemp : Nat := 0xB001C
/-- MTR_TOT, instance i. -/
abbrev rMtrTot (i : Nat) : Nat := 0xB0020 + 0x4 * i
/-- MTR_PH, instance i, j. -/
abbrev rMtrPh (i j : Nat) : Nat := 0xB0040 + 0x10 * i + 0x4 * j
/-- MTR_CH, instance i, j. -/
abbrev rMtrCh (i j : Nat) : Nat := 0xB0100 + 0x80 * i + 0x4 * j
/-- MTR_CH_FACT, instance i, j. -/
abbrev rMtrChFact (i j : Nat) : Nat := 0xB0110 + 0x80 * i + 0x4 * j
/-- MTR_CH_IMG, instance i, j. -/
abbrev rMtrChImg (i j : Nat) : Nat := 0xB0120 + 0x80 * i + 0x4 * j
/-- MTR_CH_RUN, instance i, j. -/
abbrev rMtrChRun (i j : Nat) : Nat := 0xB0130 + 0x80 * i + 0x4 * j
/-- MTR_CH_EFF, instance i, j. -/
abbrev rMtrChEff (i j : Nat) : Nat := 0xB0140 + 0x80 * i + 0x4 * j
/-- MTR_CH_CALCNT, instance i. -/
abbrev rMtrChCalcnt (i : Nat) : Nat := 0xB0150 + 0x80 * i
/-- MTR_CH_CALTICK, instance i, j. -/
abbrev rMtrChCaltick (i j : Nat) : Nat := 0xB0158 + 0x80 * i + 0x8 * j
/-- MTR_E, instance i. -/
abbrev rMtrE (i : Nat) : Nat := 0xB0500 + 0x8 * i
/-- MTR_RES, instance i. -/
abbrev rMtrRes (i : Nat) : Nat := 0xB0540 + 0x4 * i
/-- MTR_CF_CFG. -/
abbrev rMtrCfCfg : Nat := 0xB0600
/-- MTR_CF_COUNT. -/
abbrev rMtrCfCount : Nat := 0xB0608
/-- MTR_CF_QUEUE. -/
abbrev rMtrCfQueue : Nat := 0xB0610
/-- MTR_CF_FRAC. -/
abbrev rMtrCfFrac : Nat := 0xB0614
/-- MTR_PIN_CFG, instance i. -/
abbrev rMtrPinCfg (i : Nat) : Nat := 0xB0680 + 0x20 * i
/-- MTR_PIN_COUNT, instance i. -/
abbrev rMtrPinCount (i : Nat) : Nat := 0xB0688 + 0x20 * i
/-- MTR_PIN_DEV, instance i. -/
abbrev rMtrPinDev (i : Nat) : Nat := 0xB0690 + 0x20 * i
/-- MTR_PIN_XCHECK, instance i. -/
abbrev rMtrPinXcheck (i : Nat) : Nat := 0xB0694 + 0x20 * i
/-- MTR_THR, instance i. -/
abbrev rMtrThr (i : Nat) : Nat := 0xB0700 + 0x4 * i
/-- MTR_CAL_STAGE, instance i. -/
abbrev rMtrCalStage (i : Nat) : Nat := 0xB0800 + 0x4 * i
/-- MTR_CAL_CMD. -/
abbrev rMtrCalCmd : Nat := 0xB0810
/-- MTR_CAL_RESULT. -/
abbrev rMtrCalResult : Nat := 0xB0814
/-- MTR_CAL_MEAS, instance i. -/
abbrev rMtrCalMeas (i : Nat) : Nat := 0xB0818 + 0x8 * i
/-- MTR_CH_CTRL. -/
abbrev rMtrChCtrl : Nat := 0xB0840
/-- MTR_TAMPER. -/
abbrev rMtrTamper : Nat := 0xB0880
/-- MTR_TAMPER_STATUS. -/
abbrev rMtrTamperStatus : Nat := 0xB0888
/-- MTR_HARM, instance i, j. -/
abbrev rMtrHarm (i j : Nat) : Nat := 0xB1000 + 0x80 * i + 0x4 * j
/-- MTR_EVT, instance i, j. -/
abbrev rMtrEvt (i j : Nat) : Nat := 0xB2000 + 0x20 * i + 0x8 * j
/-- MTR_EVT_HEAD. -/
abbrev rMtrEvtHead : Nat := 0xB2800
/-- MTR_TTAB, instance i, j. -/
abbrev rMtrTtab (i j : Nat) : Nat := 0xB3000 + 0x40 * i + 0x8 * j
/-- TOL_STATUS. -/
abbrev rTolStatus : Nat := 0xC0000
/-- TOL_CMD. -/
abbrev rTolCmd : Nat := 0xC0004
/-- TOL_SNAP_STATUS. -/
abbrev rTolSnapStatus : Nat := 0xC0008
/-- TOL_PENDING. -/
abbrev rTolPending : Nat := 0xC0010
/-- TOL_W, instance i. -/
abbrev rTolW (i : Nat) : Nat := 0xC0040 + 0x4 * i
/-- TOL_MD_CFG. -/
abbrev rTolMdCfg : Nat := 0xC0060
/-- TOL_CAL_CMD. -/
abbrev rTolCalCmd : Nat := 0xC0064
/-- TOL_CAL_STATUS. -/
abbrev rTolCalStatus : Nat := 0xC0068
/-- TOL_CAL_ACTIVE, instance i. -/
abbrev rTolCalActive (i : Nat) : Nat := 0xC006C + 0x4 * i
/-- TOL_CAL_ACT. -/
abbrev rTolCalAct : Nat := 0xC0078
/-- TOL_JRN. -/
abbrev rTolJrn : Nat := 0xC0080
/-- TOL_JRN_LAST. -/
abbrev rTolJrnLast : Nat := 0xC0088
/-- TOL_RPT, instance i. -/
abbrev rTolRpt (i : Nat) : Nat := 0xC00C0 + 0x8 * i
/-- TOL_TRAY, instance i, j. -/
abbrev rTolTray (i j : Nat) : Nat := 0xC0100 + 0x48 * i + 0x8 * j
/-- TOL_BASIN, instance i, j. -/
abbrev rTolBasin (i j : Nat) : Nat := 0xC0400 + 0x48 * i + 0x8 * j
/-- TOL_RES, instance i. -/
abbrev rTolRes (i : Nat) : Nat := 0xC0900 + 0x8 * i
/-- TOL_MD, instance i, j. -/
abbrev rTolMd (i j : Nat) : Nat := 0xC0A00 + 0x90 * i + 0x8 * j
/-- TOL_GAP, instance i, j. -/
abbrev rTolGap (i j : Nat) : Nat := 0xC0C00 + 0x20 * i + 0x8 * j
/-- TOL_PUBKEY, instance i. -/
abbrev rTolPubkey (i : Nat) : Nat := 0xC0E00 + 0x4 * i
/-- TOL_SNAP, instance i. -/
abbrev rTolSnap (i : Nat) : Nat := 0xC1000 + 0x4 * i
/-- TOL_ARCH, instance i, j. -/
abbrev rTolArch (i j : Nat) : Nat := 0xC4000 + 0xA80 * i + 0x4 * j
/-- TOL_CAL_STAGE, instance i. -/
abbrev rTolCalStage (i : Nat) : Nat := 0xCC000 + 0x4 * i
/-- LCD_CFG. -/
abbrev rLcdCfg : Nat := 0xD0000
/-- LCD_STATUS. -/
abbrev rLcdStatus : Nat := 0xD0004
/-- LCD_PAGE, instance i. -/
abbrev rLcdPage (i : Nat) : Nat := 0xD0010 + 0x4 * i
/-- LCD_CTRL. -/
abbrev rLcdCtrl : Nat := 0xD0050
/-- LCD_HOLD. -/
abbrev rLcdHold : Nat := 0xD0054
/-- LCD_SEG_RAM, instance i. -/
abbrev rLcdSegRam (i : Nat) : Nat := 0xD0060 + 0x4 * i
/-- CAL_BG. -/
abbrev rCalBg : Nat := 0xE0004
/-- CAL_IRO_FACT. -/
abbrev rCalIroFact : Nat := 0xE0008
/-- CAL_TS, instance i. -/
abbrev rCalTs (i : Nat) : Nat := 0xE0100 + 0x8 * i
/-- CAL_TILE, instance i. -/
abbrev rCalTile (i : Nat) : Nat := 0xE0600 + 0x4 * i
/-- CAL_REC, instance i, j. -/
abbrev rCalRec (i j : Nat) : Nat := 0xE1000 + 0x20 * i + 0x4 * j
/-- CAL_REC_TIME, instance i, j. -/
abbrev rCalRecTime (i j : Nat) : Nat := 0xE1008 + 0x20 * i + 0x8 * j
/-- FLT_CTRL. -/
abbrev rFltCtrl : Nat := 0xF0000
/-- FLT_STATUS. -/
abbrev rFltStatus : Nat := 0xF0004
/-- FLT_RELEASE. -/
abbrev rFltRelease : Nat := 0xF0010
/-- FLT_TRIP, instance i. -/
abbrev rFltTrip (i : Nat) : Nat := 0xF0100 + 0x4 * i
/-- FLT_WIRE, instance i. -/
abbrev rFltWire (i : Nat) : Nat := 0xF0120 + 0x4 * i
/-- FLT_FORCE, instance i. -/
abbrev rFltForce (i : Nat) : Nat := 0xF0140 + 0x4 * i
/-- FLT_MODE. -/
abbrev rFltMode : Nat := 0xF0160
/-- FLT_PIN, instance i. -/
abbrev rFltPin (i : Nat) : Nat := 0xF0180 + 0x4 * i
/-- FLT_SRC, instance i. -/
abbrev rFltSrc (i : Nat) : Nat := 0xF0400 + 0x4 * i
/-- FLT_EVENTS, instance i. -/
abbrev rFltEvents (i : Nat) : Nat := 0xF0800 + 0x4 * i
/-- FLT_CAP, instance i, j. -/
abbrev rFltCap (i j : Nat) : Nat := 0xF1000 + 0x20 * i + 0x8 * j
/-- FLT_CAP_STAT, instance i. -/
abbrev rFltCapStat (i : Nat) : Nat := 0xF1010 + 0x20 * i
/-- FLT_CAP_CMD, instance i. -/
abbrev rFltCapCmd (i : Nat) : Nat := 0xF1014 + 0x20 * i
/-- STP_CFG. -/
abbrev rStpCfg : Nat := 0x100000
/-- STP_STATUS. -/
abbrev rStpStatus : Nat := 0x100004
/-- STP_NEXT_TILE. -/
abbrev rStpNextTile : Nat := 0x100008
/-- STP_TAKEN. -/
abbrev rStpTaken : Nat := 0x100010
/-- STP_SKIPPED. -/
abbrev rStpSkipped : Nat := 0x100018
/-- STP_MAX_DEFER. -/
abbrev rStpMaxDefer : Nat := 0x100020
/-- STP_BATT. -/
abbrev rStpBatt : Nat := 0x100028
/-- STP_BATT_RTC. -/
abbrev rStpBattRtc : Nat := 0x100030
/-- PCI_LINK. -/
abbrev rPciLink : Nat := 0x110000
/-- PCI_OUT_HI. -/
abbrev rPciOutHi : Nat := 0x110008
/-- PCI_P2P_RID, instance i. -/
abbrev rPciP2pRid (i : Nat) : Nat := 0x110040 + 0x4 * i
/-- PCI_ERR. -/
abbrev rPciErr : Nat := 0x110080
/-- PCI_FLR. -/
abbrev rPciFlr : Nat := 0x110088
/-- BRD_STRAP. -/
abbrev rBrdStrap : Nat := 0x111000
/-- BRD_PWR. -/
abbrev rBrdPwr : Nat := 0x111004
/-- BRD_GPIO. -/
abbrev rBrdGpio : Nat := 0x111008
/-- BRD_SPI. -/
abbrev rBrdSpi : Nat := 0x111010
/-- BRD_PMB. -/
abbrev rBrdPmb : Nat := 0x111018
/-- BRD_I2C. -/
abbrev rBrdI2c : Nat := 0x111020
/-- IMG_STATUS. -/
abbrev rImgStatus : Nat := 0x120000
/-- IMG_SEQ. -/
abbrev rImgSeq : Nat := 0x120008
/-- IMG_SVN. -/
abbrev rImgSvn : Nat := 0x120010
/-- IMG_FAIL_A. -/
abbrev rImgFailA : Nat := 0x120018
/-- IMG_FAIL_B. -/
abbrev rImgFailB : Nat := 0x120020
/-- IMG_SERIAL. -/
abbrev rImgSerial : Nat := 0x120028
/-- IMG_OPEN_TICK. -/
abbrev rImgOpenTick : Nat := 0x120030
/-- IMG_DIGEST, instance i. -/
abbrev rImgDigest (i : Nat) : Nat := 0x120040 + 0x4 * i
/-- IMG_OWNER, instance i. -/
abbrev rImgOwner (i : Nat) : Nat := 0x120060 + 0x4 * i
/-- IMG_PROVISION. -/
abbrev rImgProvision : Nat := 0x120080
/-- IMG_PROV_RESULT. -/
abbrev rImgProvResult : Nat := 0x120084
/-- IMG_SELFTEST. -/
abbrev rImgSelftest : Nat := 0x120088
/-- IMG_FLASH_ADDR. -/
abbrev rImgFlashAddr : Nat := 0x120090
/-- IMG_FLASH_CMD. -/
abbrev rImgFlashCmd : Nat := 0x120094
/-- IMG_FLASH_STATUS. -/
abbrev rImgFlashStatus : Nat := 0x120098
/-- IMG_FLASH_BUF, instance i. -/
abbrev rImgFlashBuf (i : Nat) : Nat := 0x121000 + 0x4 * i
/-- REQ_TABLE, instance i, j. -/
abbrev rReqTable (i j : Nat) : Nat := 0x200000 + 0x80 * i + 0x8 * j

end Sys2Proof.Machine
end

