-- ==== Sys2Proof/Machine/Types.lean ====
section
/-!
DEFINITION. The plain data that commands carry from outside the device and that the device's engines hold.
-/
namespace Sys2Proof.Machine

/-- Sparse data by key: keys strictly rising (the canonical form, so that equal contents are equal lists). -/
abbrev Map (α : Type) := List (Nat × α)

/-- What a sector check finds on a read (R150 to R152). -/
inductive EccKind where
  | correctable | uncorrectable | address
deriving DecidableEq, Repr

/-- An error that a sector check finds: the 32 B sector's address, the kind, and the stack location that the mapping of
addresses gives it (R158). The mapping is internal to the device, so the event names the place. -/
structure EccEvent where
  sector : Nat
  kind : EccKind
  chan : Nat := 0
  pseudo : Nat := 0
  bank : Nat := 0
  row : Nat := 0
deriving DecidableEq, Repr

/-- What an outbound PCIe read brings back (R608): data, a completion with a status other than Successful, or a poisoned
TLP. -/
inductive HostRead where
  | data (bytes : List Byte)
  | error
  | poisoned
deriving DecidableEq, Repr

/-- Who reads over PCIe: the SQ fetch of a queue, a block of a copy engine, or a READ_REQ barge held under a number. -/
inductive ReadUser where
  | sq (q : Nat)
  | copy (e : Nat)
  | barge (k : Nat)
deriving DecidableEq, Repr

/-- An outbound read in flight or brought back: its user, the tick it was issued, and what has arrived. -/
structure OutRead where
  user : ReadUser
  tick : Nat
  got : Option HostRead := none
deriving DecidableEq, Repr

/-- What the hardware reports of an operator's execution: the handshakes it made (R91), the sector errors its reads and writes
met, the tile faults: POUND_PARITY 0x00, TILE_SRAM_CE 0x04 and TILE_SRAM_UE 0x05, with their tiles, and the output elements (tensor
and index) that rest on a pound with a parity mismatch (R76). -/
structure OpReport where
  mx : Nat := 0
  vx : Nat := 0
  es : List EccEvent := []
  faults : List (Nat × Nat) := []
  hit : List (Nat × Nat) := []
deriving DecidableEq, Repr

/-! ### The toll journal (chapter 14) -/

/-- What waits for a journal record to be committed to flash (R472, R493, R501). -/
inductive JTag where
  | none
  | calendar
  | meterCal
  | carry
deriving DecidableEq, Repr

/-- A journal record that the device has formed and not yet written whole (Tables 14.5 and 14.6). -/
structure JReq where
  typ : Nat
  reason : Nat := 0
  body : List Byte
  tag : JTag := .none
deriving DecidableEq, Repr

/-! ### The wharf (chapter 11) -/

/-- A tensor of a checkpoint set (Table 11.1): address, type and sizes of the local shard, and its place in the whole. -/
structure WTensor where
  addr : Nat
  etype : Nat
  ndim : Nat
  sizes : List Nat
  gid : Nat
  gsize : List Nat
  boxOff : List Nat
deriving DecidableEq, Repr

/-- What DEFINE_SET fixes of a set (R376, R377). -/
structure SetDef where
  archiveId : Nat := 0
  user : List Byte := []
  tensors : List WTensor := []
  metaAddr : Nat := 0
  cowAddr : Nat := 0
  cowPages : Nat := 0
  compress : Bool := false
  table : Nat := 0
  lens : List Nat := []
deriving DecidableEq, Repr

/-- An epoch under way (R385 to R394): the entry's queue, kind, wait with its marks and start, number, the next extent's number, the status that has
stopped it, how far the commit is (0 streaming, 1 manifest, 2 first flush, 3 superblocks, 4 second flush), the manifest bytes
written and its first LBA, whether a superblock has been issued, the tick of commit step 3, and whether the entry has already
completed. -/
structure EpochRun where
  q : Nat
  kind : Nat
  gate : Nat
  value : Nat
  limit : Nat
  marks : Nat := 0
  since : Nat := 0
  number : Nat := 0
  next : Nat := 0
  fail : Option Nat := none
  stage : Nat := 0
  manPos : Nat := 0
  manLba : Nat := 0
  issued : Bool := false
  tick : Nat := 0
  posted : Bool := false
deriving DecidableEq, Repr

/-- A superblock read from a source or drive index (Table 11.5). -/
structure Super where
  source : Nat
  bytes : List Byte
deriving DecidableEq, Repr

/-- A DEFINE_SET with ADOPT that reads superblocks (R376 step 8): drive index and relative LBA still to be read. -/
structure AdoptRun where
  q : Nat
  defn : SetDef
  toRead : List (Nat × Nat)
  supers : List Super := []
  fail : Option Nat := none
  posted : Bool := false
deriving DecidableEq, Repr

/-- An extent still to be read by a restore: its tensor record, the set tensor, its number within the record, and its extent
record (Table 11.6). -/
structure WantExtent where
  record : Nat
  tensor : Nat
  ext : Nat
  drive : Nat
  lbas : Nat
  stored : Nat
  lba : Nat
  epoch : Nat
  crc : Nat
deriving DecidableEq, Repr

/-- A restore under way (R400 to R404): the entry's queue, its fields, the superblocks read and still to be read, the epochs
still to be tried, the manifest as far as it is read with the superblock that names it, how far the restore is (0 superblocks,
1 manifest, 2 extents), the extents still to be applied in their order, those applied, the extent that has been read and waits to be applied with its
buffer, the status that has stopped it, and whether the entry has already completed. -/
structure RestoreRun where
  q : Nat
  flags : Nat
  named : Nat
  sources : List (Nat × Nat)
  scratch : Nat
  supers : List Super := []
  toRead : List (Nat × Nat) := []
  cands : List Nat := []
  man : List Byte := []
  manSb : List Byte := []
  stage : Nat := 0
  want : List WantExtent := []
  applied : Nat := 0
  got : Option (List Byte × Nat) := none
  fail : Option Nat := none
  posted : Bool := false
deriving DecidableEq, Repr

/-- A checkpoint set behind its card: its definition, the dirty pages and the armed pages that streaming has not read (64 KiB
page numbers, the armed ones in streaming order), the copy-on-write copies in the order they were made (page, copy page), the
pages a write has found no copy page for, the next epoch's number, the committed WPTR and TAIL of each drive slot, the drive
slots that the last committed manifest references, and what runs on it. `undo` tells that the set becomes UNDEFINED once its
commands have completed. -/
structure WSet where
  defn : SetDef := {}
  dirty : List Nat := []
  armed : List Nat := []
  copies : List (Nat × Nat) := []
  stalled : List Nat := []
  nextEpoch : Nat := 1
  committed : Map (Nat × Nat) := []
  refs : List Nat := []
  epoch : Option EpochRun := none
  restore : Option RestoreRun := none
  adopt : Option AdoptRun := none
  undo : Bool := false
deriving DecidableEq, Repr

/-- What a drive command serves. An extent names its page, tensor, record, buffer, and the address that it was read from. -/
inductive DrvRole where
  | extent (set page tensor ext buf src : Nat)
  | manifest (set : Nat)
  | flush (set : Nat)
  | superblock (set : Nat)
  | readSuper (set source which : Nat)
  | readManifest (set : Nat)
  | readExtent (set buf : Nat)
deriving DecidableEq, Repr

/-- A drive command outstanding: identifier, opcode, first LBA, LBA count, BAR4 offset of its buffer, sends so far, the tick
of its submission, what it serves, and whether its transfer is to be made again (R406). -/
structure DrvCmd where
  cid : Nat
  op : Nat
  slba : Nat
  nlb : Nat
  buf : Nat
  sends : Nat
  tick : Nat
  role : DrvRole
  again : Bool := false
deriving DecidableEq, Repr

/-- A drive slot behind its card: ring indices, the phase expected next, and the commands outstanding. -/
structure Drive where
  sqTail : Nat := 0
  sqHead : Nat := 0
  cqHead : Nat := 0
  phase : Bool := true
  cmds : List DrvCmd := []
deriving DecidableEq, Repr

/-- The wharf engine: its sets and drives, the staging buffers in use, those quarantined with the drive they belong to, the
set that holds the manifest and superblock buffer, and the bytes of the wharf memories by BAR4 offset (Table 11.2). -/
structure Wharf where
  sets : Map WSet := []
  drives : Map Drive := []
  inUse : List Nat := []
  quarantined : Map Nat := []
  manifest : Option Nat := none
  sram : Map Byte := []
deriving DecidableEq, Repr

/-! ### The fabric (chapter 08) -/

/-- A barge (Table 8.4): header bytes [63:8] as a little-endian number, payload, and the hops taken so far. -/
structure Barge where
  hdr : Nat
  payload : List Byte := []
  hops : Nat := 0
deriving DecidableEq, Repr

/-- A barge in a port's replay buffer (R261): its LSEQ, how often it has been sent, the tick of its last sending, and whether it
waits to be resent (R263). -/
structure Replay where
  lseq : Nat
  barge : Barge
  sends : Nat := 1
  tick : Nat := 0
  again : Bool := false
deriving DecidableEq, Repr

/-- A barge that waits for an output port, with the port it came in by (16: this chip). -/
structure Waiting where
  input : Nat
  barge : Barge
deriving DecidableEq, Repr

/-- A port behind its card: what the image gives it (R244), the training under way, the link's sequence numbers and replay
buffer (R261), the credits held at the neighbour per class (R257), the barges that wait with the class arbiter's turn (R258)
and the TOWPATH slots taken in this mark interval (R259), a LANES exchange under way (R248: the new mask and CW_SEQ), ticks of
retrains (R294), lanes left out of the last training and of the one before (R293), the last link-delay exchanges and the largest PING value received
(R284, R428), whether this training has sent its HELLO (R245), the winding hole's mode (0 none, 1 INTERNAL, 2 EXTERNAL), whether
EXTERNAL has seen its own HELLO, the state of the PRBS31 generator and the TEST payload under way (R249), and whether the port is
retired (R294). -/
structure Port where
  enabled : Bool := false
  presets : Nat := 0
  since : Nat := 0
  leftOut : Nat := 0
  badAdapt : Nat := 0
  txSeq : Nat := 0
  replay : List Replay := []
  rxSeq : Nat := 0
  credits : List Nat := [8, 8, 8, 8]
  outQ : List Waiting := []
  turnClass : Nat := 3
  turnUsed : Nat := 0
  lastInput : List Nat := [16, 16, 16, 16]
  towSlots : Nat := 0
  lanes : Option (Nat × Nat) := none
  retrains : List Nat := []
  delays : List Nat := []
  ping : Nat := 0
  helloSent : Bool := false
  wind : Nat := 0
  windOk : Bool := false
  prbs : Nat := 2 ^ 31 - 1
  windSent : List Byte := []
  retired : Bool := false
deriving DecidableEq, Repr

/-- A barge of a source flow that has no final answer (R269): its FLOW_SEQ, header without OPENS and PATH, payload, whether it
has been sent, the tick of its last sending, its PATH, and the answer it has had (256: ACK_TIMEOUT). -/
structure OutBarge where
  seq : Nat
  hdr : Nat
  payload : List Byte
  sent : Bool := false
  tick : Nat := 0
  path : Nat := 0
  answer : Option Nat := none
deriving DecidableEq, Repr

/-- A source flow (R269): state 0 OPEN, 1 FENCED, 2 BROKEN. -/
structure SrcFlow where
  state : Nat := 0
  gen : Nat := 0
  next : Nat := 0
  path : Nat := 0
  outs : List OutBarge := []
deriving DecidableEq, Repr

/-- A destination flow (R271): BROKEN, generation, the FLOW_SEQ expected, and the tick of its last barge. -/
structure DstFlow where
  broken : Bool
  gen : Nat
  expect : Nat
  tick : Nat
deriving DecidableEq, Repr

/-- What a source flow tells its user: the flow, the FLOW_SEQ, and how the barge ended: 0 OK, FLOW_BROKEN or REMOTE_REFUSED. -/
structure FlowEvent where
  flow : Nat
  gen : Nat
  seq : Nat
  status : Nat
deriving DecidableEq, Repr

/-- A PATH_DOWN of a transit hop whose flow is not yet known (R266, R276): SRC_QUEUE, CLASS, FLOW_GEN and FLOW_SEQ of the barge. -/
structure TransitDown where
  queue : Nat
  cls : Nat
  gen : Nat
  seq : Nat
deriving DecidableEq, Repr

/-- A barge delivered to this chip whose kind is still to be performed, with its input port. -/
abbrev Inbox := List Waiting

/-- The fabric behind its registers: ports, source flows keyed by (queue × 4,096 + destination) × 4 + class, destination flows
keyed by (source chip × 512 + queue) × 4 + class, barges delivered and not yet performed, what flows owe their users, the
counts of stale and duplicate barges (R271), the master's and the toll master's chip ids, the time parents (R283), the tick of
the last accepted mark and how many recent errors were small (R285 to R288), the slew still to be made good, the chips admitted
(R290), the join agent's last tick and whether it has its answer, the tick at which the first port went UP (R428), and the READ_REQ barges
whose bytes come over PCIe. -/
structure Fabric where
  ports : Map Port := []
  src : Map SrcFlow := []
  dst : Map DstFlow := []
  inbox : Inbox := []
  events : List FlowEvent := []
  stale : Nat := 0
  dup : Nat := 0
  master : Nat := 0
  tollMaster : Nat := 0
  parents : List Nat := []
  follows : Option Nat := none
  lastMark : Nat := 0
  holdTick : Nat := 0
  smallErrs : Nat := 0
  slew : Int := 0
  slewTick : Nat := 0
  admitted : Map Nat := []
  joinTick : Option Nat := none
  joined : Bool := false
  firstUp : Option Nat := none
  reading : Map Barge := []
  transit : List TransitDown := []
  manage : List (Nat × Nat × List Byte) := []
deriving DecidableEq, Repr

/-! ### The rank engine (chapter 09) -/

/-- A rank's collective that has a COLL_SEQ and has not completed (R313, R316): its virtual slot, number, descriptor, the seed it
captured, whether it is past its accept stage, and the status it ends with once that is known. -/
structure RankColl where
  vslot : Nat
  seq : Nat
  desc : Nat
  seed : Nat := 0
  accepted : Bool := false
  fin : Option Nat := none
deriving DecidableEq, Repr

/-- Elements on their way through the tree: FORMAT (Table 9.4), index of the first, and their bits. -/
structure RankData where
  fmt : Nat := 3
  base : Nat := 0
  elems : List Nat := []
deriving DecidableEq, Repr

/-- A collective instance as this chip sees it (R313 to R320): OP, REDOP and NODE_MODE as ARG byte [7] spells them; the values of
nodes, keyed by level × 32,768 + index; the contributions of remote children received in part; the levels of the local nodes
that have sent READY; whether the parent's READY has come; the nodes that have sent their contribution up; the outcome as far as it has
come down, and whole; the failing status; what the chip waits for, with marks and start (R326); the local ranks completed. -/
structure RankInst where
  ops : Nat := 0
  vals : Map RankData := []
  parts : Map RankData := []
  ready : List Nat := []
  parentReady : Bool := false
  sent : List Nat := []
  down : Option RankData := none
  outcome : Option RankData := none
  fail : Option Nat := none
  waits : Map (Nat × Nat) := []
  done : Nat := 0
deriving DecidableEq, Repr

/-- A rank group behind RNK_GRP_b_g (R297, R313): TIMEOUT, the rank map, each virtual slot's next COLL_SEQ, the collectives that
have not completed, in submission order, and the instances by COLL_SEQ. -/
structure RankGrp where
  timeout : Nat := 0
  map : List Nat := []
  counts : List Nat := []
  colls : List RankColl := []
  insts : Map RankInst := []
deriving DecidableEq, Repr

/-- The descriptor of a basin that is in its wait or accept stage (R312). -/
structure RankCur where
  desc : Nat
  group : Nat
  vslot : Nat
  seq : Nat
  marks : Nat := 0
  since : Nat := 0
deriving DecidableEq, Repr

/-- A REDUCE_PART to be sent, and the instance it belongs to. -/
structure RankMsg where
  dest : Nat
  arg : Nat
  addr : Nat
  payload : List Byte
  group : Nat
  coll : Nat
deriving DecidableEq, Repr

/-- A REDUCE_PART sent and not yet answered: its destination and FLOW_SEQ, and its instance. -/
structure RankAck where
  dest : Nat
  seq : Nat
  group : Nat
  coll : Nat
deriving DecidableEq, Repr

/-- A node sum on the tiles (R302): the node of its instance, the tile it has been granted, and a tile fault that has reached it (R76). -/
structure RankSum where
  group : Nat
  coll : Nat
  level : Nat
  index : Nat
  tile : Option Nat := none
  faulted : Bool := false
deriving DecidableEq, Repr

/-- A basin's part of the rank engine: the submission FIFO, the descriptor under way, its barges, and the node sums that wait for a tile
or run on one. -/
structure RankBasin where
  fifo : List Nat := []
  cur : Option RankCur := none
  out : List RankMsg := []
  acks : List RankAck := []
  sums : List RankSum := []
deriving DecidableEq, Repr

/-- The rank engine: basins, and groups keyed by 16 × basin + slot. -/
structure Ranks where
  basins : Map RankBasin := []
  groups : Map RankGrp := []
deriving DecidableEq, Repr

/-! ### The serving engine (chapter 10) -/

/-- Bytes that reads of the PCIe outbound range bring back during a command: address and bytes. A range that no chunk covers whole is a
read that fails. -/
abbrev HostBytes := List (Nat × List Byte)

/-- What CONFIGURE fixes of a serving basin (Table 10.3). -/
structure SrvCfg where
  bases : List Nat
  pageBytes : Nat
  poolPages : Nat
  poolMeta : Nat
  listArea : Nat
  manifest : Nat
  program : Nat
  programLen : Nat
  patchTable : Nat
  patchCount : Nat
  stepQueue : Nat
  rowBudget : Nat
  chunk : Nat
  stepReqs : Nat
deriving DecidableEq, Repr

/-- A request-table entry (Table 10.5), and the pages taken for its resume (R355). -/
structure Req where
  state : Nat := 0
  prio : Nat := 0
  cancel : Bool := false
  basin : Nat := 0
  flags : Nat := 0
  queue : Nat := 0
  outcome : Nat := 0
  tag : Nat := 0
  gen : Nat := 0
  pages : Nat := 0
  shared : Nat := 0
  spilled : Nat := 0
  pos : Nat := 0
  plen : Nat := 0
  maxTok : Nat := 0
  gened : Nat := 0
  promptAddr : Nat := 0
  notify : Nat := 0
  outAddr : Nat := 0
  endTok : Nat := 0
  lastTok : Nat := 0
  draw : Nat := 0
  temp : Nat := 0
  topP : Nat := 0
  topK : Nat := 0
  ttft : Nat := 0
  tbt : Nat := 0
  submitTick : Nat := 0
  lastTick : Nat := 0
  moor : Nat := 0
  hblocks : Nat := 0
  firstOrd : Nat := 0
  handle : Nat := 0
  slack : Nat := 0
  admitSeq : Nat := 0
  misses : Nat := 0
  written : Nat := 0
  held : List Nat := []
  region : Nat := 0
deriving DecidableEq, Repr

/-- A prefix handle (R361): its generation and, while VALID, its pages. -/
structure PfxHandle where
  gen : Nat := 0
  pages : Option (List Nat) := none
deriving DecidableEq, Repr

/-- A prefix-index entry (R358): hash, page and LAST_USE. -/
structure PfxEntry where
  hash : Nat
  page : Nat
  lastUse : Nat
deriving DecidableEq, Repr

/-- A request's part of a step: its slot and GEN, the position of its first row, its rows, and whether it has a sample (R346). -/
structure StepItem where
  slot : Nat
  first : Nat
  rows : Nat
  sample : Bool
  gen : Nat := 0
deriving DecidableEq, Repr

/-- A step submitted and not yet collected: its number, its requests in composition order, whether it is the rerun of R370, the
STEP entry (queue and index) that it belongs to, and the step queue's SQ slot that holds its RUN_PROGRAM. -/
structure StepRun where
  number : Nat
  items : List StepItem
  rerun : Bool := false
  entry : Option (Nat × Nat) := none
  slot : Nat := 0
deriving DecidableEq, Repr

/-- A basin's serving state: its configuration, the pages' reference counts, its count of successful SUBMITs, the number of its last
step, the step that runs, its key K_b (R362), and the pages that R371 has still to zero before they are free. -/
structure SrvBasin where
  cfg : Option SrvCfg := none
  refs : Map Nat := []
  admits : Nat := 0
  steps : Nat := 0
  step : Option StepRun := none
  key : Nat × Nat := (0, 0)
  zeros : List Nat := []
deriving DecidableEq, Repr

/-- The serving engine: basins, the request table by slot, the prefix index by entry, handles by number, the tick at which a serving stoppage fell due, and the number of the last slot of those
stoppages (R595). -/
structure Serve where
  basins : Map SrvBasin := []
  reqs : Map Req := []
  index : Map PfxEntry := []
  handles : Map PfxHandle := []
  stopDue : Option Nat := none
  stopSlot : Nat := 0
deriving DecidableEq, Repr

end Sys2Proof.Machine
end

