-- ==== Sys2Proof/Machine/SiteTypes.lean ====
section
/-!
DEFINITION. Plain data of the clocks, the meter, the tolls, the front panel, the image and the board: what commands carry
from outside, and what is held behind the registers.
-/
namespace Sys2Proof.Machine

/-! ### What comes from outside -/

/-- What the hardware finds at an own time mark (R289): of each tile, the count that its replica would make in the interval at trim 0 (R80,
R663); the raw codes of the sensors converted; the IRO cycles counted over a span that has ended since the last mark, and its end (R424); that
edges of a lost XTAL have resumed; the sources whose rails are found equal (R576); corrected symbols by lane, and lanes whose lock has dropped
(R293). -/
structure MarkData where
  pace : List (Nat × Nat) := []
  raw : List (Nat × Nat) := []
  span : Option (Nat × Nat) := none
  xtalRuns : Bool := false
  rails : List Nat := []
  symbols : List (Nat × Nat) := []
  unlocked : List Nat := []
deriving DecidableEq, Repr

/-- What the pace controller's PMBus transactions of a decision give (Table 3.3, R622, R623): the VOUT_MODE byte where it is still
to be read, READ_VOUT and READ_IOUT words, each none where its transaction fails, and whether a voltage command is acknowledged. -/
structure PmbReads where
  mode : Option Nat := none
  vout : Option Nat := none
  iout : Option Nat := none
  command : Bool := true
deriving DecidableEq, Repr

/-- A read that SFDP offers: its instruction, its dummy clocks, and its instruction in the 4-byte address table. -/
structure SpiRead where
  instr : Nat
  dummy : Nat
  long : Option Nat := none
deriving DecidableEq, Repr

/-- What SFDP gives (R536, R619): density in bytes; the quad reads it offers; the dummy clocks of fast read 0x0B and its 4-byte instruction;
whether the Quad Enable requirement needs no bit, or the bit it names reads 1; whether it gives an entry method to 4-byte addressing. -/
structure Sfdp where
  density : Nat
  read144 : Option SpiRead := none
  read114 : Option SpiRead := none
  plainDummy : Nat := 8
  plainLong : Option Nat := none
  quadReady : Bool := false
  entry : Bool := false
deriving DecidableEq, Repr

/-- How a sensor's auto-zero conversions ended (Table 17.2): the two codes, or the timeout. -/
inductive ZeroRun where
  | codes (a b : Int)
  | timeout
deriving DecidableEq, Repr

/-- Errors that the lengthsman's reads of the on-chip memories find (R164, R170, R237, R238, R330, R372); `ue` tells an uncorrectable one. A
request-table error tells whether OUT_ADDR, TAG and WRITTEN are intact, one of the rank state store the instances that the failing word holds. -/
inductive ChipMemory where
  | tileSram (tile : Nat) (ue : Bool)
  | requestTable (ue : Bool) (entry : Nat) (intact : Bool)
  | prefixIndex (ue : Bool) (entry : Nat)
  | codecTable (ue : Bool) (table : Nat)
  | formMap (ue : Bool) (word : Nat)
  | remapStore
  | wharfSram (ue : Bool) (off : Nat)
  | rankState (ue : Bool) (hit : List (Nat × Nat × Nat))
deriving DecidableEq, Repr

/-! ### Clocks (chapter 12) -/

/-- A TIME_MARK that a follower accepted: MARK_NO, CORR and the tick of its arrival. -/
structure Heard where
  mark : Nat
  corr : Nat
  tick : Nat
deriving DecidableEq, Repr

/-- The clocks behind their registers: whether the timebase has started since the reset, the earliest tick at which an IRO span may
begin (R425), the same before the first discard since the last own mark with the tick of that discard, the marks accepted from which or to which
a span may run (R424), newest first, and N, in eighths, of a span that has ended and takes effect at the next own mark. -/
structure Clk where
  started : Bool := false
  spanFrom : Nat := 0
  spanPrev : Option (Nat × Nat) := none
  heard : List Heard := []
  due : Option Nat := none
deriving DecidableEq, Repr

/-! ### Flash and journal (chapters 14, 16, 19) -/

/-- A flash operation: a 4 KiB erase, or a page program. -/
inductive FlashOp where
  | erase (addr : Nat)
  | program (addr : Nat) (bs : List Byte)
deriving DecidableEq, Repr

/-- The flash and what the device does with it: its density, its bytes other than 0xFF, the operation outstanding with the tick it
was issued, those that follow it, the record being written with its sector and JSEQ, the sector of the record begun last and the next JSEQ. -/
structure Flash where
  density : Nat := 0
  bytes : Map Byte := []
  op : Option (FlashOp × Nat) := none
  todo : List FlashOp := []
  cur : Option JReq := none
  sector : Nat := 255
  nextSeq : Nat := 0
deriving DecidableEq, Repr

/-! ### The meter (chapter 13) -/

/-- A channel's signal chain: the last two blocks of 512 sampled bits (bit i the i-th in time), the state d of R442, the last outputs of
stage 2 (newest first), the last stage-3 values (newest first, a window's and a cycle's before it), of each of those samples the ones among its bits
and whether a run of equal bits reached 256 in it, and the run of equal bits at the end with its level. -/
structure MChan where
  older : Nat := 0
  newer : Nat := 0
  d : Rat := 0
  us : List Int := []
  recent : List Rat := []
  marks : List (Nat × Bool) := []
  run : Nat := 0
  level : Bool := false
deriving DecidableEq, Repr

/-- A MEASURE under way (R470, R471): its channel, the staged layer, windows asked for and done, run (0 or 1), the start, the lanes of the
pair, and the sums of v², i² and v·i with the samples summed, of this run; and those of the first run. -/
structure Measure where
  ch : Nat
  n : Nat
  g : Nat
  off : Int
  ph : Int
  start : Nat
  attached : Bool := false
  done : Nat := 0
  lanes : List MChan := []
  skip : Nat := 3
  sums : List Rat := [0, 0, 0, 0]
  first : Option (List Rat) := none
deriving DecidableEq, Repr

/-- An APPLY or CLEAR under way (R472): its OP, channel and layer, the tick it began, and whether its record is committed. -/
structure Applying where
  op : Nat
  ch : Nat
  g : Nat
  off : Int
  ph : Int
  start : Nat
  committed : Bool := false
deriving DecidableEq, Repr

/-- A pulse input's cross-check span (R465): its start, the count then, the units handed since, and whether it contains a gap. -/
structure XSpan where
  start : Nat
  count : Nat
  units : Nat := 0
  bad : Bool := false
deriving DecidableEq, Repr

/-- The meter behind its registers: whether it has started; the image's MTR section; the channels; the tick of the newest sample; samples still to be discarded (R441) and the number of the next
sample; the reference channel and whether it has gone below the threshold of R446 since the last crossing; the crossing times of the
window (newest first, the last its t_0); the first sample number of the window and whether one is under way; the cycles per sample
of the last valid window; the temperature terms in force; the mean square of each channel's last Urms(1/2); the places in the event log, counted
from its first entry, of open events by kind; the channels that retire at the window's end; the pulse output: its spacing in ticks, the tick of its last start, and whether it is high; what runs; the pulse inputs'
spans; and the real-time clock at the start of a gap. -/
structure Mtr where
  on : Bool := false
  sec : List Byte := []
  chans : Map MChan := []
  tick : Nat := 0
  skip : Nat := 3
  n : Nat := 0
  ref : Option Nat := none
  below : Bool := false
  cross : List Rat := []
  from_ : Nat := 0
  open_ : Bool := false
  rate : Option Rat := none
  terms : Map (Int × Int) := []
  half : Map Rat := []
  events : Map Nat := []
  retiring : List Nat := []
  spacing : Rat := 0
  lastPulse : Option Nat := none
  high : Bool := false
  measure : Option Measure := none
  applying : Option Applying := none
  spans : Map XSpan := []
  gapStart : Option Nat := none
deriving DecidableEq, Repr

/-! ### Tolls (chapter 14) and the keeper island -/

/-- The last report accepted of a tray slot (R486): REPORT_SEQ, counters, its tick, and the rises since the last close. -/
structure Report where
  seq : Option Nat := none
  counters : List Nat := []
  tick : Nat := 0
  rises : List Nat := []
deriving DecidableEq, Repr

/-- A toll update that the battery test holds (R596): a hand-off, the work of a minute boundary, the closing of an interval, a snapshot
or a billing close by command. -/
inductive TolOp where
  | hand (tick rtc : Nat) (units : List Nat) (flags : Nat)
  | minute (secs : Nat)
  | close
  | snap (who : Nat)
  | bill (secs : Nat)
deriving DecidableEq, Repr

/-- The toll block's main-domain state: the TOL section, reports by slot, the start of the interval, carries since start, reports sent, the
snapshot buffers by reader (0 PF0, 1 the I²C target) with their status and the start of their seal, the COMMIT under way (calendar, ACT_RTC, start), whether
the START record has been asked for, and the gap that ends at the first window end. -/
structure Tol where
  sec : List Byte := []
  reports : Map Report := []
  since : Nat := 0
  carries : Nat := 0
  sent : Nat := 0
  bufs : Map (List Byte) := []
  status : Map Nat := []
  sealing : Map Nat := []
  commit : Option (List Byte × Nat × Nat) := none
  started : Bool := false
  downGap : Option Nat := none
deriving DecidableEq, Repr

/-- The keeper island behind its registers: whether it is powered and its retention RAM intact; CLEAN_STOP, the dry-dock request, the RTC of each
fault CHIP_RESET (R533) and whether a storm has occurred; the toll state of R491 to R510; the calendars; the subintervals of the demand windows, newest first
(units of quantities 0 and 6, and completeness), and the one under way; gaps that wait for a time set, by slot; the tamper mode's state; whether a battery test runs and the updates it holds; a battery
failure to be counted at the next start; the MTR section and STP_CFG of the last image applied; the event log's count; the KPR cycles of this run of 2^20 (R432) and the
counts of FRACTION beyond its last value before a carry. -/
structure Keeper where
  powered : Bool := false
  kpr : Nat := 0
  owed : Nat := 0
  intact : Bool := false
  cleanStop : Bool := false
  dryReq : Bool := false
  resets : List Nat := []
  storm : Bool := false
  era : Nat := 0
  snapSeq : Nat := 0
  closeSeq : Nat := 0
  periodStart : Nat := 0
  timeSets : Nat := 0
  gapSeq : Nat := 0
  flags : Nat := 0
  band : Nat := 1
  heldA : List Nat := []
  active : List Byte := []
  pending : List Byte := []
  pendingAct : Nat := 0
  lastHand : Nat := 0
  subs : List (Nat × Nat × Bool) := []
  cur : Nat × Nat := (0, 0)
  curBad : Bool := true
  lastBill : Option Nat := none
  openGaps : List Nat := []
  tollMaster : Bool := false
  mtrSec : List Byte := []
  tamperRes : Nat := 0
  tamperRun : Nat := 0
  tamperOpen : Option (Nat × Nat) := none
  tamperMark : Nat := 0
  tamperSeen : Nat := 0
  burst : Bool := false
  test : Bool := false
  held : List TolOp := []
  stp : Nat := 0
  battFail : Bool := false
  evtSeq : Nat := 0
deriving DecidableEq, Repr

/-! ### The front panel (chapter 15) -/

/-- The LCD controller behind its registers: frames still blank; whether the backlight PWM runs; the page rendered for the
next frame; how long the entry shown has been shown; whether a rail failure waits for its retry; whether the rail is up; the tick at which it began
to rise. -/
structure Lcd where
  blanks : Nat := 0
  lit : Bool := false
  page : Nat := 0
  shown : Nat := 0
  retry : Bool := false
  rail : Bool := false
  since : Nat := 0
deriving DecidableEq, Repr

/-! ### Image and start (chapter 16) -/

/-- Start behind its registers: the copies still to be tried; the fused owner hash and SVN_MIN; which of steps 6 to 9 have ended (the tile
self-test, a failure of the codec's, HBM training, HBM's test, the wait for ADMIT); the tick of step 5's end; JOIN_WAIT_LOG2. -/
structure Img where
  tries : List Nat := []
  owner : List Byte := []
  svnMin : Nat := 0
  tested : Bool := false
  codecFail : Bool := false
  trained : Bool := false
  bist : Bool := false
  joined : Bool := false
  applyTick : Nat := 0
  joinLog : Nat := 24
deriving DecidableEq, Repr

/-! ### Calibration (chapter 17) -/

/-- Calibration behind its registers: auto-zeroes under way by sensor with their start, results accepted and not yet in force, and
consecutive bad ones; by pseudo-channel, when a re-centering last fell due, those under way with their start and first run, the
delays accepted and not yet in force, and those in force. -/
structure Cal where
  azRun : Map Nat := []
  azDue : Map Int := []
  azBad : Map Nat := []
  recAt : Map Nat := []
  recentre : Map (Nat × Option (List Int)) := []
  accepted : Map (List Int) := []
  delays : Map (List Int) := []
deriving DecidableEq, Repr

/-! ### The board (chapter 19) -/

/-- The PCIe function state that configuration space holds (R603 to R608): Bus Master Enable, Memory Space Enable, MSI-X
enable and function mask. -/
structure PciFn where
  bme : Bool := false
  mse : Bool := false
  msix : Bool := false
  mask : Bool := false
deriving DecidableEq, Repr

/-- What host software has written to configuration space once the link trained: PF0's and the VFs' function state by number, VF Enable and
NumVFs, the request sizes (Max Payload Size, Max Read Request Size), 10-Bit Tag Requester Enable, the bus address of BAR4, and PF0's Device
Control 2 [4:0], Completion Timeout Value and Disable. -/
structure PciConfig where
  fns : Map PciFn := []
  vfEnable : Bool := false
  numVfs : Nat := 0
  mps : Nat := 128
  mrrs : Nat := 512
  tag10 : Bool := false
  bar4 : Nat := 0
  cto : Nat := 0
deriving DecidableEq, Repr

/-- The board's inputs and the I²C target: the PWR_GOOD inputs, PFAIL_N and PERST_N levels, whether PORESET is held; the target's pointer and LEN;
the number of the last lane stoppage slot (R594). -/
structure Board where
  good : Nat := 0
  pfailHigh : Bool := true
  perstHigh : Bool := false
  poreset : Bool := true
  ptr : Nat := 0
  len : Nat := 4
  laneSlot : Nat := 0
deriving DecidableEq, Repr

end Sys2Proof.Machine
end

