-- ==== Sys2Proof/Syntax.lean ====
section
/-!
DEFINITION. The commands: one constructor for each row of the spec's table of operations and events, with the operands
that the row takes from outside the device.
-/
namespace Sys2Proof
open Sys2Proof.Machine


/-- The commands of the device: the rows of the table of operations and events, each with the operands that come from
outside the device. -/
inductive Instr where
  /-- A control-space access of an unsupported size or alignment, including one that runs past its window, reads all ones or Unsupported Request, discards a write and counts at CSR_ACCESS (R7). -/
  | unsupportedAccess (rd : Nat) (write : Bool) (off : Nat) (size : Nat)
  /-- An aligned 32-bit access to a hole reads zero, discards its write and counts once at CSR_ACCESS for the reader (R630). -/
  | holeAccess (rd : Nat) (write : Bool) (off : Nat)
  /-- An aligned 64-bit access that does not address one 64-bit register is carried out as two 32-bit accesses, at +0 and then +4 (R632). -/
  | split64Access (rd : Nat) (write : Bool) (off : Nat) (v : Nat)
  /-- A 32-bit read of the low word of a 64-bit register returns the live low word and loads the reader's shadow with the high word and the register's identity (R12). -/
  | lowWordRead (rd : Nat) (off : Nat)
  /-- A 32-bit read of the high word returns the shadow if it pairs, and otherwise returns the live high word (R13). -/
  | highWordRead (rd : Nat) (off : Nat)
  /-- A low-word read or a 64-bit read of an RC register returns the value and clears the whole register (R18). -/
  | rcRead (rd : Nat) (off : Nat) (wide : Bool)
  /-- A low-word write commits both words, taking the high word from the reader's write stage or from the live value (R19). -/
  | lowWordWrite (rd : Nat) (off : Nat) (v : Nat)
  /-- A high-word write fills the reader's write stage and changes nothing in the register (R20). -/
  | highWordWrite (rd : Nat) (off : Nat) (v : Nat)
  /-- An aligned 64-bit write commits both words in one step and empties the reader's write stage (R21). -/
  | aligned64Write (rd : Nat) (off : Nat) (v : Nat)
  /-- A write to a register that has no row of its own acts as its access code gives (R8). -/
  | registerWrite (rd : Nat) (off : Nat) (v : Nat)
  /-- A keeper power-on reset, after both VBAT and VDD_AON were below 1.5 V, resets the keeper island (R430). -/
  | keeperPowerOn (onVbat : Bool) (aonOk : Bool) (aonHigh : Bool)
  /-- The keeper island changes between VDD_AON and VBAT with no lost cycle or state (R430). -/
  | keeperSupplyChange (onVbat : Bool) (aonOk : Bool)
  /-- The last PWR_GOOD input rises and the 1,000 µs count to PORESET release begins (R529). -/
  | pwrGoodRise (input : Nat)
  /-- A falling PWR_GOOD input asserts PORESET within 1 µs (R529). -/
  | pwrGoodFall (input : Nat)
  /-- PORESET is released 1,000 µs after the last PWR_GOOD has risen, the straps are sampled and start step 1 begins (R529). -/
  | poresetRelease (straps : Nat) (fromOff : Bool)
  /-- The fuse read of start step 1 ends, with the two copies compared and dry-dock FUSE entered if they still disagree (R534). -/
  | fuseRead (agree : Bool) (clockRaw : Int)
  /-- The journal region read of start step 3 completes, and the valid records' live content is kept on chip (R502). -/
  | journalRead (sfdp : Option Sfdp)
  /-- A copy has been read whole and verified; a valid copy is applied, and when none is valid the chip enters dry-dock (R538). -/
  | imageVerify
  /-- Sections 0x0003 to 0x0012 and the journal-held state have been applied, ending start step 5 (R551). -/
  | sectionApply (vout : Option Nat)
  /-- The boot tile and codec self-tests end; each failing tile is retired and a failing codec invalidates every table (R554). -/
  | tileSelftestDone (failed : List Nat) (codecFail : Bool)
  /-- HBM training ends with post-package repair, the bad-page rebuild and the channel BIST starting (R160). -/
  | hbmTrainingDone (repaired : List Nat) (delays : List (List Int))
  /-- A channel that has not finished training within 2^26 ticks leaves the chip HALTED with HBM_TRAIN (R555). -/
  | hbmTrainTimeout (chan : Nat)
  /-- The four HBM BIST passes end, each failing page is retired and zeroing begins (R554). -/
  | hbmBistDone (fails : List EccEvent)
  /-- Every HBM sector has been written zero with a valid code, and MEM_STATUS.INIT_DONE is set (R162). -/
  | hbmZeroingDone
  /-- The wait for ADMIT or CONFLICT ends after 2^JOIN_WAIT_LOG2 ticks and start goes on (R556). -/
  | joinWaitEnd
  /-- Start step 10 opens every enabled and allowed basin in one step and writes IMG_OPEN_TICK (R557). -/
  | basinsOpen
  /-- A write of GO with its key to GLB_CHIP_RESET causes a CHIP_RESET (R530). -/
  | go (rd : Nat) (v : Nat)
  /-- A write of DRYDOCK with its key to GLB_CHIP_RESET records a dry-dock request and causes a CHIP_RESET (R559). -/
  | drydock (rd : Nat) (v : Nat)
  /-- A CHIP_RESET takes effect within 10 µs of its cause, resetting the main domain but not the PCIe link, and restarting start (R532). -/
  | chipReset
  /-- A BLOCK_RESET of one block resets its state and ends its queue entries ABORTED while gate counters keep their values (R205). -/
  | blockReset (blk : Block)
  /-- A write of OWN to IMG_PROVISION on an unowned chip fuses OWNER_HASH from the running image's key (R549). -/
  | own (rd : Nat) (v : Nat)
  /-- A write of SVN_COMMIT raises SVN_MIN to the running image's SVN (R550). -/
  | svnCommit (rd : Nat) (v : Nat)
  /-- A dry-dock ERASE command erases 4 KiB within a copy region, or ends REFUSED (R562). -/
  | flashErase (rd : Nat) (v : Nat)
  /-- A dry-dock PROGRAM command programs 4 KiB from the page buffer within a copy region, or ends REFUSED (R562). -/
  | flashProgram (rd : Nat) (v : Nat)
  /-- A dry-dock READ command reads 4 KiB of a copy region into the page buffer, or ends REFUSED (R562). -/
  | flashRead (rd : Nat) (v : Nat)
  /-- The flash WIP bit shows that a program or erase has completed (R619). -/
  | flashOperationDone
  /-- A page program still busy after 2^22 ticks, or an erase still busy after 2^29 ticks, is a flash error (R620). -/
  | flashTimeout
  /-- The join agent sends or repeats its JOIN to the master every 2^26 ticks until it receives an answer (R290). -/
  | joinRetry
  /-- The chip's timebase reaches a multiple of 65,536, and every block that acts at a time mark acts (R289). -/
  | ownTimeMark (d : MarkData)
  /-- The pace controller makes one decision per loop period from the first row of Table 3.3 that holds (R82). -/
  | paceDecision (r : PmbReads)
  /-- A write to PAC_TARGET takes effect at the next decision, or is refused whole if it breaks the bounds (R94). -/
  | pacTargetWrite (rd : Nat) (v : Nat)
  /-- A margin detector event counts at the tile's delay-margin source and schedules a trim step (R88). -/
  | marginEvent (tile : Nat)
  /-- A late-transition event counts at its source and ends the running operator TILE_FAULT from that handshake on (R89). -/
  | lateTransition (tile : Nat)
  /-- The END descriptor ends a program, which posts one completion (R107). -/
  | endProgram (q : Nat) (es : List EccEvent)
  /-- The NOP operator does nothing but pass its gate wait and increment (R123). -/
  | nop (q : Nat) (es : List EccEvent)
  /-- GATE_RINC sends a GATE_INC barge to raise a gate of the same basin on another chip (R116). -/
  | gateRinc (q : Nat) (es : List EccEvent)
  /-- MATMUL computes exact dot products plus an optional D, rounded once (R123). -/
  | matmul (q : Nat) (es : List EccEvent)
  /-- EW_UNARY applies a correctly rounded function to each element (R121). -/
  | ewUnary (q : Nat) (es : List EccEvent)
  /-- EW_BINARY applies ADD, SUB, MUL, DIV, MAX or MIN to each pair of elements (R125). -/
  | ewBinary (q : Nat) (es : List EccEvent)
  /-- EW_GLU multiplies a rounded function of a by b (R123). -/
  | ewGlu (q : Nat) (es : List EccEvent)
  /-- RMSNORM normalises each row by the RSQRT of its exact mean square (R121). -/
  | rmsnorm (q : Nat) (es : List EccEvent)
  /-- LAYERNORM normalises each row by its exact mean and variance (R121). -/
  | layernorm (q : Nat) (es : List EccEvent)
  /-- SOFTMAX computes each row's exponentials and normalises them by their exact sum (R121). -/
  | softmax (q : Nat) (es : List EccEvent)
  /-- ROPE rotates element pairs by rounded cosines and sines of pos × f (R121). -/
  | rope (q : Nat) (es : List EccEvent)
  /-- ATTN_PAGED computes paged attention over manifest rows and page lists (R126). -/
  | attnPaged (q : Nat) (es : List EccEvent)
  /-- GATHER moves selected columns of a table unchanged (R127). -/
  | gather (q : Nat) (es : List EccEvent)
  /-- SCATTER stores, or adds into, destination columns named by an index (R127). -/
  | scatter (q : Nat) (es : List EccEvent)
  /-- EMBED writes scaled embedding columns selected by tokens (R127). -/
  | embed (q : Nat) (es : List EccEvent)
  /-- TRANSPOSE copies each element through the strides of two descriptors (R123). -/
  | transpose (q : Nat) (es : List EccEvent)
  /-- IDX_TO_BF16 converts index elements to BF16 by rne (R73). -/
  | idxToBf16 (q : Nat) (es : List EccEvent)
  /-- TOPK writes the K largest values of each row and their positions (R128). -/
  | topk (q : Nat) (es : List EccEvent)
  /-- SAMPLE draws one token per row by temperature, top_k and top_p (R129). -/
  | sample (q : Nat) (es : List EccEvent)
  /-- OPT_STEP performs an AdamW update in pair form (R130). -/
  | optStep (q : Nat) (es : List EccEvent)
  /-- Once its wait is satisfied and it is granted tiles, an operator passes its data check, captures GLB_SEED and starts executing (R105). -/
  | operatorAccept (q : Nat) (tiles : List Nat) (es : List EccEvent)
  /-- An operator finishes writing its outputs, makes its gate increment and completes (R110). -/
  | operatorComplete (q : Nat) (rep : OpReport)
  /-- A wait not satisfied at its WAIT_LIMIT-th time mark ends with GATE_TIMEOUT (R109). -/
  | gateTimeout (q : Nat)
  /-- A write to GLB_GATE_ADD_b adds AMOUNT to a gate in one step (R113). -/
  | glbGateAdd (rd : Nat) (b : Nat) (v : Nat)
  /-- A committed write to GLB_GATE_b_g raises the counter to the larger of its value and the value written (R134). -/
  | glbGateWrite (rd : Nat) (b : Nat) (g : Nat) (v : Nat)
  /-- The lengthsman makes its next paced scrub read of HBM and of the on-chip memories (R170). -/
  | lengthsmanRead (es : List EccEvent) (chip : List ChipMemory)
  /-- A retired page's copy to its spare ends and accesses are redirected to the spare (R157). -/
  | pageRemapDone (es : List EccEvent)
  /-- A keyed PF0 write to LCK_BASIN_RESET starts a basin reset of an OPEN basin, or changes nothing (R173). -/
  | lckBasinReset (rd : Nat) (v : Nat)
  /-- A basin reset sets the basin RESETTING, aborts its work, ends its requests and begins zeroing its windows (R166). -/
  | basinReset (b : Nat)
  /-- Basin-reset zeroing ends and the basin returns to OPEN (R166). -/
  | basinReopen (b : Nat)
  /-- A write of ENABLE checks the ring extents and bases and makes the queue ENABLED, or records CAUSE (R177). -/
  | queueEnable (rd : Nat) (q : Nat)
  /-- A write of DISABLE aborts the running entry, discards unstarted entries and makes the queue DISABLED (R207). -/
  | queueDisable (rd : Nat) (q : Nat) (v : Nat)
  /-- A write to a ring base takes effect only while the queue is DISABLED (R179). -/
  | queBaseWrite (rd : Nat) (q : Nat) (cq : Bool) (v : Nat)
  /-- An accepted doorbell write applies SQ_TAIL and CQ_HEAD, or sends the queue into ERROR (R182). -/
  | doorbell (f : Nat) (write : Bool) (off : Nat) (size : Nat) (v : Nat)
  /-- The fetch of a submission entry completes, or a failed fetch sends the queue into ERROR (R210). -/
  | sqFetch (q : Nat) (es : List EccEvent)
  /-- The queue command NOP completes with no effect (R185). -/
  | cmdNop (q : Nat)
  /-- RUN_PROGRAM checks the program extent and starts an operator program (R186). -/
  | runProgram (q : Nat) (es : List EccEvent)
  /-- COPY checks a copy entry in order and starts moving its blocks (R200). -/
  | copy (q : Nat) (e : Nat)
  /-- WAIT_GATE waits on a gate of the owner basin (R187). -/
  | waitGate (q : Nat)
  /-- INC_GATE raises a gate after every earlier entry of its queue has completed (R187). -/
  | incGate (q : Nat)
  /-- A copy engine has read a block whole and writes it or sends it as a barge (R202). -/
  | copyBlock (e : Nat) (ce : Nat) (ue : Nat) (es : List EccEvent)
  /-- A completion that waited for CQ space is posted once the CQ head advances (R208). -/
  | deferredCompletion (q : Nat)
  /-- The oldest completion since the last message reaches AGE × 1,024 ticks and the queue sends its MSI-X message (R195). -/
  | coalesceAge (q : Nat)
  /-- LOAD makes the staged lengths a VALID table (R229). -/
  | load (rd : Nat) (b : Nat) (t : Nat)
  /-- SURVEY_START makes a table SURVEYING and clears the basin histogram (R229). -/
  | surveyStart (rd : Nat) (b : Nat) (t : Nat)
  /-- SURVEY_FINISH builds lengths from the histogram and makes the table VALID (R232). -/
  | surveyFinish (rd : Nat) (b : Nat) (t : Nat)
  /-- INVALIDATE makes a table INVALID and ends any survey on it (R229). -/
  | invalidate (rd : Nat) (b : Nat) (t : Nat)
  /-- FETCH copies a table's lengths into the staging area (R229). -/
  | fetch (rd : Nat) (b : Nat) (t : Nat)
  /-- An enabled port begins training from cold (R245). -/
  | training (p : Nat) (lanes : Nat)
  /-- A lane that has not adapted within 2^22 ticks is left out of the training (R245). -/
  | laneAdaptTimeout (p : Nat) (l : Nat)
  /-- Training that has not ended within 2^24 ticks puts the port DOWN with TRAIN_TIMEOUT (R245). -/
  | trainTimeout (p : Nat)
  /-- A port that went DOWN on TRAIN_TIMEOUT starts training again after 2^27 ticks (R245). -/
  | trainRetry (p : Nat)
  /-- A HELLO frame is checked against REACH_ID and the expected neighbour, and the port goes UP or DOWN (R246). -/
  | hello (p : Nat) (lanes : Nat) (frame : List Byte)
  /-- A LANES frame announces a new lane mask and the port holds its barges (R248). -/
  | lanes (p : Nat) (frame : List Byte)
  /-- Both ends switch width at the named CW_SEQ and resend from the oldest unacknowledged barge (R248). -/
  | laneSwitch (p : Nat)
  /-- A CREDIT frame returns credits per class (R257). -/
  | credit (p : Nat) (frame : List Byte)
  /-- A LACK frame frees replay entries up to its LSEQ (R261). -/
  | lack (p : Nat) (frame : List Byte)
  /-- An LNAK frame makes the sender resend from the named LSEQ, and RETRAIN is entered after 8 sends (R263). -/
  | lnak (p : Nat) (frame : List Byte)
  /-- An accepted TIME_MARK corrects the timebase and is forwarded on the other UP ports (R285). -/
  | timeMark (p : Nat) (frame : List Byte)
  /-- A received PING is answered at once by a PONG (R284). -/
  | ping (p : Nat) (frame : List Byte)
  /-- A received PONG updates the port's link delay (R284). -/
  | pong (p : Nat) (frame : List Byte)
  /-- A codeword that cannot be corrected makes the receiver discard slots and send an LNAK for the barge concerned (R242). -/
  | codewordUncorrectable (p : Nat) (word : List Nat) (hit : Bool)
  /-- An oldest replay entry with no LACK for 8,192 ticks is resent as if an LNAK had come (R262). -/
  | replayTimeout (p : Nat)
  /-- A retrain ends within 2^18 ticks, and the port returns to UP and replays (R264). -/
  | retrainDone (p : Nat) (lanes : Nat)
  /-- A retrain that has not ended within 2^18 ticks retires the port (R294). -/
  | retrainTimeout (p : Nat)
  /-- A hop holds a whole barge, checks it and forwards it, answers PATH_DOWN, or delivers it (R260). -/
  | bargeReceive (p : Nat) (bs : List Byte) (spoilt : Bool)
  /-- A WRITE barge writes its payload at DEST and sets the page form (R255). -/
  | write (es : List EccEvent)
  /-- A READ_REQ barge is answered by READ_DATA (R272). -/
  | readReq (es : List EccEvent)
  /-- A GATE_INC barge raises a gate of the named basin (R272). -/
  | gateInc
  /-- A REDUCE_PART barge carries READY, a contribution or an outcome of a collective (R320). -/
  | reducePart
  /-- A TEST barge carries PRBS31 data in a winding hole, and bit errors are counted (R249). -/
  | test (p : Nat) (got : List Byte)
  /-- An ACK reply answers an outstanding barge and may fence, break or reroute its flow (R276). -/
  | ack (es : List EccEvent)
  /-- A READ_DATA reply returns read bytes to the requester (R252). -/
  | readData (es : List EccEvent)
  /-- A JOIN at the master is answered ADMIT or CONFLICT (R290). -/
  | join
  /-- ADMIT sets GLB_ROLE.IN_REACH (R291). -/
  | admitted
  /-- CONFLICT sets ID_CONFLICT and puts every port DOWN (R291). -/
  | conflict
  /-- An ACTIVITY report is accepted or discarded by the toll master (R486). -/
  | activity
  /-- A FIRMWARE barge carries a control-core message (R256). -/
  | firmware
  /-- A barge with no answer within ACK_TIMEOUT is lost beyond retry (R270). -/
  | ackTimeout (queue : Nat) (dest : Nat) (cls : Nat)
  /-- A write to IBN_FLOW_RESET_b starts a new flow generation, or is refused (R278). -/
  | flowReset (rd : Nat) (b : Nat) (v : Nat)
  /-- PF0 starts an INTERNAL winding hole on a port that is DOWN or RETIRED (R249). -/
  | windInternal (rd : Nat) (p : Nat)
  /-- PF0 starts an EXTERNAL winding hole on a port that is DOWN or RETIRED (R249). -/
  | windExternal (rd : Nat) (p : Nat)
  /-- PF0 stops a winding hole and the port returns to DOWN (R249). -/
  | windStop (rd : Nat) (p : Nat)
  /-- A RELEASE write to IBN_P_p_CTRL writes a release record for the next reset (R295). -/
  | linkRelease (rd : Nat) (p : Nat)
  /-- With no accepted mark for 4 mark intervals the chip enters HOLDOVER and moves to its next time-parent port (R288). -/
  | holdover
  /-- 2^24 ticks after its first port is UP, the master seeds its timebase and starts sending marks (R428). -/
  | masterSeed
  /-- The OPEN command of RNK_CMD opens a rank group after its checks (R299). -/
  | openGroup (rd : Nat) (b : Nat) (g : Nat) (es : List EccEvent)
  /-- The CLOSE command of RNK_CMD closes a group, aborts its outstanding collectives and resets its broken rank flows (R328). -/
  | close (rd : Nat) (b : Nat) (g : Nat)
  /-- A commit to RNK_SUBMIT_b appends a collective descriptor address to the FIFO, or sets SUBMIT_FULL (R312). -/
  | rnkSubmit (rd : Nat) (b : Nat) (v : Nat)
  /-- The BARRIER collective completes after every rank has submitted it (R310). -/
  | barrier (b : Nat) (es : List EccEvent)
  /-- The ALL_REDUCE collective gives every rank the tree-reduced result (R310). -/
  | allReduce (b : Nat) (es : List EccEvent)
  /-- The REDUCE collective gives rank 0 the tree-reduced result (R310). -/
  | reduce (b : Nat) (es : List EccEvent)
  /-- The REDUCE_SCATTER collective gives each rank its shard of the result (R310). -/
  | reduceScatter (b : Nat) (es : List EccEvent)
  /-- The ALL_GATHER collective concatenates every rank's input on every rank (R310). -/
  | allGather (b : Nat) (es : List EccEvent)
  /-- The BROADCAST collective copies rank 0's input to every rank (R310). -/
  | broadcast (b : Nat) (es : List EccEvent)
  /-- A node silent for TIMEOUT time marks ends the instance RANK_TIMEOUT (R326). -/
  | rankTimeout (b : Nat) (g : Nat) (q : Nat)
  /-- CONFIGURE checks the configuration block and makes the basin SERVING (R334). -/
  | configure (q : Nat) (host : HostBytes) (es : List EccEvent)
  /-- SUBMIT checks a request descriptor and takes the lowest free slot in state QUEUED (R337). -/
  | submit (q : Nat) (host : HostBytes) (es : List EccEvent)
  /-- CANCEL sets a request DRAINING, or sets CANCEL_PEND (R364). -/
  | cancel (q : Nat)
  /-- In TENDED mode STEP checks a plan and builds one step from it (R342). -/
  | step (q : Nat) (host : HostBytes) (es : List EccEvent)
  /-- RELEASE drops a prefix handle's references and frees the handle (R361). -/
  | release (q : Nat)
  /-- In TRACKED mode the engine composes and submits the next step once the previous one is collected (R341). -/
  | stepBuild (b : Nat) (host : HostBytes) (es : List EccEvent)
  /-- At the step program's completion the engine takes the tokens, stamps them, writes records and ends finished requests, or reruns the step (R351). -/
  | stepCollect (b : Nat) (host : HostBytes) (es : List EccEvent)
  /-- The last spill copy of a mooring request completes and the request becomes MOORED (R354). -/
  | mooringDone (e : Nat)
  /-- The last restore copy of a resuming request completes (R355). -/
  | resumeDone (e : Nat)
  /-- A committed write of SRV_KEY_b_1 installs the key and removes every index entry of the basin (R362). -/
  | srvKeyWrite (rd : Nat) (b : Nat) (v : Nat)
  /-- DEFINE_SET checks a set list and makes the set DEFINED (R376). -/
  | defineSet (q : Nat) (es : List EccEvent)
  /-- EPOCH puts a set into ARMED_WAIT on a gate (R385). -/
  | epoch (q : Nat)
  /-- RESTORE checks its sources and begins reading an archive into a set (R400). -/
  | restore (q : Nat) (es : List EccEvent)
  /-- An epoch wait that reaches its WAIT_LIMIT ends GATE_TIMEOUT with nothing armed (R385). -/
  | epochWaitTimeout (k : Nat)
  /-- A write to an armed page that is not yet streamed waits for a copy-on-write copy of the page, then proceeds (R389). -/
  | cowCopy (k : Nat) (page : Nat) (es : List EccEvent)
  /-- A drive completion advances streaming, commit or restore, or resubmits a failed command (R383). -/
  | nvmeCompletion (d : Nat) (es : List EccEvent)
  /-- A drive command with no completion within NVME_TIMEOUT makes the drive FAILED (R384). -/
  | nvmeTimeout (d : Nat)
  /-- ENABLE in WHF_DRV_d.CMD checks the doorbells and makes the drive READY (R381). -/
  | driveEnable (rd : Nat) (d : Nat)
  /-- DISABLE ends the drive's users DRIVE_ERROR, releases its quarantine and sets it OFF (R384). -/
  | driveDisable (rd : Nat) (d : Nat)
  /-- ABANDON ends an epoch that is armed or streaming with ABORTED (R396). -/
  | abandon (rd : Nat) (k : Nat)
  /-- A missing XTAL edge forces the measuring pins, marks XTAL LOST and switches the PLL reference to the IRO (R417). -/
  | xtalMissingEdge
  /-- XTAL is judged GOOD after 65,536 clean cycles (R408). -/
  | xtalGood (iro : Nat)
  /-- The root PLL locks to its reference (R411). -/
  | pllLock
  /-- A loss of root PLL lock forces the measuring pins (R417). -/
  | pllLockLoss
  /-- A missing KXTAL edge holds the LCD pins at 0 V and moves KPR to KRO (R418). -/
  | kxtalMissingEdge
  /-- KXTAL is judged GOOD again and KPR returns to it (R421). -/
  | kxtalGood (kro : Nat)
  /-- A write to CLK_GATE gates or ungates nodes from 8 down to 0, refusing some (R414). -/
  | clkGate (rd : Nat) (v : Nat)
  /-- A committed write to TBS_RTC_SET loads the real-time clock and records a time set (R433). -/
  | tbsRtcSet (rd : Nat) (v : Nat)
  /-- A carry into SECONDS captures TBS_CORR and triggers the per-second and per-minute keeper work (R435). -/
  | secondsCarry (kxtalRuns : Bool)
  /-- The battery test ends after 10 ms or early, records its result and applies the held toll updates (R597). -/
  | batteryTestEnd (mv : Nat) (early : Bool)
  /-- A tamper burst ends and the tamper state and register are updated (R482). -/
  | tamperBurstEnd (xs : List Int)
  /-- A decimated meter sample passes stages 2 and 3, crossing detection and the Urms(1/2) refresh (R442). -/
  | meterSample (blocks : List Nat) (wrong : List Nat)
  /-- A measurement window ends, its quantities are computed and whole units are handed to the tolls (R449). -/
  | windowEnd (raw : Nat)
  /-- CF_OUT starts the next queued pulse and counts it (R462). -/
  | cfPulseStart
  /-- CF_OUT returns low after CF_WIDTH (R462). -/
  | cfPulseEnd
  /-- A PULSE_IN level held for 2 ms is accepted and a change to the active level is counted (R464). -/
  | pulseInAccept (n : Nat) (level : Bool)
  /-- MEASURE runs the shadow path twice with the staged runtime values (R470). -/
  | measure (rd : Nat) (v : Nat)
  /-- APPLY writes a calibration record and brings the staged layer into force at the next window (R472). -/
  | apply (rd : Nat) (v : Nat)
  /-- CLEAR returns a channel's runtime layer to identity as an APPLY of identity (R470). -/
  | clear (rd : Nat) (v : Nat)
  /-- A MEASURE not finished within 2^34 ticks ends TIMEOUT (R471). -/
  | measureTimeout
  /-- An APPLY whose record is not committed within 2^30 ticks ends TIMEOUT (R472). -/
  | applyTimeout
  /-- A RELEASE in MTR_CH_CTRL writes a release record for the next reset (R479). -/
  | meterRelease (rd : Nat) (v : Nat)
  /-- SNAPSHOT fills the writer's snapshot buffer at one instant (R509). -/
  | snapshot (rd : Nat) (v : Nat)
  /-- The snapshot's Ed25519 seal is complete and the buffer is READY (R510). -/
  | snapshotSealed (who : Nat)
  /-- A CLOSE command, or a calendar trigger, closes the billing period, seals and archives a snapshot and clears demand (R498). -/
  | billingClose (rd : Nat) (v : Nat)
  /-- COMMIT checks the staged calendar and makes it pending (R493). -/
  | calendarCommit (rd : Nat) (v : Nat)
  /-- CANCEL discards the pending calendar (R494). -/
  | calendarCancel (rd : Nat) (v : Nat)
  /-- PFAIL_N falls: the interval closes, a TOLLS_DELTA is written and CLEAN_STOP is set (R503). -/
  | pfailFall
  /-- PFAIL_N rises with power still good and CLEAN_STOP is cleared (R628). -/
  | pfailRise
  /-- No report from a tray chip for 2^24 ticks counts at the activity-silent source (R484). -/
  | activitySilent (slot : Nat)
  /-- An LCD frame starts and takes new segment data (R512). -/
  | lcdFrame
  /-- VLCD settles within 5 % and the controller sends blank frames before SHOW (R518). -/
  | lcdRailSettled (vlcd : Nat) (aon : Nat)
  /-- A rail that has not settled within 20 ms counts, and the controller returns to DARK (R526). -/
  | lcdRailTimeout
  /-- VDD_AON below 1.65 V sends the display to DARK at a slot boundary (R519). -/
  | aonLow
  /-- VDD_AON at or above 1.70 V lets the controller leave DARK (R517). -/
  | aonRise
  /-- A write of BLANK to LCD_CTRL sends the display to DARK, and clearing it allows it to rise (R519). -/
  | lcdCtrlBlank (rd : Nat) (v : Nat)
  /-- A keyed write to LCD_HOLD shows one entry for HOLD_S seconds (R525). -/
  | lcdHold (rd : Nat) (v : Nat)
  /-- A sensor auto-zero result is judged, accepted or bad, at the end of its conversions or at its timeout (R570). -/
  | autoZero (k : Nat) (run : ZeroRun)
  /-- An HBM re-centering falls due on a pseudo-channel every 2^34 ticks (R569). -/
  | hbmRecenter (pc : Nat)
  /-- The collector takes an event at a source and unit and counts it in its window (R577). -/
  | faultEvent (src : Nat) (unit : Nat)
  /-- A 1 written to FLT_FORCE with FORCE_EN set injects one event at that source (R586). -/
  | fltForce (rd : Nat) (w : Nat) (v : Nat)
  /-- A W1C write to FLT_TRIP clears trips and their FLT_PIN bits, possibly releasing FAULT_N (R581). -/
  | fltTripClear (rd : Nat) (w : Nat) (v : Nat)
  /-- POP removes the head of a HISTORY capture queue (R584). -/
  | pop (rd : Nat) (g : Nat) (v : Nat)
  /-- CLEAR resets a FIRST-mode capture record, LEVEL and OVERFLOW (R583). -/
  | capClear (rd : Nat) (g : Nat) (v : Nat)
  /-- A keyed write to FLT_RELEASE writes a TILE_RELEASE entry for the next reset (R590). -/
  | tileRelease (rd : Nat) (v : Nat)
  /-- A tile stoppage slot falls due, or is skipped (R592). -/
  | tileStoppageSlot
  /-- A tile stoppage still waiting 8,000,000,000 ticks after its slot is taken at once (R593). -/
  | stoppageDeferralBound
  /-- A tile's stoppage tests end, the tile is cleared and it returns to service (R593). -/
  | tileStoppageEnd (pass : Bool)
  /-- A lane stoppage slot falls, and the lane leaves its port or the slot is skipped (R594). -/
  | laneStoppageSlot
  /-- The lane's PRBS test and re-adaptation end and it rejoins through a LANES exchange (R594). -/
  | laneStoppageEnd (errors : Bool) (adapted : Bool)
  /-- A serving-engine stoppage falls due every 10 min, or starts at its deferral bound (R595). -/
  | servingStoppageDue
  /-- The serving-engine stoppage ends and builds and collects resume (R595). -/
  | servingStoppageEnd (pass : Bool)
  /-- PERST_N low is a PCIe reset of the endpoint (R612). -/
  | perstNLow
  /-- A received Hot Reset is a PCIe reset (R612). -/
  | hotReset
  /-- The link leaving DL_Active, including by PLL lock loss, is a PCIe reset (R612). -/
  | linkDown
  /-- The link trains again once PERST_N is high and the PHY PLL is locked (R600). -/
  | linkUp (width : Nat) (rate : Nat) (c : PciConfig)
  /-- A Function Level Reset of VF b is a basin reset of basin b (R613). -/
  | flr (b : Nat)
  /-- An FLR of PF0 takes steps 1 to 4 of the PCIe reset for PF0 and clears VF Enable (R613). -/
  | pf0Flr
  /-- VF Enable changing from 1 to 0 resets every OPEN tenant basin (R603). -/
  | vfEnableClear
  /-- A pending MSI-X message is sent once its function, vector and link allow it (R667). -/
  | msixPendingSend (f : Nat) (v : Nat)
  /-- A read completion for an outbound read arrives, successful or in error (R608). -/
  | readCompletion (u : ReadUser) (r : HostRead)
  /-- An outbound read with no completion within the timeout ends its user HOST_ERROR (R608). -/
  | completionTimeout (u : ReadUser)
  /-- An inbound TLP to BAR4 is accepted from a READY drive RID and checked, or refused (R609). -/
  | bar4Tlp (rid : Nat) (write : Bool) (off : Nat) (bs : List Byte) (n : Nat)
  /-- A write to PCI_OUT_HI takes effect only while no outbound user is active (R605). -/
  | pciOutHiWrite (rd : Nat) (v : Nat)
  /-- The SMBus SET_ADDR command sets the pointer and LEN (R616). -/
  | setAddr (bs : List Byte) (pec : Option Nat)
  /-- The SMBus READ command makes LEN/4 aligned reads from the pointer (R616). -/
  | smbusRead
  /-- The SMBus WRITE command makes aligned writes from the pointer (R616). -/
  | smbusWrite (bs : List Byte) (pec : Option Nat)
  /-- The SMBus SUMMARY command returns GLB_ID, GLB_ROLE, IMG_STATUS and FLT_STATUS (R616). -/
  | summary
  /-- The SMBus RESET command causes a CHIP_RESET, with or without a dry-dock request (R616). -/
  | reset (bs : List Byte) (pec : Option Nat)
  /-- SCL held low for 25 ms makes the target release the bus and discard the transaction (R618). -/
  | smbusTimeout (since : Nat)
  /-- A calendar COMMIT whose journal record is not committed within 2^30 ticks ends with result JOURNAL and changes nothing (R493). -/
  | calendarCommitTimeout
  /-- An EXTERNAL VLCD that leaves 2.7 to 5.0 V while the controller is in SHOW counts at the LCD rail source and sends the display to DARK under R519 (R526). -/
  | vlcdOutOfRange
  /-- An all-bank refresh window of a pseudo-channel opens, in which a due HBM re-centering takes one of its two runs, or an accepted result comes into force (R569). -/
  | allBankRefreshWindow (pc : Nat) (consec : Bool) (delays : List Int)
  /-- An HBM re-centering that has not finished its two runs within 2^20 ticks is a bad result, discarded and counted at the HBM calibration source (R570). -/
  | hbmRecenterTimeout (pc : Nat)
  /-- The wharf has read a page and its block forms from HBM into a staging buffer, formed the extent and its CRC, freed any copy-on-write page held there, and submits the extent's drive Write (R391). -/
  | extentStaged (k : Nat) (es : List EccEvent)
deriving DecidableEq, Repr

end Sys2Proof
end

