-- ==== Sys2Proof/Config.lean ====
section
/-!
DEFINITION. What the spec leaves open: every constant of this file is a free value. It has no body, so nothing can
be proved of its value and a claim holds whatever it is. Each names the assumption-log entry that marks it.
-/
open Sys2Proof.Machine
namespace Sys2Proof.Config

/-- The BF16 result of a correctly rounded function where the model's interval evaluation cannot decide the rounding
(no argument for which that happens is known). Log entry 5. -/
opaque crUndecided : Fn → Rat → Bf16

/-- A value that the spec leaves open and the model takes at most once per count of `State.freeCount`
(which unwritten element an aborted operator had written, a duration, a choice between units). Log entry 4. -/
opaque freeValue : Nat → Nat

/-- Whether a KPR cycle ends, an edge of a lost XTAL arrives, or one of a lost KXTAL, in the n-th idle tick: the clocks have no command of their own.
Log entry 67. -/
opaque kprCycle : Nat → Bool
opaque xtalEdge : Nat → Bool
opaque kxtalEdge : Nat → Bool

/-- What the serving engine keeps in the bytes of a pool meta area after its n-th private update. Log entry 22. -/
opaque poolMetaByte : Nat → Nat → Byte

/-- The whole part of a meter quantity where the model's interval evaluation cannot decide it (no samples for which that
happens are known). Log entry 5. -/
opaque realUndecided : Rat → Rat → Int

/-- A voltage sample that Table 13.7 asks of a time before the samples that R441 discards: the k-th of a window. Log entry 31. -/
opaque earlierSample : Nat → Nat → Rat

/-! ### What is fused in the factory (Table 16.4, chapter 17). Log entry 28. -/

/-- SERIAL. -/
opaque serial : Nat
/-- DEVICE_KEY_SEED. -/
opaque deviceSeed : Nat
/-- BG_TRIM, KBG_TRIM and VLCD_TRIM, as CAL_BG holds them. -/
opaque bandGap : Nat
/-- The IRO set at 0, 70 and 105 °C, as CAL_IRO_FACT holds it. -/
opaque iroSet : Nat
/-- FACT_25 and FACT_85 of a sensor, as CAL_TS_s holds them. -/
opaque sensorSet : Nat → Nat
/-- PACE_FACT of a tile. -/
opaque tilePace : Nat → Nat
/-- TRIM_FACT of a tile; the factory value lies from 2 to 11. -/
opaque tileTrim : Nat → Nat
/-- TRIM_FACT of the real-time clock. -/
opaque rtcTrim : Nat

end Sys2Proof.Config
end

