-- ==== Sys2Proof/Machine/Arith.lean ====
section
/-!
DEFINITION. One number format and exact arithmetic (chapter 02): BF16 classes, the pound, rounding to nearest even,
counter-based stochastic rounding, pairs, the correctly rounded functions and the arithmetic flags.
-/
namespace Sys2Proof.Machine

/-! ### Flag bits of GLB_ARITH_FLAGS (Table 2.7) -/

/-- NAN_SEEN, bit 0. -/
abbrev fNanSeen : Nat := 1
/-- INVALID, bit 1. -/
abbrev fInvalid : Nat := 2
/-- DIVZERO, bit 2. -/
abbrev fDivZero : Nat := 4
/-- OVERFLOW, bit 3. -/
abbrev fOverflow : Nat := 8
/-- TINY, bit 4. -/
abbrev fTiny : Nat := 16

/-! ### Exact reals -/

/-- 2 to an integer power. -/
def pow2 (z : Int) : Rat := if 0 ≤ z then mkRat (2 ^ z.toNat) 1 else mkRat 1 (2 ^ (-z).toNat)

/-- The integer `x` with `2^x ≤ a < 2^(x+1)`, for positive `a`. -/
def ilog2 (a : Rat) : Int :=
  let e : Int := (a.num.toNat.log2 : Int) - (a.den.log2 : Int)
  if pow2 e ≤ a then e else e - 1

/-- The absolute value of an exact real. -/
def rabs (v : Rat) : Rat := if v < 0 then -v else v

/-- The largest integer not above `v`. -/
def rfloor (v : Rat) : Int := Int.fdiv v.num v.den

/-- An integer as an exact real. -/
def ratOf (z : Int) : Rat := mkRat z 1

/-! ### BF16 (R42, R45) -/

/-- The canonical NaN (R45). -/
abbrev bfNan : Bf16 := 0x7FC0#16
/-- An infinity with the sign given. -/
def bfInf (neg : Bool) : Bf16 := if neg then 0xFF80#16 else 0x7F80#16
/-- A zero with the sign given. -/
def bfZero (neg : Bool) : Bf16 := if neg then 0x8000#16 else 0#16
/-- 1.0. -/
abbrev bfOne : Bf16 := 0x3F80#16

/-- The value of a BF16 bit pattern (R42, Table 2.1); subnormals at their exact value (R43). -/
def bfVal (b : Bf16) : Val :=
  let n := b.toNat
  let s := bitOf n 15
  let e := bitsOf n 7 8
  let f := bitsOf n 0 7
  if e = 255 then (if f = 0 then .inf s else .nan true)
  else
    let m : Int := if e = 0 then f else 128 + f
    let E : Int := if e = 0 then 1 else e
    .fin s (ratOf (if s then -m else m) * pow2 (E - 134))

/-- True for a NaN pattern. -/
def bfIsNan (b : Bf16) : Bool := match bfVal b with | .nan _ => true | _ => false

/-- The sign of a value; of a zero, its sign bit. -/
def Val.isNeg : Val → Bool
  | .nan _ => false
  | .inf n => n
  | .fin n q => if q = 0 then n else decide (q < 0)

/-- The negated value. -/
def Val.negate : Val → Val
  | .nan s => .nan s
  | .inf n => .inf (!n)
  | .fin n q => if q = 0 then .fin (!n) 0 else .fin false (-q)

/-- An exact real as a value; a zero is +0. -/
def Val.ofRat (q : Rat) : Val := .fin false q

/-- A product of two terms under Table 2.3: ∞ × 0 is a NaN, signs combine by exclusive OR (R50, R51). -/
def Val.mul (a b : Val) : Val :=
  match a, b with
  | .nan s, .nan t => .nan (s || t)
  | .nan s, _ => .nan s
  | _, .nan t => .nan t
  | .inf n, .inf m => .inf (n != m)
  | .inf n, .fin m q => if q = 0 then .nan false else .inf (n != (Val.fin m q).isNeg)
  | .fin m q, .inf n => if q = 0 then .nan false else .inf (n != (Val.fin m q).isNeg)
  | .fin n p, .fin m q => .fin ((Val.fin n p).isNeg != (Val.fin m q).isNeg) (p * q)

/-! ### The pound (R47 to R56) -/

/-- A cleared pound (R50). -/
def Pound.empty : Pound := {}

/-- A term is added to a pound (R48, R50, R51). -/
def Pound.add (p : Pound) (v : Val) : Pound :=
  let negZ := match v with | .fin n q => decide (q = 0) && n | _ => false
  let p := { p with any := true, allNegZ := negZ && (!p.any || p.allNegZ) }
  match v with
  | .nan s => { p with nan := true, seen := p.seen || s }
  | .inf true => { p with ninf := true }
  | .inf false => { p with pinf := true }
  | .fin _ q => { p with q := p.q + q }

/-- A pound image is added to a pound (R54, R51). -/
def Pound.merge (a b : Pound) : Pound :=
  { q := a.q + b.q, nan := a.nan || b.nan, seen := a.seen || b.seen, pinf := a.pinf || b.pinf,
    ninf := a.ninf || b.ninf, any := a.any || b.any,
    allNegZ := (a.any || b.any) && (!a.any || a.allNegZ) && (!b.any || b.allNegZ) }

/-- The value a pound stands for, before rounding (R52, R53). -/
def Pound.val (p : Pound) : Val :=
  if p.nan then .nan p.seen
  else if p.pinf && p.ninf then .nan p.seen
  else if p.pinf then .inf false
  else if p.ninf then .inf true
  else if p.q = 0 then .fin p.allNegZ 0
  else .fin false p.q

/-- The sum of a list of terms. -/
def poundOf (ts : List Val) : Pound := ts.foldl Pound.add Pound.empty

/-- The exact sum of two values, as terms added into a pound (R121). -/
def Val.plus (a b : Val) : Val := (poundOf [a, b]).val

/-- The pound an 80-byte image holds (R54, R55); `n` is the image as a little-endian number. A NaN-flagged image
counts as a NaN input when it is read (R70). -/
def poundOfImage (n : Nat) : Pound :=
  let any := bitOf n 579
  { q := ratOf (signed 576 n) * pow2 (-266), nan := bitOf n 576, seen := bitOf n 576, pinf := bitOf n 577,
    ninf := bitOf n 578, any := any, allNegZ := any && bitOf n 580 }

/-- The 80-byte image of a pound, as a little-endian number (R54, Table 2.4). DESIGN CHOICE (log entry 90): a sum that software lets
leave the 576 bits, against R56, is unbounded for rounding and wraps modulo 2^576 in the image alone. -/
def imageOfPound (p : Pound) : Nat :=
  unsigned 576 (rfloor (p.q * pow2 266))
    + (b2n p.nan + 2 * b2n p.pinf + 4 * b2n p.ninf + 8 * b2n p.any + 16 * b2n (p.any && p.allNegZ)) * 2 ^ 576

/-! ### Round to nearest even (R57) -/

/-- The magnitude bits of `k × 2^(x-7)`, with `k` up to 256. -/
def magBits (k : Nat) (x : Int) : Nat := if k < 128 then k else (x + 127).toNat * 128 + (k - 128)

/-- The magnitude bits of the rounding of a positive real that lies infinitesimally below (`side < 0`), at
(`side = 0`) or above (`side > 0`) `a`. At `side = 0` this is R57. -/
def rneMag (a : Rat) (side : Int) : Nat :=
  let top := pow2 128 - pow2 119
  if top < a ∨ (a = top ∧ 0 ≤ side) then 0x7F80
  else
    let x := max (ilog2 a) (-126)
    let y := a * pow2 (7 - x)
    let k := (rfloor y).toNat
    let r := y - ratOf k
    let up := decide (mkRat 1 2 < r) || (decide (r = mkRat 1 2) && (decide (0 < side) || (decide (side = 0) && k % 2 == 1)))
    magBits (if up then k + 1 else k) x

/-- `rneMag` with the sign of the real. A zero lies on the side given. -/
def rneDir (v : Rat) (side : Int) : Bf16 :=
  if v = 0 then bfZero (decide (side < 0))
  else if v < 0 then BitVec.ofNat 16 (0x8000 + rneMag (-v) (-side))
  else BitVec.ofNat 16 (rneMag v side)

/-- `rne` (R57). -/
def rne (v : Rat) : Bf16 := rneDir v 0

/-- The flags of a rounding of a nonzero exact value (R70, Table 2.7). -/
def roundFlags (b : Bf16) : Nat :=
  let m := bitsOf b.toNat 0 15
  if m = 0x7F80 then fOverflow else if m < 0x80 then fTiny else 0

/-- The result and flags of a NaN (R45, R70). -/
def nanResult (seen : Bool) : Bf16 × Nat := (bfNan, if seen then fNanSeen else fInvalid)

/-- A value rounded by `rne` under R52, R53 and R57, with the flags it raises. -/
def rneVal : Val → Bf16 × Nat
  | .nan s => nanResult s
  | .inf n => (bfInf n, 0)
  | .fin n q => if q = 0 then (bfZero n, 0) else (rne q, roundFlags (rne q))

/-! ### Counter-based stochastic rounding (R58) -/

/-- One round of Philox4x32. -/
def philoxRound (c : Nat × Nat × Nat × Nat) (k : Nat × Nat) : Nat × Nat × Nat × Nat :=
  let (c0, c1, c2, c3) := c
  let p0 := 0xD2511F53 * c0
  let p1 := 0xCD9E8D57 * c2
  ((p1 / 2 ^ 32) ^^^ c1 ^^^ k.1, p1 % 2 ^ 32, (p0 / 2 ^ 32) ^^^ c3 ^^^ k.2, p0 % 2 ^ 32)

/-- `n` rounds of Philox4x32 with the key increments of R58 between them. -/
def philoxRounds : Nat → (Nat × Nat × Nat × Nat) → (Nat × Nat) → Nat × Nat × Nat × Nat
  | 0, c, _ => c
  | n + 1, c, k =>
    philoxRounds n (philoxRound c k) ((k.1 + 0x9E3779B9) % 2 ^ 32, (k.2 + 0xBB67AE85) % 2 ^ 32)

/-- Philox4x32-10 with the key and counter layout of R58. -/
def philoxDraw (seed inst idx site : Nat) : Nat × Nat × Nat × Nat :=
  philoxRounds 10 (bitsOf idx 0 32, bitsOf idx 32 16 + (site % 2 ^ 16) * 2 ^ 16, bitsOf inst 0 32, bitsOf inst 32 32)
    (bitsOf seed 0 32, bitsOf seed 32 32)

/-- The draw inputs of one output element (R59). -/
structure Draw where
  seed : Nat
  inst : Nat
  idx : Nat
  site : Nat
deriving DecidableEq, Repr

/-- `rsr` of a positive real below 2^128, as magnitude bits, with `neg` telling whether the value itself is
negative (the neighbours then change places). -/
def rsrMag (a : Rat) (neg : Bool) (d : Draw) : Nat :=
  let x := max (ilog2 a) (-126)
  let y := a * pow2 (7 - x)
  let k := (rfloor y).toNat
  let r := y - ratOf k
  if r = 0 then magBits k x
  else
    let frac := (rfloor ((if neg then 1 - r else r) * pow2 32)).toNat
    let x0 := (philoxDraw d.seed d.inst d.idx d.site).1
    let toB := decide (x0 < frac)
    magBits (if toB != neg then k + 1 else k) x

/-- `rsr` (R58) of a nonzero exact value. A chosen zero has the sign of the value. -/
def rsr (v : Rat) (d : Draw) : Bf16 :=
  let neg := decide (v < 0)
  let a := rabs v
  let m := if pow2 128 ≤ a then 0x7F80 else rsrMag a neg d
  BitVec.ofNat 16 (m + (if neg then 0x8000 else 0))

/-- A value rounded by `rsr`, with the flags it raises. -/
def rsrVal (d : Draw) : Val → Bf16 × Nat
  | .nan s => nanResult s
  | .inf n => (bfInf n, 0)
  | .fin n q => if q = 0 then (bfZero n, 0) else (rsr q d, roundFlags (rsr q d))

/-- The eligible output rounding point `out` (chapter 04): `rsr` with a draw, `rne` without. -/
def outVal (d : Option Draw) (v : Val) : Bf16 × Nat :=
  match d with
  | some d => rsrVal d v
  | none => rneVal v

/-! ### Pairs (R62 to R66) -/

/-- A pair formed from a value (R62, R63): hi, lo and the flags of the two roundings. -/
def pairVal (v : Val) : Bf16 × Bf16 × Nat :=
  let (hi, f) := rneVal v
  match v, bfVal hi with
  | .fin _ q, .fin _ h =>
    if q = 0 ∨ h = 0 ∨ q = h then (hi, 0#16, f)
    else (hi, rne (q - h), f ||| (if roundFlags (rne (q - h)) = fTiny then fTiny else 0))
  | _, _ => (hi, 0#16, f)

/-- The two terms of a pair source (R65, R66). -/
def pairTerms (hi lo : Bf16) : List Val := [bfVal hi, bfVal lo]

/-! ### Correctly rounded functions (R67 to R69)

A function of Table 2.5 at an exact argument is evaluated to `p` fractional bits with an error far below `crSlack`
units; the result is taken when both ends of that interval round alike. -/

/-- A real as a fixed-point integer with `p` fractional bits, rounded down. -/
def fx (v : Rat) (p : Nat) : Int := rfloor (v * pow2 p)

/-- Integer square root by Newton's steps from above. -/
def isqrtStep (n : Nat) : Nat → Nat → Nat
  | 0, x => x
  | f + 1, x => let y := (x + n / x) / 2; if y < x then isqrtStep n f y else x

/-- The integer square root. -/
def isqrt (n : Nat) : Nat := if n = 0 then 0 else isqrtStep n 64 (2 ^ (n.log2 / 2 + 1))

/-- The Taylor sum of e^y, with `t` the current term. -/
def expTaylor (y : Int) (p : Nat) : Nat → Nat → Int → Int → Int
  | 0, _, _, acc => acc
  | f + 1, n, t, acc =>
    let t' := (t * y) / 2 ^ p / (n : Int)
    if t' = 0 then acc else expTaylor y p f (n + 1) t' (acc + t')

/-- Repeated squaring. -/
def sqTimes (p : Nat) : Nat → Int → Int
  | 0, x => x
  | n + 1, x => sqTimes p n ((x * x) / 2 ^ p)

/-- e^x for a fixed-point x with |x| at most 512. -/
def expFx (x : Int) (p : Nat) : Int :=
  let a := if x < 0 then -x else x
  let e := sqTimes p 12 (expTaylor (a / 4096) p p 1 (2 ^ p) (2 ^ p))
  if x < 0 then (2 ^ (2 * p) : Int) / e else e

/-- The series of atanh (`alt = false`) or atan (`alt = true`) of a fixed-point z below 1/2. -/
def atSeries (z2 : Int) (p : Nat) (alt : Bool) : Nat → Nat → Int → Int → Int
  | 0, _, _, acc => acc
  | f + 1, n, t, acc =>
    if t = 0 then acc
    else atSeries z2 p alt f (n + 2) ((if alt then -(t * z2) else t * z2) / 2 ^ p) (acc + t / (n : Int))

/-- atanh or atan of a fixed-point z below 1/2. -/
def atFx (z : Int) (p : Nat) (alt : Bool) : Int := atSeries ((z * z) / 2 ^ p) p alt p 1 z 0

/-- ln 2. -/
def ln2Fx (p : Nat) : Int := 2 * atFx (fx (mkRat 1 3) p) p false

/-- ln a for a positive real. -/
def lnFx (a : Rat) (p : Nat) : Int :=
  let e := ilog2 a
  let m := a * pow2 (-e)
  2 * atFx (fx ((m - 1) / (m + 1)) p) p false + e * ln2Fx p

/-- π. -/
def piFx (p : Nat) : Int := 16 * atFx (fx (mkRat 1 5) p) p true - 4 * atFx (fx (mkRat 1 239) p) p true

/-- The alternating Taylor sum of sin (starting at n = 1) or cos (starting at n = 0). -/
def trigTaylor (r2 : Int) (p : Nat) : Nat → Nat → Int → Int → Int
  | 0, _, _, acc => acc
  | f + 1, n, t, acc =>
    let t' := -((t * r2) / 2 ^ p / (((n + 1) * (n + 2) : Nat) : Int))
    if t' = 0 ∨ t' = -1 then acc else trigTaylor r2 p f (n + 2) t' (acc + t')

/-- sin x or cos x of an exact argument, reduced exactly (R67). -/
def trigFx (isCos : Bool) (x : Rat) (p : Nat) : Int :=
  let g := x.num.natAbs.log2 + p
  let tau := 2 * piFx g
  let xf := fx x g
  let r := (xf - (Int.fdiv xf tau) * tau) / 2 ^ (g - p)
  let r2 := (r * r) / 2 ^ p
  if isCos then trigTaylor r2 p p 0 (2 ^ p) (2 ^ p) else trigTaylor r2 p p 1 r r

/-- The series of erf: terms (-1)^n z^(2n+1) / (n! (2n+1)). -/
def erfSeries (z2 : Int) (p : Nat) : Nat → Nat → Int → Int → Int
  | 0, _, _, acc => acc
  | f + 1, n, t, acc =>
    let t' := -((t * z2) / 2 ^ p / ((n + 1 : Nat) : Int))
    if t' = 0 ∨ t' = -1 then acc else erfSeries z2 p f (n + 1) t' (acc + t' / ((2 * n + 3 : Nat) : Int))

/-- erf of a fixed-point z with |z| at most 20. -/
def erfFx (z : Int) (p : Nat) : Int :=
  let s := erfSeries ((z * z) / 2 ^ p) p (2 * p) 0 z z
  (2 * s * 2 ^ p) / (isqrt ((piFx p).toNat * 2 ^ p) : Int)

/-- The error bound, in units of the last fractional bit, that the evaluation below stays well within. -/
def crSlack : Int := 2 ^ 640

/-- An open interval that holds f(x), for a finite nonzero x at which f(x) is irrational. -/
def crInterval (f : Fn) (x : Rat) (p : Nat) : Rat × Rat :=
  let u := pow2 (-250)
  let ball (c : Int) : Rat × Rat := (mkRat (c - crSlack) (2 ^ p), mkRat (c + crSlack) (2 ^ p))
  let big := (pow2 128, pow2 129)
  let X := fx x p
  let one : Int := 2 ^ p
  match f with
  | .exp => if 128 < x then big else if x < -200 then (0, u) else ball (expFx X p)
  | .exp2 => if 200 < x then big else if x < -300 then (0, u) else ball (expFx (fx (x * mkRat (ln2Fx p) (2 ^ p)) p) p)
  | .log => ball (lnFx x p)
  | .log2 => ball (lnFx x p * one / ln2Fx p)
  | .tanh =>
    if 200 < x then (1 - u, 1) else if x < -200 then (-1, u - 1)
    else ball (one - 2 * one * one / (expFx (2 * X) p + one))
  | .sigmoid => if 200 < x then (1 - u, 1) else if x < -200 then (0, u) else ball (one * one / (one + expFx (-X) p))
  | .silu => if 200 < x then (x - u, x) else if x < -200 then (-u, 0) else ball (X * one / (one + expFx (-X) p))
  | .gelu =>
    if 20 < x then (x - u, x) else if x < -20 then (-u, 0)
    else ball (X * (one + erfFx (X * one / (isqrt (2 * 2 ^ (2 * p)) : Int)) p) / 2 / one)
  | .erf => if 20 < x then (1 - u, 1) else if x < -20 then (-1, u - 1) else ball (erfFx X p)
  | .softplus => if 200 < x then (x, x + u) else if x < -200 then (0, u) else ball (lnFx (1 + mkRat (expFx X p) (2 ^ p)) p)
  | .sin => ball (trigFx false x p)
  | .cos => ball (trigFx true x p)
  | .sqrt => let n := isqrt ((x * pow2 (2 * p)).num.toNat / (x * pow2 (2 * p)).den); (mkRat n (2 ^ p), mkRat (n + 1) (2 ^ p))
  | .rsqrt => let n := isqrt ((pow2 (2 * p) / x).num.toNat / (pow2 (2 * p) / x).den); (mkRat n (2 ^ p), mkRat (n + 1) (2 ^ p))
  | .recip => (1 / x, 1 / x)
  | .ident => (x, x)

/-- The first precision at which both ends round alike. -/
def crTry (f : Fn) (x : Rat) : List Nat → Option Bf16
  | [] => none
  | p :: ps =>
    let (lo, hi) := crInterval f x p
    if rneDir lo 1 = rneDir hi (-1) then some (rneDir lo 1) else crTry f x ps

/-- The exact value of f(x) where it is a rational number that the model knows, for a finite nonzero x. -/
def crExact (f : Fn) (x : Rat) : Option Rat :=
  let root (y : Rat) : Option Rat :=
    let n := isqrt y.num.toNat
    let d := isqrt y.den
    if n * n = y.num.toNat ∧ d * d = y.den then some (mkRat n d) else none
  match f with
  | .ident => some x
  | .recip => some (1 / x)
  | .sqrt => root x
  | .rsqrt => root (1 / x)
  | .exp2 => if x.den = 1 ∧ -400 < x ∧ x < 400 then some (pow2 x.num) else none
  | .log => if x = 1 then some 0 else none
  | .log2 => if 0 < x ∧ x = pow2 (ilog2 x) then some (ratOf (ilog2 x)) else none
  | _ => none

/-- rne(f(x)) with flags at a finite nonzero x inside the domain (R67, R121). -/
def crFinite (f : Fn) (x : Rat) : Bf16 × Nat :=
  match crExact f x with
  | some q => rneVal (.fin false q)
  | none =>
    let b := (crTry f x [2048, 4096, 8192]).getD (Config.crUndecided f x)
    (b, roundFlags b)

/-- A function of Table 2.5 with one argument at any value, by Table 2.6 (R67, R68, R121). -/
def fnVal (f : Fn) (v : Val) : Bf16 × Nat :=
  let invalid : Bf16 × Nat := (bfNan, fInvalid)
  match v with
  | .nan s => nanResult s
  | .inf n =>
    match f with
    | .ident => (bfInf n, 0)
    | .recip => (bfZero n, 0)
    | .sqrt => if n then invalid else (bfInf false, 0)
    | .rsqrt => if n then invalid else (bfZero false, 0)
    | .exp | .exp2 => if n then (bfZero false, 0) else (bfInf false, 0)
    | .log | .log2 => if n then invalid else (bfInf false, 0)
    | .tanh | .erf => if n then (0xBF80#16, 0) else (bfOne, 0)
    | .sigmoid => if n then (bfZero false, 0) else (bfOne, 0)
    | .silu | .gelu => if n then (bfZero true, 0) else (bfInf false, 0)
    | .softplus => if n then (bfZero false, 0) else (bfInf false, 0)
    | .sin | .cos => invalid
  | .fin n q =>
    if q = 0 then
      match f with
      | .ident | .sqrt | .tanh | .erf | .silu | .gelu | .sin => (bfZero n, 0)
      | .recip | .rsqrt => (bfInf n, fDivZero)
      | .exp | .exp2 | .cos => (bfOne, 0)
      | .log | .log2 => (bfInf true, fDivZero)
      | .sigmoid => (0x3F00#16, 0)
      | .softplus => (0x3F31#16, 0)
    else if q < 0 ∧ (f = .sqrt ∨ f = .rsqrt ∨ f = .log ∨ f = .log2) then invalid
    else crFinite f q

/-- DIV (R69): the quotient as a value, and the flags the special cases raise. The quotient of two finite nonzero
values is exact and is rounded by its user. -/
def divVal (x y : Val) : Val × Nat :=
  let s := x.isNeg != y.isNeg
  match x, y with
  | .nan a, .nan b => (.nan (a || b), 0)
  | .nan a, _ => (.nan a, 0)
  | _, .nan b => (.nan b, 0)
  | .inf _, .inf _ => (.nan false, 0)
  | .inf _, .fin _ _ => (.inf s, 0)
  | .fin _ _, .inf _ => (.fin s 0, 0)
  | .fin _ p, .fin _ q =>
    if q = 0 then (if p = 0 then (.nan false, 0) else (.inf s, fDivZero))
    else if p = 0 then (.fin s 0, 0)
    else (.fin false (p / q), 0)

/-- A function of Table 2.5 by its code (Table 4.5): 0 IDENT, then the order of Table 2.5 from RECIP. -/
def fnOfCode : Nat → Option Fn
  | 0 => some .ident | 1 => some .recip | 2 => some .sqrt | 3 => some .rsqrt | 4 => some .exp | 5 => some .exp2
  | 6 => some .log | 7 => some .log2 | 8 => some .tanh | 9 => some .sigmoid | 10 => some .silu | 11 => some .gelu
  | 12 => some .erf | 13 => some .softplus | 14 => some .sin | 15 => some .cos | _ => none

/-- IDX_TO_BF16 rounds an index by `rne` (R73). -/
def bfOfIndex (n : Nat) : Bf16 := rne (ratOf n)

end Sys2Proof.Machine
end

