-- ==== Sys2Proof/Machine/State.lean ====
section
/-!
DEFINITION. The state of the device: its registers, its HBM, the state its engines hold behind the registers, what it has
sent out, and the queue of waiting commands. Every field is plain data; every default is the value after reset.
-/
namespace Sys2Proof.Machine

/-- Why a step can stop with a fault. No meaning of this model raises one: the spec gives every command of the table
an effect, and a command that cannot arise in a state changes nothing (log entry 2). -/
inductive Fault where
  /-- Raised by nobody; it stands for a state that the model's own data forms exclude. Safe. -/
  | malformedState
deriving DecidableEq, Repr

/-- Why a step can be refused. -/
inductive Refusal where
  /-- The command has no meaning in the model, by name. Safe. -/
  | notModelled (mnemonic : String)
deriving DecidableEq, Repr

/-! ### Readers of the control space (chapter 00) -/

/-- A reader's read shadow (R12, R13): the register it came from and the high word captured. -/
structure Shadow where
  reg : Nat
  high : Nat
deriving DecidableEq, Repr

/-- What each of the 19 readers owns (R11, R12, R19, R20); the maps are keyed by the reader's number (R631). -/
structure Readers where
  shadow : Map Shadow := []
  stage : Map Shadow := []
  unpaired : List Nat := []
deriving DecidableEq, Repr

/-! ### Queues and copy engines (chapter 06) -/

/-- How an entry ended (Table 6.5). -/
structure Fin where
  status : Nat
  flags : Nat := 0
  detail : Nat := 0
deriving DecidableEq, Repr

/-- How far an entry has come. A wait counts the time marks after the tick it began (R109). -/
inductive EStage where
  | fetched
  | gateWait (marks since : Nat)
  | running
  | abortTag
deriving DecidableEq, Repr

/-- A submission entry that the device has taken up and whose completion it still owes (R189 to R192). -/
structure Entry where
  idx : Nat
  bytes : Nat := 0
  stage : EStage := .fetched
  fin : Option Fin := none
deriving DecidableEq, Repr

/-- A codec table as its user captured it (R224, R231): its number, lengths, and whether it was SURVEYING. -/
structure Captured where
  table : Nat
  lens : List Nat
  surveying : Bool
deriving DecidableEq, Repr

/-- An operator that executes: what it captured at acceptance (R59, R224), its tiles, the index elements, row parameters and
page lists that its data check read (by tensor; a page list at 8 + row), and a tile fault that has reached it (R76, R89). -/
structure RunOp where
  seed : Nat
  tiles : List Nat
  tables : Map Captured := []
  idx : Map (List Nat) := []
  faulted : Bool := false
deriving DecidableEq, Repr

/-- The stage of R105 that a program's current operator is in. -/
inductive PStage where
  | read
  | gateWait (marks since : Nat)
  | running (r : RunOp)
  | remote (seq gen : Nat)
deriving DecidableEq, Repr

/-- An operator program under way (R103 to R107): its extent, the offset of the current operator, that operator's
descriptor as it was read (R105 stage 1), and the OR of the flags raised. -/
structure Prog where
  addr : Nat
  len : Nat
  pos : Nat := 0
  desc : Nat := 0
  flags : Nat := 0
  stage : PStage := .read
deriving DecidableEq, Repr

/-- The state of a queue pair behind its card (R177, R181, R190 to R195). `sqTail` and `cqHead` are the values last
accepted at the doorbell; `lastOk`, `lastStatus` and `lastIdx` tell how the last completion ended and which SQ slot it was for; `posted` counts completions posted and not yet consumed; `owed` holds the entries taken up;
`closing` tells that the queue becomes DISABLED once what it owes is posted (R206, R207); `dead` that a completion write
was refused, so that none is posted any more (R210). -/
structure Queue where
  sqTail : Nat := 0
  cqHead : Nat := 0
  nextFetch : Nat := 0
  posted : Nat := 0
  owed : List Entry := []
  lastOk : Bool := true
  lastStatus : Nat := 0
  lastIdx : Option Nat := none
  prog : Option Prog := none
  sinceMsg : Nat := 0
  oldest : Option Nat := none
  closing : Bool := false
  dead : Bool := false
deriving DecidableEq, Repr

/-- A COPY entry on a copy engine (Table 6.6): its fields, the table captured, the bytes of the transfer already cut into
blocks, the destination bytes written or acknowledged, the barges sent and not yet acknowledged (flow sequence and
bytes), and the first status that stopped it. -/
structure CopyRun where
  q : Nat
  src : Nat
  dst : Nat
  remote : Bool
  destChip : Nat
  rowBytes : Nat
  rows : Nat
  srcStride : Int
  dstStride : Int
  cmode : Nat
  cls : Nat
  table : Option Captured := none
  pos : Nat := 0
  detail : Nat := 0
  inFlight : List (Nat × Nat) := []
  poisoned : Bool := false
  stop : Option Nat := none
deriving DecidableEq, Repr

/-- The turn of an engine's weighted round robin (R196, R197): the basin visited, the grants it has had in this visit, and
the queue granted last at each (basin, level), keyed by 4 × basin + level. -/
structure Turn where
  basin : Nat := 0
  used : Nat := 0
  last : Map Nat := []
deriving DecidableEq, Repr

/-- The queues, the copy engines and the engines' turns. What the engines hold is keyed by engine; a copy that has been set aside between two
blocks (R198) by 16 + its queue. Turns are keyed by the queue kind (Table 6.1), and by 4 for the taking up of entries by copy
engines. -/
structure Work where
  queues : Map Queue := []
  engines : Map CopyRun := []
  turns : Map Turn := []
deriving DecidableEq, Repr

/-! ### Memory, codec and tiles (chapters 03, 05, 07) -/

/-- A retirement that is due or under way (R156, R157): page address, cause and failing sector's event. -/
structure Retire where
  page : Nat
  cause : Nat
  ev : EccEvent
deriving DecidableEq, Repr

/-- What the HBM controller tracks: ticks of correctable errors of the 64 most recently affected pages (R156), newest
page first; the remap under way and those waiting (R157). -/
structure Hbm where
  ceTrack : List (Nat × List Nat) := []
  remap : Option (Retire × Nat) := none
  waiting : List Retire := []
deriving DecidableEq, Repr

/-- The codec: the pages in CODED form (R213), the lengths of each table (R217), each basin's survey histogram keyed by
256 × basin + symbol (R230), and the table each basin surveys. -/
structure Codec where
  coded : List Nat := []
  tables : Map (List Nat) := []
  hist : Map Nat := []
deriving DecidableEq, Repr

/-- Per-tile state behind PAC_TILE_t: the basin whose operator it last ran, and the basin whose working data its SRAM and pounds hold (R163),
adaptive steps pending (R88), consecutive low decisions (Table 3.7). -/
structure Tile where
  lastBasin : Option Nat := none
  holds : Option Nat := none
  pendingTrim : Nat := 0
  lowRuns : Nat := 0
deriving DecidableEq, Repr

/-- The pace controller behind its registers (R82 to R95); `stopDue` holds the tile stoppages due, with the ticks of their
slots (R593). -/
structure Pace where
  tiles : Map Tile := []
  stopDue : List (Nat × Nat) := []
  belowRuns : Nat := 0
  pmbFails : Nat := 0
  marks : Nat := 0
deriving DecidableEq, Repr

/-! ### Fault collector (chapter 18) -/

/-- A count of events at a source and unit (R577). -/
structure Count where
  n : Nat
  start : Nat
deriving DecidableEq, Repr

/-- A capture record (Table 18.2). -/
structure Capture where
  tick : Nat
  source : Nat
  flags : Nat
  unit : Nat
  count : Nat
  reactions : Nat
deriving DecidableEq, Repr

/-- The collector behind its registers: the count of (s, u), keyed by 65,536 × s + u; the rail pairs found equal at the
last mark, and those it ignores (R576); the captures of each group, oldest first. -/
structure Collector where
  counts : Map Count := []
  railsEqual : List Nat := []
  ignored : List Nat := []
  caps : Map (List Capture) := []
deriving DecidableEq, Repr

/-! ### Host and board (chapter 19) -/

/-- One MSI-X table entry. -/
structure Vec where
  addr : Nat := 0
  data : Nat := 0
  masked : Bool := true
deriving DecidableEq, Repr

/-- The endpoint behind its registers: functions keyed by number, MSI-X entries and pending bits keyed by 64 × function +
vector, SR-IOV and request-size fields of PF0, the bus
address of BAR4, the outbound reads, and Device Control 2 [4:0] of PF0 (R608). -/
structure Pci where
  fns : Map PciFn := []
  vecs : Map Vec := []
  pending : List Nat := []
  vfEnable : Bool := false
  numVfs : Nat := 0
  mps : Nat := 128
  mrrs : Nat := 512
  tag10 : Bool := false
  reads : List OutRead := []
  bar4 : Nat := 0
  cto : Nat := 0
deriving DecidableEq, Repr

/-! ### Resets that are due -/

/-- What has been caused and waits for its own step: a CHIP_RESET with its cause and source (R532), basin resets (R165),
BLOCK_RESETs (R579), and lanes (4 × port + lane) that leave their port under R248. -/
structure Due where
  chip : Option (Nat × Nat) := none
  basins : List Nat := []
  blocks : List Block := []
  lanes : List Nat := []
deriving DecidableEq, Repr

/-! ### The whole machine -/

/-- The state that the engines hold behind the registers. -/
structure Dev where
  readers : Readers := {}
  work : Work := {}
  hbm : Hbm := {}
  codec : Codec := {}
  pace : Pace := {}
  flt : Collector := {}
  pci : Pci := {}
  whf : Wharf := {}
  fab : Fabric := {}
  rnk : Ranks := {}
  srv : Serve := {}
  due : Due := {}
  jrn : List JReq := []
  clk : Clk := {}
  flash : Flash := {}
  mtr : Mtr := {}
  tol : Tol := {}
  keep : Keeper := {}
  lcd : Lcd := {}
  img : Img := {}
  cal : Cal := {}
  board : Board := {}
deriving DecidableEq, Repr

/-- What the device sends out. -/
inductive Output where
  /-- A read's answer to a reader. -/
  | readData (rd off v : Nat)
  /-- An Unsupported Request completion. -/
  | unsupportedRequest (rd : Nat)
  /-- An outbound memory-write TLP, by function and bus address (R606). -/
  | memWrite (fn addr : Nat) (data : List Byte)
  /-- An outbound read request, by function, bus address and length. -/
  | memRead (fn addr len : Nat)
  /-- The data of a completion to an inbound read of BAR4. -/
  | tlpData (rid off : Nat) (data : List Byte)
  /-- A frame on an Ibern port: a control frame or a barge frame (R242). -/
  | frame (port : Nat) (data : List Byte)
  /-- An MSI-X message (R667). -/
  | msix (fn vec : Nat)
  /-- A message of a FIRMWARE barge, handed to the control cores. -/
  | firmware (src : Nat) (data : List Byte)
  /-- A non-maskable interrupt of control core 0 (R579). -/
  | nmi
  /-- FAULT_N driven (true) or released (R581). -/
  | faultPin (low : Bool)
  /-- The PEC that the I²C target sends after a Block Read, where the master acknowledges the last data byte (R618). -/
  | smbusPec (pec : Nat)
  /-- A VOUT_COMMAND word sent to the regulator at an address (R622, R623). -/
  | voltage (addr word : Nat)
deriving DecidableEq, Repr

/-- The machine. `now` is the timebase (R427). `regs` holds the value of every register that differs from its reset value,
keyed by offset; `gates` the nonzero gate counters, keyed by 256 × basin + gate; `mem` the nonzero bytes of HBM by device
address; `poison` the poisoned sectors. `out` is what the device has sent, newest first. `freeCount` is the model's own
field: it counts the free values taken. `pending` is the queue of commands that wait, first in first out. -/
structure State where
  now : Nat := 0
  regs : Map Word64 := []
  gates : Map Nat := []
  mem : List Host.Cell := []
  poison : List Nat := []
  dev : Dev := {}
  out : List Output := []
  freeCount : Nat := 0
  pending : List Instr := []
deriving DecidableEq, Repr

/-- The machine right after reset: nothing powered, every register at its reset value (R4), no byte of HBM listed. -/
def State.reset : State := {}

end Sys2Proof.Machine
end

