-- ==== Sys2Proof/Machine/Ops.lean ====
section
/-!
DEFINITION. The named operations over the machine's state: sparse maps, registers, gate counters, HBM bytes, and the
effects that every meaning is built from.
-/
namespace Sys2Proof.Machine

/-! ### Sparse data in canonical form -/

/-- The value at a key. -/
def mget? {α : Type} (m : Map α) (k : Nat) : Option α :=
  match m with
  | [] => none
  | (k', v) :: rest => if k' = k then some v else mget? rest k

/-- The value at a key, or the default. -/
def mget {α : Type} (d : α) (m : Map α) (k : Nat) : α := (mget? m k).getD d

/-- The map without a key. -/
def mdel {α : Type} (m : Map α) (k : Nat) : Map α := m.filter fun e => e.1 != k

/-- The map with a value at a key, keys rising. -/
def mput {α : Type} (m : Map α) (k : Nat) (v : α) : Map α :=
  match m with
  | [] => [(k, v)]
  | (k', w) :: rest =>
    if k' = k then (k, v) :: rest
    else if k < k' then (k, v) :: (k', w) :: rest
    else (k', w) :: mput rest k v

/-- The map with a value at a key, where the default is not listed. -/
def mset {α : Type} [DecidableEq α] (d : α) (m : Map α) (k : Nat) (v : α) : Map α :=
  if v = d then mdel m k else mput m k v

/-- Keys strictly rising and all above a bound. -/
def mrising {α : Type} : Nat → Map α → Bool
  | _, [] => true
  | b, (k, _) :: rest => decide (b ≤ k) && mrising (k + 1) rest

/-- The canonical form of a sparse map whose unlisted keys read `d k`. -/
def mwf {α : Type} [DecidableEq α] (d : Nat → α) (m : Map α) : Bool :=
  mrising 0 m && m.all (fun e => decide (e.2 ≠ d e.1))

/-- A sorted list with an element. -/
def sins (l : List Nat) (x : Nat) : List Nat :=
  match l with
  | [] => [x]
  | y :: rest => if x = y then l else if x < y then x :: l else y :: sins rest x

/-- A list without an element. -/
def sdel (l : List Nat) (x : Nat) : List Nat := l.filter (fun y => y != x)

/-! ### Registers -/

/-- The value of a register (its own offset, never a high word). -/
def State.reg (s : State) (off : Nat) : Word64 := mget (regReset off) s.regs off

/-- A field of a register. -/
def State.fld (s : State) (off lo w : Nat) : Nat := bitsOf (s.reg off).toNat lo w

/-- A bit of a register. -/
def State.bit (s : State) (off i : Nat) : Bool := bitOf (s.reg off).toNat i

/-- A gate counter of a basin (chapter 04). -/
def State.gate (s : State) (b g : Nat) : Nat := mget 0 s.gates (256 * b + g)

/-! ### HBM bytes -/

/-- The number of bytes of HBM (R135). -/
abbrev hbmSize : Nat := 0x000600000000

/-- A byte of HBM as stored. A byte that nothing has written reads 0 (log entry 3; after R162 every byte is 0). -/
def State.byte (s : State) (a : Nat) : Byte := mget 0#8 s.mem a

/-- Bytes of HBM as stored. -/
def State.bytes (s : State) (a n : Nat) : List Byte := (List.range n).map (fun i => s.byte (a + i))

/-- A little-endian number in HBM. -/
def State.num (s : State) (a n : Nat) : Nat := leNat (s.bytes a n)

/-- Bytes written one by one. -/
def memWrite (m : List Host.Cell) (a : Nat) : List Byte → List Host.Cell
  | [] => m
  | b :: bs => memWrite (mset 0#8 m a b) (a + 1) bs

/-- The canonical form of the memory. -/
def Memory.wf (m : List Host.Cell) : Bool := mwf (fun _ => 0#8) m

/-! ### The primitive updates -/

/-- The updates that every effect of a command is made of. -/
inductive Act where
  /-- The timebase steps forward to a value; nothing lowers it (R427). -/
  | raiseNow (t : Nat)
  /-- A register takes a value. -/
  | setReg (off : Nat) (v : Word64)
  /-- A gate counter is raised to a value; it never falls (R113). -/
  | raiseGate (b g v : Nat)
  /-- Bytes of HBM are written; there is nothing beyond its last byte (R135). -/
  | store (a : Nat) (bs : List Byte)
  /-- A sector becomes poisoned, or its poison is cleared. -/
  | poison (sector : Nat) (on : Bool)
  /-- The engines' state changes. -/
  | dev (f : Dev → Dev)
  /-- Something is sent out. -/
  | emit (o : Output)
  /-- A free value is taken. -/
  | free
  /-- A reset returns the registers for which `hit` holds to their reset values (R9). -/
  | resetRegs (hit : Nat → Bool)
  /-- HBM is written zero throughout with valid codes (R162). -/
  | zeroHbm
  /-- Bytes of HBM become zero with valid codes (R166). -/
  | zeroRange (a n : Nat)

/-- One primitive update. -/
def Act.run (s : State) : Act → State
  | .raiseNow t => { s with now := max s.now (t % 2 ^ 64) }
  | .setReg off v => { s with regs := mset (regReset off) s.regs off v }
  | .raiseGate b g v => { s with gates := mset 0 s.gates (256 * b + g) (max (s.gate b g) (min v (2 ^ 64 - 1))) }
  | .store a bs => { s with mem := memWrite s.mem a (bs.take (hbmSize - a)) }
  | .poison sec on => { s with poison := if on then sins s.poison sec else sdel s.poison sec }
  | .dev f => { s with dev := f s.dev }
  | .emit o => { s with out := o :: s.out }
  | .free => { s with freeCount := s.freeCount + 1 }
  | .resetRegs hit => { s with regs := s.regs.filter fun e => !hit e.1 }
  | .zeroHbm => { s with mem := [], poison := [] }
  | .zeroRange a n =>
    { s with
      mem := s.mem.filter fun e => !(decide (a ≤ e.1) && decide (e.1 < a + n))
      poison := s.poison.filter fun p => !(decide (a ≤ p) && decide (p < a + n)) }

/-- An effect: a program of primitive updates that may look at the state it has reached. -/
inductive Eff where
  | skip
  | act (a : Act)
  | andThen (e f : Eff)
  | read (k : State → Eff)

/-- The state after an effect. -/
def Eff.run : Eff → State → State
  | .skip, s => s
  | .act a, s => a.run s
  | .andThen e f, s => f.run (e.run s)
  | .read k, s => (k s).run s

/-- Effects in order. -/
def Eff.all : List Eff → Eff
  | [] => .skip
  | [e] => e
  | e :: es => .andThen e (Eff.all es)

/-- An effect under a condition. -/
def Eff.when (c : Bool) (e : Eff) : Eff := if c then e else .skip

/-- An effect for each element of a list, in order. -/
def Eff.each {α : Type} (xs : List α) (f : α → Eff) : Eff := Eff.all (xs.map f)

/-- The outcome of a command whose effect is total. -/
def Eff.done (e : Eff) (s : State) : Host.Outcome State Fault Refusal := .next (e.run s)

/-! ### Named effects -/

/-- A register takes a value. -/
def setReg (off : Nat) (v : Word64) : Eff := .act (.setReg off v)
/-- A register takes a number. -/
def putReg (off v : Nat) : Eff := .act (.setReg off (w64 v))
/-- A field of a register takes a number. -/
def putFld (off lo w x : Nat) : Eff := .read fun s => setReg off (setFld (s.reg off) lo w x)
/-- A bit of a register. -/
def putBit (off i : Nat) (b : Bool) : Eff := putFld off i 1 (b2n b)
/-- A counter register rises, saturating at `w` bits. -/
def bumpReg (off w n : Nat) : Eff := .read fun s => putReg off (satAdd w (s.reg off).toNat n)
/-- A counter field rises, saturating. -/
def bumpFld (off lo w n : Nat) : Eff := .read fun s => putFld off lo w (satAdd w (s.fld off lo w) n)
/-- The engines' state changes. -/
def onDev (f : Dev → Dev) : Eff := .act (.dev f)
/-- Something is sent out. -/
def emit (o : Output) : Eff := .act (.emit o)
/-- A free value is taken and used (log entry 4). -/
def withFree (k : Nat → Eff) : Eff := .read fun s => .andThen (.act .free) (k (Config.freeValue s.freeCount))

end Sys2Proof.Machine
end

