-- ==== Sys2Proof/Machine/Faults.lean ====
section
/-!
DEFINITION. The fault collector (chapter 18): counting, trips, captures, reactions and FAULT_N; the MSI-X rules (R667) and
the journal requests that retirements make.
-/
namespace Sys2Proof.Machine

/-! ### Interrupt messages (R602, R667) -/

/-- The function of basin b exists (R602). -/
def State.fnExists (s : State) (f : Nat) : Bool :=
  f == 0 || (s.dev.pci.vfEnable && decide (f ≤ s.dev.pci.numVfs))

/-- The function state of a function. -/
def State.fn (s : State) (f : Nat) : PciFn := mget {} s.dev.pci.fns f

/-- The link is DL_Active (PCI_LINK). -/
def State.dlActive (s : State) : Bool := s.bit rPciLink 8

/-- Outbound accesses of the function go out (R607). -/
def State.busMaster (s : State) (f : Nat) : Bool := s.fnExists f && (s.fn f).bme

/-- A message on the vector would be sent now (R667). -/
def State.msixOpen (s : State) (f v : Nat) : Bool :=
  (s.fn f).msix && !(s.fn f).mask && !(mget {} s.dev.pci.vecs (64 * f + v)).masked && (s.fn f).bme && s.dlActive

/-- The pending bits change. -/
def onPending (g : List Nat → List Nat) : Eff :=
  onDev fun d => { d with pci := { d.pci with pending := g d.pci.pending } }

/-- An MSI-X message arises (R667): sent, pending, or lost. -/
def raiseMsix (f v : Nat) : Eff := .read fun s =>
  if !s.fnExists f || !s.dlActive then .skip
  else if s.msixOpen f v then emit (.msix f v)
  else onPending (fun p => sins p (64 * f + v))

/-! ### Journal requests (Table 14.7) -/

/-- The real-time clock as TBS_RTC reads it. -/
def State.rtc (s : State) : Nat := (s.reg rTbsRtc).toNat

/-- A journal record is asked for. -/
def journal (r : JReq) : Eff := onDev fun d => { d with jrn := d.jrn ++ [r] }

/-- The 32 bytes of a UNITS entry (Table 14.7). -/
def unitsEntry (kind cause a b c d tick rtc : Nat) : List Byte :=
  leBytes 1 kind ++ leBytes 1 cause ++ leBytes 1 a ++ leBytes 1 b ++ leBytes 4 c ++ leBytes 8 d ++ leBytes 8 tick
    ++ leBytes 8 rtc

/-- The body of a UNITS record with one entry (Table 14.6). -/
def unitsBody (entry : List Byte) : List Byte := leBytes 32 1 ++ entry

/-- A UNITS record with one entry, stamped now. -/
def journalUnits (kind cause a b c d : Nat) (tag : JTag := .none) : Eff := .read fun s =>
  journal { typ := 5, body := unitsBody (unitsEntry kind cause a b c d s.now s.rtc), tag := tag }

/-! ### Sources (Table 18.3) -/

/-- The source is marked reserved (R587). -/
def srcReserved (s : Nat) : Bool :=
  (0x0C ≤ s && s ≤ 0x0F) || (0x28 ≤ s && s ≤ 0x2F) || (0x39 ≤ s && s ≤ 0x3F) || (0x49 ≤ s && s ≤ 0x4F)
    || (0x53 ≤ s && s ≤ 0x5F) || (0x66 ≤ s && s ≤ 0x6F)

/-- The home block a source's BLOCK_RESET reaches (R580). -/
def srcBlock (s : Nat) : Option Block :=
  if s ≤ 0x06 || s = 0x0B then some .compute
  else if s = 0x1B || s = 0x1C || s = 0x20 || s = 0x21 || s = 0x22 then some .dma
  else if s = 0x17 || s = 0x18 || s = 0x19 || s = 0x1A || s = 0x25 then some .serve
  else if s = 0x26 || s = 0x27 then some .rank
  else if s = 0x15 || s = 0x16 || s = 0x23 then some .wharf
  else none

/-- PAC_TILE_t.STATE. -/
def State.tileState (s : State) (t : Nat) : Nat := s.fld (rPacTile t) 18 2

/-- The number of tiles in service (R81). -/
def State.tilesInService (s : State) : Nat := ((List.range 96).filter (fun t => s.tileState t == 0)).length

/-- The unit of a source is retired, so its events open no window (R577). -/
def State.unitRetired (s : State) (src u : Nat) : Bool :=
  if src ≤ 0x06 then s.tileState u == 2
  else if src = 0x33 then s.bit (rIbnPState (u / 4)) (12 + u % 4)
  else if src = 0x30 || src = 0x31 || src = 0x32 || src = 0x34 || src = 0x36 then s.fld (rIbnPState u) 0 3 == 5
  else if src = 0x50 then s.fld (rMtrCh u 0) 0 2 == 2 || s.dev.mtr.retiring.contains u
  else false

/-- The collector's state changes. -/
def onFlt (g : Collector → Collector) : Eff := onDev fun d => { d with flt := g d.flt }

/-- The resets due change. -/
def onDue (g : Due → Due) : Eff := onDev fun d => { d with due := g d.due }

/-! ### FAULT_N (R581, R668) -/

/-- FAULT_N is driven low: some bit of FLT_PIN is set. -/
def State.faultN (s : State) : Bool := (List.range 8).any (fun w => (s.reg (rFltPin w)).toNat != 0)

/-- An effect on FLT_PIN, with the pin's change sent out. -/
def pinChange (e : Eff) : Eff := .read fun s =>
  .andThen e (.read fun t => if s.faultN == t.faultN then .skip else emit (.faultPin t.faultN))

/-- Bit `src` of one of the eight-word sets FLT_TRIP, FLT_WIRE or FLT_PIN. -/
def setBit8 (base : Nat → Nat) (src : Nat) : Eff := putBit (base (src / 32)) (src % 32) true

/-! ### Captures (R583 to R585) -/

/-- Group g is in HISTORY mode. -/
def State.history (s : State) (g : Nat) : Bool := s.bit rFltMode g

/-- The captures of a group, oldest first. -/
def State.caps (s : State) (g : Nat) : List Capture := mget [] s.dev.flt.caps g

/-- A trip's record joins its group's capture. -/
def capture (c : Capture) : Eff := .read fun s =>
  let g := c.source / 16
  let cs := s.caps g
  let add := onFlt fun f => { f with caps := mput f.caps g (cs ++ [c]) }
  if s.history g then (if cs.length < 16 then add else bumpFld (rFltCapStat g) 8 8 1)
  else if cs.isEmpty then add else putBit (rFltCapStat g) 5 true

/-! ### Retirement (R589, R293, R477) -/

/-- The tiles of an operator that executes on a queue. -/
def Queue.tiles (k : Queue) : List Nat :=
  match k.prog with
  | some p => match p.stage with
    | .running r => r.tiles
    | _ => []
  | none => []

/-- What executes on a queue changes, where an operator does. -/
def Queue.onRun (g : RunOp → RunOp) (k : Queue) : Queue :=
  match k.prog with
  | some p => match p.stage with
    | .running r => { k with prog := some { p with stage := .running (g r) } }
    | _ => k
  | none => k

/-- The operator that executes on a queue has met a tile fault. -/
def Queue.faultRun (k : Queue) : Queue := k.onRun fun r => { r with faulted := true }

/-- The operator that executes on a queue goes on without a tile. -/
def Queue.dropTile (t : Nat) (k : Queue) : Queue := k.onRun fun r => { r with tiles := r.tiles.filter fun x => x != t }

/-- The node sums change that run on a tile. -/
def onSums (t : Nat) (g : RankSum → RankSum) : Eff := onDev fun d =>
  { d with rnk := { d.rnk with basins := d.rnk.basins.map fun e =>
      (e.1, { e.2 with sums := e.2.sums.map fun x => if x.tile = some t then g x else x }) } }

/-- What a tile that retires or enters stoppage has not written is computed on other tiles (R589, R593, Table 2.9). -/
def tileLeaves (t : Nat) : Eff := .andThen
  (onDev fun d => { d with work := { d.work with queues := d.work.queues.map fun e => (e.1, e.2.dropTile t) } })
  (onSums t fun x => { x with tile := none })

/-- The retirement that column "At threshold" names for a source and unit. A meter channel's takes effect at the end of its window (R477). -/
def retireUnit (src u : Nat) : Eff :=
  if src ≤ 0x06 then Eff.all
    [ .read fun s => Eff.when (s.bit rStpStatus 0 && s.fld rStpStatus 8 7 == u) (.andThen (putBit rStpStatus 0 false) (putFld rStpStatus 8 7 0)),
      tileLeaves u, putFld (rPacTile u) 18 2 2, journalUnits 6 src u 0 0 0 ]
  else if src = 0x33 then
    Eff.all [putBit (rIbnPState (u / 4)) (12 + u % 4) true, journalUnits 3 src (u / 4) (u % 4) 0 0,
      onDue fun d => { d with lanes := sins d.lanes u }]
  else if src = 0x50 then .andThen (onDev fun d => { d with mtr := { d.mtr with retiring := sins d.mtr.retiring u } }) (journalUnits 8 src u 0 0 0)
  else .skip

/-- A source retires its unit at threshold. -/
def retires (src : Nat) : Bool := src ≤ 0x06 || src == 0x33 || src == 0x50

/-! ### Reactions (R579, R580) -/

/-- Basin b is OPEN (R137). -/
def State.isOpen (s : State) (b : Nat) : Bool := s.fld (rLckBasin b) 0 2 == 1

/-- A cause of a basin reset arises (R165, R669): it acts only on an OPEN tenant basin. -/
def causeBasinReset (b : Nat) : Eff := .read fun s =>
  if s.isOpen b && decide (1 ≤ b) && decide (b ≤ 15) then onDue fun d => { d with basins := sins d.basins b } else .skip

/-- A cause of a CHIP_RESET arises (R532). Of several fault causes, the lowest source names it (R580). -/
def causeChipReset (last src : Nat) : Eff := onDue fun d =>
  match d.chip with
  | some (3, s') => if last = 3 then { d with chip := some (3, min s' src) } else d
  | some _ => d
  | none => { d with chip := some (last, src) }

/-- The reactions of a trip in their order (R578 step 4, R579). A CHIP_RESET replaces the basin and block resets of the
same trip (R580). -/
def reactions (src rx : Nat) : Eff :=
  let b := src % 16
  let chip := bitOf rx 3
  Eff.all
    [ Eff.when (bitOf rx 0) (raiseMsix 0 0),
      Eff.when (bitOf rx 0 && decide (0x70 ≤ src) && decide (1 ≤ b)) (raiseMsix b 63),
      Eff.when (bitOf rx 1) (emit .nmi),
      Eff.when (bitOf rx 4) (pinChange (setBit8 rFltPin src)),
      Eff.when (bitOf rx 5 && !chip && decide (0x70 ≤ src)) (causeBasinReset b),
      Eff.when (bitOf rx 2 && !chip) (match srcBlock src with
        | some k => onDue fun d => { d with blocks := if d.blocks.contains k then d.blocks else d.blocks ++ [k] }
        | none => .skip),
      Eff.when chip (causeChipReset 3 src) ]

/-! ### Trips and counts (R577, R578) -/

/-- A trip of a source at a unit (R578). `flags` holds FORCED in bit 0 and WIRE in bit 1; `after` is what a retirement
brings about (R588). -/
def trip (src unit flags : Nat) (after : Eff) : Eff := .read fun s =>
  let rx := s.fld (rFltSrc src) 16 6
  let doesRetire := retires src && flags == 0
  Eff.all
    [ setBit8 rFltTrip src,
      capture { tick := s.now, source := src, flags := flags + (if doesRetire then 4 else 0), unit := unit,
                count := s.fld (rFltSrc src) 0 8, reactions := rx },
      Eff.when doesRetire (.andThen (retireUnit src unit) after),
      Eff.when (src == 0x60) (putBit rTolStatus 2 true),
      reactions src rx ]

/-- An event at a source and unit (R577). -/
def countWith (src unit flags : Nat) (after : Eff) : Eff := .read fun s =>
  let thr := s.fld (rFltSrc src) 0 8
  let win := s.fld (rFltSrc src) 8 6
  let key := 65536 * src + unit
  let c := mget { n := 0, start := 0 } s.dev.flt.counts key
  let c := if c.n = 0 || c.start + 2 ^ win ≤ s.now then { n := 0, start := s.now } else c
  let put (k : Count) := onFlt fun f => { f with counts := mput f.counts key k }
  if s.dev.flt.ignored.contains src then .skip
  else .andThen (bumpReg (rFltEvents src) 32 1)
    (if srcReserved src || thr == 0 || s.unitRetired src unit then .skip
     else if thr ≤ c.n + 1 then .andThen (put { c with n := 0 }) (trip src unit flags after)
     else put { c with n := c.n + 1 })

/-- A tile retirement at runtime that leaves 80 or fewer tiles counts at TILE_BUDGET (R588). -/
def tileBudget (src : Nat) : Eff := .read fun s =>
  Eff.when (decide (src ≤ 0x06) && decide (s.tilesInService ≤ 80)) (countWith 0x0B 0 0 .skip)

/-- An event counts once at a source and unit. -/
def countAt (src unit : Nat) : Eff := countWith src unit 0 (tileBudget src)

/-- A forced event (R586): unit 0, no retirement. -/
def countForced (src : Nat) : Eff := countWith src 0 1 .skip

end Sys2Proof.Machine
end

