-- ==== Sys2Proof/Machine/Memory.lean ====
section
/-!
DEFINITION. Memory, basins and locks (chapter 05): the lock check, sector errors, poison, page retirement, activity
counting and the writes of HBM, with the two commands of this family that no other block shares.
-/
namespace Sys2Proof.Machine

/-! ### Lock windows (R143 to R146) -/

/-- Right R. -/
abbrev rightR : Nat := 1
/-- Right W. -/
abbrev rightW : Nat := 2
/-- Right D. -/
abbrev rightD : Nat := 4

/-- A window of a basin: its number, first and last byte, and its rights as bits 0 R, 1 W, 2 D. -/
structure Window where
  num : Nat
  first : Nat
  last : Nat
  rights : Nat
deriving DecidableEq, Repr

/-- The windows of a basin (LCK_WIN_b_w). -/
def State.windows (s : State) (b : Nat) : List Window :=
  (List.range 32).filterMap fun w =>
    let lo := (s.reg (rLckWin b (2 * w))).toNat
    let hi := (s.reg (rLckWin b (2 * w + 1))).toNat
    if bitOf lo 0 then
      some { num := w, first := bitsOf lo 12 36 * 4096, last := bitsOf hi 12 36 * 4096 + 4095, rights := bitsOf lo 1 3 }
    else none

/-- What the whole-access check finds (R144). A refusal carries the status and the window it names. -/
inductive LockResult where
  | pass (w : Window)
  | refuse (status : Nat) (window : Option Nat)
deriving DecidableEq, Repr

/-- The window that holds the lowest-addressed byte of a unit. -/
def lowestWindow (first : Nat) : List Window → Option Window
  | [] => none
  | w :: ws =>
    match lowestWindow first ws with
    | none => some w
    | some v => if max w.first first ≤ max v.first first then some w else some v

/-- The whole-access check of the bytes `first` to `last` (R144, R145). An outbound access of a basin whose function may not
master the bus lies in no window (R607). -/
def State.lockCheck (s : State) (b first last need : Nat) : LockResult :=
  if 2 ^ 47 ≤ last ∧ s.busMaster b = false then .refuse 0x17 none else
  let touched := (s.windows b).filter fun w => decide (w.first ≤ last ∧ first ≤ w.last)
  match lowestWindow first touched with
  | none => .refuse 0x17 none
  | some w =>
    if w.first ≤ first ∧ last ≤ w.last then
      if w.rights &&& need = need then .pass w else .refuse 0x17 (some w.num)
    else .refuse 0x16 (some w.num)

/-- Who asks for a checked access, as LCK_LAST_b records it. -/
structure Asker where
  agent : Nat
  source : Nat := 0
  requester : Nat := 0
deriving DecidableEq, Repr

/-- A refusal is recorded and counted (R146). -/
def lockRefuse (b first last : Nat) (a : Asker) (status : Nat) (window : Option Nat) : Eff := .read fun s =>
  let info := status + a.agent * 2 ^ 8 + a.source * 2 ^ 12 + window.getD 0 * 2 ^ 24 + b2n window.isSome * 2 ^ 29
    + a.requester * 2 ^ 30
  Eff.all
    [ putReg (rLckLast b 0) (first % 2 ^ 48), putReg (rLckLast b 1) (last % 2 ^ 48), putReg (rLckLast b 2) info,
      putReg (rLckLast b 3) s.now,
      bumpFld (rLckCount b) (if status = 0x16 then 0 else 32) 32 1,
      countAt ((if status = 0x16 then 0x70 else 0x80) + b) 0 ]

/-- A unit of an access: its first and last byte and the rights it needs. -/
structure AccUnit where
  first : Nat
  last : Nat
  need : Nat
deriving DecidableEq, Repr

/-- The first unit of a list that the check refuses, with its status and window. -/
def State.firstRefusal (s : State) (b : Nat) : List AccUnit → Option (AccUnit × Nat × Option Nat)
  | [] => none
  | u :: us =>
    match s.lockCheck b u.first u.last u.need with
    | .pass _ => s.firstRefusal b us
    | .refuse st w => some (u, st, w)

/-- Units checked in order: at the first refusal it is recorded and `bad` runs with its status; otherwise `ok` runs. -/
def checkUnits (b : Nat) (a : Asker) (us : List AccUnit) (bad : Nat → Eff) (ok : Eff) : Eff := .read fun s =>
  match s.firstRefusal b us with
  | none => ok
  | some (u, st, w) => .andThen (lockRefuse b u.first u.last a st w) (bad st)

/-! ### Sectors -/

/-- An address of HBM. -/
def inHbm (a : Nat) : Bool := decide (a < hbmSize)

/-- The address of the sector that holds a byte. -/
def sectorOf (a : Nat) : Nat := a / 32 * 32

/-- The sectors that `n` bytes from `a` touch, rising. -/
def sectorsOf (a n : Nat) : List Nat :=
  if n = 0 then [] else (List.range ((a + n - 1) / 32 - a / 32 + 1)).map fun i => (a / 32 + i) * 32

/-- A sector is poisoned. -/
def State.poisoned (s : State) (sector : Nat) : Bool := s.poison.contains sector

/-- Some sector of a range is poisoned. -/
def State.anyPoison (s : State) (a n : Nat) : Bool := s.poison.any fun p => decide (a / 32 * 32 ≤ p ∧ p < a + n)

/-! ### Retirement (R156 to R161) -/

/-- The hidden state of the HBM controller changes. -/
def onHbm (g : Hbm → Hbm) : Eff := onDev fun d => { d with hbm := g d.hbm }

/-- MEM_STATUS.SPARE_PAGES. -/
def State.sparePages (s : State) : Nat := s.fld rMemStatus 13 9

/-- The bad-page entries in use, by entry number. -/
def State.badPages (s : State) : List Nat := (List.range 256).filter fun n => s.bit (rMemBadpage n) 0

/-- The page (address) and spare of a bad-page entry. -/
def State.badPage (s : State) (n : Nat) : Nat × Nat := (s.fld (rMemBadpage n) 12 36 * 4096, s.fld (rMemBadpage n) 56 8)

/-- The address of a spare (chapter 05, before R156). -/
def State.spareAt (s : State) (k : Nat) : Nat := hbmSize - (s.sparePages - k) * 4096

/-- The place that a sector's bytes are kept under. A page that has gone to a spare is redirected there (R157, R159): the sectors of a spare
in use are the page's own, and the model keeps them under the page's address, which is the one that accesses name, since no window
reaches the spare pool (R142, log entry 12). -/
def State.homeSector (s : State) (p : Nat) : Nat :=
  match s.badPages.find? fun n => decide (s.spareAt (s.badPage n).2 ≤ p ∧ p < s.spareAt (s.badPage n).2 + 4096) with
  | some n => (s.badPage n).1 + p % 4096
  | none => p

/-- The lowest free spare. -/
def State.freeSpare (s : State) : Option Nat :=
  (List.range s.sparePages).find? fun k => !(s.badPages.any fun n => (s.badPage n).2 == k)

/-- The lowest free entry of the bad-page list. -/
def State.freeEntry (s : State) : Option Nat := (List.range 256).find? fun n => !s.bit (rMemBadpage n) 0

/-- The number of entries is shown in MEM_STATUS.BADPAGES. -/
def showBadPages : Eff := .read fun s => putFld rMemStatus 4 9 s.badPages.length

/-- The page's copy to its spare begins: the entry, the journal record (R158), REMAP_BUSY. Without a free spare or entry the
retirement is refused (R161). -/
def beginRetire (r : Retire) : Eff := .read fun s =>
  match s.freeSpare, s.freeEntry with
  | some k, some n =>
    Eff.all
      [ putReg (rMemBadpage n) (1 + r.cause * 2 + r.page / 4096 * 2 ^ 12 + k * 2 ^ 56), showBadPages,
        putBit rMemStatus 3 true, onHbm fun h => { h with remap := some (r, k) },
        journalUnits 1 r.cause k (r.ev.chan + 16 * r.ev.pseudo) (r.ev.row + r.ev.bank * 2 ^ 18) r.page ]
  | _, _ => .andThen (putBit rMemStatus 1 true) (countAt 0x12 0)

/-- The next waiting retirement begins; one that is refused lets the next try. -/
def beginNext : List Retire → Eff
  | [] => .skip
  | w :: ws => .read fun s =>
    if s.dev.hbm.remap.isSome then .skip
    else Eff.all [onHbm fun h => { h with waiting := ws }, beginRetire w, beginNext ws]

/-- A page is due for retirement (R156). Remaps run one at a time; a page already retired, or due, is not retired again
(log entry 12). -/
def retirePage (r : Retire) : Eff := .read fun s =>
  if s.badPages.any (fun n => (s.badPage n).1 == r.page) || s.dev.hbm.waiting.any (fun w => w.page == r.page) then .skip
  else if s.dev.hbm.remap.isSome then onHbm fun h => { h with waiting := h.waiting ++ [r] }
  else beginRetire r

/-! ### Sector errors (R151, R152) -/

/-- The correctable errors of a page within 2^36 ticks, with the new one, and the tracker's 64 newest pages (R156). -/
def trackCe (now page : Nat) (l : List (Nat × List Nat)) : Nat × List (Nat × List Nat) :=
  let old := ((l.find? fun e => e.1 == page).map (·.2)).getD []
  let ticks := now :: old.filter fun t => decide (now < t + 2 ^ 36)
  (ticks.length, ((page, ticks) :: l.filter fun e => e.1 != page).take 64)

/-- A read finds an error in a sector. -/
def sectorError (e : EccEvent) : Eff := .read fun s =>
  let page := e.sector / 4096 * 4096
  match e.kind with
  | .correctable =>
    let t := trackCe s.now page s.dev.hbm.ceTrack
    Eff.all
      [ bumpFld (rMemCh (e.chan % 16)) 0 32 1, countAt 0x10 (e.chan % 16),
        onHbm fun h => { h with ceTrack := if 3 ≤ t.1 then t.2.drop 1 else t.2 },
        Eff.when (decide (3 ≤ t.1)) (retirePage { page := page, cause := 1, ev := e }) ]
  | k =>
    Eff.all
      [ bumpFld (rMemCh (e.chan % 16)) 32 32 1, countAt 0x11 (e.chan % 16),
        .act (.poison (sectorOf e.sector) true),
        retirePage { page := page, cause := if k = .address then 2 else 0, ev := e } ]

/-- The errors that the reads of some sectors find, in order. Events of other sectors do not arise. A sector already poisoned
holds no code to check. An error at a spare in use is its page's. -/
def sectorErrors (read : Nat → Bool) (es : List EccEvent) : Eff :=
  Eff.each es fun e => .read fun s =>
    let p := s.homeSector (sectorOf e.sector)
    if read p && !s.poisoned p then sectorError { e with sector := p } else .skip

/-- The sectors that `n` bytes from `a` cover only in part. -/
def partSectorsOf (a n : Nat) : List Nat := (sectorsOf a n).filter fun p => decide (p < a ∨ a + n < p + 32)

/-- The errors that the read-modify-writes of a write find (R154). -/
def rmwErrors (a n : Nat) (es : List EccEvent) : Eff := sectorErrors (partSectorsOf a n).contains es

/-- A basin's read of sectors: each sector already poisoned counts at its poison-read source (R155); then the errors found. -/
def readSectors (b : Nat) (sectors : List Nat) (es : List EccEvent) : Eff := .read fun s =>
  .andThen (Eff.each (s.poison.filter fun p => sectors.contains p) fun _ => countAt (0x90 + b) 0)
    (sectorErrors (fun p => sectors.contains p) es)

/-! ### Activity (R169) -/

/-- Sectors read for a basin. -/
def actRead (b n : Nat) : Eff := bumpReg (rMemActRd b) 64 (32 * n)
/-- Sectors written for a basin. -/
def actWrite (b n : Nat) : Eff := bumpReg (rMemActWr b) 64 (32 * n)

/-! ### Writes of HBM (R154, R214, R388, R389) -/

/-- The codec's hidden state changes. -/
def onCodec (g : Codec → Codec) : Eff := onDev fun d => { d with codec := g d.codec }

/-- The wharf's hidden state changes. -/
def onWhf (g : Wharf → Wharf) : Eff := onDev fun d => { d with whf := g d.whf }

/-- The 64 KiB pages of a set's tensors, in set-list order. -/
def WSet.pages (w : WSet) : List (Nat × Nat) :=
  w.defn.tensors.map fun t => (t.addr / 65536,
    (t.sizes.foldl (· * ·) 1 * (if t.etype = 0 then 2 else 4) + 65535) / 65536)

/-- A 64 KiB page belongs to a set. -/
def WSet.holds (w : WSet) (page : Nat) : Bool := w.pages.any fun r => decide (r.1 ≤ page ∧ page < r.1 + r.2)

/-- The 64 KiB pages that a range touches. -/
def bigPages (a n : Nat) : List Nat :=
  if n = 0 then [] else (List.range ((a + n - 1) / 65536 - a / 65536 + 1)).map fun i => a / 65536 + i

/-- The dirty bits of the pages that a write touches are set (R388). -/
def markDirty (a n : Nat) : Eff := onWhf fun w =>
  { w with sets := w.sets.map fun e =>
      (e.1, { e.2 with dirty := ((bigPages a n).filter e.2.holds).foldl sins e.2.dirty }) }

/-- Some write to the range waits for a copy-on-write copy (R389). -/
def State.cowWait (s : State) (a n : Nat) : Bool :=
  s.dev.whf.sets.any fun e => (bigPages a n).any fun p => e.2.armed.contains p

/-- The 4 KiB pages that a write touches become RAW (R214). -/
def markRaw (a n : Nat) : Eff := onCodec fun c =>
  { c with coded := c.coded.filter fun p => !decide (a / 4096 ≤ p ∧ p < (a + n + 4095) / 4096) }

/-- Pages become RAW. -/
def markRawPages (ps : List Nat) : Eff := onCodec fun c => { c with coded := c.coded.filter fun p => !ps.contains p }

/-- A page takes a form. -/
def setForm (page : Nat) (coded : Bool) : Eff := onCodec fun c =>
  { c with coded := if coded then sins c.coded page else sdel c.coded page }

/-- The sector pieces of a write. -/
def pieces (a : Nat) (bs : List Byte) : List (Nat × List Byte) :=
  (sectorsOf a bs.length).map fun p =>
    let lo := max a p
    (lo, (bs.drop (lo - a)).take (p + 32 - lo))

/-- Bytes written to HBM by a plain write: a whole sector clears its poison, a part of a poisoned sector changes nothing
(R154); forms become RAW, but not by a whole sector that clears its poison (R214, log entry 86), and dirty bits are set. -/
def writeHbm (a : Nat) (bs : List Byte) : Eff := .read fun s =>
  Eff.all
    [ markRawPages ((((pieces a bs).filter fun p => !s.poisoned (sectorOf p.1)).map fun p => p.1 / 4096).foldl sins []),
      Eff.each (pieces a bs) fun p => .read fun s =>
        if p.2.length = 32 then .andThen (.act (.poison p.1 false)) (.act (.store p.1 p.2))
        else if s.poisoned (sectorOf p.1) then .skip else .act (.store p.1 p.2),
      Eff.when (bs.length != 0) (markDirty a bs.length) ]

/-- A write of these bytes meets poison that it covers only in part (R154). -/
def State.partialPoison (s : State) (a : Nat) (bs : List Byte) : Bool :=
  (pieces a bs).any fun p => p.2.length != 32 && s.poisoned (sectorOf p.1)

/-- Whole sectors become poisoned. -/
def poisonSectors (ps : List Nat) : Eff := Eff.each ps fun p => .act (.poison p true)

/-! ### Commands -/

/-- A command that changes nothing where it cannot arise (log entry 2). -/
def onlyIf (c : State → Bool) (e : Eff) : Eff := .read fun s => if c s then e else .skip

/-- LCK_BASIN_RESET (R173): a keyed write by PF0 that names an OPEN tenant basin causes its reset. -/
def effLckBasinReset (v : Nat) : Eff :=
  if bitsOf v 16 16 = 0xB45E then causeBasinReset (bitsOf v 0 4) else .skip

/-- PAGE_REMAP_DONE (R157): the copy to the spare ends; sectors that could not be corrected are poisoned; the next waiting
retirement begins. -/
def effPageRemapDone (es : List EccEvent) : Eff := .read fun s =>
  match s.dev.hbm.remap with
  | none => .skip
  | some (r, _) =>
    Eff.all
      [ sectorErrors (fun p => decide (r.page ≤ p ∧ p < r.page + 4096)) es,
        onHbm fun h => { h with remap := none }, putBit rMemStatus 3 false,
        .read fun t => beginNext t.dev.hbm.waiting ]

/-- PAGE_REMAP_DONE. -/
def execPageRemapDone (es : List EccEvent) (s : State) : Host.Outcome State Fault Refusal := (effPageRemapDone es).done s

end Sys2Proof.Machine
end

