-- ==== Sys2Proof/Machine/Access.lean ====
section
/-!
DEFINITION. Who reaches which register (chapters 00 and 20): readers, views, writers, read shadows and write stages, and
the outbound PCIe accesses (R605, R606). The commands of register access are in Registers.lean.
-/
namespace Sys2Proof.Machine

/-! ### Readers (R11, R631) -/

/-- The reader is a PCIe function. -/
def isPcie (rd : Nat) : Bool := decide (rd ≤ 15)
/-- The reader is a VF. -/
def isVf (rd : Nat) : Bool := decide (1 ≤ rd ∧ rd ≤ 15)
/-- The reader is a control core. -/
def isCore (rd : Nat) : Bool := decide (rd = 16 ∨ rd = 17)
/-- The I²C target's number. -/
abbrev i2cReader : Nat := 18

/-! ### Start phase -/

/-- IMG_STATUS.PHASE. -/
def State.phase (s : State) : Nat := s.fld rImgStatus 0 4

/-- The chip is in dry-dock (IMG_STATUS). -/
def State.dryDock (s : State) : Bool := s.phase == 7

/-- The chip is HALTED. -/
def State.halted (s : State) : Bool := s.phase == 8

/-- The blocks that answer in dry-dock: GLB, CLK, TBS, IMG and FLT (R560). -/
def dryDockBlock (off : Nat) : Bool :=
  decide (off < 0x20000) || decide (0xF0000 ≤ off ∧ off < 0x100000) || decide (0x120000 ≤ off ∧ off < 0x130000)

/-! ### Views (R633 to R636) -/

/-- The basin that an instance of a per-basin register belongs to (Table 20.3). -/
def State.ownerOf (s : State) (l : Loc) : Option Nat :=
  match l.row.sel with
  | .none => none
  | .first => some l.i
  | .firstPlus1 => some (l.i + 1)
  | .queue => if s.bit (rQueCfg l.i) 31 then some (s.fld (rQueCfg l.i) 0 4) else none
  | .table => if s.bit (rCdcTbl l.i) 4 then some (s.fld (rCdcTbl l.i) 0 4) else none
  | .set => if s.bit (rWhfSetCfg l.i) 4 then some (s.fld (rWhfSetCfg l.i) 0 4) else none
  | .flt => if 0x70 ≤ l.i then some (l.i % 16) else none

/-- The register that an offset shows to a reader; none at a hole. -/
def State.visible (s : State) (rd off : Nat) : Option Loc :=
  match locate off with
  | none => none
  | some l =>
    if !isVf rd then some l
    else if 0x100000 ≤ off then none
    else match l.row.vf with
      | .none => none
      | _ => if l.row.sel = .none || s.ownerOf l == some rd then some l else none

/-- The registers that the I²C target writes (R617). GLB_STATUS is not among them, though R15 has every reader clear its own bit by writing 1:
R617's closed list is followed (DESIGN CHOICE, log entry 93). -/
def i2cWrites (off : Nat) : Bool :=
  off == rTbsRtcSet || off == rTolCmd || off == rLcdCtrl || off == rLcdHold || decide (0xF0100 ≤ off ∧ off < 0xF0120)
    || (decide (0xF1000 ≤ off ∧ off < 0xF1200) && off % 0x20 == 0x14)
    || decide (0x111000 ≤ off ∧ off < 0x112000) || decide (0x120090 ≤ off ∧ off < 0x12009C)
    || decide (0x121000 ≤ off ∧ off < 0x122000)

/-- A reader may write a register that it sees (R634, R617, the cards). The control cores write as PF0 does
(log entry 13). -/
def State.mayWrite (s : State) (rd : Nat) (l : Loc) : Bool :=
  if rd = i2cReader then i2cWrites l.reg && (l.row.writer != .dry || s.dryDock)
  else match l.row.writer with
    | .none => false
    | .any => true
    | .pf0 => !isVf rd
    | .pf0i2c => !isVf rd
    | .pf0Only => rd == 0
    | .dry => !isVf rd && s.dryDock
    | .own => s.ownerOf l == some (if isVf rd then rd else 0)

/-! ### Shadows and stages (R12 to R21) -/

/-- The readers' state changes. -/
def onReaders (g : Readers → Readers) : Eff := onDev fun d => { d with readers := g d.readers }

/-- A write by a reader to a register invalidates that reader's shadow of it (R16). -/
def invalidate (rd reg : Nat) : Eff := onReaders fun r =>
  match mget? r.shadow rd with
  | some h => if h.reg = reg then { r with shadow := mdel r.shadow rd } else r
  | none => r

/-- A reader's write stage is emptied. -/
def dropStage (rd : Nat) : Eff := onReaders fun r => { r with stage := mdel r.stage rd }

/-! ### Whether an access arrives -/

/-- An access of the reader arrives at the control space: its function exists and the link is up, a control core has been
released, or the I²C target acknowledges (R602, R615, Table 16.5). -/
def State.arrives (s : State) (rd : Nat) : Bool :=
  if isPcie rd then s.fnExists rd && s.dlActive
  else if isCore rd then decide (4 ≤ s.phase) && !s.dryDock
  else rd == i2cReader && decide (1 ≤ s.phase)

/-- From a reset until start step 1 has ended every BAR reads all ones and discards writes (R666). -/
def State.asleep (s : State) : Bool := s.phase == 0

/-- A request is refused as Unsupported Request: it counts (PCI_ERR [15:0]). -/
def countUr : Eff := bumpFld rPciErr 0 16 1

/-- A non-posted request is refused as Unsupported Request: it is also completed so (Table 19.5). -/
def refuseUr (rd : Nat) : Eff := .andThen countUr (emit (.unsupportedRequest rd))

/-- A write by a reader: nothing where it does not arrive; Unsupported Request where the function's Memory Space Enable is
0 (Table 19.4); nothing before the end of start step 1 (R666); otherwise its effect. -/
def access (rd : Nat) (e : Eff) : Eff := .read fun s =>
  if !s.arrives rd then .skip
  else if isPcie rd && !(s.fn rd).mse then countUr
  else if isPcie rd && s.asleep then .skip
  else e

/-- One count at CSR_ACCESS for a reader. -/
def csrCount (rd : Nat) : Eff := countAt 0x24 rd

/-- A whole write by a reader to the register at `off`, whose effect is `e`: a hole counts (R630), and the shadow is invalidated
(R16); where the reader may write, the stage of a 64-bit register is emptied (R21) and the effect takes place. -/
def writeReg (rd off : Nat) (e : Eff) : Eff := access rd (.read fun s =>
  match s.visible rd off with
  | none => csrCount rd
  | some l =>
    Eff.all
      [ invalidate rd l.reg, Eff.when (l.row.wide && s.mayWrite rd l) (dropStage rd),
        Eff.when (s.mayWrite rd l && (!s.dryDock || dryDockBlock l.reg)) e ])

/-! ### Gating (R416) -/

/-- Work for a gated SRV or WHF node clears its request and the request of its parent CTL. -/
def wakeNode (n : Nat) : Eff := Eff.all
  [putBit rClkGate n false, putBit rClkGate 2 false, putBit rClkGateStatus n false, putBit rClkGateStatus 2 false]

/-! ### Outbound accesses (R605 to R607) -/

/-- An address of the PCIe outbound range. -/
def outbound (a : Nat) : Bool := decide (2 ^ 47 ≤ a ∧ a < 2 ^ 48)

/-- The bus address of an outbound access (R605). -/
def State.busAddr (s : State) (a : Nat) : Nat := s.fld rPciOutHi 47 17 * 2 ^ 47 + a % 2 ^ 47

/-- The pieces of an outbound write: cut at every 4 KiB boundary and every multiple of Max Payload Size (R606). -/
def tlpCut (mps a : Nat) (bs : List Byte) (fuel : Nat) : List (Nat × List Byte) :=
  match fuel with
  | 0 => []
  | f + 1 =>
    if bs.isEmpty then []
    else
      let n := min (mps - a % mps) (4096 - a % 4096)
      (a, bs.take n) :: tlpCut mps (a + n) (bs.drop n) f

/-- Memory-write TLPs of a function. -/
def sendWrite (f a : Nat) (bs : List Byte) : Eff := .read fun s =>
  Eff.each (tlpCut (max 128 s.dev.pci.mps) (s.busAddr a) bs (bs.length + 1)) fun p => emit (.memWrite f p.1 p.2)

/-- A write of a basin to an address already checked: to HBM, counted as activity, or out over PCIe. A basin whose function may not master
the bus is refused there, and moves no byte (R607). -/
def writeAny (b : Nat) (k : Asker) (a : Nat) (bs : List Byte) : Eff :=
  if inHbm a then .andThen (actWrite b (sectorsOf a bs.length).length) (writeHbm a bs)
  else .read fun s => if s.busMaster b then sendWrite b a bs else lockRefuse b a (a + bs.length - 1) k 0x17 none

end Sys2Proof.Machine
end

