-- ==== Sys2Proof/Machine/Codes.lean ====
section
/-!
DEFINITION. The check codes, hashes and signatures the spec names: CRC-64/ECMA-182 (R251), CRC-16/IBM-3740
(Table 8.3), CRC-8 (Table 8.4, R618), SHA-256 and SHA-512 and Ed25519 (R540 and chapter 14), SipHash-2-4 (R360).
-/
namespace Sys2Proof.Machine

/-! ### Cyclic codes, bit 7 of each byte first, no reflection, no final exclusive OR -/

/-- `n` shifts of a CRC register of `w` bits. -/
def crcShift (w poly : Nat) : Nat → Nat → Nat
  | 0, c => c
  | n + 1, c => crcShift w poly n (if bitOf c (w - 1) then ((c * 2) % 2 ^ w) ^^^ poly else (c * 2) % 2 ^ w)

/-- A CRC of `w` bits over bytes. -/
def crc (w poly init : Nat) (bs : List Byte) : Nat :=
  bs.foldl (fun c b => crcShift w poly 8 (c ^^^ (b.toNat * 2 ^ (w - 8)))) init

/-- CRC-64/ECMA-182 (R251). -/
def crc64 (bs : List Byte) : Nat := crc 64 0x42F0E1EBA9EA3693 0 bs
/-- CRC-16/IBM-3740 (Table 8.3). -/
def crc16 (bs : List Byte) : Nat := crc 16 0x1021 0xFFFF bs
/-- CRC-8 with polynomial 0x07 (Table 8.4, R618). -/
def crc8 (bs : List Byte) : Nat := crc 8 0x07 0 bs

/-! ### SHA-2 -/

/-- Rotate right in `w` bits. -/
def rotr (w n x : Nat) : Nat := (x >>> n) ||| ((x * 2 ^ (w - n)) % 2 ^ w)

/-- The 80 round constants of SHA-512; the upper halves of the first 64 are those of SHA-256. -/
def sha512K : List Nat :=
  [0x428a2f98d728ae22, 0x7137449123ef65cd, 0xb5c0fbcfec4d3b2f, 0xe9b5dba58189dbbc, 0x3956c25bf348b538,
   0x59f111f1b605d019, 0x923f82a4af194f9b, 0xab1c5ed5da6d8118, 0xd807aa98a3030242, 0x12835b0145706fbe,
   0x243185be4ee4b28c, 0x550c7dc3d5ffb4e2, 0x72be5d74f27b896f, 0x80deb1fe3b1696b1, 0x9bdc06a725c71235,
   0xc19bf174cf692694, 0xe49b69c19ef14ad2, 0xefbe4786384f25e3, 0x0fc19dc68b8cd5b5, 0x240ca1cc77ac9c65]
  ++
  [0x2de92c6f592b0275, 0x4a7484aa6ea6e483, 0x5cb0a9dcbd41fbd4, 0x76f988da831153b5, 0x983e5152ee66dfab,
   0xa831c66d2db43210, 0xb00327c898fb213f, 0xbf597fc7beef0ee4, 0xc6e00bf33da88fc2, 0xd5a79147930aa725,
   0x06ca6351e003826f, 0x142929670a0e6e70, 0x27b70a8546d22ffc, 0x2e1b21385c26c926, 0x4d2c6dfc5ac42aed,
   0x53380d139d95b3df, 0x650a73548baf63de, 0x766a0abb3c77b2a8, 0x81c2c92e47edaee6, 0x92722c851482353b]
  ++
  [0xa2bfe8a14cf10364, 0xa81a664bbc423001, 0xc24b8b70d0f89791, 0xc76c51a30654be30, 0xd192e819d6ef5218,
   0xd69906245565a910, 0xf40e35855771202a, 0x106aa07032bbd1b8, 0x19a4c116b8d2d0c8, 0x1e376c085141ab53,
   0x2748774cdf8eeb99, 0x34b0bcb5e19b48a8, 0x391c0cb3c5c95a63, 0x4ed8aa4ae3418acb, 0x5b9cca4f7763e373,
   0x682e6ff3d6b2b8a3, 0x748f82ee5defb2fc, 0x78a5636f43172f60, 0x84c87814a1f0ab72, 0x8cc702081a6439ec]
  ++
  [0x90befffa23631e28, 0xa4506cebde82bde9, 0xbef9a3f7b2c67915, 0xc67178f2e372532b, 0xca273eceea26619c,
   0xd186b8c721c0c207, 0xeada7dd6cde0eb1e, 0xf57d4f7fee6ed178, 0x06f067aa72176fba, 0x0a637dc5a2c898a6,
   0x113f9804bef90dae, 0x1b710b35131c471b, 0x28db77f523047d84, 0x32caab7b40c72493, 0x3c9ebe0a15c9bebc,
   0x431d67c49c100d4c, 0x4cc5d4becb3e42b6, 0x597f299cfc657e2a, 0x5fcb6fab3ad6faec, 0x6c44198c4a475817]

/-- The initial hash of SHA-512; the upper halves are that of SHA-256. -/
def sha512H : List Nat :=
  [0x6a09e667f3bcc908, 0xbb67ae8584caa73b, 0x3c6ef372fe94f82b, 0xa54ff53a5f1d36f1,
   0x510e527fade682d1, 0x9b05688c2b3e6c1f, 0x1f83d9abfb41bd6b, 0x5be0cd19137e2179]

/-- What differs between SHA-256 and SHA-512: the word width and the shift amounts. -/
structure Sha2 where
  w : Nat
  rounds : Nat
  s0 : Nat × Nat × Nat
  s1 : Nat × Nat × Nat
  e0 : Nat × Nat × Nat
  e1 : Nat × Nat × Nat
deriving DecidableEq, Repr

/-- SHA-256. -/
def sha256P : Sha2 := ⟨32, 64, (7, 18, 3), (17, 19, 10), (2, 13, 22), (6, 11, 25)⟩
/-- SHA-512. -/
def sha512P : Sha2 := ⟨64, 80, (1, 8, 7), (19, 61, 6), (28, 34, 39), (14, 18, 41)⟩

/-- A big-endian number. -/
def beNat (bs : List Byte) : Nat := bs.foldl (fun n b => n * 256 + b.toNat) 0

/-- The `n` big-endian bytes of a number. -/
def beBytes (n x : Nat) : List Byte := (leBytes n x).reverse

/-- The next words of the message schedule, newest first. -/
def shaSchedule (P : Sha2) : Nat → List Nat → List Nat
  | 0, ws => ws
  | n + 1, ws =>
    let at' (i : Nat) := ws.getD i 0
    let g0 (x : Nat) := rotr P.w P.s0.1 x ^^^ rotr P.w P.s0.2.1 x ^^^ (x >>> P.s0.2.2)
    let g1 (x : Nat) := rotr P.w P.s1.1 x ^^^ rotr P.w P.s1.2.1 x ^^^ (x >>> P.s1.2.2)
    shaSchedule P n (((g1 (at' 1) + at' 6 + g0 (at' 14) + at' 15) % 2 ^ P.w) :: ws)

/-- The rounds of the compression function. -/
def shaRounds (P : Sha2) : List (Nat × Nat) → List Nat → List Nat
  | [], h => h
  | (k, w) :: rest, h =>
    let v (i : Nat) := h.getD i 0
    let M := 2 ^ P.w
    let e := v 4
    let a := v 0
    let S1 := rotr P.w P.e1.1 e ^^^ rotr P.w P.e1.2.1 e ^^^ rotr P.w P.e1.2.2 e
    let ch := (e &&& v 5) ^^^ ((M - 1 - e) &&& v 6)
    let t1 := v 7 + S1 + ch + k + w
    let S0 := rotr P.w P.e0.1 a ^^^ rotr P.w P.e0.2.1 a ^^^ rotr P.w P.e0.2.2 a
    let maj := (a &&& v 1) ^^^ (a &&& v 2) ^^^ (v 1 &&& v 2)
    shaRounds P rest [(t1 + S0 + maj) % M, a, v 1, v 2, (v 3 + t1) % M, e, v 5, v 6]

/-- A list cut into pieces of `n`. -/
def chunks {α : Type} (n : Nat) : Nat → List α → List (List α)
  | 0, _ => []
  | f + 1, xs => if xs.isEmpty then [] else xs.take n :: chunks n f (xs.drop n)

/-- SHA-2 over a byte list. -/
def sha2 (P : Sha2) (msg : List Byte) : List Byte :=
  let blk := P.w * 2
  let len := msg.length
  let pad := (blk - (len + 1 + P.w / 4) % blk) % blk
  let bytes := msg ++ (0x80#8 :: List.replicate pad 0#8) ++ beBytes (P.w / 4) (len * 8)
  let ks := (sha512K.take P.rounds).map (fun k => k >>> (64 - P.w))
  let h0 := sha512H.map (fun k => k >>> (64 - P.w))
  let step (h : List Nat) (b : List Byte) : List Nat :=
    let ws := ((chunks (P.w / 8) 16 b).map beNat).reverse
    let sched := (shaSchedule P (P.rounds - 16) ws).reverse
    List.zipWith (fun x y => (x + y) % 2 ^ P.w) h (shaRounds P (ks.zip sched) h)
  ((chunks blk (bytes.length / blk + 1) bytes).foldl step h0).flatMap (beBytes (P.w / 8))

/-- SHA-256. -/
def sha256 (msg : List Byte) : List Byte := sha2 sha256P msg
/-- SHA-512. -/
def sha512 (msg : List Byte) : List Byte := sha2 sha512P msg

/-! ### Ed25519 (RFC 8032) -/

/-- The field prime 2^255 - 19. -/
def edP : Nat := 2 ^ 255 - 19
/-- The group order. -/
def edL : Nat := 2 ^ 252 + 27742317777372353535851937790883648493

/-- Square and multiply over the low `n` bits of the exponent, from the lowest. -/
def powModGo (m : Nat) : Nat → Nat → Nat → Nat → Nat
  | 0, _, _, acc => acc
  | n + 1, b, e, acc => powModGo m n (b * b % m) (e / 2) (if e % 2 = 1 then acc * b % m else acc)

/-- b^e mod m for exponents below 2^256. -/
def powMod (m b e : Nat) : Nat := powModGo m 256 (b % m) e 1

/-- The inverse in the field. -/
def edInv (x : Nat) : Nat := powMod edP x (edP - 2)
/-- Subtraction in the field. -/
def edSub (a b : Nat) : Nat := (a + (edP - b % edP)) % edP
/-- The curve constant d. -/
def edD : Nat := edSub 0 (121665 * edInv 121666 % edP)

/-- A point in extended coordinates. -/
abbrev EdPoint := Nat × Nat × Nat × Nat

/-- The neutral point. -/
def edZero : EdPoint := (0, 1, 1, 0)

/-- Point addition. -/
def edAdd (d2 : Nat) (p q : EdPoint) : EdPoint :=
  let (x1, y1, z1, t1) := p
  let (x2, y2, z2, t2) := q
  let a := edSub y1 x1 * edSub y2 x2 % edP
  let b := (y1 + x1) * (y2 + x2) % edP
  let c := t1 * d2 % edP * t2 % edP
  let d := 2 * z1 * z2 % edP
  let e := edSub b a
  let f := edSub d c
  let g := (d + c) % edP
  let h := (b + a) % edP
  (e * f % edP, g * h % edP, f * g % edP, e * h % edP)

/-- Double and add over `n` bits of the scalar, from the lowest. -/
def edMulGo (d2 : Nat) : Nat → EdPoint → Nat → EdPoint → EdPoint
  | 0, _, _, acc => acc
  | n + 1, p, k, acc => edMulGo d2 n (edAdd d2 p p) (k / 2) (if k % 2 = 1 then edAdd d2 acc p else acc)

/-- Scalar multiplication. -/
def edMul (k : Nat) (p : EdPoint) : EdPoint := edMulGo (2 * edD % edP) 256 p k edZero

/-- Equality of points. -/
def edEq (p q : EdPoint) : Bool :=
  p.1 * q.2.2.1 % edP == q.1 * p.2.2.1 % edP && p.2.1 * q.2.2.1 % edP == q.2.1 * p.2.2.1 % edP

/-- The point that 32 bytes spell, if they spell one. -/
def edDecode (bs : List Byte) : Option EdPoint :=
  let n := leNat bs
  let sign := n / 2 ^ 255 % 2
  let y := n % 2 ^ 255
  if edP ≤ y then none
  else
    let u := edSub (y * y % edP) 1
    let v := (edD * (y * y % edP) + 1) % edP
    let x2 := u * edInv v % edP
    let r := powMod edP x2 ((edP + 3) / 8)
    let x := if r * r % edP = x2 then r else r * powMod edP 2 ((edP - 1) / 4) % edP
    if x * x % edP ≠ x2 then none
    else if x = 0 ∧ sign = 1 then none
    else
      let x := if x % 2 = sign then x else edP - x
      some (x, y, 1, x * y % edP)

/-- The 32 bytes of a point. -/
def edEncode (p : EdPoint) : List Byte :=
  let zi := edInv p.2.2.1
  let x := p.1 * zi % edP
  let y := p.2.1 * zi % edP
  leBytes 32 (y + (x % 2) * 2 ^ 255)

/-- The base point. -/
def edBase : EdPoint :=
  let y := 4 * edInv 5 % edP
  (edDecode (leBytes 32 y)).getD edZero

/-- The secret scalar and prefix of a 32-byte private key. -/
def edExpand (sk : List Byte) : Nat × List Byte :=
  let h := sha512 sk
  let a := leNat (h.take 32)
  (a % 2 ^ 254 / 8 * 8 + 2 ^ 254, h.drop 32)

/-- The public key of a private key. -/
def edPublic (sk : List Byte) : List Byte := edEncode (edMul (edExpand sk).1 edBase)

/-- An Ed25519 signature (R510). -/
def edSign (sk msg : List Byte) : List Byte :=
  let (a, pre) := edExpand sk
  let pub := edEncode (edMul a edBase)
  let r := leNat (sha512 (pre ++ msg)) % edL
  let R := edEncode (edMul r edBase)
  let k := leNat (sha512 (R ++ pub ++ msg)) % edL
  R ++ leBytes 32 ((r + k * a) % edL)

/-- Ed25519 verification with the cofactorless equation (R540). -/
def edVerify (pub msg sig : List Byte) : Bool :=
  let S := leNat (sig.drop 32)
  match edDecode pub, edDecode (sig.take 32) with
  | some A, some R =>
    if edL ≤ S ∨ sig.length ≠ 64 then false
    else
      let k := leNat (sha512 (sig.take 32 ++ pub ++ msg)) % edL
      edEq (edMul S edBase) (edAdd (2 * edD % edP) R (edMul k A))
  | _, _ => false

/-! ### SipHash-2-4 (R360) -/

/-- Rotate left in 64 bits. -/
def rotl64 (n x : Nat) : Nat := rotr 64 (64 - n) x

/-- One SipHash round. -/
def sipRound (v : Nat × Nat × Nat × Nat) : Nat × Nat × Nat × Nat :=
  let (v0, v1, v2, v3) := v
  let M := 2 ^ 64
  let v0 := (v0 + v1) % M
  let v1 := rotl64 13 v1 ^^^ v0
  let v0 := rotl64 32 v0
  let v2 := (v2 + v3) % M
  let v3 := rotl64 16 v3 ^^^ v2
  let v0 := (v0 + v3) % M
  let v3 := rotl64 21 v3 ^^^ v0
  let v2 := (v2 + v1) % M
  let v1 := rotl64 17 v1 ^^^ v2
  let v2 := rotl64 32 v2
  (v0, v1, v2, v3)

/-- SipHash-2-4 of a message under a key of two 64-bit words. -/
def sipHash24 (k0 k1 : Nat) (msg : List Byte) : Nat :=
  let init := (k0 ^^^ 0x736f6d6570736575, k1 ^^^ 0x646f72616e646f6d, k0 ^^^ 0x6c7967656e657261, k1 ^^^ 0x7465646279746573)
  let full := msg.length / 8
  let absorb (v : Nat × Nat × Nat × Nat) (m : Nat) :=
    let w := sipRound (sipRound (v.1, v.2.1, v.2.2.1, v.2.2.2 ^^^ m))
    (w.1 ^^^ m, w.2)
  let blocks := (chunks 8 full msg).map leNat
  let last := leNat (msg.drop (8 * full)) + (msg.length % 256) * 2 ^ 56
  let v := (blocks ++ [last]).foldl absorb init
  let v := sipRound (sipRound (sipRound (sipRound (v.1, v.2.1, v.2.2.1 ^^^ 0xff, v.2.2.2))))
  v.1 ^^^ v.2.1 ^^^ v.2.2.1 ^^^ v.2.2.2

end Sys2Proof.Machine
end

