-- ==== Sys2Proof/Machine/Codec.lean ====
section
/-!
DEFINITION. The exponent codec (chapter 07): block forms, table rules, the compressor and the total decoder, and the table
commands.
-/
namespace Sys2Proof.Machine

/-! ### Elements and units (R212) -/

/-- The sign-fraction byte F of an element. -/
def fPart (x : Nat) : Nat := bitsOf x 15 1 * 128 + bitsOf x 0 7
/-- The exponent X of an element. -/
def xPart (x : Nat) : Nat := bitsOf x 7 8
/-- The element of a sign-fraction byte and an exponent. -/
def element (f x : Nat) : Nat := bitsOf f 7 1 * 32768 + x * 128 + bitsOf f 0 7

/-- The 16-bit elements of a byte list. -/
def halfwords : List Byte → List Nat
  | a :: b :: rest => (a.toNat + 256 * b.toNat) :: halfwords rest
  | _ => []

/-! ### Tables (R217, R218) -/

/-- A table is valid (R217). -/
def lensValid (l : List Nat) : Bool :=
  l.length == 256 && l.all (fun n => decide (n ≤ 15)) && (l.map fun n => if n = 0 then 0 else 2 ^ (15 - n)).sum == 32768

/-- The symbols of one length, ascending, with the codes that follow from `code`. -/
def codesOfLen (lens : List Nat) (l code : Nat) : List (Nat × Nat) :=
  let syms := (List.range lens.length).filter fun s => lens.getD s 0 == l
  syms.zip ((List.range syms.length).map (· + code))

/-- The canonical codes (R218) from length `l` on: symbol, length, code. -/
def canonFrom (lens : List Nat) (l code : Nat) : Nat → List (Nat × Nat × Nat)
  | 0 => []
  | n + 1 =>
    let cs := codesOfLen lens l code
    cs.map (fun c => (c.1, l, c.2)) ++ canonFrom lens (l + 1) ((code + cs.length) * 2) n

/-- The canonical codes of a table: symbol, length, code. -/
def canon (lens : List Nat) : List (Nat × Nat × Nat) := canonFrom lens 1 0 15

/-! ### The compressor (R216, R220, R221) -/

/-- The bits of a code, most significant first. -/
def codeBits (len code : Nat) : List Bool := (List.range len).map fun i => bitOf code (len - 1 - i)

/-- Bits packed into bytes, most significant first, the last byte padded with zeros. -/
def packBits (bits : List Bool) : List Byte :=
  (chunks 8 (bits.length + 1) bits).map fun c => BitVec.ofNat 8 ((List.range 8).foldl (fun acc i => acc * 2 + b2n (c.getD i false)) 0)

/-- The stored length of a coded block. -/
def slenOf (clen : Nat) : Nat := (clen + 31) / 32 * 32

/-- The coded block of a unit under a table: its bytes up to SLEN (R216); none where an exponent has no code. -/
def codedBlock (table : Nat) (lens : List Nat) (unit : List Byte) : Option (List Byte) :=
  let es := halfwords unit
  let cs := canon lens
  match es.mapM fun e => (cs.find? fun c => c.1 == xPart e).map fun c => codeBits c.2.1 c.2.2 with
  | none => none
  | some codes =>
    let fs := es.map fPart
    let zf := fs.all (· == 0)
    let stream := packBits codes.flatten
    let clen := 8 + (if zf then 0 else 2048) + stream.length
    let body := leBytes 2 clen ++ leBytes 1 table ++ leBytes 1 (b2n zf) ++ leBytes 4 0
      ++ (if zf then [] else fs.map (BitVec.ofNat 8 ·)) ++ stream
    some (body ++ List.replicate (slenOf clen - clen) 0#8)

/-- What the compressor stores for a unit: whether the block is CODED, and its stored bytes (R220, R221). -/
def compress (c : Captured) (unit : List Byte) : Bool × List Byte :=
  if c.surveying then (false, unit)
  else match codedBlock c.table c.lens unit with
    | some bs => if bs.length ≤ 4064 then (true, bs) else (false, unit)
    | none => (false, unit)

/-! ### The total decoder (R222, R223) -/

/-- The number n of R222: the bytes that the decoder reads of a coded page. -/
def decodeLen (stored : Nat → Byte) : Nat := min 4096 (max 8 ((stored 0).toNat + 256 * (stored 1).toNat))

/-- The next symbol of a bit stream and the bits it consumes. -/
def nextSymbol (cs : List (Nat × Nat × Nat)) (bit : Nat → Bool) (pos len code : Nat) : Nat → Nat × Nat
  | 0 => (0, len)
  | n + 1 =>
    let code := code * 2 + b2n (bit (pos + len))
    match cs.find? fun c => c.2.1 == len + 1 && c.2.2 == code with
    | some c => (c.1, len + 1)
    | none => nextSymbol cs bit pos (len + 1) code n

/-- The exponents of a bit stream, one per F byte. -/
def decodeX (cs : List (Nat × Nat × Nat)) (bit : Nat → Bool) (pos : Nat) : List Nat → List Nat
  | [] => []
  | f :: fs =>
    let r := nextSymbol cs bit pos 0 0 15
    element f r.1 :: decodeX cs bit (pos + r.2) fs

/-- The 4,096 bytes that a stored coded page expands to (R222). -/
def expand (lens : List Nat) (stored : Nat → Byte) : List Byte :=
  let n := decodeLen stored
  let at' (i : Nat) : Nat := if i < n then (stored i).toNat else 0
  let zf := bitOf (at' 3) 0
  let start := 8 + (if zf then 0 else 2048)
  let fs := (List.range 2048).map fun k => if zf then 0 else at' (8 + k)
  (decodeX (canon lens) (fun i => bitOf (at' (start + i / 8)) (7 - i % 8)) 0 fs).flatMap (leBytes 2 ·)

/-- The form of a page is CODED. -/
def State.coded (s : State) (page : Nat) : Bool := s.dev.codec.coded.contains page

/-- The bytes that a decoder read of a page takes (R222, R235). -/
def State.unitLen (s : State) (a : Nat) : Nat := if s.coded (a / 4096) then decodeLen (fun i => s.byte (a + i)) else 4096

/-- The sectors that a decoder read of a page reads. -/
def State.unitSectors (s : State) (a : Nat) : List Nat := sectorsOf a (s.unitLen a)

/-- The 4,096 bytes of a page as the decoder gives them (R222). -/
def State.expandPage (s : State) (lens : List Nat) (a : Nat) : List Byte :=
  if s.coded (a / 4096) then expand lens (fun i => s.byte (a + i)) else s.bytes a 4096

/-! ### Tables of the chip -/

/-- CDC_TBL_t.STATE: 0 INVALID, 1 VALID, 2 SURVEYING. -/
def State.tblState (s : State) (t : Nat) : Nat := s.fld (rCdcTbl t) 5 2

/-- A basin owns a table (R219). -/
def State.tblOwned (s : State) (b t : Nat) : Bool := s.bit (rCdcTbl t) 4 && s.fld (rCdcTbl t) 0 4 == b

/-- The lengths held for a table; a table that nothing has loaded holds none (log entry 15). -/
def State.tblLens (s : State) (t : Nat) : List Nat := mget (List.replicate 256 0) s.dev.codec.tables t

/-- A user's capture of a table at its check (R219, R224): none where the table is invalid for its role. -/
def State.captureTable (s : State) (b t : Nat) (forWrite : Bool) : Option Captured :=
  if s.tblOwned b t && (s.tblState t == 1 || (forWrite && s.tblState t == 2)) then
    some { table := t, lens := s.tblLens t, surveying := s.tblState t == 2 }
  else none

/-- The basin has an active survey on the table. -/
def State.surveys (s : State) (b t : Nat) : Bool := s.bit (rCdcSurvey b) 63 && s.fld (rCdcSurvey b) 48 8 == t

/-! ### Compressor writes (R215, R230, R235) -/

/-- The exponents of a unit join a basin's histogram. -/
def histAdd (b : Nat) (h : Map Nat) (unit : List Byte) : Map Nat :=
  (halfwords unit).foldl (fun h e =>
    let k := 256 * b + xPart e
    mset 0 h k (min (mget 0 h k + 1) (2 ^ 48 - 1))) h

/-- Survey counting of a unit that a compressor writes: every use of the table counts while the survey is active (R230, R231). -/
def surveyUnit (b : Nat) (c : Captured) (unit : List Byte) : Eff := .read fun s =>
  if s.surveys b c.table then
    .andThen (onCodec fun k => { k with hist := histAdd b k.hist unit }) (bumpFld (rCdcSurvey b) 0 48 2048)
  else .skip

/-- A block already coded or raw is stored in a page with its form, in one step (R215). -/
def storeBlock (a : Nat) (coded : Bool) (bs : List Byte) : Eff :=
  Eff.all
    [ Eff.each (sectorsOf a bs.length) fun p => .act (.poison p false),
      .act (.store a bs), setForm (a / 4096) coded, markDirty a 4096 ]

/-- A compressor write of a unit to a page of HBM for a basin. -/
def compressTo (b a : Nat) (c : Captured) (unit : List Byte) : Eff :=
  let r := compress c unit
  Eff.all
    [ storeBlock a r.1 r.2, actWrite b (r.2.length / 32),
      bumpReg (rCdcBlocks b (if r.1 then 0 else 1)) 64 1, surveyUnit b c unit ]

/-! ### The survey's code builder (R232) -/

/-- A node of the builder: weight, key, and its leaves with their depths. -/
structure HuffNode where
  weight : Nat
  key : Nat
  leaves : List (Nat × Nat)

/-- A node joins a list kept in order of (weight, key). -/
def huffInsert (x : HuffNode) : List HuffNode → List HuffNode
  | [] => [x]
  | y :: ys =>
    if x.weight < y.weight ∨ (x.weight = y.weight ∧ x.key < y.key) then x :: y :: ys else y :: huffInsert x ys

/-- The two least nodes are merged until one remains. -/
def huffMerge (next : Nat) : Nat → List HuffNode → List HuffNode
  | 0, l => l
  | n + 1, x :: y :: rest =>
    huffMerge (next + 1) n (huffInsert
      { weight := x.weight + y.weight, key := next, leaves := (x.leaves ++ y.leaves).map fun p => (p.1, p.2 + 1) } rest)
  | _, l => l

/-- One adjustment of the depth counts at depth `l`. -/
def huffStep (l : Nat) (n : List Nat) : List Nat :=
  let j := ((List.range (l - 1)).reverse.find? fun j => n.getD j 0 != 0).getD 0
  let n := (n.set l (n.getD l 0 - 2)).set (l - 1) (n.getD (l - 1) 0 + 1)
  let n := n.set (j + 1) (n.getD (j + 1) 0 + 2)
  n.set j (n.getD j 0 - 1)

/-- The adjustments of one depth. -/
def huffDepth (l : Nat) : Nat → List Nat → List Nat
  | 0, n => n
  | f + 1, n => if n.getD l 0 = 0 then n else huffDepth l f (huffStep l n)

/-- The adjustments from depth `l` down to 16. -/
def huffLimit : Nat → List Nat → List Nat
  | 0, n => n
  | k + 1, n => huffLimit k (huffDepth (k + 16) 256 n)

/-- The lengths given to the symbols in their order. -/
def giveLens (n : List Nat) (l : Nat) (lens : List Nat) : Nat → List Nat → List Nat
  | 0, _ => lens
  | f + 1, syms =>
    let k := n.getD l 0
    giveLens n (l + 1) ((syms.take k).foldl (fun a s => a.set s l) lens) f (syms.drop k)

/-- The lengths built from a histogram (R232). -/
def buildLens (c : Nat → Nat) : List Nat :=
  let w (s : Nat) : Nat := 2 * c s + 1
  let leaves := (List.range 256).foldl (fun l s => huffInsert ⟨w s, s, [(s, 0)]⟩ l) []
  let depths := (huffMerge 256 255 leaves).flatMap (·.leaves)
  let n := depths.foldl (fun n p => n.set p.2 (n.getD p.2 0 + 1)) (List.replicate 256 0)
  let n := huffLimit 240 n
  let syms := ((List.range 256).foldl (fun l s => huffInsert ⟨2 ^ 64 - w s, s, [(s, 0)]⟩ l) []).map (·.key)
  giveLens n 1 (List.replicate 256 0) 15 syms

/-! ### Table commands (R229, R662) -/

/-- The lengths of a basin's staging area. -/
def State.staged (s : State) (b : Nat) : List Nat :=
  (List.range 256).map fun i => s.fld (rCdcStage b (i / 4)) (8 * (i % 4)) 8

/-- A table's state changes, its GEN rising by 1. -/
def setTable (t state : Nat) : Eff := .read fun s =>
  .andThen (putFld (rCdcTbl t) 5 2 state) (putFld (rCdcTbl t) 16 16 (s.fld (rCdcTbl t) 16 16 + 1))

/-- A table takes lengths. -/
def loadLens (t : Nat) (lens : List Nat) : Eff := onCodec fun c => { c with tables := mput c.tables t lens }

/-- The outcome of an operation in CDC_RESULT_b. -/
def cdcResult (b t op status : Nat) : Eff := putReg (rCdcResult b) (t + op * 2 ^ 8 + status * 2 ^ 16)

/-- An active survey of basin b on table t ends. -/
def endSurvey (b : Nat) : Eff := putBit (rCdcSurvey b) 63 false

/-- A basin's histogram is cleared. -/
def clearHist (b : Nat) : Eff := onCodec fun c => { c with hist := c.hist.filter fun e => e.1 / 256 != b }

/-- LOAD (Table 7.3). -/
def tableLoad (b t : Nat) : Eff := .read fun s =>
  let l := s.staged b
  if !s.tblOwned b t then cdcResult b t 1 1
  else if s.tblState t = 2 || s.dev.img.codecFail then cdcResult b t 1 4
  else if l.any (fun n => decide (15 < n)) then cdcResult b t 1 2
  else if !lensValid l then cdcResult b t 1 3
  else Eff.all [loadLens t l, setTable t 1, cdcResult b t 1 0]

/-- SURVEY_START (Table 7.3). -/
def tableSurveyStart (b t : Nat) : Eff := .read fun s =>
  if !s.tblOwned b t then cdcResult b t 2 1
  else if s.tblState t = 2 || s.bit (rCdcSurvey b) 63 || s.dev.img.codecFail then cdcResult b t 2 4
  else Eff.all [clearHist b, putReg (rCdcSurvey b) (t * 2 ^ 48 + 2 ^ 63), setTable t 2, cdcResult b t 2 0]

/-- SURVEY_FINISH (Table 7.3, R232). -/
def tableSurveyFinish (b t : Nat) : Eff := .read fun s =>
  if !s.tblOwned b t then cdcResult b t 3 1
  else if !s.surveys b t then cdcResult b t 3 4
  else Eff.all
    [ loadLens t (buildLens fun x => mget 0 s.dev.codec.hist (256 * b + x)), setTable t 1, endSurvey b, cdcResult b t 3 0 ]

/-- INVALIDATE (Table 7.3). -/
def tableInvalidate (b t : Nat) : Eff := .read fun s =>
  if !s.tblOwned b t then cdcResult b t 4 1
  else Eff.all [setTable t 0, Eff.when (s.surveys b t) (endSurvey b), cdcResult b t 4 0]

/-- FETCH (Table 7.3). -/
def tableFetch (b t : Nat) : Eff := .read fun s =>
  if !s.tblOwned b t then cdcResult b t 5 1
  else
    let l := s.tblLens t
    .andThen (Eff.each (List.range 64) fun w =>
        putReg (rCdcStage b w) (leNat ((List.range 4).map fun i => BitVec.ofNat 8 (l.getD (4 * w + i) 0))))
      (cdcResult b t 5 0)

/-- A write to CDC_CMD_b (R229). -/
def tableCmd (b v : Nat) : Eff := .read fun s =>
  let t := bitsOf v 0 8
  if !s.isOpen b then .skip
  else match bitsOf v 8 3 with
    | 1 => tableLoad b t
    | 2 => tableSurveyStart b t
    | 3 => tableSurveyFinish b t
    | 4 => tableInvalidate b t
    | 5 => tableFetch b t
    | _ => .skip

/-- A write to CDC_CMD_b of one operation by a reader. -/
def effTableCmd (rd b t op : Nat) : Eff := writeReg rd (rCdcCmd b) (tableCmd b (bitsOf t 0 8 + op * 256))

/-- LOAD. -/
def execLoad (rd b t : Nat) (s : State) : Host.Outcome State Fault Refusal := (effTableCmd rd b t 1).done s
/-- SURVEY_START. -/
def execSurveyStart (rd b t : Nat) (s : State) : Host.Outcome State Fault Refusal := (effTableCmd rd b t 2).done s
/-- SURVEY_FINISH. -/
def execSurveyFinish (rd b t : Nat) (s : State) : Host.Outcome State Fault Refusal := (effTableCmd rd b t 3).done s
/-- INVALIDATE. -/
def execInvalidate (rd b t : Nat) (s : State) : Host.Outcome State Fault Refusal := (effTableCmd rd b t 4).done s
/-- FETCH. -/
def execFetch (rd b t : Nat) (s : State) : Host.Outcome State Fault Refusal := (effTableCmd rd b t 5).done s

end Sys2Proof.Machine
end

