-- ==== Sys2Proof/Machine/Operands.lean ====
section
/-!
DEFINITION. Operand forms: the tensor descriptor (R96 to R100), its elements and extent, and how elements are read.
-/
namespace Sys2Proof.Machine

/-- `n` bytes from byte `i` of a little-endian record. -/
def rfield (r i n : Nat) : Nat := bitsOf r (8 * i) (8 * n)

/-- A tensor descriptor (Table 4.1). `raw` is its 64 bytes as a number. -/
structure TDesc where
  raw : Nat
  addr : Nat
  etype : Nat
  compressed : Bool
  table : Nat
  ndim : Nat
  sizes : List Nat
  strides : List Int
deriving DecidableEq, Repr

/-- The descriptor that 64 bytes spell. -/
def parseTensor (r : Nat) : TDesc :=
  { raw := bitsOf r 0 512, addr := rfield r 0 6, etype := rfield r 8 1, compressed := bitOf (rfield r 9 1) 0, table := rfield r 10 1,
    ndim := rfield r 11 1, sizes := (List.range 4).map fun k => rfield r (16 + 4 * k) 4,
    strides := (List.range 4).map fun k => signed 64 (rfield r (32 + 8 * k) 8) }

/-- The size of an element in bytes. -/
def esize (etype : Nat) : Nat := if etype = 0 then 2 else if etype = 3 then 80 else 4

/-- SIZE_k. -/
def TDesc.size (t : TDesc) (k : Nat) : Nat := t.sizes.getD k 1
/-- STRIDE_k. -/
def TDesc.stride (t : TDesc) (k : Nat) : Int := t.strides.getD k 0
/-- The number of elements. -/
def TDesc.count (t : TDesc) : Nat := t.size 0 * t.size 1 * t.size 2 * t.size 3

/-- The lowest addressed byte, relative to nothing (R100). -/
def TDesc.low (t : TDesc) : Int :=
  (t.addr : Int) + ((List.range 4).map fun k => min 0 (((t.size k : Int) - 1) * t.stride k)).foldl (· + ·) 0
/-- The highest addressed byte (R100). -/
def TDesc.high (t : TDesc) : Int :=
  (t.addr : Int) + ((List.range 4).map fun k => max 0 (((t.size k : Int) - 1) * t.stride k)).foldl (· + ·) 0
    + (esize t.etype : Int) - 1
/-- The extent (R100) of a valid tensor. -/
def TDesc.extent (t : TDesc) : Nat × Nat := (t.low.toNat, t.high.toNat)

/-- Reserved bytes, flags and values are as Table 4.1 gives. -/
def TDesc.reservedOk (t : TDesc) : Bool :=
  rfield t.raw 6 2 == 0 && bitsOf (rfield t.raw 9 1) 1 7 == 0 && rfield t.raw 12 4 == 0 && decide (t.etype ≤ 3)

/-- A dense tensor: each dimension follows the one below it without a gap (R98). -/
def TDesc.dense (t : TDesc) : Bool :=
  t.stride 0 == (esize t.etype : Int)
    && (List.range 3).all fun k => decide (t.ndim ≤ k + 1) || t.stride (k + 1) == (t.size k : Int) * t.stride k

/-- R97. -/
def TDesc.valid97 (t : TDesc) : Bool :=
  let e : Int := esize t.etype
  decide (1 ≤ t.ndim ∧ t.ndim ≤ 4)
    && ((List.range 4).all fun k => decide (k < t.ndim) || (t.size k == 1 && t.stride k == 0))
    && ((List.range 4).all fun k => decide (1 ≤ t.size k) && t.stride k % e == 0)
    && t.addr % esize t.etype == 0 && (t.etype != 3 || t.addr % 16 == 0)
    && decide (0 ≤ t.low) && decide (t.high < (hbmSize : Int)) && decide (t.count ≤ 2 ^ 48)

/-- R98. -/
def TDesc.valid98 (t : TDesc) : Bool := !t.compressed || (t.etype == 0 && t.dense && t.addr % 4096 == 0)

/-- A descriptor that meets R96 to R98. -/
def TDesc.valid (t : TDesc) : Bool := t.reservedOk && t.valid97 && t.valid98

/-- The coordinates of a canonical index under sizes (the inverse of R99). -/
def coords (sizes : List Nat) (i : Nat) : List Nat :=
  match sizes with
  | [] => []
  | n :: ns => i % n :: coords ns (i / n)

/-- The canonical index of coordinates under sizes (R99). -/
def canonIndex : List Nat → List Nat → Nat
  | n :: ns, x :: xs => x + n * canonIndex ns xs
  | _, _ => 0

/-- The byte address of the element at coordinates. -/
def TDesc.at (t : TDesc) (c : List Nat) : Nat :=
  ((t.addr : Int) + ((List.range 4).map fun k => (c.getD k 0 : Int) * t.stride k).foldl (· + ·) 0).toNat

/-- The byte address of a canonical element. -/
def TDesc.elemAddr (t : TDesc) (i : Nat) : Nat := t.at (coords t.sizes i)

/-- The canonical index of the element at coordinates. A broadcast tensor has stride 0 and the full size. -/
def TDesc.idx (t : TDesc) (c : List Nat) : Nat := canonIndex t.sizes c

/-- The sectors that hold a byte of an element of a tensor, each once, rising. For a compressed tensor, the sectors that its
units' decoder reads take (R169, R235). -/
def State.tensorSectors (s : State) (t : TDesc) : List Nat :=
  if t.compressed then
    (List.range ((t.count * 2 + 4095) / 4096)).flatMap fun i => s.unitSectors (t.addr + 4096 * i)
  else
    ((List.range t.count).flatMap fun i => sectorsOf (t.elemAddr i) (esize t.etype)).foldl sins []

/-- A tensor as read: the raw bits of each canonical element. -/
abbrev Elems := Array Nat

/-- The elements of a tensor as its reader gets them (R99; compressed units through the decoder, R222). -/
def State.readElems (s : State) (t : TDesc) (lens : List Nat) : Elems :=
  if t.compressed then
    let bytes := (List.range ((t.count * 2 + 4095) / 4096)).flatMap fun i => s.expandPage lens (t.addr + 4096 * i)
    ((halfwords bytes).take t.count).toArray
  else ((List.range t.count).map fun i => s.num (t.elemAddr i) (esize t.etype)).toArray

/-- The element at coordinates. -/
def elemAt (t : TDesc) (e : Elems) (c : List Nat) : Nat := e.getD (t.idx c) 0

end Sys2Proof.Machine
end

