-- ==== Sys2Proof/Machine/Queues.lean ====
section
/-!
DEFINITION. Queues (chapter 06): cards, fetching, arbitration, completions and messages, and the queue commands that no
engine shares.
-/
namespace Sys2Proof.Machine

/-! ### Cards -/

/-- QUE_CFG_q.PRESENT. -/
def State.qPresent (s : State) (q : Nat) : Bool := s.bit (rQueCfg q) 31
/-- QUE_CFG_q.OWNER. -/
def State.qOwner (s : State) (q : Nat) : Nat := s.fld (rQueCfg q) 0 4
/-- QUE_CFG_q.KIND (Table 6.1). -/
def State.qKind (s : State) (q : Nat) : Nat := s.fld (rQueCfg q) 4 2
/-- QUE_CFG_q.PRIO. -/
def State.qPrio (s : State) (q : Nat) : Nat := s.fld (rQueCfg q) 6 2
/-- The depth of a queue. -/
def State.qDepth (s : State) (q : Nat) : Nat := 2 ^ s.fld (rQueCfg q) 8 4
/-- QUE_CFG_q.VECTOR. -/
def State.qVector (s : State) (q : Nat) : Nat := s.fld (rQueCfg q) 12 6
/-- QUE_CFG_q.WEIGHT. -/
def State.qWeight (s : State) (q : Nat) : Nat := s.fld (rQueCfg q) 18 8
/-- QUE_STATUS_q.STATE: 0 DISABLED, 1 ENABLED, 2 ERROR. -/
def State.qState (s : State) (q : Nat) : Nat := s.fld (rQueStatus q) 0 2
/-- QUE_STATUS_q.CAUSE. -/
def State.qCause (s : State) (q : Nat) : Nat := s.fld (rQueStatus q) 4 8
/-- The queue is ENABLED. -/
def State.qEnabled (s : State) (q : Nat) : Bool := s.qPresent q && s.qState q == 1

/-- The hidden state of a queue. -/
def State.queue (s : State) (q : Nat) : Queue := mget {} s.dev.work.queues q

/-- The work of queues and copy engines changes. -/
def onWork (g : Work → Work) : Eff := onDev fun d => { d with work := g d.work }

/-- The hidden state of a queue changes. -/
def onQueue (q : Nat) (g : Queue → Queue) : Eff := onWork fun w =>
  { w with queues := mset {} w.queues q (g (mget {} w.queues q)) }

/-- The entries from the next one to fetch up to the tail. -/
def State.sqCount (s : State) (q : Nat) : Nat :=
  ((s.queue q).sqTail + s.qDepth q - (s.queue q).nextFetch % s.qDepth q) % s.qDepth q

/-- A CQ slot is free for an entry's completion (R192). -/
def State.cqFree (s : State) (q : Nat) : Bool := decide ((s.queue q).posted + (s.queue q).owed.length < s.qDepth q)

/-- Who asks when a queue checks on its own behalf (LCK_LAST_b.AGENT). -/
def State.qAsker (s : State) (q : Nat) : Asker := { agent := s.qKind q, source := q }

/-! ### Entries -/

/-- A field of an entry: `n` bytes from byte `i`. -/
def Entry.get (e : Entry) (i n : Nat) : Nat := bitsOf e.bytes (8 * i) (8 * n)
/-- CMD. -/
def Entry.cmd (e : Entry) : Nat := e.get 0 2
/-- SFLAGS.IRQ. -/
def Entry.irq (e : Entry) : Bool := bitOf (e.get 2 1) 0
/-- SFLAGS.REQUIRE_OK. -/
def Entry.requireOk (e : Entry) : Bool := bitOf (e.get 2 1) 1
/-- TAG. -/
def Entry.tag (e : Entry) : Nat := e.get 8 4
/-- The header's reserved bytes and bits are zero (Table 6.3). -/
def Entry.headerOk (e : Entry) : Bool := bitsOf (e.get 2 1) 2 6 == 0 && e.get 3 5 == 0 && e.get 12 4 == 0

/-- How the entry before an entry of the queue ended: none while it has not ended (R188). `prev` is how the entry before the
list's first ended. -/
def predOk (prev : Option Bool) : List Entry → Nat → Option Bool
  | [], _ => prev
  | e :: es, i => if e.idx = i then prev else predOk (e.fin.map fun f => f.status == 0) es i

/-! ### Messages (R195) -/

/-- A queue sends its message. -/
def queueMessage (q : Nat) : Eff := .read fun s =>
  .andThen (onQueue q fun k => { k with sinceMsg := 0, oldest := none }) (raiseMsix (s.qOwner q) (s.qVector q))

/-- The queue enters ERROR (R210). -/
def queueError (q cause : Nat) : Eff := .read fun s =>
  Eff.all
    [ putFld (rQueStatus q) 0 2 2, putFld (rQueStatus q) 4 8 cause, queueMessage q, countAt (0xB0 + s.qOwner q) 0 ]

/-- The message that a posting may bring. -/
def messageAtPost (q : Nat) (irq : Bool) : Eff := .read fun s =>
  let k := s.queue q
  let count := s.fld (rQueCoal q) 0 8
  let age := s.fld (rQueCoal q) 8 16
  let oldest := k.oldest.getD s.now
  .andThen (onQueue q fun k => { k with sinceMsg := k.sinceMsg + 1, oldest := some oldest })
    (if irq || (count != 0 && decide (count ≤ k.sinceMsg + 1)) || (age != 0 && decide (oldest + age * 1024 ≤ s.now))
      then queueMessage q else .skip)

/-! ### Completions (R190 to R194) -/

/-- The 16 bytes of a completion (Table 6.5). -/
def completionBytes (idx head tag phase : Nat) (f : Fin) : List Byte :=
  leBytes 2 idx ++ leBytes 2 head ++ leBytes 1 f.status ++ leBytes 1 f.flags ++ leBytes 4 f.detail ++ leBytes 4 tag
    ++ leBytes 1 0 ++ leBytes 1 phase

/-- The address of the next completion. -/
def State.cqSlot (s : State) (q : Nat) : Nat := s.fld (rQueCqBase q) 12 36 * 4096 + 16 * s.fld (rQuePtr q) 16 13

/-- A completion is written to the CQ ring, or refused under R607. One that covers a poisoned sector of the ring in part changes nothing there
(R154, log entry 87). -/
def postOne (q : Nat) (e : Entry) (f : Fin) : Eff := .read fun s =>
  let d := s.qDepth q
  let b := s.qOwner q
  let a := s.cqSlot q
  let tail := s.fld (rQuePtr q) 16 13
  let head := (e.idx + 1) % d
  if outbound a && !s.busMaster b then
    Eff.all
      [ lockRefuse b a (a + 15) (s.qAsker q) 0x17 none, onQueue q (fun k => { k with dead := true }),
        Eff.when (s.qState q == 1) (queueError q 5) ]
  else
    Eff.all
      [ writeAny b (s.qAsker q) a (completionBytes e.idx head e.tag (s.fld (rQueStatus q) 2 1) f),
        putReg (rQuePtr q) (head + (tail + 1) % d * 2 ^ 16),
        Eff.when (tail + 1 == d) (putFld (rQueStatus q) 2 1 (1 - s.fld (rQueStatus q) 2 1)),
        bumpReg (rQueDone q) 64 1,
        onQueue q (fun k =>
          { k with
            posted := k.posted + 1, owed := k.owed.drop 1, lastOk := f.status == 0, lastStatus := f.status, lastIdx := some e.idx }),
        messageAtPost q e.irq ]

/-- The next completion has room: a CQ slot is free and no copy-on-write copy holds up its write. -/
def State.canPost (s : State) (q : Nat) : Bool :=
  decide ((s.queue q).posted < s.qDepth q) && !(inHbm (s.cqSlot q) && s.cowWait (s.cqSlot q) 16)

/-- Completions are lost: a completion write was refused (R210), or the PCIe link has gone down (R612 step 3). No other completion is: one
that a queue in ERROR owes waits for CQ space like any other (R208, log entry 14). -/
def State.drops (s : State) (q : Nat) : Bool := (s.queue q).dead

/-- What a queue keeps once it is DISABLED: the SQ_TAIL and CQ_HEAD last accepted, which its doorbell goes on to show until the next
enable (R181), and how its last completion ended. -/
def Queue.parked (k : Queue) : Queue :=
  { sqTail := k.sqTail, cqHead := k.cqHead, lastOk := k.lastOk, lastStatus := k.lastStatus, lastIdx := k.lastIdx }

/-- What a queue owes is posted in order as far as it can be (R190, R208); a queue that is closing becomes DISABLED once it
owes nothing (R206, R207). -/
def postLoop (q : Nat) : Nat → Eff
  | 0 => .skip
  | n + 1 => .read fun s =>
    match (s.queue q).owed with
    | [] => Eff.when (s.queue q).closing
        (.andThen (putFld (rQueStatus q) 0 2 0) (onQueue q Queue.parked))
    | e :: _ =>
      match e.fin with
      | some f =>
        if s.drops q then
          .andThen (onQueue q fun k =>
              { k with owed := k.owed.drop 1, lastOk := f.status == 0, lastStatus := f.status, lastIdx := some e.idx }) (postLoop q n)
        else if e.stage != .abortTag && s.canPost q then .andThen (postOne q e f) (postLoop q n)
        else .skip
      | none => .skip

/-- What a queue owes is posted as far as it can be. -/
def post (q : Nat) : Eff := .read fun s => postLoop q ((s.queue q).owed.length + 2)

/-- An entry takes its end. -/
def setFin (q idx : Nat) (f : Fin) : Eff := onQueue q fun k => { k with owed := k.owed.map fun e =>
  if e.idx = idx ∧ e.fin = none then { e with fin := some f, stage := .running } else e }

/-- The commands of Table 6.4 for a kind of queue. -/
def cmdListed (kind cmd : Nat) : Bool :=
  if cmd = 0x0000 then true
  else if cmd = 0x0001 then kind == 0
  else if cmd = 0x0010 then kind == 1
  else if cmd = 0x0020 || cmd = 0x0021 then kind == 0 || kind == 1
  else if kind = 2 then decide (0x0100 ≤ cmd ∧ cmd ≤ 0x0104)
  else kind == 3 && decide (0x0200 ≤ cmd ∧ cmd ≤ 0x0202)

/-- What is judged of an entry before its command's own checks: REQUIRE_OK first (R188), then the command and the header
(R185). None where the entry goes on. -/
def State.judge (s : State) (q : Nat) (e : Entry) : Option Nat :=
  let k := s.queue q
  if e.requireOk && predOk (some k.lastOk) k.owed e.idx == some false then some 0x22
  else if !cmdListed (s.qKind q) e.cmd then some 0x20
  else if !e.headerOk then some 0x11
  else none

/-- The first entry of a queue that has not started and is SKIPPED or malformed, with its status. One with REQUIRE_OK is judged once its
predecessor has ended (R188). -/
def State.unfit (s : State) (q : Nat) : Option (Nat × Nat) :=
  let k := s.queue q
  k.owed.findSome? fun e =>
    if e.fin.isSome || e.stage != .fetched || (e.requireOk && (predOk (some k.lastOk) k.owed e.idx).isNone) then none
    else (s.judge q e).map fun st => (e.idx, st)

/-- The entries of a queue that are SKIPPED or malformed end so, as far as they can be judged (R185, R188). -/
def settleLoop (q : Nat) : Nat → Eff
  | 0 => .skip
  | n + 1 => .read fun s =>
    match s.unfit q with
    | some x => .andThen (setFin q x.1 { status := x.2 }) (settleLoop q n)
    | none => .skip

/-- What a queue can judge it judges, and what it owes it posts as far as it can. -/
def settleQueue (q : Nat) : Eff := .read fun s => .andThen (settleLoop q (s.queue q).owed.length) (post q)

/-- An entry ends, and those behind it are judged by its end. -/
def finish (q idx : Nat) (f : Fin) : Eff := .andThen (setFin q idx f) (settleQueue q)

/-- The entry that a queue works on: the first that has not ended. -/
def State.current (s : State) (q : Nat) : Option Entry := (s.queue q).owed.find? fun e => e.fin.isNone

/-- The current entry ends. -/
def finishCurrent (q : Nat) (f : Fin) : Eff := .read fun s =>
  match s.current q with
  | some e => finish q e.idx f
  | none => .skip

/-- An entry's stage changes. -/
def setStage (q idx : Nat) (st : EStage) : Eff := onQueue q fun k =>
  { k with owed := k.owed.map fun e => if e.idx = idx then { e with stage := st } else e }

/-! ### Arbitration (R196, R197) -/

/-- The queue of a basin that a grant goes to: the highest priority level, round robin within it. -/
def bestQueue (prio : Nat → Nat) (last : Map Nat) (b : Nat) (qs : List Nat) : Option Nat :=
  match (List.range 4).find? fun p => qs.any fun q => prio q == p with
  | none => none
  | some p =>
    let level := qs.filter fun q => prio q == p
    match mget? last (4 * b + p) with
    | none => level.head?
    | some l => match level.find? fun q => decide (l < q) with
      | some q => some q
      | none => level.head?

/-- What an engine grants to beside the queues, numbered after them: the copies of the serving engine for request slot e, at 256 + e, and
the node sums of basin b, at 4352 + b (R302). -/
abbrev moverOf (e : Nat) : Nat := 256 + e
/-- The rank engine's work for a basin, as arbitration numbers it. -/
abbrev rankUser (b : Nat) : Nat := 4352 + b

/-- The keys of the copies that are a user's: on an engine, or set aside. -/
def State.runsOf (s : State) (u : Nat) : List Nat := (s.dev.work.engines.filter fun x => x.2.q == u).map (·.1)

/-- The request slot that a copy of the serving engine is for. -/
def State.moverReq (s : State) (u : Nat) : Req := mget {} s.dev.srv.reqs (u - 256)

/-- The basin that a grant is charged to. -/
def State.userBasin (s : State) (u : Nat) : Nat :=
  if u < 256 then s.qOwner u else if u < 4352 then (s.moverReq u).basin else u - 4352

/-- The level of a grant's user: the rank engine's work is at 0 (R302); the serving engine's copies go with the request's SERVE queue
(log entry 85). -/
def State.userPrio (s : State) (u : Nat) : Nat :=
  if u < 256 then s.qPrio u else if u < 4352 then s.qPrio (s.moverReq u).queue else 0

/-- WEIGHT_b, as every queue card of basin b shows it. A basin without a queue has 1 (log entry 85). -/
def State.basinWeight (s : State) (b : Nat) : Nat :=
  (((List.range 256).find? fun q => s.qPresent q && s.qOwner q == b).map s.qWeight).getD 1

/-- The weight of a grant's user. -/
def State.userWeight (s : State) (u : Nat) : Nat := if u < 256 then s.qWeight u else s.basinWeight (s.userBasin u)

/-- One grant of a weighted round robin: the basin being visited keeps its turn up to its weight while it has a ready queue;
otherwise the next basin is visited. -/
def grantLoop (owner weight prio : Nat → Nat) (ready : List Nat) (t : Turn) : Nat → Option (Nat × Turn)
  | 0 => none
  | n + 1 =>
    match bestQueue prio t.last t.basin (ready.filter fun q => owner q == t.basin) with
    | some q =>
      if t.used < weight q then
        some (q, { t with used := t.used + 1, last := mput t.last (4 * t.basin + prio q) q })
      else grantLoop owner weight prio ready { t with basin := (t.basin + 1) % 16, used := 0 } n
    | none => grantLoop owner weight prio ready { t with basin := (t.basin + 1) % 16, used := 0 } n

/-- The queue that the next grant of a turn goes to, with the turn after it, among the ready queues. -/
def State.grant (s : State) (key : Nat) (ready : List Nat) : Option (Nat × Turn) :=
  grantLoop s.userBasin s.userWeight s.userPrio ready (mget {} s.dev.work.turns key) 17

/-- The grant of a turn goes to queue q: the turn advances and `e` happens. Where it goes elsewhere nothing happens. -/
def granted (key : Nat) (ready : State → List Nat) (q : Nat) (e : Eff) : Eff := .read fun s =>
  match s.grant key (ready s) with
  | some (p, t) => if p = q then .andThen (onWork fun w => { w with turns := mput w.turns key t }) e else .skip
  | none => .skip

/-! ### Fetching (R183, R189, R192, R210) -/

/-- A queue may take up its next entry: ENABLED, its basin OPEN, an entry submitted, a CQ slot free, nothing owed that R189,
R382A or R208 makes it wait for. A SERVE queue takes entries while earlier ones run, but not behind aborted ones. -/
def State.mayFetch (s : State) (q : Nat) : Bool :=
  let k := s.queue q
  s.qEnabled q && !k.closing && s.isOpen (s.qOwner q) && s.sqCount q != 0 && s.cqFree q
    && (k.owed.isEmpty || (s.qKind q == 2 && k.owed.all fun e => e.fin.isNone && e.stage == .running))

/-- The entry whose TAG alone is still to be fetched (R205). -/
def State.tagFetch (s : State) (q : Nat) : Option Entry := (s.queue q).owed.find? fun e => e.stage == .abortTag

/-- The outbound reads change. -/
def onReads (g : List OutRead → List OutRead) : Eff := onDev fun d => { d with pci := { d.pci with reads := g d.pci.reads } }

/-- The outbound read of a user. -/
def State.outRead (s : State) (u : ReadUser) : Option OutRead := s.dev.pci.reads.find? fun r => r.user == u

/-- The user's outbound read is done with. -/
def dropRead (u : ReadUser) : Eff := onReads fun l => l.filter fun r => r.user != u

/-- What a fetch does with its bytes, or with none after a failure. -/
abbrev FetchEnd := Option (List Byte) → Eff

/-- Bytes read for a queue from HBM or over PCIe. Over PCIe the read is issued first, and its end comes with what READ_COMPLETION
has brought. A poisoned sector, an error and a refusal under R607 end in none; `refused` happens before the last. With `quiet` a
failure counts at no source of the reader's (R205). -/
def fetchBytes (q a n : Nat) (quiet : Bool) (es : List EccEvent) (refused : Eff) (k : FetchEnd) : Eff := .read fun s =>
  let b := s.qOwner q
  if inHbm a then
    Eff.all
      [ if quiet then sectorErrors (fun p => (sectorsOf a n).contains p) es else readSectors b (sectorsOf a n) es,
        actRead b (sectorsOf a n).length,
        .read fun t => if t.anyPoison a n then k none else k (some (t.bytes a n)) ]
  else
    match s.outRead (.sq q) with
    | none =>
      if s.busMaster b then
        .andThen (onReads fun l => l ++ [{ user := .sq q, tick := s.now }]) (emit (.memRead b (s.busAddr a) n))
      else .andThen refused (k none)
    | some r =>
      match r.got with
      | none => .skip
      | some (.data bs) => .andThen (dropRead (.sq q)) (k (some (bs.take n)))
      | some _ => .andThen (dropRead (.sq q)) (k none)

/-- An entry has been fetched whole. One that is SKIPPED or malformed ends here, but for one whose predecessor has not ended. -/
def taken (q idx : Nat) (bs : List Byte) : Eff :=
  .andThen (onQueue q fun k => { k with owed := k.owed ++ [{ idx := idx, bytes := leNat bs }] }) (settleQueue q)

/-- SQ_FETCH (R205, R210). -/
def effSqFetch (q : Nat) (es : List EccEvent) : Eff := .read fun s =>
  let d := s.qDepth q
  let base := s.fld (rQueSqBase q) 12 36 * 4096
  match s.tagFetch q with
  | some e =>
    fetchBytes q (base + 64 * e.idx) 64 true es .skip fun r =>
      .andThen (onQueue q fun k => { k with owed := k.owed.map fun x =>
        if x.idx = e.idx ∧ x.stage = .abortTag then
          { x with stage := .running, bytes := bitsOf (leNat (r.getD [])) 64 32 * 2 ^ 64 } else x }) (post q)
  | none =>
    if s.mayFetch q then
      let idx := (s.queue q).nextFetch % d
      let a := base + 64 * idx
      fetchBytes q a 64 false es (lockRefuse (s.qOwner q) a (a + 63) (s.qAsker q) 0x17 none) fun r =>
        match r with
        | none => queueError q 3
        | some bs => .andThen (onQueue q fun k => { k with nextFetch := (idx + 1) % d }) (taken q idx bs)
    else .skip

/-! ### Taking an entry up -/

/-- A request is being spilled or restored. One that is RESUMING and has not taken its pages yet waits for them (R355). -/
def Req.moving (r : Req) : Bool := r.state == 4 || (r.state == 6 && (!r.held.isEmpty || r.spilled == 0))

/-- A SERVE queue's STEP waits while a step of its basin runs, or a serving stoppage (R340, R595); and in TENDED mode until the spill and
restore copies before it are made, so that which pages are free rests on the basin's entries alone (R344). -/
def State.stepHeld (s : State) (q : Nat) (e : Entry) : Bool :=
  let b := s.qOwner q
  s.qKind q == 2 && e.cmd == 0x0103
    && ((mget {} s.dev.srv.basins b).step.isSome || s.bit rStpStatus 2
      || (s.bit (rSrvCfg b) 58 && s.dev.srv.reqs.any fun r => r.2.basin == b && r.2.moving))

/-- A queue is the step queue of a SERVING basin: the engine alone submits to it (R335). -/
def State.isStepQueue (s : State) (q : Nat) : Bool :=
  let b := s.qOwner q
  s.fld (rSrvState b) 0 2 == 1 && ((mget {} s.dev.srv.basins b).cfg.map fun c => c.stepQueue == q).getD false

/-- The entry that a queue may start now: the first that has not ended and has not started, with its predecessor's end known
where REQUIRE_OK asks for it, on an ENABLED queue of an OPEN basin. -/
def State.startable (s : State) (q : Nat) : Option Entry :=
  let k := s.queue q
  if s.qEnabled q && !k.closing && s.isOpen (s.qOwner q) then
    match k.owed.find? fun e => e.fin.isNone && e.stage == .fetched with
    | some e => if s.stepHeld q e || (e.requireOk && (predOk (some k.lastOk) k.owed e.idx).isNone) then none else some e
    | none => none
  else none

/-- The ready queues of a kind: their next entry may start, or is still to be fetched (chapter 06, before R196). -/
def State.startableQueues (s : State) (kind : Nat) : List Nat :=
  (List.range 256).filter fun q => s.qKind q == kind && ((s.startable q).isSome || s.mayFetch q)

/-- A queue takes up its next entry, whose command is among those given. A SKIPPED or malformed one ends so. SERVE and WHARF
queues take up an entry by grant (Table 6.7). -/
def takeUp (q : Nat) (cmd : Nat → Bool) (body : Entry → Eff) : Eff := .read fun s =>
  match s.startable q with
  | none => .skip
  | some e =>
    let go : Eff :=
      match s.judge q e with
      | some st => finish q e.idx { status := st }
      | none => body e
    if !cmd e.cmd then .skip
    else if s.qKind q = 2 || s.qKind q = 3 then granted (s.qKind q) (fun t => t.startableQueues (s.qKind q)) q go
    else go

/-- CMD_NOP (R185). -/
def effCmdNop (q : Nat) : Eff := takeUp q (· == 0) fun e =>
  finish q e.idx { status := if e.get 16 48 = 0 then 0 else 0x11 }

/-! ### Enable, bases, doorbells -/

/-- QUEUE_ENABLE (R177, R662). -/
def enableQueue (q : Nat) : Eff := .read fun s =>
  let b := s.qOwner q
  let sq := s.fld (rQueSqBase q) 12 36 * 4096
  let cq := s.fld (rQueCqBase q) 12 36 * 4096
  let d := s.qDepth q
  if !s.isOpen b || s.qState q != 0 then .skip
  else
    checkUnits b (s.qAsker q) [⟨sq, sq + 64 * d - 1, rightR⟩, ⟨cq, cq + 16 * d - 1, rightW⟩]
      (fun st => putFld (rQueStatus q) 4 8 st)
      (Eff.all [ putReg (rQueStatus q) 5, putReg (rQuePtr q) 0, onQueue q fun _ => {} ])

/-- A write of ENABLE to QUE_CTRL_q. -/
def effQueueEnable (rd q : Nat) : Eff := writeReg rd (rQueCtrl q) (enableQueue q)

/-- A write to a ring base (R179). -/
def setBase (off v : Nat) : Eff := putReg off (v &&& 0xFFFFFFFFF000)

/-- QUE_BASE_WRITE: a committed write to QUE_SQ_BASE_q, or with `cq` to QUE_CQ_BASE_q. -/
def effQueBaseWrite (rd q : Nat) (cq : Bool) (v : Nat) : Eff :=
  let off := if cq then rQueCqBase q else rQueSqBase q
  writeReg rd off (.read fun s => if s.qState q = 0 then setBase off v else .skip)

/-- An accepted doorbell (R182). -/
def ringDoorbell (q v : Nat) : Eff := .read fun s =>
  let k := s.queue q
  let d := s.qDepth q
  let sqv := bitOf v 15
  let cqv := bitOf v 31
  let sq := bitsOf v 0 13
  let cq := bitsOf v 16 13
  let used := (cq + d - k.cqHead) % d
  if sqv && decide (d ≤ sq) then queueError q 1
  else if cqv && (decide (d ≤ cq) || decide (k.posted < used)) then queueError q 2
  else
    onQueue q fun k =>
      { k with sqTail := if sqv then sq else k.sqTail,
               cqHead := if cqv then cq else k.cqHead,
               posted := if cqv then k.posted - used else k.posted }

/-- DOORBELL: an access of `size` bytes by a function to its BAR2 at `off`, a write of `v` or a read (R180, R181, R182). -/
def effDoorbell (f : Nat) (write : Bool) (off size v : Nat) : Eff := .read fun s =>
  let q := off / 4096
  let aligned := size == 4 && off % 4096 == 0 && decide (off < 0x100000)
  if !isPcie f || !s.fnExists f || !s.dlActive then .skip
  else if !(s.fn f).mse then (if write then countUr else refuseUr f)
  else if s.asleep then (if write then .skip else emit (.readData f off (2 ^ (8 * size) - 1)))
  else if s.dryDock then (if write then .skip else refuseUr f)
  else if write then
    if aligned && s.qPresent q && s.qOwner q == f && s.qState q == 1 && s.isOpen f && !s.isStepQueue q then ringDoorbell q v
    else if s.qPresent q && off % 4096 == 0 && decide (off < 0x100000) && s.qOwner q != f then countAt (0xA0 + f) 0
    else .skip
  else
    let k := s.queue q
    emit (.readData f off (if aligned && s.qPresent q && s.qOwner q == f then k.sqTail + k.cqHead * 2 ^ 16 else 0))

/-- DEFERRED_COMPLETION (R208): what waited for CQ space is posted. -/
def effDeferredCompletion (q : Nat) : Eff := post q

/-- COALESCE_AGE (R195). -/
def effCoalesceAge (q : Nat) : Eff := .read fun s =>
  let age := s.fld (rQueCoal q) 8 16
  match (s.queue q).oldest with
  | some t => if age ≠ 0 ∧ t + age * 1024 ≤ s.now then queueMessage q else .skip
  | none => .skip

/-- The read is for the TAG of an aborted entry alone, so that its failure counts nowhere (R205). -/
def State.quietRead (s : State) : ReadUser → Bool
  | .sq q => (s.tagFetch q).isSome
  | _ => false

/-- The shortest time, in ticks, that a Completion Timeout Value of Device Control 2 gives a read (R608, as PCI Express spells its ranges A
to D: PRESUMED, log entry 87); none for a reserved value. -/
def ctoTicks (v : Nat) : Option Nat :=
  match v with
  | 0 | 1 => some 40000
  | 2 => some 800000
  | 5 => some 12800000
  | 6 => some 52000000
  | 9 => some 208000000
  | 10 => some 800000000
  | 13 => some 3200000000
  | 14 => some 13600000000
  | _ => none

/-- A read issued at a tick may now time out: Completion Timeout Disable is 0, and the shortest time of the range has passed. -/
def State.mayTimeOut (s : State) (tick : Nat) : Bool :=
  !bitOf s.dev.pci.cto 4 && (match ctoTicks (s.dev.pci.cto % 16) with
    | some t => decide (tick + t ≤ s.now)
    | none => false)

/-- READ_COMPLETION (R608): an outbound read's completion arrives; an unexpected one is discarded. -/
def effReadCompletion (u : ReadUser) (r : HostRead) : Eff := .read fun s =>
  match s.outRead u with
  | some x =>
    if x.got.isSome then .skip
    else .andThen (onReads fun l => l.map fun y => if y.user = u then { y with got := some r } else y)
      (Eff.when (r == .poisoned && !s.quietRead u) (bumpFld rPciErr 16 16 1))
  | none => .skip

/-- COMPLETION_TIMEOUT (R608): the read's user meets an error. -/
def effCompletionTimeout (u : ReadUser) : Eff := .read fun s =>
  match s.outRead u with
  | some x =>
    if x.got.isSome || !s.mayTimeOut x.tick then .skip
    else .andThen (onReads fun l => l.map fun y => if y.user = u then { y with got := some .error } else y)
      (Eff.when (!s.quietRead u) (bumpFld rPciErr 32 16 1))
  | none => .skip

/-! ### The meanings -/

/-- SQ_FETCH. -/
def execSqFetch (q : Nat) (es : List EccEvent) (s : State) : Host.Outcome State Fault Refusal := (effSqFetch q es).done s
/-- CMD_NOP. -/
def execCmdNop (q : Nat) (s : State) : Host.Outcome State Fault Refusal := (effCmdNop q).done s
/-- QUEUE_ENABLE. -/
def execQueueEnable (rd q : Nat) (s : State) : Host.Outcome State Fault Refusal := (effQueueEnable rd q).done s
/-- QUE_BASE_WRITE. -/
def execQueBaseWrite (rd q : Nat) (cq : Bool) (v : Nat) (s : State) : Host.Outcome State Fault Refusal :=
  (effQueBaseWrite rd q cq v).done s
/-- DOORBELL. -/
def execDoorbell (f : Nat) (write : Bool) (off size v : Nat) (s : State) : Host.Outcome State Fault Refusal :=
  (effDoorbell f write off size v).done s
/-- DEFERRED_COMPLETION. -/
def execDeferredCompletion (q : Nat) (s : State) : Host.Outcome State Fault Refusal := (effDeferredCompletion q).done s
/-- COALESCE_AGE. -/
def execCoalesceAge (q : Nat) (s : State) : Host.Outcome State Fault Refusal := (effCoalesceAge q).done s
/-- READ_COMPLETION. -/
def execReadCompletion (u : ReadUser) (r : HostRead) (s : State) : Host.Outcome State Fault Refusal :=
  (effReadCompletion u r).done s
/-- COMPLETION_TIMEOUT. -/
def execCompletionTimeout (u : ReadUser) (s : State) : Host.Outcome State Fault Refusal := (effCompletionTimeout u).done s

end Sys2Proof.Machine
end

