-- ==== Sys2Proof/Machine/WharfLayout.lean ====
section
/-!
DEFINITION. The Caeranax archive (Tables 11.5 to 11.7) and the wharf's view of its sets, areas and rings.
-/
namespace Sys2Proof.Machine

/-! ### Sets and areas (R374, R375) -/

/-- WHF_SET_s.CFG.OWNER. -/
def State.setOwner (s : State) (k : Nat) : Nat := s.fld (rWhfSetCfg k) 0 4
/-- WHF_SET_s.CFG.PRESENT. -/
def State.setPresent (s : State) (k : Nat) : Bool := s.bit (rWhfSetCfg k) 4
/-- The drive slots of a set, ascending: the drive index is the position. -/
def State.setDrives (s : State) (k : Nat) : List Nat := (List.range 8).filter fun d => s.bit (rWhfSetCfg k) (8 + d)
/-- WHF_SET_s.STATE (Table 11.4). -/
def State.setState (s : State) (k : Nat) : Nat := s.fld (rWhfSetState k) 0 3
/-- NEED_FULL. -/
def State.needFull (s : State) (k : Nat) : Bool := s.bit (rWhfSetState k) 3
/-- AREA_START of a drive slot. -/
def State.areaStart (s : State) (k d : Nat) : Nat := (s.reg (rWhfSetArea k (2 * d))).toNat
/-- AREA_LBAS of a drive slot. -/
def State.areaLbas (s : State) (k d : Nat) : Nat := (s.reg (rWhfSetArea k (2 * d + 1))).toNat
/-- WPTR of a drive slot. A pointer at the end of an area of 2^32 LBAs reads 0 in its 32 bits; LBA 0 holds a superblock, so that 0 is no
other place of a ring (log entry 16). -/
def State.wptr (s : State) (k d : Nat) : Nat :=
  let w := s.fld (rWhfSetRing k d) 0 32
  if w = 0 ∧ s.areaLbas k d = 2 ^ 32 then 2 ^ 32 else w
/-- TAIL of a drive slot. -/
def State.tail (s : State) (k d : Nat) : Nat := s.fld (rWhfSetRing k d) 32 32
/-- The hidden state of a set. -/
def State.wset (s : State) (k : Nat) : WSet := mget {} s.dev.whf.sets k
/-- The hidden state of a drive slot. -/
def State.drive (s : State) (d : Nat) : Drive := mget {} s.dev.whf.drives d
/-- WHF_DRV_d.STATUS: 0 OFF, 1 READY, 2 FAILED. -/
def State.drvState (s : State) (d : Nat) : Nat := s.fld (rWhfDrvStatus d) 0 2

/-- The ranges of LBAs of a drive slot that a restore into a set may read, by first LBA and count: the set's own area and the grants of its
owner (R375). -/
def State.lbaRanges (s : State) (k d : Nat) : List (Nat × Nat) :=
  (if s.bit (rWhfSetCfg k) (8 + d) then [(s.areaStart k d, s.areaLbas k d)] else [])
    ++ (List.range 8).filterMap fun g =>
        let lo := (s.reg (rWhfGrant (s.setOwner k) (2 * g))).toNat
        if bitOf lo 7 && bitsOf lo 0 3 == d then some (bitsOf lo 24 40, (s.reg (rWhfGrant (s.setOwner k) (2 * g + 1))).toNat % 2 ^ 32) else none

/-- A range of LBAs lies in another, given by its first and count. -/
def lbaWithin (first n : Nat) (r : Nat × Nat) : Bool := decide (r.1 ≤ first ∧ first + n ≤ r.1 + r.2)

/-- A range of LBAs of a drive slot lies in the set's own area or in one grant of its owner (R375). -/
def State.lbaAllowed (s : State) (k d first n : Nat) : Bool := (s.lbaRanges k d).any (lbaWithin first n)

/-! ### Tensors of a set -/

/-- The size of an element of a set tensor. -/
def WTensor.es (t : WTensor) : Nat := if t.etype = 0 then 2 else 4
/-- Elements of a box. -/
def boxCount (sizes : List Nat) : Nat := sizes.foldl (· * ·) 1
/-- The bytes of a set tensor. -/
def WTensor.bytes (t : WTensor) : Nat := boxCount t.sizes * t.es
/-- The extents of a set tensor. -/
def WTensor.extents (t : WTensor) : Nat := (t.bytes + 65535) / 65536
/-- The index of each tensor's first extent record. -/
def firstExtents : Nat → List WTensor → List Nat
  | _, [] => []
  | n, t :: ts => n :: firstExtents (n + t.extents) ts
/-- The extents of a set. -/
def SetDef.extents (d : SetDef) : Nat := (d.tensors.map WTensor.extents).sum
/-- MAN_BYTES. -/
def SetDef.manBytes (d : SetDef) : Nat :=
  256 + (if d.compress then 256 else 0) + 64 * d.tensors.length + 32 * d.extents
/-- MAN_LBAS. -/
def SetDef.manLbas (d : SetDef) : Nat := (d.manBytes + 4095) / 4096
/-- The META offset of an extent record. -/
def SetDef.recordAt (d : SetDef) (i : Nat) : Nat :=
  256 + (if d.compress then 256 else 0) + 64 * d.tensors.length + 32 * i
/-- The tensor, and the extent within it, that a 64 KiB page of a set holds. -/
def pageExtent (page : Nat) : Nat → List WTensor → Option (Nat × WTensor × Nat)
  | _, [] => none
  | i, t :: ts =>
    let p := t.addr / 65536
    if p ≤ page ∧ page < p + t.extents then some (i, t, page - p) else pageExtent page (i + 1) ts
/-- The 4 KiB units that an extent holds. -/
def WTensor.units (t : WTensor) (ext : Nat) : Nat := (min 65536 (t.bytes - 65536 * ext) + 4095) / 4096
/-- All 64 KiB pages of a set in set-list order, ascending within a tensor. -/
def SetDef.pageList (d : SetDef) : List Nat :=
  d.tensors.flatMap fun t => (List.range t.extents).map fun i => t.addr / 65536 + i

/-! ### Bytes of the archive -/

/-- "CAERANAX". -/
def sbMagic : List Byte := [0x43, 0x41, 0x45, 0x52, 0x41, 0x4E, 0x41, 0x58]
/-- "CXMANIFS". -/
def manMagic : List Byte := [0x43, 0x58, 0x4D, 0x41, 0x4E, 0x49, 0x46, 0x53]
/-- "CXEX". -/
def exMagic : List Byte := [0x43, 0x58, 0x45, 0x58]

/-- A number of bytes of a byte list, little-endian. -/
def getLe (bs : List Byte) (i n : Nat) : Nat := leNat ((bs.drop i).take n)
/-- Zero bytes. -/
def zeros (n : Nat) : List Byte := List.replicate n 0#8
/-- A list padded with zeros to `n`. -/
def padTo (n : Nat) (bs : List Byte) : List Byte := bs ++ zeros (n - bs.length)
/-- A list with bytes replaced from `i`. -/
def patch (bs : List Byte) (i : Nat) (xs : List Byte) : List Byte := bs.take i ++ xs ++ bs.drop (i + xs.length)

/-- A tensor record (Table 11.6). -/
def tensorRecord (t : WTensor) (firstExt : Nat) : List Byte :=
  leBytes 8 t.gid ++ leBytes 1 t.etype ++ leBytes 1 t.ndim ++ zeros 2 ++ leBytes 4 firstExt
    ++ t.gsize.flatMap (leBytes 4 ·) ++ t.boxOff.flatMap (leBytes 4 ·) ++ t.sizes.flatMap (leBytes 4 ·)

/-- The 256-byte manifest header with MAN_CRC zero. -/
def manHeader (d : SetDef) (epoch : Nat) : List Byte :=
  padTo 256 (manMagic ++ leBytes 2 0x0100 ++ leBytes 1 (b2n d.compress) ++ zeros 1 ++ leBytes 4 d.tensors.length
    ++ leBytes 8 epoch ++ leBytes 4 d.extents ++ zeros 4 ++ leBytes 16 d.archiveId)

/-- The META area as DEFINE_SET writes it (R377): EPOCH and MAN_CRC stand at 0 until the first commit (log entry 16). -/
def metaInit (d : SetDef) : List Byte :=
  manHeader d 0 ++ (if d.compress then d.lens.map (BitVec.ofNat 8 ·) else [])
    ++ (d.tensors.zip (firstExtents 0 d.tensors)).flatMap (fun p => tensorRecord p.1 p.2) ++ zeros (32 * d.extents)

/-- MAN_CRC of a manifest (Table 11.6). -/
def manCrc (m : List Byte) (bytes : Nat) : Nat := crc64 (m.take 248 ++ ((m.take bytes).drop 256))

/-- An extent: header and payload, padded to whole LBAs (Table 11.7). -/
def extentBytes (t : WTensor) (rec ext epoch : Nat) (units : List (Bool × List Byte)) : List Byte :=
  let slens := (units.map fun u => u.2.length) ++ List.replicate (16 - units.length) 0
  let per := 65536 / t.es
  let head := exMagic ++ leBytes 1 1 ++ leBytes 1 t.etype ++ leBytes 1 units.length
    ++ leBytes 1 (b2n (units.any (·.1))) ++ leBytes 4 rec ++ leBytes 4 ext ++ leBytes 8 epoch ++ leBytes 8 (ext * per)
    ++ leBytes 4 (min per (boxCount t.sizes - ext * per)) ++ zeros 4 ++ slens.flatMap (leBytes 2 ·) ++ zeros 48
  let payload := units.flatMap (·.2)
  let all := head ++ leBytes 8 (crc64 (head ++ payload)) ++ payload
  padTo ((all.length + 4095) / 4096 * 4096) all

/-- The SLENs of an extent. -/
def extentSlens (x : List Byte) : List Nat := (List.range 16).map fun u => getLe x (40 + 2 * u) 2

/-- The extent record of an extent written (Table 11.6). -/
def extentRecord (driveIdx lba : Nat) (x : List Byte) : List Byte :=
  leBytes 1 driveIdx ++ leBytes 1 (x.length / 4096) ++ leBytes 1 (getLe x 7 1) ++ zeros 1
    ++ leBytes 4 (128 + (extentSlens x).sum) ++ leBytes 8 lba ++ leBytes 8 (getLe x 16 8) ++ leBytes 8 (getLe x 120 8)

/-- A superblock's fields that differ from drive to drive and epoch to epoch. -/
structure SbFields where
  index : Nat
  count : Nat
  epoch : Nat
  kind : Nat
  areaLbas : Nat
  wptr : Nat
  tail : Nat
  manDrive : Nat
  manLba : Nat
  manCrc : Nat
  tick : Nat
  rtc : Nat
  chip : Nat
  basin : Nat
  set : Nat

/-- A superblock (Table 11.5). -/
def superblock (d : SetDef) (f : SbFields) : List Byte :=
  let b := sbMagic ++ leBytes 2 0x0100 ++ leBytes 1 f.index ++ leBytes 1 f.count ++ leBytes 1 (b2n d.compress) ++ zeros 3
    ++ leBytes 16 d.archiveId ++ leBytes 8 f.epoch ++ leBytes 1 f.kind ++ zeros 7 ++ leBytes 8 f.areaLbas
    ++ leBytes 8 f.wptr ++ leBytes 8 f.tail ++ leBytes 1 f.manDrive ++ zeros 3 ++ leBytes 4 d.manLbas
    ++ leBytes 8 f.manLba ++ leBytes 8 d.manBytes ++ leBytes 8 f.manCrc ++ leBytes 8 f.tick ++ leBytes 8 f.rtc
    ++ leBytes 2 f.chip ++ leBytes 1 f.basin ++ leBytes 1 f.set ++ zeros 4 ++ padTo 64 d.user
  let b := padTo 4088 b
  b ++ leBytes 8 (crc64 b)

/-- A superblock is valid (R401). -/
def sbValid (b : List Byte) : Bool :=
  b.take 8 == sbMagic && getLe b 8 2 == 0x0100 && getLe b 4088 8 == crc64 (b.take 4088)

/-- EPOCH of a superblock. -/
def sbEpoch (b : List Byte) : Nat := getLe b 32 8

/-! ### Ring space (R393) -/

/-- The free LBAs of a drive's ring from WPTR up to TAIL. A ring that nothing references is empty. -/
def State.ringFree (s : State) (k d : Nat) : Nat :=
  let ring := s.areaLbas k d - 2
  if (s.wset k).refs.contains d then (s.tail k d + ring - s.wptr k d) % ring else ring

/-- The space check for n pages and an epoch number. -/
def State.spaceOk (s : State) (k n epoch : Nat) : Bool :=
  let ds := s.setDrives k
  let D := ds.length
  (List.range D).all fun i =>
    decide (17 * ((n + D - 1) / D) + 16 + (if i = epoch % D then (s.wset k).defn.manLbas else 0)
      ≤ s.ringFree k (ds.getD i 0))

/-- Where a run of LBAs starts on a drive: at WPTR, or at 2 where it would pass the end of the area (R392). -/
def State.runAt (s : State) (k d n : Nat) : Nat := if s.areaLbas k d < s.wptr k d + n then 2 else s.wptr k d

end Sys2Proof.Machine
end

