-- ==== Sys2Proof/Machine/MeterMath.lean ====
section
/-!
DEFINITION. The arithmetic of the meter (R440 to R449, R454): the decimator, stages 2 and 3, and the exact reals of a window, which
are evaluated as intervals whose ends are rounded outward.
-/
namespace Sys2Proof.Machine

/-! ### Intervals -/

/-- An interval that holds a real. -/
structure Iv where
  lo : Rat
  hi : Rat
deriving DecidableEq, Repr

/-- Fractional bits that interval ends keep. -/
def ivBits : Nat := 448

/-- An exact real. -/
def iv (q : Rat) : Iv := ⟨q, q⟩

/-- Ends rounded outward; an exact real stays exact. -/
def ivRound (a : Iv) : Iv :=
  if a.lo = a.hi then a else ⟨ratOf (fx a.lo ivBits) * pow2 (-(ivBits : Int)), ratOf (fx a.hi ivBits + 1) * pow2 (-(ivBits : Int))⟩

/-- Sum. -/
def Iv.add (a b : Iv) : Iv := ⟨a.lo + b.lo, a.hi + b.hi⟩
/-- Difference. -/
def Iv.sub (a b : Iv) : Iv := ⟨a.lo - b.hi, a.hi - b.lo⟩
/-- Negation. -/
def Iv.neg (a : Iv) : Iv := ⟨-a.hi, -a.lo⟩
/-- The smaller of two reals. -/
def rmin (a b : Rat) : Rat := if a ≤ b then a else b
/-- The greater of two reals. -/
def rmax (a b : Rat) : Rat := if a ≤ b then b else a

/-- Product. -/
def Iv.mul (a b : Iv) : Iv :=
  let p := a.lo * b.lo
  let q := a.lo * b.hi
  let r := a.hi * b.lo
  let t := a.hi * b.hi
  ivRound ⟨rmin (rmin p q) (rmin r t), rmax (rmax p q) (rmax r t)⟩

/-- Product with an exact real. -/
def Iv.scale (a : Iv) (q : Rat) : Iv := if 0 ≤ q then ⟨a.lo * q, a.hi * q⟩ else ⟨a.hi * q, a.lo * q⟩

/-- Quotient by a positive real. -/
def Iv.div (a b : Iv) : Iv := if 0 < b.lo then a.mul ⟨1 / b.hi, 1 / b.lo⟩ else a

/-- The square root of an exact real that is not negative; exact for the square of a rational. -/
def ratSqrt (q : Rat) : Iv :=
  if q ≤ 0 then iv 0
  else
    let n := isqrt q.num.toNat
    let d := isqrt q.den
    if n * n = q.num.toNat ∧ d * d = q.den then iv (mkRat n d)
    else
      let r : Nat := isqrt (fx q (2 * ivBits)).toNat
      ⟨ratOf r * pow2 (-(ivBits : Int)), ratOf (r + 1) * pow2 (-(ivBits : Int))⟩

/-- Square root of a real that is not negative. -/
def Iv.sqrt (a : Iv) : Iv := ⟨(ratSqrt a.lo).lo, (ratSqrt a.hi).hi⟩

/-- The real is taken as not negative: its interval does not lie below 0. A real within the interval's width of 0 is 0 to every effect. -/
def Iv.nonneg (a : Iv) : Bool := decide (0 ≤ a.hi)

/-- The whole part. An interval that the evaluation cannot separate from a whole number is left open (log entry 5). -/
def Iv.floor (a : Iv) : Int :=
  if rfloor a.lo = rfloor a.hi then rfloor a.lo
  else if a.lo < 0 ∧ 0 ≤ a.hi ∧ a.hi < 1 ∧ -1 < a.lo * pow2 300 then 0
  else Config.realUndecided a.lo a.hi

/-- Rounded to nearest, halves up. -/
def Iv.round (a : Iv) : Int := (a.add (iv (mkRat 1 2))).floor

/-! ### Trigonometry in turns -/

/-- sin or cos of 2πt for t in turns. -/
def turnFn (isCos : Bool) (t : Rat) : Iv :=
  let p := ivBits + 32
  let f := t - ratOf (rfloor t)
  let r := rfloor (f * ratOf (2 * piFx p))
  let r2 := (r * r) / 2 ^ p
  let v := if isCos then trigTaylor r2 p p 0 (2 ^ p) (2 ^ p) else trigTaylor r2 p p 1 r r
  ⟨ratOf (v - 2 ^ 24) * pow2 (-(p : Int)), ratOf (v + 2 ^ 24) * pow2 (-(p : Int))⟩

/-- The sum of x[n] e^(-j 2π k ρ n) over a window, ρ in cycles per sample: real and imaginary part. -/
def phasor (k : Nat) (rho : Rat) (xs : List Rat) : Iv × Iv :=
  ((xs.zip (List.range xs.length)).foldl (fun (acc : Iv × Iv) p =>
    let t := ratOf (k * p.2 : Nat) * rho
    (acc.1.add ((turnFn true t).scale p.1), acc.2.sub ((turnFn false t).scale p.1))) (iv 0, iv 0))

/-- The amplitude response A(φ) of the decimator, for φ Ts cycles per sample (R454). -/
def sincResponse (c : Rat) : Iv :=
  let r := (turnFn false (c / 2)).div ((turnFn false (c / 1024)).scale 512)
  (r.mul r).mul r

/-! ### Stage 1 (R440) -/

/-- The coefficients of (1 + z^-1 + ... + z^-511)^3. -/
def sincCoeff (m : Nat) : Nat :=
  let c (k : Nat) : Nat := (k + 2) * (k + 1) / 2
  c m + (if 1024 ≤ m then 3 * c (m - 1024) else 0) - (if 512 ≤ m then 3 * c (m - 512) else 0)

/-- s_c of the last 1,534 sampled bits: the new block, the newer and the older block before it; bit i is the i-th in time. -/
def sincSum (older newer block : Nat) : Int :=
  ((List.range 1534).map fun m =>
    let i := 1535 - m
    let w := if 1024 ≤ i then bitOf block (i - 1024) else if 512 ≤ i then bitOf newer (i - 512) else bitOf older i
    if w then (sincCoeff m : Int) else -(sincCoeff m : Int)).sum

/-- x_c[n]. -/
def decimate (older newer block : Nat) : Int := max (-8388608) (min 8388607 (sincSum older newer block / 16))

/-! ### Stages 2 and 3 (R442 to R444) -/

/-- The layers of a channel, combined: gain in units of 2^-30, offset, phase in units of 2^-16 sample (R469). -/
structure Layer where
  g : Nat
  off : Int
  ph : Int
deriving DecidableEq, Repr

/-- The next output of stage 2, with the state d that follows. -/
def stage2 (l : Layer) (hpf : Bool) (tau : Int) (d : Rat) (x : Int) : Int × Rat :=
  let y := ratOf (x - l.off)
  let z := if hpf then y - d else y
  let d := if hpf then d + z / 8192 else d
  (rfloor (mkRat l.g (2 ^ 30) * (1 + mkRat tau 1000000) * z * 256), d)

/-- The stage-3 value, in code units, of a channel whose last stage-2 outputs are `us`, newest first. -/
def stage3 (voltage : Bool) (d16 : Int) (us : List Int) : Option Rat :=
  match us with
  | u0 :: u1 :: u2 :: _ =>
    if voltage then some (ratOf u1)
    else
      let d := mkRat d16 65536
      some (if 0 ≤ d then ratOf u1 + d * ratOf (u2 - u1) else ratOf u1 - d * ratOf (u0 - u1))
  | _ => none

/-! ### Sums over a window -/

/-- The mean of the squares. -/
def meanSquare (xs : List Rat) : Rat := if xs.isEmpty then 0 else (xs.map fun x => x * x).sum / ratOf xs.length
/-- The mean of the products. -/
def meanProduct (xs ys : List Rat) : Rat := if xs.isEmpty then 0 else ((xs.zip ys).map fun p => p.1 * p.2).sum / ratOf xs.length

/-- What a window holds of a phase (R449): mean squares of v and i, and P, Q, S in mW, mvar and mVA; whether START_I zeroes it. -/
structure PhaseQ where
  vms : Rat := 0
  ims : Rat := 0
  p : Iv := iv 0
  q : Iv := iv 0
  s : Iv := iv 0
  creep : Bool := false
deriving DecidableEq, Repr

/-- Im(V1 · conj(I1)) / 2 / 1,000 for the fundamental phasors. -/
def reactive (rho : Rat) (vs is : List Rat) : Iv :=
  let w := ratOf vs.length
  let v := phasor 1 rho vs
  let i := phasor 1 rho is
  ((v.2.mul i.1).sub (v.1.mul i.2)).scale (4 / (w * w) / 2000)

/-- The quantities of a phase from its samples; `scale2` is the square of the factor that an estimated voltage is multiplied by. -/
def phaseOf (rho : Rat) (startI : Nat) (scale2 : Rat) (vs is : List Rat) : PhaseQ :=
  let vms := meanSquare vs * scale2
  let ims := meanSquare is
  let c := mkRat startI 10
  if ims < c * c then { vms := vms, ims := ims, creep := true }
  else
    let k := ratSqrt scale2
    { vms := vms, ims := ims, p := k.mul (iv (meanProduct vs is / 1000)), q := k.mul (reactive rho vs is),
      s := (ratSqrt (vms * ims)).scale (mkRat 1 1000) }

/-- A phase with no voltage channel in service (Table 13.7): P = S = U_DIN × Ir, Q = 0. -/
def phaseBlind (uDin startI : Nat) (is : List Rat) : PhaseQ :=
  let ims := meanSquare is
  let c := mkRat startI 10
  if ims < c * c then { ims := ims, creep := true }
  else
    let s := (ratSqrt ims).scale (mkRat uDin 1000)
    { vms := ratOf (uDin * uDin : Nat), ims := ims, p := s, s := s }

/-- The energy of a window in a unit of Table 13.3, from a power (R449). -/
def energyOf (w : Nat) (p : Iv) : Iv := p.scale (ratOf w * mkRat 128 1000000 / 3600)

/-- The window's additions to the seven quantities (R451). -/
def additionOf (w : Nat) (p q s : Iv) : List Iv :=
  let pp := p.nonneg
  let qp := q.nonneg
  let e (c : Bool) (x : Iv) : Iv := if c then energyOf w x else iv 0
  [ e pp p, e (!pp) p.neg, e (qp && pp) q, e (qp && !pp) q, e (!qp && !pp) q.neg, e (!qp && pp) q.neg, energyOf w s ]

/-- The additions in whole units of 2^-32. -/
def additions (w : Nat) (p q s : Iv) : List Nat := (additionOf w p q s).map fun x => (x.scale (ratOf (2 ^ 32 : Nat))).floor.toNat

end Sys2Proof.Machine
end

