-- ==== Sys2Proof/Machine/Sensors.lean ====
section
/-!
DEFINITION. Temperature sets and sensors (R566, R567).
-/
namespace Sys2Proof.Machine

/-- The value of a temperature set, its points ascending (R567). -/
def tempSet : List (Int × Int) → Int → Int
  | [], _ => 0
  | [(_, y)], _ => y
  | (x0, y0) :: (x1, y1) :: rest, x =>
    if x ≤ x0 then y0 else if x < x1 then y0 + Int.fdiv ((y1 - y0) * (x - x0)) (x1 - x0) else tempSet ((x1, y1) :: rest) x

/-- A signed field of a register. -/
def State.sfld (s : State) (off lo w : Nat) : Int := signed w (s.fld off lo w)

/-- A sensor's corrected reading, in units of 0.25 °C, from its conversion code (R566). -/
def State.sensorT (s : State) (k : Nat) (raw : Int) : Int :=
  let c := raw - s.sfld (rCalTs k) 36 8
  c + tempSet [(100, s.sfld (rCalTs k) 0 12), (340, s.sfld (rCalTs k) 12 12)] c + s.sfld (rCalTs k) 24 12

/-- A sensor takes no part (R574). -/
def State.excluded (s : State) (k : Nat) : Bool := s.bit (rCalTs k) 56

/-- The reading of the tile sensor that is not excluded and stands in for an excluded sensor (R574; which is nearest is left open, log
entry 33). -/
def withStandIn (sensor : Nat) (k : Int → Eff) : Eff := .read fun s => withFree fun v =>
  let ok := (List.range 96).filter fun i => !s.excluded i
  k (s.sfld (rCalTs (ok.getD (v % ok.length) sensor)) 44 12)

/-- A signed number enters a register. -/
def putSigned (off w : Nat) (z : Int) : Eff := putReg off (unsigned w z)
/-- A signed number enters a field. -/
def putSFld (off lo w : Nat) (z : Int) : Eff := putFld off lo w (unsigned w z)

/-- A sensor's reading is shown in CAL_TS_s.T_EFF. -/
def showT (k : Nat) (raw : Int) : Eff := .read fun s => putSFld (rCalTs k) 44 12 (s.sensorT k raw)

end Sys2Proof.Machine
end

