-- ==== Sys2Proof/Machine/Tiles.lean ====
section
/-!
DEFINITION. Tiles (chapters 03, 05, 18): operator boundaries, adaptive trim, margin events, late transitions and tile
stoppages; and the calibration records (R572).
-/
namespace Sys2Proof.Machine

/-! ### Calibration records (R572) -/

/-- An accepted result of the record's unit. -/
def calAccept (n : Nat) : Eff := .read fun s =>
  Eff.all
    [ bumpReg (rCalRec n 0) 32 1, putFld (rCalRec n 1) 0 8 0, putReg (rCalRecTime n 0) s.now,
      putReg (rCalRecTime n 1) s.rtc ]

/-- A bad result: LAST_STATUS takes its cause (1 TIMEOUT, 2 DISAGREE, 3 RANGE) and FAILS rises. -/
def calFail (n cause : Nat) : Eff := .andThen (putFld (rCalRec n 1) 0 8 cause) (bumpFld (rCalRec n 1) 8 24 1)

/-! ### Tiles -/

/-- The hidden state of a tile. -/
def State.tile (s : State) (t : Nat) : Tile := mget {} s.dev.pace.tiles t

/-- The pace controller's hidden state changes. -/
def onPace (g : Pace → Pace) : Eff := onDev fun d => { d with pace := g d.pace }

/-- The hidden state of a tile changes. -/
def onTile (t : Nat) (g : Tile → Tile) : Eff := onPace fun p => { p with tiles := mset {} p.tiles t (g (mget {} p.tiles t)) }

/-- The tile's part in R163: before an operator of a basin other than the one whose operator it last ran, SRAM and pounds are cleared, so
that what they hold is that basin's alone. -/
def Tile.enter (b : Nat) (k : Tile) : Tile :=
  let k := if k.lastBasin == some b then k else { k with holds := none }
  { k with lastBasin := some b, holds := some b }

/-- A node sum runs on a tile (R302). -/
def State.sumOn (s : State) (t : Nat) : Bool := s.dev.rnk.basins.any fun e => e.2.sums.any fun x => x.tile == some t

/-- A tile fault reaches the operator that runs on a tile, which will end TILE_FAULT (R76, R89), or the node sum. -/
def faultTile (t : Nat) : Eff := .andThen
  (onWork fun w => { w with queues := w.queues.map fun e => if e.2.tiles.contains t then (e.1, e.2.faultRun) else e })
  (onSums t fun x => { x with faulted := true })

/-- A tile runs an operator. -/
def State.tileBusy (s : State) (t : Nat) : Bool := s.dev.work.queues.any fun e => e.2.tiles.contains t

/-- TRIM_EFF of a tile with a number of adaptive steps: factory, user and adaptive trim, clamped (R566). -/
def State.trimEff (s : State) (t steps : Nat) : Nat :=
  (max 0 (min 15 ((s.fld (rCalTile t) 18 4 : Int) + signed 4 (s.fld (rCalTile t) 22 4) + (steps : Int)))).toNat

/-- The pending adaptive steps of a tile take effect (R88, Table 17.2), but while it is in stoppage or retired (R573). -/
def trimStep (t : Nat) : Eff := .read fun s =>
  let n := min (s.tile t).pendingTrim (3 - s.fld (rPacTile t) 20 2)
  if s.tileState t == 1 || s.tileState t == 2 then .skip
  else .andThen (onTile t fun k => { k with pendingTrim := 0 })
    (if n = 0 then .skip
     else Eff.all
      [ putFld (rPacTile t) 20 2 (s.fld (rPacTile t) 20 2 + n),
        putFld (rPacTile t) 22 4 (s.trimEff t (s.fld (rPacTile t) 20 2 + n)), Eff.each (List.range n) fun _ => calAccept 3 ])

/-! ### Tile stoppages (R592, R593) -/

/-- A tile is in stoppage. -/
def State.inStoppage (s : State) : Bool := s.bit rStpStatus 0

/-- A stoppage of a tile starts, deferred from its slot. What runs on it goes on on other tiles (R593, Table 9.8). -/
def startStoppage (t slot : Nat) : Eff := .read fun s =>
  Eff.all
    [ tileLeaves t, putFld (rPacTile t) 18 2 1, putBit rStpStatus 0 true, putFld rStpStatus 8 7 t,
      putFld rStpTaken 0 32 (s.fld rStpTaken 0 32 + 1),
      putReg rStpMaxDefer (max (s.reg rStpMaxDefer).toNat (s.now - slot)),
      onPace fun p => { p with stopDue := p.stopDue.filter fun e => e.1 != t } ]

/-- The first due stoppage of a tile in service starts once its tile is at a boundary, unless another tile is in stoppage; a later one waits for it
(Table 18.9). -/
def nextStoppage : Eff := .read fun s =>
  if s.inStoppage then .skip
  else match s.dev.pace.stopDue.find? fun e => s.tileState e.1 == 0 with
    | some e => if s.tileBusy e.1 then .skip else startStoppage e.1 e.2
    | none => .skip

/-- What happens at an operator boundary of some tiles, once they run no operator: pending trim steps, then a due
stoppage. -/
def tileBoundary (ts : List Nat) : Eff := .andThen (Eff.each ts trimStep) nextStoppage

/-! ### Commands -/

/-- MARGIN_EVENT (R88): the event counts, MARGIN_CNT rises, and a trim step is due at the tile's next operator boundary, which
an idle tile is at. -/
def effMarginEvent (t : Nat) : Eff :=
  onlyIf (fun _ => decide (t < 96)) (Eff.all
    [ countAt 0x01 t, bumpFld (rPacTile t) 26 6 1,
      onTile t fun k => { k with pendingTrim := min 3 (k.pendingTrim + 1) },
      .read fun s => Eff.when (!s.tileBusy t) (trimStep t) ])

/-- LATE_TRANSITION (R89): the event counts, and the operator that runs on the tile will end TILE_FAULT. -/
def effLateTransition (t : Nat) : Eff :=
  onlyIf (fun _ => decide (t < 96)) (.andThen (faultTile t) (countAt 0x02 t))

/-- The period of tile stoppage slots, in ticks. -/
def State.tilePeriod (s : State) : Nat := s.fld rStpCfg 0 11 * 500000000

/-- TILE_STOPPAGE_SLOT (R592): the slot at STP_NEXT_TILE falls. -/
def effTileStoppageSlot : Eff := .read fun s =>
  let slot := (s.reg rStpNextTile).toNat
  let p := s.tilePeriod
  let t := slot / p % 96
  if !s.bit rStpCfg 12 || p = 0 || decide (s.now < slot) then .skip
  else
    .andThen (putReg rStpNextTile ((slot / p + 1) * p))
      (if s.tileState t != 0 then bumpFld rStpSkipped 0 32 1
       else .andThen (onPace fun k => { k with stopDue := k.stopDue ++ [(t, slot)] }) nextStoppage)

/-- STOPPAGE_DEFERRAL_BOUND (R593): a tile stoppage still waiting 8,000,000,000 ticks after its slot is taken, though its tile
runs an operator. -/
def effStoppageDeferralBound : Eff := .read fun s =>
  if s.inStoppage then .skip
  else match s.dev.pace.stopDue.find? fun e => s.tileState e.1 == 0 && decide (e.2 + 8000000000 ≤ s.now) with
    | some e => .andThen (startStoppage e.1 e.2) (bumpFld rStpSkipped 32 32 1)
    | none => .skip

/-- TILE_STOPPAGE_END (R593): the known-answer tests end; a failure counts; the tile is cleared and, unless retired, returns to
service. -/
def effTileStoppageEnd (pass : Bool) : Eff := .read fun s =>
  let t := s.fld rStpStatus 8 7
  if !s.inStoppage then .skip
  else Eff.all
    [ Eff.when (!pass) (countAt 0x06 t), onTile t fun k => { k with holds := none },
      .read fun s => Eff.when (s.inStoppage && s.tileState t == 1) (putFld (rPacTile t) 18 2 0),
      putBit rStpStatus 0 false, putFld rStpStatus 8 7 0, trimStep t, nextStoppage ]

/-- MARGIN_EVENT. -/
def execMarginEvent (t : Nat) (s : State) : Host.Outcome State Fault Refusal := (effMarginEvent t).done s
/-- LATE_TRANSITION. -/
def execLateTransition (t : Nat) (s : State) : Host.Outcome State Fault Refusal := (effLateTransition t).done s
/-- TILE_STOPPAGE_SLOT. -/
def execTileStoppageSlot (s : State) : Host.Outcome State Fault Refusal := effTileStoppageSlot.done s
/-- STOPPAGE_DEFERRAL_BOUND. -/
def execStoppageDeferralBound (s : State) : Host.Outcome State Fault Refusal := effStoppageDeferralBound.done s
/-- TILE_STOPPAGE_END. -/
def execTileStoppageEnd (pass : Bool) (s : State) : Host.Outcome State Fault Refusal := (effTileStoppageEnd pass).done s

end Sys2Proof.Machine
end

