-- ==== Sys2Proof/Machine/Calendar.lean ====
section
/-!
DEFINITION. Tariff calendars (Table 14.4, R492, R493) and civil dates.
-/
namespace Sys2Proof.Machine

/-! ### Dates -/

/-- Year, month and day of a day number counted from 1970-01-01 (R431). -/
def civil (days : Nat) : Nat × Nat × Nat :=
  let z := days + 719468
  let doe := z % 146097
  let yoe := (doe - doe / 1460 + doe / 36524 - doe / 146096) / 365
  let doy := doe - (365 * yoe + yoe / 4 - yoe / 100)
  let mp := (5 * doy + 2) / 153
  let m := if mp < 10 then mp + 3 else mp - 9
  (yoe + z / 146097 * 400 + (if m ≤ 2 then 1 else 0), m, doy - (153 * mp + 2) / 5 + 1)

/-- The weekday of a day number, Monday 0; 1970-01-01 was a Thursday. -/
def weekday (days : Nat) : Nat := (days + 3) % 7

/-- Days of a month; 29 in February. -/
def monthDays (m : Nat) : Nat := if m = 2 then 29 else if m = 4 ∨ m = 6 ∨ m = 9 ∨ m = 11 then 30 else 31

/-- A date of the year. -/
def dateOk (m d : Nat) : Bool := decide (1 ≤ m ∧ m ≤ 12 ∧ 1 ≤ d ∧ d ≤ monthDays m)

/-! ### Fields -/

/-- SEASONS. -/
def calS (c : List Byte) : Nat := getLe c 10 1
/-- DAY_PROFILES. -/
def calP (c : List Byte) : Nat := getLe c 11 1
/-- SPECIALS. -/
def calX (c : List Byte) : Nat := getLe c 12 1
/-- DST_PERIODS. -/
def calD (c : List Byte) : Nat := getLe c 13 1
/-- The length that the counts give. -/
def calLen (c : List Byte) : Nat := 32 + 16 * calS c + 64 * calP c + 8 * calX c + 16 * calD c + 8
/-- Where season i begins. -/
def calSeason (i : Nat) : Nat := 32 + 16 * i
/-- Where day profile i begins. -/
def calProfile (c : List Byte) (i : Nat) : Nat := 32 + 16 * calS c + 64 * i
/-- Where special day i begins. -/
def calSpecial (c : List Byte) (i : Nat) : Nat := 32 + 16 * calS c + 64 * calP c + 8 * i
/-- Where DST period i begins. -/
def calDst (c : List Byte) (i : Nat) : Nat := 32 + 16 * calS c + 64 * calP c + 8 * calX c + 16 * i
/-- OFFSET_MIN. -/
def calOffset (c : List Byte) : Int := signed 16 (getLe c 14 2)

/-- Bytes that must be zero. -/
def allZero (bs : List Byte) : Bool := bs.all fun b => b == 0#8

/-- Every number of a list is below the next. -/
def rising : List Nat → Bool
  | a :: b :: rest => decide (a < b) && rising (b :: rest)
  | _ => true

/-- A day profile is in order. -/
def profileOk (p : List Byte) : Bool :=
  let n := getLe p 0 1
  decide (1 ≤ n ∧ n ≤ 12) && allZero ((p.drop 1).take 15) && getLe p 16 2 == 0
    && rising ((List.range n).map fun j => getLe p (16 + 4 * j) 2)
    && (List.range n).all (fun j =>
      decide (getLe p (16 + 4 * j) 2 < 1440) && decide (1 ≤ getLe p (18 + 4 * j) 1 ∧ getLe p (18 + 4 * j) 1 ≤ 8) && getLe p (19 + 4 * j) 1 == 0)
    && allZero (p.drop (16 + 4 * n))

/-- FORMAT: every field in range and every order kept (R493 step 1). -/
def calFormatOk (c : List Byte) : Bool :=
  c.take 4 == [0x56#8, 0x43#8, 0x41#8, 0x4C#8] && decide (1 ≤ calS c ∧ calS c ≤ 4) && decide (1 ≤ calP c ∧ calP c ≤ 8)
    && decide (calX c ≤ 32) && decide (calD c ≤ 16) && getLe c 8 2 == calLen c && decide (-720 ≤ calOffset c ∧ calOffset c ≤ 840)
    && decide (getLe c 16 1 ≤ 120) && decide (getLe c 17 1 ≤ 28) && decide (getLe c 18 2 ≤ 1439) && allZero ((c.drop 20).take 12)
    && rising ((List.range (calS c)).map fun i => 32 * getLe c (calSeason i) 1 + getLe c (calSeason i + 1) 1)
    && (List.range (calS c)).all (fun i =>
      dateOk (getLe c (calSeason i) 1) (getLe c (calSeason i + 1) 1)
        && (List.range 7).all (fun w => decide (getLe c (calSeason i + 2 + w) 1 < calP c)) && allZero ((c.drop (calSeason i + 9)).take 7))
    && (List.range (calP c)).all (fun i => profileOk ((c.drop (calProfile c i)).take 64))
    && (List.range (calX c)).all (fun i =>
      dateOk (getLe c (calSpecial c i + 2) 1) (getLe c (calSpecial c i + 3) 1) && decide (getLe c (calSpecial c i + 4) 1 < calP c)
        && allZero ((c.drop (calSpecial c i + 5)).take 3))
    && (List.range (calD c)).all (fun i =>
      decide (getLe c (calDst c i) 8 < getLe c (calDst c i + 8) 8)
        && (i + 1 == calD c || decide (getLe c (calDst c i + 8) 8 ≤ getLe c (calDst c (i + 1)) 8)))

/-- CRC: the trailer matches (R493 step 2). -/
def calCrcOk (c : List Byte) : Bool := getLe c (calLen c - 8) 8 == crc64 (c.take (calLen c - 8))

/-! ### The band (R492) -/

/-- Local seconds (step 1). -/
def calLocal (c : List Byte) (secs : Nat) : Nat :=
  let dst := (List.range (calD c)).any fun i => decide (getLe c (calDst c i) 8 ≤ secs) && decide (secs < getLe c (calDst c i + 8) 8)
  ((secs : Int) + 60 * calOffset c + (if dst then 60 * (getLe c 16 1 : Nat) else 0)).toNat

/-- The day profile of a local date (steps 2 and 3). -/
def calDay (c : List Byte) (days : Nat) : Nat :=
  let (y, m, d) := civil days
  match (List.range (calX c)).find? fun i =>
      (getLe c (calSpecial c i) 2 == 0 || getLe c (calSpecial c i) 2 == y) && getLe c (calSpecial c i + 2) 1 == m
        && getLe c (calSpecial c i + 3) 1 == d with
  | some i => getLe c (calSpecial c i + 4) 1
  | none =>
    let before := (List.range (calS c)).filter fun i => decide (32 * getLe c (calSeason i) 1 + getLe c (calSeason i + 1) 1 ≤ 32 * m + d)
    let i := before.getLast?.getD (calS c - 1)
    getLe c (calSeason i + 2 + weekday days) 1

/-- The band of the minute that begins at a moment; band 1 where no calendar is held. -/
def calBand (c : List Byte) (secs : Nat) : Nat :=
  if c.isEmpty then 1
  else
    let t := calLocal c secs
    let p := calProfile c (calDay c (t / 86400))
    let minute := t % 86400 / 60
    let pts := (List.range (getLe c p 1)).filter fun j => decide (getLe c (p + 16 + 4 * j) 2 ≤ minute)
    getLe c (p + 18 + 4 * (pts.getLast?.getD 0)) 1

/-- The calendar's billing close falls at a moment (R498). -/
def calBills (c : List Byte) (secs : Nat) : Bool :=
  let t := calLocal c secs
  let (_, _, d) := civil (t / 86400)
  !c.isEmpty && getLe c 17 1 != 0 && d == getLe c 17 1 && t % 86400 / 60 == getLe c 18 2

end Sys2Proof.Machine
end

