-- ==== Sys2Proof/Machine/Barge.lean ====
section
/-!
DEFINITION. Barges (R250 to R255) and control frames (Table 8.3): their bytes and the checks of their codes.
-/
namespace Sys2Proof.Machine

/-! ### The end-to-end header (Table 8.4) -/

/-- KIND. -/
def Barge.kind (b : Barge) : Nat := bitsOf b.hdr 0 8
/-- CLASS. -/
def Barge.cls (b : Barge) : Nat := bitsOf b.hdr 8 2
/-- CODED. -/
def Barge.coded (b : Barge) : Bool := bitOf b.hdr 10
/-- POISONED. -/
def Barge.poisonedBit (b : Barge) : Bool := bitOf b.hdr 11
/-- OPENS. -/
def Barge.opens (b : Barge) : Bool := bitOf b.hdr 12
/-- PATH. -/
def Barge.path (b : Barge) : Nat := bitsOf b.hdr 13 2
/-- SRC_CHIP. -/
def Barge.srcChip (b : Barge) : Nat := bitsOf b.hdr 16 12
/-- SRC_QUEUE. -/
def Barge.srcQueue (b : Barge) : Nat := bitsOf b.hdr 32 9
/-- PAYLOAD_LEN. -/
def Barge.len (b : Barge) : Nat := bitsOf b.hdr 48 13
/-- DEST: the local address. -/
def Barge.addr (b : Barge) : Nat := bitsOf b.hdr 64 48
/-- DEST: the basin. -/
def Barge.basin (b : Barge) : Nat := bitsOf b.hdr 112 4
/-- DEST: the chip. -/
def Barge.dest (b : Barge) : Nat := bitsOf b.hdr 116 12
/-- FLOW_SEQ. -/
def Barge.seq (b : Barge) : Nat := bitsOf b.hdr 128 32
/-- FLOW_GEN. -/
def Barge.gen (b : Barge) : Nat := bitsOf b.hdr 160 16
/-- ARG. -/
def Barge.arg (b : Barge) : Nat := bitsOf b.hdr 192 64
/-- POISON_MAP. -/
def Barge.pmap (b : Barge) : Nat := bitsOf b.hdr 256 128

/-- The fields that Table 8.4 gives as zero are zero. -/
def Barge.reservedOk (b : Barge) : Bool :=
  !bitOf b.hdr 15 && bitsOf b.hdr 28 4 == 0 && bitsOf b.hdr 41 7 == 0 && bitsOf b.hdr 61 3 == 0
    && bitsOf b.hdr 176 16 == 0 && bitsOf b.hdr 384 64 == 0

/-- A header from its fields. OPENS, PATH, FLOW_SEQ and FLOW_GEN are put in when the barge is sent. -/
def bargeHdr (kind cls : Nat) (coded : Bool) (src queue len dest basin addr arg pmap : Nat) : Nat :=
  kind + cls * 2 ^ 8 + b2n coded * 2 ^ 10 + b2n (pmap != 0) * 2 ^ 11 + src * 2 ^ 16 + queue * 2 ^ 32 + len * 2 ^ 48
    + addr % 2 ^ 48 * 2 ^ 64 + basin * 2 ^ 112 + dest * 2 ^ 116 + arg % 2 ^ 64 * 2 ^ 192 + pmap % 2 ^ 128 * 2 ^ 256

/-- A header with its flow fields. -/
def withFlow (hdr : Nat) (opens : Bool) (path seq gen : Nat) : Nat :=
  hdr + b2n opens * 2 ^ 12 + path * 2 ^ 13 + seq % 2 ^ 32 * 2 ^ 128 + gen % 2 ^ 16 * 2 ^ 160

/-- The kinds that are replies (R252). -/
def Barge.isReply (b : Barge) : Bool := b.kind == 0x10 || b.kind == 0x11

/-- The end-to-end header's bytes. -/
def Barge.e2e (b : Barge) : List Byte := leBytes 56 b.hdr

/-- The hop word (Table 8.4). -/
def hopWord (hops lseq : Nat) : List Byte :=
  let w := leBytes 1 0xB0 ++ leBytes 1 hops ++ leBytes 2 lseq ++ leBytes 3 0
  w ++ leBytes 1 (crc8 w)

/-- The bytes of a barge as a hop sends it: header, payload and CRC-64 trailer (R250, R251). -/
def Barge.bytes (b : Barge) (lseq : Nat) : List Byte :=
  hopWord b.hops lseq ++ b.e2e ++ b.payload ++ leBytes 8 (crc64 (b.e2e ++ b.payload))

/-- A barge frame: the barge and zero bytes up to a multiple of 16 (R242). -/
def bargeFrame (bs : List Byte) : List Byte := bs ++ List.replicate ((16 - bs.length % 16) % 16) 0#8

/-- What a receiver finds in the bytes of a barge: its LSEQ where HOP_CRC holds, and the barge where its length and CRC-64 hold
too (R260). -/
def parseBarge (bs : List Byte) : Option Nat × Option Barge :=
  if bs.length < 72 ∨ (crc8 (bs.take 7) != (bs.getD 7 0#8).toNat) ∨ bs.headD 0#8 != 0xB0#8 then (none, none)
  else
    let lseq := leNat ((bs.drop 2).take 2) % 4096
    let b : Barge := { hdr := leNat ((bs.drop 8).take 56), hops := (bs.getD 1 0#8).toNat % 16 }
    let body := (bs.drop 64).take b.len
    if b.len ≤ 4096 ∧ 72 + b.len ≤ bs.length ∧ leNat ((bs.drop (64 + b.len)).take 8) = crc64 (b.e2e ++ body) then
      (some lseq, some { b with payload := body })
    else (some lseq, none)

/-- The bytes that a barge counts for activity (R292). -/
def Barge.charge (b : Barge) : Nat := 72 + b.payload.length

/-! ### Control frames (Table 8.3) -/

/-- A control frame: FTYPE, the bytes [13:1] as a number, and CHECK. -/
def control (ftype body : Nat) : List Byte :=
  let w := leBytes 1 ftype ++ leBytes 13 body
  w ++ leBytes 2 (crc16 w)

/-- The body of a control frame whose CHECK holds. -/
def frameBody (ftype : Nat) (bs : List Byte) : Option Nat :=
  if bs.length = 16 ∧ (bs.headD 0#8).toNat = ftype ∧ leNat (bs.drop 14) = crc16 (bs.take 14) then
    some (leNat ((bs.drop 1).take 13))
  else none

/-- Field of a frame body: `n` bytes from frame byte `i`. -/
def bodyGet (body i n : Nat) : Nat := bitsOf body (8 * (i - 1)) (8 * n)

/-! ### Half-range comparisons (R271) -/

/-- `a` is older than `b` modulo 2^w. -/
def older (w a b : Nat) : Bool :=
  let d := (b + 2 ^ w - a % 2 ^ w) % 2 ^ w
  decide (0 < d ∧ d ≤ 2 ^ (w - 1))

end Sys2Proof.Machine
end

