-- ==== Sys2Proof/Machine/Codeword.lean ====
section
/-!
DEFINITION. Codewords of the Ibern ports (R240 to R242): the RS(544,514) code over GF(2^10), the header and slots of a codeword,
the lanes that its symbols travel on, and what a receiver finds in the codewords that arrive.
-/
namespace Sys2Proof.Machine

/-! ### GF(2^10) (IEEE 802.3 Clause 91; log entry 84) -/

/-- An element times α = 2, modulo x^10 + x^3 + 1. -/
def gfDouble (a : Nat) : Nat := if a < 512 then 2 * a else (2 * a) ^^^ 0x409

/-- The product's loop: `a` doubled at each bit of `b`. -/
def gfMulLoop : Nat → Nat → Nat → Nat → Nat
  | 0, _, _, acc => acc
  | n + 1, a, b, acc => gfMulLoop n (gfDouble a) (b / 2) (if b % 2 = 1 then acc ^^^ a else acc)

/-- The product of two elements. -/
def gfMul (a b : Nat) : Nat := if a = 0 ∨ b = 0 then 0 else gfMulLoop 10 a b 0

/-- The inverse of a nonzero element: a^1022, the product of a^2, a^4 up to a^512. -/
def gfInv (a : Nat) : Nat :=
  ((List.range 9).foldl (fun (x : Nat × Nat) _ => let s := gfMul x.1 x.1; (s, gfMul x.2 s)) (a, 1)).2

/-- α^k for k from 0 to n − 1. -/
def gfPowers : Nat → Nat → List Nat
  | _, 0 => []
  | x, n + 1 => x :: gfPowers (gfDouble x) n

/-- The sum of two polynomials, lowest coefficient first. -/
def polyAdd : List Nat → List Nat → List Nat
  | [], ys => ys
  | xs, [] => xs
  | x :: xs, y :: ys => (x ^^^ y) :: polyAdd xs ys

/-- A polynomial times a constant. -/
def polyScale (c : Nat) (xs : List Nat) : List Nat := xs.map (gfMul c)

/-- The product of two polynomials. -/
def polyMul : List Nat → List Nat → List Nat
  | [], _ => []
  | x :: xs, ys => polyAdd (polyScale x ys) (0 :: polyMul xs ys)

/-- A polynomial's value. -/
def polyEval (xs : List Nat) (v : Nat) : Nat := xs.foldr (fun c acc => c ^^^ gfMul v acc) 0

/-! ### RS(544,514) (R240) -/

/-- The generator polynomial: the product of x − α^j for j from 0 to 29. -/
def rsGenerator : List Nat := (gfPowers 1 30).foldl (fun g r => polyMul g [r, 1]) [1]

/-- One step of the division by the generator: the remainder, highest coefficient first, takes in a message symbol. -/
def rsFeed (gen : List Nat) (rem : List Nat) (m : Nat) : List Nat :=
  let f := rem.headD 0 ^^^ m
  (List.range 30).map fun i => rem.getD (i + 1) 0 ^^^ gfMul f (gen.getD i 0)

/-- The 30 parity symbols of a message, first sent first. -/
def rsParity (msg : List Nat) : List Nat :=
  let gen := (rsGenerator.take 30).reverse
  msg.foldl (rsFeed gen) (List.replicate 30 0)

/-- A codeword: 514 message symbols and their parity. -/
def rsEncode (msg : List Nat) : List Nat := msg ++ rsParity msg

/-- The syndromes of a word of 544 symbols, first sent first. -/
def rsSyndromes (word : List Nat) : List Nat :=
  (gfPowers 1 30).map fun a => word.foldl (fun acc c => gfMul a acc ^^^ c) 0

/-- The state of the search for the error locator: the locator, its last rival, its degree, the shift and the rival's discrepancy. -/
structure RsSearch where
  c : List Nat := [1]
  b : List Nat := [1]
  deg : Nat := 0
  shift : Nat := 1
  disc : Nat := 1

/-- One step of the Berlekamp-Massey search, over syndrome `n`. -/
def rsSearchStep (syn : List Nat) (x : RsSearch) (n : Nat) : RsSearch :=
  let d := (List.range (x.deg + 1)).foldl (fun acc i => acc ^^^ gfMul (x.c.getD i 0) (syn.getD (n - i) 0)) 0
  if d = 0 then { x with shift := x.shift + 1 }
  else
    let c := polyAdd x.c (List.replicate x.shift 0 ++ polyScale (gfMul d (gfInv x.disc)) x.b)
    if 2 * x.deg ≤ n then { c := c, b := x.c, deg := n + 1 - x.deg, shift := 1, disc := d }
    else { x with c := c, shift := x.shift + 1 }

/-- The error locator of a word's syndromes, with its degree. -/
def rsLocator (syn : List Nat) : RsSearch := (List.range 30).foldl (rsSearchStep syn) {}

/-- The terms of a derivative: the odd coefficients. -/
def polyDeriv (xs : List Nat) : List Nat := (List.range (xs.length - 1)).map fun i => if i % 2 = 0 then xs.getD (i + 1) 0 else 0

/-- What the receiver makes of a word (R240): up to 15 symbol errors are corrected; none where it cannot. -/
def rsDecode (word : List Nat) : Option (List Nat) :=
  let syn := rsSyndromes word
  if syn.all (· == 0) then some word
  else
    let x := rsLocator syn
    let omega := (polyMul syn x.c).take 30
    let deriv := polyDeriv x.c
    let places := (gfPowers 1 544).reverse
    let fixed := (word.zip places).map fun p =>
      let v := gfInv p.2
      if polyEval x.c v = 0 then (p.1 ^^^ gfMul p.2 (gfMul (polyEval omega v) (gfInv (polyEval deriv v))), true) else (p.1, false)
    let out := fixed.map (·.1)
    if x.deg ≤ 15 ∧ (fixed.filter (·.2)).length = x.deg ∧ (rsSyndromes out).all (· == 0) = true then some out else none

/-- The symbols of each lane of a port: symbol k travels on the (k mod W)-th active lane in ascending lane number (R240). -/
def onLanes (active : Nat) (word : List Nat) : List (Nat × List Nat) :=
  let lanes := (List.range 4).filter (bitOf active)
  lanes.mapIdx fun i l => (l, (word.zipIdx.filter fun x => x.2 % lanes.length == i).map (·.1))

/-! ### Slots and headers (R241, R242) -/

/-- The bits of a number, the highest of `n` first. -/
def bitsHigh (n v : Nat) : List Bool := (List.range n).map fun i => bitOf v (n - 1 - i)

/-- The number of some bits, the first the lowest. -/
def fromLow : List Bool → Nat
  | [] => 0
  | b :: bs => b2n b + 2 * fromLow bs

/-- Symbols of ten bits, the first bit sent the lowest (log entry 84). -/
def toSymbols : Nat → List Bool → List Nat
  | 0, _ => []
  | n + 1, bs => fromLow (bs.take 10) :: toSymbols n (bs.drop 10)

/-- The header of a codeword: FRAME_START and CW_SEQ. -/
def cwHeader (start seq : Nat) : Nat := start + seq % 16 * 64

/-- A codeword's message symbols: the header, bit 19 first, then 40 slots, each byte bit 7 first. -/
def cwMessage (start seq : Nat) (slots : List (List Byte)) : List Nat :=
  toSymbols 514 (bitsHigh 20 (cwHeader start seq) ++ slots.flatten.flatMap fun b => bitsHigh 8 b.toNat)

/-- The slots of a frame, each with whether it begins one. -/
def frameSlots (frame : List Byte) : List (Bool × List Byte) :=
  (List.range (frame.length / 16)).map fun i => (i == 0, (frame.drop (16 * i)).take 16)

/-- FRAME_START of 40 slots: the first that begins a frame, or 63. -/
def frameStart (slots : List (Bool × List Byte)) : Nat := (slots.findIdx? (·.1)).getD 63

/-- The codewords that carry slots, from a codeword count on, 40 slots in each. -/
def codewordsOf : Nat → Nat → List (Bool × List Byte) → List (List Nat)
  | 0, _, _ => []
  | n + 1, seq, slots =>
    let now := slots.take 40
    rsEncode (cwMessage (frameStart now) seq (now.map (·.2))) :: codewordsOf n (seq + 1) (slots.drop 40)

/-- The codewords of frames sent back to back, the last filled with IDLE frames (R241, R242). -/
def codewords (frames : List (List Byte)) : List (List Nat) :=
  let slots := frames.flatMap frameSlots
  let n := (slots.length + 39) / 40
  codewordsOf n 0 (slots ++ (List.replicate (40 * n - slots.length) (control 0 0)).flatMap frameSlots)

/-- The frames that a port has sent, in order. -/
def State.sentFrames (s : State) (p : Nat) : List (List Byte) :=
  s.out.reverse.filterMap fun o => match o with
    | .frame q bs => if q = p then some bs else none
    | _ => none

/-- The codewords that a port has sent. -/
def State.sentCodewords (s : State) (p : Nat) : List (List Nat) := codewords (s.sentFrames p)

/-! ### Reception (R242) -/

/-- A receiver of codewords: whether it discards slots until a later FRAME_START, the slots of the frame that has begun, and how many
it lacks. -/
structure CwReceiver where
  hunt : Bool := true
  part : List Byte := []
  lacks : Nat := 0
deriving DecidableEq, Repr

/-- FTYPE of a control frame (Table 8.3). -/
def knownControl (t : Nat) : Bool := [0x00, 0x11, 0x12, 0x13, 0x14, 0x15, 0x16, 0x17, 0x18].contains t

/-- The slots of one codeword are taken: the frames that they complete, and the receiver after them. An unknown FTYPE discards what
follows until the FRAME_START of a later codeword. -/
def takeSlots (r : CwReceiver) : List (List Byte) → List (List Byte) × CwReceiver
  | [] => ([], r)
  | x :: xs =>
    if r.hunt then ([], r)
    else if 0 < r.lacks then
      if r.lacks = 1 then
        let rest := takeSlots {r with part := [], lacks := 0} xs
        ((r.part ++ x) :: rest.1, rest.2)
      else takeSlots { r with part := r.part ++ x, lacks := r.lacks - 1 } xs
    else
      let t := (x.headD 0#8).toNat
      if knownControl t then
        let rest := takeSlots r xs
        (x :: rest.1, rest.2)
      else if t = 0xB0 then takeSlots { r with part := x, lacks := (72 + leNat (x.drop 14) % 8192 + 15) / 16 - 1 } xs
      else ([], { hunt := true })

/-- The bits of symbols, in the order sent. -/
def symbolBits (word : List Nat) : List Bool := word.flatMap fun c => (List.range 10).map (bitOf c)

/-- The number of some bits, the first the highest. -/
def fromHigh (bs : List Bool) : Nat := bs.foldl (fun acc b => 2 * acc + b2n b) 0

/-- The header and the slots of a codeword that has been corrected. -/
def cwParts (word : List Nat) : Nat × List (List Byte) :=
  let bits := symbolBits (word.take 514)
  (fromHigh (bits.take 20), (List.range 40).map fun i => (List.range 16).map fun j =>
    BitVec.ofNat 8 (fromHigh ((bits.drop (20 + 128 * i + 8 * j)).take 8)))

/-- A codeword arrives (R242): the frames that it completes, and the receiver after it. -/
def takeCodeword (r : CwReceiver) (word : List Nat) : List (List Byte) × CwReceiver :=
  match rsDecode word with
  | none => ([], { hunt := true })
  | some w =>
    let p := cwParts w
    let start := p.1 % 64
    if r.hunt then (if start < 40 then takeSlots { hunt := false } (p.2.drop start) else ([], r)) else takeSlots r p.2

/-- The frames that a receiver finds in the codewords that arrive. -/
def framesIn (r : CwReceiver) : List (List Nat) → List (List Byte)
  | [] => []
  | w :: ws => (takeCodeword r w).1 ++ framesIn (takeCodeword r w).2 ws

end Sys2Proof.Machine
end

