-- ==== Sys2Proof/Machine/Links.lean ====
section
/-!
DEFINITION. The sending side of the Ibern ports (R256 to R263, R265, R266): output arbitration, credits, the replay buffer,
and the routing of a barge at this hop.
-/
namespace Sys2Proof.Machine

/-- The fabric's hidden state changes. -/
def onFab (g : Fabric → Fabric) : Eff := onDev fun d => { d with fab := g d.fab }

/-- The hidden state of a port. -/
def State.port (s : State) (p : Nat) : Port := mget {} s.dev.fab.ports p

/-- The hidden state of a port changes. -/
def onPort (p : Nat) (g : Port → Port) : Eff := onFab fun f => { f with ports := mset {} f.ports p (g (mget {} f.ports p)) }

/-- IBN_P_p_STATE.STATE (Table 8.2): 0 DOWN, 1 TRAINING, 2 UP, 3 RETRAIN, 4 WINDING, 5 RETIRED. -/
def State.pState (s : State) (p : Nat) : Nat := s.fld (rIbnPState p) 0 3
/-- IBN_P_p_STATE.WIDTH. -/
def State.pWidth (s : State) (p : Nat) : Nat := s.fld (rIbnPState p) 4 3
/-- GLB_ROLE.CHIP_ID. -/
def State.chipId (s : State) : Nat := s.fld rGlbRole 0 12
/-- GLB_ROLE.IN_REACH. -/
def State.inReach (s : State) : Bool := s.bit rGlbRole 18

/-- GLB_ROLE.TIME_MASTER: this chip is the reach's timebase master. -/
def State.isMaster (s : State) : Bool := s.bit rGlbRole 17

/-- The chip's serial (IMG_SERIAL). -/
def State.serial (s : State) : Nat := (s.reg rImgSerial).toNat

/-- The master admits itself (R290). -/
def selfAdmit : Eff := .read fun s =>
  if s.isMaster && !s.inReach && !s.bit rGlbRole 19 then
    .andThen (onFab fun f => { f with admitted := mput f.admitted s.chipId s.serial, joined := true }) (putBit rGlbRole 18 true)
  else .skip

/-- A frame leaves a port. -/
def sendFrame (p : Nat) (bs : List Byte) : Eff := emit (.frame p bs)

/-- A control frame leaves a port. -/
def sendControl (p ftype body : Nat) : Eff := sendFrame p (control ftype body)

/-! ### Output (R257 to R259, R261) -/

/-- The slots that a barge frame takes. -/
def Barge.slots (b : Barge) : Nat := (b.charge + 15) / 16

/-- TOWPATH's cap for a port in a mark interval: 1/32 of its 64,000 slots per lane (R259, Table 8.1). -/
def State.towCap (s : State) (p : Nat) : Nat := 2000 * s.pWidth p

/-- A waiting barge may leave now: its class's credit is held, one kept for replies (R257), and TOWPATH is within its cap. -/
def State.mayLeave (s : State) (p : Nat) (w : Waiting) : Bool :=
  let k := s.port p
  let c := k.credits.getD w.barge.cls 0
  (if w.barge.isReply then decide (1 ≤ c) else decide (2 ≤ c))
    && (w.barge.cls != 0 || decide (k.towSlots + w.barge.slots ≤ s.towCap p))

/-- The next barge of a class to leave a port: the input ports take turns, and each one's barges keep their order (R258). -/
def State.nextOfClass (s : State) (p c : Nat) : Option Waiting :=
  let k := s.port p
  let first (i : Nat) : Option Waiting :=
    match k.outQ.find? fun w => w.input == i && w.barge.cls == c with
    | some w => if s.mayLeave p w then some w else none
    | none => none
  let last := k.lastInput.getD c 16
  ((List.range 17).map fun j => (last + 1 + j) % 17).findSome? first

/-- The weight of a class (R258). -/
def State.classWeight (s : State) (c : Nat) : Nat :=
  s.fld rIbnCfg (if c = 3 then 0 else if c = 1 then 4 else 8) 4

/-- The class after another in the weighted round robin: PROMPT, REDUCE, BULK. -/
def nextClass (c : Nat) : Nat := if c = 3 then 1 else if c = 1 then 2 else 3

/-- The barge that a port sends next, with the turn after it. -/
def State.pickOut (s : State) (p : Nat) : Option (Waiting × Nat × Nat) :=
  let k := s.port p
  match s.nextOfClass p 0 with
  | some w => some (w, k.turnClass, k.turnUsed)
  | none =>
    let c := k.turnClass
    let tryAt (c used : Nat) : Option (Waiting × Nat × Nat) := (s.nextOfClass p c).map fun w => (w, c, used)
    let now := if k.turnUsed < s.classWeight c then tryAt c (k.turnUsed + 1) else none
    (now <|> tryAt (nextClass c) 1) <|> (tryAt (nextClass (nextClass c)) 1 <|> tryAt c 1)

/-- The buffers of an input port that hold barges of a class: those that wait for an output port or for their kind (R257). -/
def State.usedBufs (s : State) (p c : Nat) : Nat :=
  let mine (l : List Waiting) : Nat := (l.filter fun w => w.input == p && w.barge.cls == c).length
  mine s.dev.fab.inbox + ((s.dev.fab.ports.map fun e => mine e.2.outQ).sum)

/-- The body of the CREDIT frame of an input port: the buffers of each class that are free (log entry 81). -/
def State.creditBody (s : State) (p : Nat) : Nat := ((List.range 4).map fun c => (8 - s.usedBufs p c) * 2 ^ (8 * c)).sum

/-- The neighbour is told the free buffers of an input port (R257), unless the link is gone. -/
def returnCredit (p : Nat) : Eff := .read fun s =>
  if p < 16 ∧ (s.pState p = 2 ∨ s.pState p = 3) then sendControl p 0x11 (s.creditBody p) else .skip

/-- The first occurrence of a waiting barge is taken out. -/
def dropWaiting (w : Waiting) : List Waiting → List Waiting
  | [] => []
  | x :: xs => if x = w then xs else x :: dropWaiting w xs

/-- A barge leaves a port: it takes the next LSEQ, a place in the replay buffer and a credit (R257, R261). -/
def sendOut (p : Nat) (w : Waiting) (cls used : Nat) : Eff := .read fun s =>
  let k := s.port p
  let c := w.barge.cls
  Eff.all
    [ sendFrame p (bargeFrame (w.barge.bytes k.txSeq)), bumpReg (rIbnPCnt p 4) 64 1,
      onPort p fun k =>
        { k with
          txSeq := (k.txSeq + 1) % 4096, replay := k.replay ++ [{ lseq := k.txSeq, barge := w.barge, tick := s.now }],
          credits := k.credits.set c (k.credits.getD c 0 - 1), outQ := dropWaiting w k.outQ, turnClass := cls,
          turnUsed := used, lastInput := k.lastInput.set c w.input,
          towSlots := if c = 0 then k.towSlots + w.barge.slots else k.towSlots },
      returnCredit w.input ]

/-- A port sends what it can (R258): it is UP, no LANES exchange holds it, no barge waits to be resent, and its replay buffer has
room. -/
def pumpLoop (p : Nat) : Nat → Eff
  | 0 => .skip
  | n + 1 => .read fun s =>
    let k := s.port p
    if s.pState p = 2 ∧ k.lanes = none ∧ k.replay.all (fun r => !r.again) ∧ k.replay.length < 32 then
      match s.pickOut p with
      | some (w, c, u) => .andThen (sendOut p w c u) (pumpLoop p n)
      | none => .skip
    else .skip

/-- A port sends what it can. -/
def pumpPort (p : Nat) : Eff := .read fun s => pumpLoop p (s.port p).outQ.length

/-- A barge joins a port's output. -/
def toPort (p input : Nat) (b : Barge) : Eff :=
  .andThen (onPort p fun k => { k with outQ := k.outQ ++ [{ input := input, barge := b }] }) (pumpPort p)

/-! ### Routes (R265, R266, R268) -/

/-- The port of a PATH in this chip's entry for a destination. -/
def State.routePort (s : State) (d path : Nat) : Option Nat :=
  if path < 3 ∧ s.bit (rIbnRoute d) (12 + path) then some (s.fld (rIbnRoute d) (4 * path) 4) else none

/-- The image gives a route to a destination, as far as the chip may use it (R24, R280). -/
def State.hasRoute (s : State) (d : Nat) : Bool :=
  !s.bit rGlbRole 19 && (s.inReach || d == s.dev.fab.master) && (List.range 3).any fun k => (s.routePort d k).isSome

/-- The lowest PATH whose port is UP or in RETRAIN and whose PATH_FAILED bit is clear (R268). A reply takes it, before IN_REACH
too (R280). -/
def State.replyPath (s : State) (d : Nat) : Option Nat :=
  (List.range 3).find? fun k =>
    match s.routePort d k with
    | some p => (s.pState p == 2 || s.pState p == 3) && !s.bit (rIbnRoute d) (16 + k)
    | none => false

/-- The path that a source chooses for a barge of a flow (R268, R280). -/
def State.choosePath (s : State) (d : Nat) : Option Nat := if s.hasRoute d then s.replyPath d else none

/-- A reply of this chip goes out on the path that R268 gives; where there is none it is lost. -/
def sendReply (hdr : Nat) (payload : List Byte) : Eff := .read fun s =>
  let d := bitsOf hdr 116 12
  match s.replyPath d with
  | some k => match s.routePort d k with
    | some p => toPort p 16 { hdr := hdr + k * 2 ^ 13, payload := payload }
    | none => .skip
  | none => .skip

/-- The header of a reply to a barge (R252): `len`, `addr`, `arg` and `pmap` as its kind gives. -/
def State.replyHdr (s : State) (b : Barge) (kind len addr arg pmap : Nat) : Nat :=
  bargeHdr kind b.cls false s.chipId b.srcQueue len b.srcChip b.basin addr arg pmap + b.seq * 2 ^ 128 + b.gen * 2 ^ 160

/-- An ACK of a barge. -/
def sendAck (b : Barge) (status : Nat) (transit : Bool) : Eff := .read fun s =>
  sendReply (s.replyHdr b 0x10 0 0 (status + b2n transit * 256) 0) []

/-- A hop sends a barge on (R266): it holds it where the port is in RETRAIN or TRAINING, and answers PATH_DOWN, or drops a
reply, where it cannot go on. -/
def forward (input : Nat) (b : Barge) : Eff := .read fun s =>
  let refuse : Eff := .andThen (returnCredit input) (if b.isReply then .skip else sendAck b 0x27 true)
  if 15 ≤ b.hops then .andThen (returnCredit input) (countAt 0x35 0)
  else match s.routePort b.dest b.path with
    | some p =>
      if s.pState p = 1 ∨ s.pState p = 2 ∨ s.pState p = 3 then toPort p input { b with hops := b.hops + 1 } else refuse
    | none => refuse

end Sys2Proof.Machine
end

