-- ==== Sys2Proof/Machine/Flows.lean ====
section
/-!
DEFINITION. Flows (R269 to R280): sending at the source, answers, ACK_TIMEOUT and the reroute fence; acceptance at the
destination.
-/
namespace Sys2Proof.Machine

/-! ### Source flows -/

/-- The key of a source flow. -/
def flowKey (queue dest cls : Nat) : Nat := (queue * 4096 + dest) * 4 + cls
/-- The queue of a source flow. -/
def flowQueue (f : Nat) : Nat := f / 16384
/-- The destination of a source flow. -/
def flowDest (f : Nat) : Nat := f / 4 % 4096
/-- The class of a source flow. -/
def flowCls (f : Nat) : Nat := f % 4

/-- The basin of a source queue number: a queue's owner, or the rank engine's basin; management agents have none. -/
def State.flowBasin (s : State) (queue : Nat) : Option Nat :=
  if queue < 0x100 then some (s.qOwner queue) else if queue < 0x110 then some (queue - 0x100) else none

/-- A source flow, where the source keeps an entry. -/
def State.flow? (s : State) (f : Nat) : Option SrcFlow := mget? s.dev.fab.src f

/-- A source flow changes. -/
def onFlow (f : Nat) (g : SrcFlow → SrcFlow) : Eff := onFab fun k =>
  match mget? k.src f with
  | some x => { k with src := mput k.src f (g x) }
  | none => k

/-- What a barge's end tells its user. -/
def tellUser (f gen seq status : Nat) : Eff := onFab fun k =>
  { k with events := k.events ++ [{ flow := f, gen := gen, seq := seq, status := status }] }

/-- The port that a flow's current PATH uses. -/
def State.flowPort (s : State) (f : Nat) (x : SrcFlow) : Option Nat := s.routePort (flowDest f) x.path

/-- One barge of a flow is sent, or resent (R269, R292). OPENS is 1 when no earlier barge of the generation is without its OK. -/
def launch (f seq : Nat) : Eff := .read fun s =>
  match s.flow? f with
  | none => .skip
  | some x =>
    match x.outs.find? fun o => o.seq == seq with
    | none => .skip
    | some o =>
      let opens := (x.outs.head?.map fun h => h.seq == seq).getD true
      let b : Barge := { hdr := withFlow o.hdr opens x.path seq x.gen, payload := o.payload }
      Eff.all
        [ onFlow f fun y => { y with outs := y.outs.map fun z =>
            if z.seq = seq then { z with sent := true, tick := s.now, path := x.path, answer := none } else z },
          Eff.when (!o.sent && flowCls f != 0) (match s.flowBasin (flowQueue f) with
            | some bas => bumpReg (rIbnActTx bas) 64 b.charge
            | none => .skip),
          match s.flowPort f x with
          | some p => toPort p 16 b
          | none => .skip ]

/-- The flow's own barges that wait for an output port are dropped (R277). -/
def dropWaitingOf (f : Nat) : Eff := onFab fun k =>
  { k with ports := k.ports.map fun e => (e.1, { e.2 with outQ := e.2.outQ.filter fun w =>
      !(w.input == 16 && !w.barge.isReply && flowKey w.barge.srcQueue w.barge.dest w.barge.cls == f) }) }

/-- A flow becomes BROKEN (R277): its pending barges are dropped, its users end FLOW_BROKEN, or REMOTE_REFUSED where a destination's
refusal caused it, and the flow counts at its basin's source. -/
def breakFlow (f : Nat) (refusal : Option Nat) : Eff := .read fun s =>
  match s.flow? f with
  | none => .skip
  | some x =>
    let st := if refusal.isSome then 0x1F else 0x1E
    Eff.all
      [ onFlow f fun y => { y with state := 2, outs := [] }, dropWaitingOf f,
        Eff.each x.outs fun o => tellUser f x.gen o.seq st,
        match s.flowBasin (flowQueue f) with
        | some b => .andThen
            (match refusal with
              | some r => Eff.when (decide (flowQueue f < 0x100)) (putFld (rIbnFlowResult b) 8 8 r)
              | none => .skip)
            (countAt (0xC0 + b) 0)
        | none => .skip ]

/-- The destination's refusals (Table 8.6), FLOW_BROKEN aside. -/
def isRefusal (st : Nat) : Bool := st == 0x16 || st == 0x17 || st == 0x24 || st == 0x25 || st == 0x26

/-- The fence goes on once every sent barge has its answer (R276 steps 3 to 5). -/
def tryFence (f : Nat) : Eff := .read fun s =>
  match s.flow? f with
  | none => .skip
  | some x =>
    let sent := x.outs.filter (·.sent)
    if x.state != 1 || sent.any (fun o => o.answer.isNone) then .skip
    else match sent.findSome? fun o => o.answer.filter fun a => a != 0 && a != 0x27 with
      | some _ => breakFlow f (sent.findSome? fun o => o.answer.filter isRefusal)
      | none =>
        match s.choosePath (flowDest f) with
        | none => breakFlow f none
        | some k => .andThen (onFlow f fun y => { y with state := 0, path := k }) (Eff.each x.outs fun o => launch f o.seq)

/-- A flow becomes FENCED (R276 step 1). -/
def fence (f : Nat) : Eff := .andThen (onFlow f fun x => if x.state = 0 then { x with state := 1 } else x) (tryFence f)

/-- The flows whose current PATH uses a port that has gone DOWN or RETIRED become FENCED. -/
def fencePort (p : Nat) : Eff := .read fun s =>
  Eff.each (s.dev.fab.src.filter fun e => e.2.state == 0 && s.flowPort e.1 e.2 == some p) fun e => fence e.1

/-- The port of a flow's PATH can carry barges. -/
def State.flowUsable (s : State) (f : Nat) (x : SrcFlow) : Bool :=
  match s.flowPort f x with
  | some p => s.pState p == 2 || s.pState p == 3
  | none => false

/-- A barge is given to a flow whose entry exists: it takes the next FLOW_SEQ and is sent, unless a fence holds it. -/
def enqueueFlow (f hdr : Nat) (payload : List Byte) : Eff := .read fun s =>
  match s.flow? f with
  | none => .skip
  | some x =>
    .andThen (onFlow f fun y =>
        { y with next := (y.next + 1) % 2 ^ 32, outs := y.outs ++ [{ seq := x.next, hdr := hdr, payload := payload }] })
      (if x.state = 0 then (if s.flowUsable f x then launch f x.next else fence f) else .skip)

/-- A flow whose entry exists and that holds nothing outstanding may be freed (R275). -/
def State.freeable (s : State) : List Nat := (s.dev.fab.src.filter fun e => e.2.state == 0 && e.2.outs.isEmpty).map (·.1)

/-- A new flow entry of the first generation. With no usable PATH it becomes BROKEN. -/
def openFlow (f : Nat) : Eff := .read fun s =>
  .andThen (onFab fun k => { k with src := mput k.src f { path := (s.choosePath (flowDest f)).getD 0 } })
    (if (s.choosePath (flowDest f)).isNone then breakFlow f none else .skip)

/-- A source flow entry is at hand or can be made (R275). -/
def State.canFlow (s : State) (f : Nat) : Bool :=
  (s.flow? f).isSome || decide (s.dev.fab.src.length < 16384) || !s.freeable.isEmpty

/-- The flow's entry is made where there is none; which idle entry gives up its slot is left open (log entry 4). -/
def needFlow (f : Nat) : Eff := .read fun s =>
  if (s.flow? f).isSome then .skip
  else if s.dev.fab.src.length < 16384 then openFlow f
  else withFree fun v =>
    match s.freeable[v % s.freeable.length]? with
    | some g => .andThen (onFab fun k => { k with src := mdel k.src g }) (openFlow f)
    | none => countAt 0x38 0

/-- The flow is BROKEN. -/
def State.flowBroken (s : State) (f : Nat) : Bool := ((s.flow? f).map fun x => x.state == 2).getD false

/-! ### Answers at the source (R276, R277) -/

/-- An answer to an outstanding barge of a flow's current generation (256: ACK_TIMEOUT). -/
def answered (f seq status : Nat) : Eff := .read fun s =>
  match s.flow? f with
  | none => .skip
  | some x =>
    match x.outs.find? fun o => o.seq == seq && o.sent && o.answer.isNone with
    | none => .skip
    | some o =>
      let keep := onFlow f fun y => { y with outs := y.outs.map fun z => if z.seq = seq then { z with answer := some status } else z }
      if status = 0 then
        Eff.all
          [ onFlow f fun y => { y with outs := y.outs.filter fun z => z.seq != seq }, tellUser f x.gen seq 0, tryFence f ]
      else if status = 0x27 then
        Eff.all [putBit (rIbnRoute (flowDest f)) (16 + o.path) true, keep, fence f]
      else if x.state = 0 then breakFlow f (if isRefusal status then some status else none)
      else .andThen keep (tryFence f)

/-- The flow that a destination's answer with these fields belongs to. -/
def State.answerFlow (s : State) (b : Barge) : Option Nat :=
  let f := flowKey b.srcQueue b.srcChip b.cls
  match s.flow? f with
  | some x => if x.gen == b.gen && x.outs.any fun o => o.seq == b.seq && o.sent && o.answer.isNone then some f else none
  | none => none

/-- The flows that a transit hop's PATH_DOWN can belong to: an ACK names its own sender and not the destination of the barge it
answers (R252). -/
def State.transitFlows (s : State) (t : TransitDown) : List Nat :=
  (s.dev.fab.src.filter fun e => flowQueue e.1 == t.queue && flowCls e.1 == t.cls && e.2.gen == t.gen
    && e.2.outs.any fun o => o.seq == t.seq && o.sent && o.answer.isNone).map (·.1)

/-- A transit hop's PATH_DOWN answers its barge once there are no more flows it can belong to than such answers (log entry 82); one that
fits no flow is dropped. -/
def transitLoop : Nat → Eff
  | 0 => .skip
  | n + 1 => .read fun s =>
    let held := s.dev.fab.transit
    match held.find? fun t => decide ((s.transitFlows t).length ≤ held.count t) with
    | some t => .andThen
        (onFab fun k => { k with transit := k.transit.erase t })
        (.andThen (match s.transitFlows t with
          | f :: _ => answered f t.seq 0x27
          | [] => .skip) (transitLoop n))
    | none => .skip

/-- The transit hops' answers whose flows are known are taken. -/
def settleTransit : Eff := .read fun s => transitLoop s.dev.fab.transit.length

/-- A transit hop's PATH_DOWN is held until its flow is known. -/
def holdTransit (b : Barge) : Eff := onFab fun k =>
  { k with transit := k.transit ++ [{ queue := b.srcQueue, cls := b.cls, gen := b.gen, seq := b.seq }] }

/-! ### Destination flows (R271 to R274) -/

/-- ACK_TIMEOUT in ticks (R270). -/
def State.ackTimeout (s : State) : Nat := 2 ^ s.fld rIbnCfg 12 5

/-- The key of a destination flow. -/
def Barge.dstKey (b : Barge) : Nat := (b.srcChip * 512 + b.srcQueue) * 4 + b.cls

/-- The entries that may be evicted, the least recently used first (R274). -/
def State.evictable (s : State) : Option Nat :=
  let old := s.dev.fab.dst.filter fun e => !e.2.broken && decide (e.2.tick + 2 * s.ackTimeout ≤ s.now)
  let least := old.foldl (fun m e => match m with
    | some (k, t) => if e.2.tick < t then some (e.1, e.2.tick) else some (k, t)
    | none => some (e.1, e.2.tick)) (none : Option (Nat × Nat))
  least.map (·.1)

/-- A destination flow entry takes a value. -/
def putDst (k : Nat) (x : DstFlow) : Eff := onFab fun f => { f with dst := mput f.dst k x }

/-- The destination entry becomes BROKEN. -/
def breakDst (k : Nat) : Eff := onFab fun f =>
  match mget? f.dst k with
  | some x => { f with dst := mput f.dst k { x with broken := true } }
  | none => f

/-- A barge that is not a reply is taken through R271. `check` gives its refusal, if any, with what that refusal records; `perform`
does its kind and answers OK itself where its effect is complete. -/
def acceptBarge (b : Barge) (check : State → Option Nat) (onRefuse : Eff) (perform : Eff) : Eff := .read fun s =>
  let k := b.dstKey
  let e := mget? s.dev.fab.dst k
  let go (e : DstFlow) : Eff :=
    if e.broken then .andThen (putDst k e) (sendAck b 0x1E false)
    else
      let expect := if b.opens then b.seq else e.expect
      if older 32 b.seq expect then .andThen (putDst k { e with expect := expect }) (onFab fun f => { f with dup := f.dup + 1 })
      else if b.seq != expect then
        .andThen (putDst k { e with expect := expect, broken := true }) (sendAck b 0x1E false)
      else
        .andThen (putDst k { e with expect := (expect + 1) % 2 ^ 32 })
          (match check s with
            | some st => Eff.all [breakDst k, onRefuse, sendAck b st false]
            | none => perform)
  match e with
  | some x =>
    if older 16 b.gen x.gen then .andThen (putDst k { x with tick := s.now }) (onFab fun f => { f with stale := f.stale + 1 })
    else if b.gen = x.gen then go { x with tick := s.now }
    else if !b.opens then .andThen (putDst k { broken := true, gen := b.gen, expect := 0, tick := s.now }) (sendAck b 0x1E false)
    else go { broken := false, gen := b.gen, expect := b.seq, tick := s.now }
  | none =>
    let make : Eff :=
      if !b.opens then .andThen (putDst k { broken := true, gen := b.gen, expect := 0, tick := s.now }) (sendAck b 0x1E false)
      else go { broken := false, gen := b.gen, expect := b.seq, tick := s.now }
    if s.dev.fab.dst.length < 65536 then make
    else match s.evictable with
      | some old => .andThen (onFab fun f => { f with dst := mdel f.dst old }) make
      | none => sendAck b 0x26 false

end Sys2Proof.Machine
end

