-- ==== Sys2Proof/Machine/Wharf.lean ====
section
/-!
DEFINITION. The wharf engine (chapter 11): drive commands, epochs from arming to commit, and their failure.
-/
namespace Sys2Proof.Machine

/-! ### Hidden state -/

/-- A set's hidden state changes. -/
def onSet (k : Nat) (g : WSet → WSet) : Eff := onWhf fun w => { w with sets := mset {} w.sets k (g (mget {} w.sets k)) }
/-- A drive's hidden state changes. -/
def onDrive (d : Nat) (g : Drive → Drive) : Eff := onWhf fun w =>
  { w with drives := mset {} w.drives d (g (mget {} w.drives d)) }
/-- A running epoch changes. -/
def onEpoch (k : Nat) (g : EpochRun → EpochRun) : Eff := onSet k fun w => { w with epoch := w.epoch.map g }
/-- A running restore changes. -/
def onRestore (k : Nat) (g : RestoreRun → RestoreRun) : Eff := onSet k fun w => { w with restore := w.restore.map g }
/-- WHF_SET_s.STATE. -/
def setSetState (k x : Nat) : Eff := putFld (rWhfSetState k) 0 3 x
/-- LAST_STATUS. -/
def setLastStatus (k x : Nat) : Eff := putFld (rWhfSetState k) 4 8 x
/-- WPTR. -/
def setWptr (k d x : Nat) : Eff := putFld (rWhfSetRing k d) 0 32 x
/-- TAIL. -/
def setTail (k d x : Nat) : Eff := putFld (rWhfSetRing k d) 32 32 x

/-- WHF_STATUS shows the buffers in use and quarantined. -/
def showWharf : Eff := .read fun s =>
  putReg rWhfStatus (s.dev.whf.inUse.length + s.dev.whf.quarantined.length * 128)
/-- WHF_DRV_d.STATUS shows the commands outstanding. -/
def showDrive (d : Nat) : Eff := .read fun s => putFld (rWhfDrvStatus d) 2 10 (s.drive d).cmds.length

/-- Bytes of the wharf memories by BAR4 offset. -/
def State.sram (s : State) (a n : Nat) : List Byte := (List.range n).map fun i => mget 0#8 s.dev.whf.sram (a + i)
/-- Bytes written to the wharf memories. -/
def sramPut (a : Nat) (bs : List Byte) : Eff := onWhf fun w => { w with sram := memWrite w.sram a bs }

/-- The BAR4 offset of a staging buffer. -/
def bufAt (i : Nat) : Nat := 0x12000 * i
/-- The BAR4 offset of the manifest buffer. -/
abbrev manBuf : Nat := 0x7E0000
/-- The BAR4 offset of a superblock in the superblock half of the manifest buffer. -/
def sbBuf (i : Nat) : Nat := 0x7F0000 + 0x1000 * i

/-- The lowest free staging buffer. -/
def State.freeBuf (s : State) : Option Nat :=
  (List.range 112).find? fun i => !s.dev.whf.inUse.contains i && (mget? s.dev.whf.quarantined i).isNone
/-- A staging buffer is taken. -/
def takeBuf (i : Nat) : Eff := .andThen (onWhf fun w => { w with inUse := sins w.inUse i }) showWharf
/-- A staging buffer is freed. -/
def freeBuffer (i : Nat) : Eff := .andThen (onWhf fun w => { w with inUse := sdel w.inUse i }) showWharf

/-! ### Drive commands (R380 to R383) -/

/-- The depth of a drive's rings. -/
def State.drvDepth (s : State) (d : Nat) : Nat := 2 ^ s.fld (rWhfDrvCtrl d) 0 4
/-- The submission ring has room. -/
def State.drvRoom (s : State) (d : Nat) : Bool :=
  ((s.drive d).sqTail + 1) % s.drvDepth d != (s.drive d).sqHead % s.drvDepth d

/-- A doorbell of a drive is written (R383); PF0 without Bus Master Enable writes none (R607). -/
def driveDoorbell (off v : Nat) : Eff := .read fun s =>
  if s.busMaster 0 then sendWrite 0 (s.reg off).toNat (leBytes 4 v) else .skip

/-- The submission entry of a command (R382). `prpList` is the BAR4 offset of the buffer's PRP list. -/
def sqe (bar4 nsid : Nat) (c : DrvCmd) (prpList : Nat) : List Byte :=
  let pages := c.nlb
  let io := c.op != 0
  let prp1 := if io then bar4 + c.buf else 0
  let prp2 := if !io || decide (pages ≤ 1) then 0 else if pages = 2 then bar4 + c.buf + 4096 else bar4 + prpList
  leBytes 1 c.op ++ zeros 1 ++ leBytes 2 c.cid ++ leBytes 4 nsid ++ zeros 16 ++ leBytes 8 prp1 ++ leBytes 8 prp2
    ++ leBytes 8 (if io then c.slba else 0) ++ leBytes 4 (if io then c.nlb - 1 else 0) ++ zeros 12

/-- A command is placed in the drive's submission ring and the doorbell rung. -/
def placeCmd (d : Nat) (c : DrvCmd) : Eff := .read fun s =>
  let n := s.drvDepth d
  let tail := (s.drive d).sqTail
  let next := (tail + 1) % n
  let list := 0x900000 + 0x100 * (if c.buf < manBuf then c.buf / 0x12000 else 112)
  Eff.all
    [ sramPut list ((List.range (c.nlb - 1)).flatMap fun i => leBytes 8 (s.dev.pci.bar4 + c.buf + 4096 * (i + 1))),
      sramPut (0x800000 + 0x10000 * d + 64 * tail) (sqe s.dev.pci.bar4 (s.reg (rWhfDrvNsid d)).toNat c list),
      onDrive d fun k => { k with sqTail := next, cmds := k.cmds ++ [c] },
      showDrive d, driveDoorbell (rWhfDrvSqdb d) next ]

/-- A new command of the engine. -/
def submit (d op slba nlb buf cid : Nat) (role : DrvRole) : Eff := .read fun s =>
  placeCmd d { cid := cid, op := op, slba := slba, nlb := nlb, buf := buf, sends := 1, tick := s.now, role := role }

/-- The set that a drive command serves. -/
def DrvRole.set : DrvRole → Nat
  | .extent k _ _ _ _ _ => k
  | .manifest k => k
  | .flush k => k
  | .superblock k => k
  | .readSuper k _ _ => k
  | .readManifest k => k
  | .readExtent k _ => k

/-- The staging buffer that a drive command holds. -/
def DrvRole.buffer : DrvRole → Option Nat
  | .extent _ _ _ _ b _ => some b
  | .readExtent _ b => some b
  | _ => none

/-- The set has drive commands outstanding. -/
def State.setBusy (s : State) (k : Nat) : Bool := s.dev.whf.drives.any fun d => d.2.cmds.any fun c => c.role.set == k

/-! ### The end of a run on a set -/

/-- The manifest buffer is given back. -/
def releaseManifest (k : Nat) : Eff := onWhf fun w => if w.manifest = some k then { w with manifest := none } else w

/-- The set has ended what ran on it: DEFINED again, or UNDEFINED where a reset asked for it. -/
def setIdle (k : Nat) : Eff := .read fun s =>
  if (s.wset k).undo then .andThen (onSet k fun _ => {}) (putReg (rWhfSetState k) (s.fld (rWhfSetState k) 4 8 * 16))
  else setSetState k 1

/-- The entry of a run completes, unless it has. -/
def endEntry (posted : Bool) (q status detail : Nat) : Eff :=
  if posted then .skip else finishCurrent q { status := status, detail := detail }

/-- An epoch ends with a status other than OK (R396). -/
def endEpoch (k : Nat) (e : EpochRun) (status : Nat) : Eff := .read fun s =>
  Eff.all
    [ putBit (rWhfSetState k) 3 true, setLastStatus k status, releaseManifest k,
      Eff.when (!e.issued) (Eff.each (s.setDrives k) fun d =>
        match mget? (s.wset k).committed d with
        | some (w, t) => .andThen (setWptr k d w) (setTail k d t)
        | none => .skip),
      onSet k (fun w => { w with epoch := none, armed := [], copies := [], stalled := [] }),
      setIdle k, endEntry e.posted e.q status (e.number % 2 ^ 32) ]

/-- A restore ends (R404): every restore sets NEED_FULL. -/
def endRestore (k : Nat) (r : RestoreRun) (status : Nat) : Eff :=
  Eff.all
    [ putBit (rWhfSetState k) 3 true, setLastStatus k status, releaseManifest k,
      match r.got with
      | some (_, i) => freeBuffer i
      | none => .skip,
      onSet k (fun w => { w with restore := none }), setIdle k, endEntry r.posted r.q status r.applied ]

/-- A status stops the run on a set; it ends once its drive commands have completed. -/
def failRun (k status : Nat) : Eff := onSet k fun w =>
  { w with armed := [], copies := [], stalled := [],
           epoch := w.epoch.map fun e => { e with fail := e.fail.or (some status) },
           restore := w.restore.map fun r => { r with fail := r.fail.or (some status) },
           adopt := w.adopt.map fun a => { a with fail := a.fail.or (some status) } }

/-! ### Arming (R386, R393) -/

/-- An epoch is armed in the step that satisfies its wait: the space check, then the armed pages. -/
def armEpoch (k : Nat) : Eff := .read fun s =>
  let w := s.wset k
  match w.epoch with
  | none => .skip
  | some e =>
    let pages := if e.kind = 0 then w.defn.pageList else w.defn.pageList.filter fun p => w.dirty.contains p
    if !s.spaceOk k pages.length w.nextEpoch then endEpoch k e 0x31
    else
      Eff.all
        [ setSetState k 3, putReg (rWhfSetProgress k) pages.length,
          onSet k fun w => { w with
            armed := pages, dirty := w.dirty.filter fun p => !pages.contains p,
            epoch := some { e with number := w.nextEpoch } } ]

/-- The sets of a basin that wait on a gate which has reached their value are armed. -/
def armOnGate (b g : Nat) : Eff := .read fun s =>
  Eff.each ((List.range 16).filter fun k => s.setState k == 2 && s.setOwner k == b) fun k => .read fun t =>
    match (t.wset k).epoch with
    | some e => if e.gate = g ∧ e.value ≤ t.gate b g ∧ (e.limit = 0 ∨ e.marks < e.limit) then armEpoch k else .skip
    | none => .skip

/-! ### Commit (R394) -/

/-- TAIL: the first LBA, in ring order from WPTR, that the manifest in META references on a drive index; none where it
references nothing there. -/
def State.tailOf (s : State) (k idx d manDrive manLba : Nat) : Option Nat :=
  let w := s.wset k
  let ring := s.areaLbas k d - 2
  let recs := (List.range w.defn.extents).map fun i => s.bytes (w.defn.metaAddr + w.defn.recordAt i) 32
  let lbas := (recs.filter fun r => getLe r 0 1 == idx && getLe r 1 1 != 0).map (fun r => getLe r 8 8)
    ++ (if manDrive = idx then [manLba] else [])
  lbas.foldl (fun best l =>
    match best with
    | none => some l
    | some m => if (l + ring - s.wptr k d) % ring < (m + ring - s.wptr k d) % ring then some l else some m) none

/-- The superblock of a drive index for the epoch being committed. -/
def State.sbFor (s : State) (k idx : Nat) (e : EpochRun) : List Byte :=
  let ds := s.setDrives k
  let d := ds.getD idx 0
  let w := s.wset k
  let man := s.bytes w.defn.metaAddr w.defn.manBytes
  superblock w.defn
    { index := idx, count := ds.length, epoch := e.number, kind := e.kind, areaLbas := s.areaLbas k d, wptr := s.wptr k d,
      tail := (s.tailOf k idx d (e.number % ds.length) e.manLba).getD (s.wptr k d), manDrive := e.number % ds.length,
      manLba := e.manLba, manCrc := getLe man 248 8, tick := e.tick, rtc := s.rtc, chip := s.fld rGlbRole 0 12,
      basin := s.setOwner k, set := k }

/-- The drives of a set are all READY with room for a command. -/
def State.drivesReady (s : State) (k : Nat) : Bool := (s.setDrives k).all fun d => s.drvState d == 1
/-- Room on every drive of a set. -/
def State.drivesRoom (s : State) (k : Nat) : Bool := (s.setDrives k).all fun d => s.drvRoom d

/-- The command identifier of a Flush or of a manifest or superblock transfer: bit 15, and the set (log entry 16). -/
def sideCid (k : Nat) : Nat := 0x8000 + k

/-- A Flush to every drive of the set. -/
def flushAll (k : Nat) : Eff := .read fun s =>
  Eff.each (s.setDrives k) fun d => submit d 0 0 0 0 (sideCid k) (.flush k)

/-- The next 64 KiB of the manifest goes out through the manifest buffer. -/
def writeManifest (k : Nat) (es : List EccEvent) (e : EpochRun) : Eff := .read fun s =>
  let w := s.wset k
  let ds := s.setDrives k
  let d := ds.getD (e.number % ds.length) 0
  let b := s.setOwner k
  let n := min 65536 (w.defn.manBytes - e.manPos)
  let a := w.defn.metaAddr + e.manPos
  Eff.all
    [ readSectors b (sectorsOf a n) es, actRead b (sectorsOf a n).length,
      .read fun t =>
        if t.anyPoison a n then failRun k 0x1B
        else
          let bs := padTo ((n + 4095) / 4096 * 4096) (t.bytes a n)
          Eff.all
            [ sramPut manBuf bs, onEpoch k (fun e => { e with manPos := e.manPos + n }),
              submit d 1 (t.areaStart k d + e.manLba + e.manPos / 4096) (bs.length / 4096) manBuf (sideCid k) (.manifest k) ] ]

/-- A write of META for a running epoch: poison that it covers only in part ends the epoch POISON (R154). -/
def metaPut (k a : Nat) (bs : List Byte) (es : List EccEvent) : Eff := .read fun s => Eff.all
  [ rmwErrors a bs.length es, actWrite (s.setOwner k) (sectorsOf a bs.length).length,
    .read fun t => .andThen (Eff.when (t.partialPoison a bs) (failRun k 0x1B)) (writeHbm a bs) ]

/-- The commit begins: the manifest's EPOCH and MAN_CRC are set in META, and its LBAs are taken. -/
def beginCommit (k : Nat) (es : List EccEvent) (e : EpochRun) : Eff := .read fun s =>
  let w := s.wset k
  let ds := s.setDrives k
  let d := ds.getD (e.number % ds.length) 0
  let man := patch (s.bytes w.defn.metaAddr w.defn.manBytes) 16 (leBytes 8 e.number)
  let lba := s.runAt k d w.defn.manLbas
  Eff.all
    [ setSetState k 4, onWhf (fun x => { x with manifest := some k }),
      metaPut k (w.defn.metaAddr + 16) (leBytes 8 e.number) es,
      metaPut k (w.defn.metaAddr + 248) (leBytes 8 (manCrc man w.defn.manBytes)) es, setWptr k d (lba + w.defn.manLbas),
      onEpoch k (fun e => { e with stage := 1, manPos := 0, manLba := lba }),
      .read fun t => match (t.wset k).epoch with
        | some e => Eff.when e.fail.isNone (writeManifest k es e)
        | none => .skip ]

/-- Commit step 5 (R394): the epoch is committed. -/
def committed (k : Nat) (e : EpochRun) : Eff := .read fun s =>
  let ds := s.setDrives k
  let tails := (List.range ds.length).map fun i =>
    (ds.getD i 0, s.tailOf k i (ds.getD i 0) (e.number % ds.length) e.manLba)
  Eff.all
    [ putReg (rWhfSetEpoch k) e.number, putReg (rWhfSetCommitTick k) e.tick, putBit (rWhfSetState k) 3 false,
      setLastStatus k 0, releaseManifest k,
      Eff.each tails fun p => setTail k p.1 (p.2.getD (s.wptr k p.1)),
      onSet k (fun w => { w with
        epoch := none, nextEpoch := e.number + 1, stalled := [],
        refs := (tails.filter fun p => p.2.isSome).map (·.1),
        committed := tails.foldl (fun m p => mput m p.1 (s.wptr k p.1, p.2.getD (s.wptr k p.1))) w.committed }),
      setIdle k, endEntry e.posted e.q 0 (e.number % 2 ^ 32) ]

/-- An epoch goes on as far as it can without a drive completion. -/
def advanceEpoch (k : Nat) (es : List EccEvent) (e : EpochRun) : Eff := .read fun s =>
  let w := s.wset k
  if s.setBusy k || s.setState k == 2 then .skip
  else match e.fail with
    | some st => endEpoch k e st
    | none =>
      if !s.drivesReady k then .andThen (failRun k 0x32) (endEpoch k e 0x32)
      else if !s.drivesRoom k then .skip
      else if e.stage = 0 then
        (if w.armed.isEmpty && w.copies.isEmpty && s.dev.whf.manifest.isNone then beginCommit k es e else .skip)
      else if e.stage = 1 then
        (if e.manPos < w.defn.manBytes then writeManifest k es e
         else .andThen (onEpoch k fun e => { e with stage := 2 }) (flushAll k))
      else if e.stage = 2 then
        Eff.all
          [ onEpoch k (fun e => { e with stage := 3, tick := s.now, issued := true }),
            .read fun t =>
              let ds := t.setDrives k
              let e := { e with tick := t.now }
              Eff.each (List.range ds.length) fun i =>
                .andThen (sramPut (sbBuf i) (t.sbFor k i e))
                  (submit (ds.getD i 0) 1 (t.areaStart k (ds.getD i 0) + e.number % 2) 1 (sbBuf i) (sideCid k)
                    (.superblock k)) ]
      else if e.stage = 3 then .andThen (onEpoch k fun e => { e with stage := 4 }) (flushAll k)
      else committed k e

end Sys2Proof.Machine
end

