-- ==== Sys2Proof/Machine/WharfRestore.lean ====
section
/-!
DEFINITION. Defining a set, restoring into it, and the commands of the wharf (chapter 11).
-/
namespace Sys2Proof.Machine

/-! ### DEFINE_SET (R376, R377) -/

/-- The tensor of a set-list entry. -/
def setTensor (e : List Byte) : TDesc × WTensor :=
  let t := parseTensor (getLe e 0 64)
  (t, { addr := t.addr, etype := t.etype, ndim := t.ndim, sizes := t.sizes, gid := getLe e 64 8,
        gsize := (List.range 4).map fun k => getLe e (72 + 4 * k) 4,
        boxOff := (List.range 4).map fun k => getLe e (88 + 4 * k) 4 })

/-- Check 4 of R376 for one entry. -/
def setEntryOk (e : List Byte) : Bool :=
  let p := setTensor e
  p.1.valid && decide (p.1.etype ≤ 2) && !p.1.compressed && p.1.dense && p.1.addr % 65536 == 0 && p.2.bytes % 4096 == 0
    && (List.range 4).all fun k =>
        if k < p.1.ndim then decide (p.2.boxOff.getD k 0 + p.1.size k ≤ p.2.gsize.getD k 0)
        else p.2.gsize.getD k 0 == 1 && p.2.boxOff.getD k 0 == 0

/-- The 64 KiB page ranges that a definition occupies: tensors, copy-on-write area and META. -/
def SetDef.ranges (d : SetDef) : List (Nat × Nat) :=
  (d.tensors.map fun t => (t.addr / 65536, t.addr / 65536 + t.extents))
    ++ [(d.cowAddr / 65536, (d.cowAddr + 65536 * d.cowPages + 65535) / 65536),
        (d.metaAddr / 65536, (d.metaAddr + d.manBytes + 65535) / 65536)]

/-- No two page ranges share a page. -/
def rangesApart : List (Nat × Nat) → List (Nat × Nat) → Bool
  | [], _ => true
  | r :: rs, others =>
    ((rs ++ others).all fun q => decide (r.2 ≤ q.1 ∨ q.2 ≤ r.1)) && rangesApart rs others

/-- The ranges of every other DEFINED set. -/
def State.otherRanges (s : State) (k : Nat) : List (Nat × Nat) :=
  ((List.range 16).filter fun j => j != k && s.setState j != 0).flatMap fun j => (s.wset j).defn.ranges

/-- A definition takes force (R377). `rings` holds the WPTR and TAIL of each drive slot, `next` the next epoch's number. Poison that the
write of META covers only in part ends the entry POISON with the set as it was (R154). -/
def installDef (k q : Nat) (d : SetDef) (rings : List (Nat × Nat × Nat)) (next : Nat) (es : List EccEvent) : Eff := .read fun s =>
  let b := s.setOwner k
  let m := metaInit d
  .andThen (rmwErrors d.metaAddr m.length es) (.read fun t =>
  if t.partialPoison d.metaAddr m then
    .andThen (onSet k fun w => { w with adopt := none }) (finishCurrent q { status := 0x1B })
  else Eff.all
    [ wakeNode 5, putReg (rWhfSetState k) (1 + 8 + b2n d.compress * 2 ^ 12 + d.table * 2 ^ 13),
      Eff.each rings fun r => .andThen (setWptr k r.1 r.2.1) (setTail k r.1 r.2.2),
      actWrite b (sectorsOf d.metaAddr m.length).length, writeHbm d.metaAddr m,
      onSet k (fun _ => {
        defn := d, dirty := d.pageList.foldl sins [], nextEpoch := next,
        committed := rings.foldl (fun mp r => mput mp r.1 (r.2.1, r.2.2)) [],
        refs := (rings.filter fun r => r.2.1 != r.2.2).map (·.1) }),
      finishCurrent q { status := 0, detail := d.pageList.length } ])

/-- Checks 4 to 8 of R376, over the set list's bytes. -/
def defineChecked (q k : Nat) (e : Entry) (list : List Byte) (es : List EccEvent) : Eff := .read fun s =>
  let b := s.qOwner q
  let T := e.get 32 2
  let entries := (List.range T).map fun i => (list.drop (128 * (i + 1))).take 128
  let ts := entries.map fun x => (setTensor x).2
  let fl := e.get 18 1
  let d : SetDef :=
    { archiveId := getLe list 0 16, user := (list.drop 16).take 64, tensors := ts, metaAddr := e.get 40 6,
      cowAddr := e.get 48 6, cowPages := e.get 56 4, compress := bitOf fl 0, table := if bitOf fl 0 then e.get 17 1 else 0,
      lens := if bitOf fl 0 then s.tblLens (e.get 17 1) else [] }
  let bad (st : Nat) : Eff := finishCurrent q { status := st }
  if getLe list 80 48 ≠ 0 || entries.any (fun x => getLe x 104 24 != 0) then bad 0x15
  else if !entries.all setEntryOk || !decide (ts.map (·.gid)).Nodup then bad 0x11
  else if !rangesApart d.ranges (s.otherRanges k) then bad 0x14
  else if d.compress && !(s.tblOwned b d.table && s.tblState d.table == 1) then bad 0x21
  else if d.cowAddr % 65536 ≠ 0 then bad 0x15
  else
    checkUnits b (s.qAsker q)
      ((ts.map fun t => ⟨t.addr, t.addr + t.bytes - 1, rightR + rightW⟩)
        ++ [⟨d.metaAddr, d.metaAddr + d.manBytes - 1, rightR + rightW⟩,
            ⟨d.cowAddr, d.cowAddr + 65536 * d.cowPages - 1, rightR + rightW⟩])
      bad
      (if !inHbm (d.metaAddr + d.manBytes - 1) || !inHbm (d.cowAddr + 65536 * d.cowPages - 1) then bad 0x15
       else if bitOf fl 1 then
        if s.drivesReady k then
          onSet k fun w => { w with
            adopt := some { q := q, defn := d, toRead := (List.range (s.setDrives k).length).flatMap fun i => [(i, 0), (i, 1)] } }
        else bad 0x33
       else installDef k q d ((s.setDrives k).map fun x => (x, 2, 2)) 1 es)

/-- DEFINE_SET up to the reading of the set list. A list, META or copy-on-write area that the lock check passes and that is not HBM is a bad
parameter (log entry 95). -/
def defineSet (q : Nat) (es : List EccEvent) (e : Entry) : Eff := .read fun s =>
  let b := s.qOwner q
  let k := e.get 16 1
  let T := e.get 32 2
  let a := e.get 24 6
  let n := 128 * (T + 1)
  let bad (st : Nat) : Eff := finishCurrent q { status := st }
  if 15 < k || !s.setPresent k || s.setOwner k != b || decide (1 < s.setState k) || (s.wset k).adopt.isSome
      || (s.wset k).undo then bad 0x30
  else if bitsOf (e.get 18 1) 2 6 ≠ 0 || e.get 19 5 ≠ 0 || e.get 30 2 ≠ 0 || e.get 34 6 ≠ 0 || e.get 46 2 ≠ 0
      || e.get 54 2 ≠ 0 || e.get 60 4 ≠ 0 || T = 0 || decide (4096 < T) || e.get 56 4 = 0 || decide (4096 < e.get 56 4) then bad 0x15
  else
    checkUnits b (s.qAsker q) [⟨a, a + n - 1, rightR⟩] bad
      (if !inHbm (a + n - 1) then bad 0x15
       else Eff.all
        [ readSectors b (sectorsOf a n) es, actRead b (sectorsOf a n).length,
          .read fun t => if t.anyPoison a n then bad 0x1B else defineChecked q k e (t.bytes a n) es ])

/-- An ADOPT has read its superblocks (R376 step 8, R377). -/
def adoptDone (k : Nat) (a : AdoptRun) : Eff := .read fun s =>
  let ds := s.setDrives k
  let best (i : Nat) : Option (List Byte) :=
    (a.supers.filter fun x => x.source == i && sbValid x.bytes && getLe x.bytes 16 16 == a.defn.archiveId).foldl
      (fun m x => match m with
        | none => some x.bytes
        | some y => if sbEpoch y < sbEpoch x.bytes then some x.bytes else some y) none
  let sbs := (List.range ds.length).map best
  if sbs.any (·.isNone) then
    .andThen (onSet k fun w => { w with adopt := none }) (endEntry a.posted a.q 0x33 0)
  else
    let rings := (List.range ds.length).map fun i =>
      let sb := (sbs.getD i none).getD []
      (ds.getD i 0, getLe sb 56 8, getLe sb 64 8)
    let top := (sbs.map fun x => sbEpoch (x.getD [])).foldl max 0
    installDef k a.q a.defn rings (top + 1) []

/-- An ADOPT goes on: one superblock read at a time, with the manifest buffer held. -/
def advanceAdopt (k : Nat) (a : AdoptRun) : Eff := .read fun s =>
  if s.setBusy k then .skip
  else match a.fail with
    | some st => Eff.all [releaseManifest k, onSet k (fun w => { w with adopt := none }),
        Eff.when (s.wset k).undo (setIdle k), endEntry a.posted a.q st 0]
    | none =>
      match a.toRead with
      | [] => .andThen (releaseManifest k) (adoptDone k a)
      | (i, w) :: rest =>
        let d := (s.setDrives k).getD i 0
        if s.drvState d != 1 then failRun k 0x32
        else if !s.drvRoom d || (s.dev.whf.manifest.isSome && s.dev.whf.manifest != some k) then .skip
        else Eff.all
          [ onWhf (fun x => { x with manifest := some k }),
            onSet k (fun x => { x with adopt := some { a with toRead := rest } }),
            submit d 2 (s.areaStart k d + w) 1 (sbBuf (2 * i + w)) (sideCid k) (.readSuper k i w) ]

/-! ### RESTORE (R400 to R404) -/

/-- A RESTORE of a set of its basin that a check ends sets NEED_FULL as every RESTORE does (R404). -/
def restoreRefused (q k status : Nat) : Eff :=
  .andThen (putBit (rWhfSetState k) 3 true) (finishCurrent q { status := status })

/-- RESTORE's checks (R400). -/
def restoreChecked (q k : Nat) (e : Entry) (list : List Byte) : Eff := .read fun s =>
  let n := e.get 17 1
  let srcs := (List.range n).map fun i => (getLe list (16 * i) 1, getLe list (16 * i + 8) 8)
  let bad (st : Nat) : Eff := restoreRefused q k st
  if (List.range n).any (fun i => getLe list (16 * i + 1) 7 != 0)
      || srcs.any (fun p => decide (7 < p.1) || !s.lbaAllowed k p.1 p.2 2 || s.drvState p.1 != 1) then bad 0x15
  else
    .andThen (setSetState k 5) (onSet k fun w => { w with
      restore := some {
        q := q, flags := e.get 18 1, named := e.get 24 8, sources := srcs, scratch := e.get 40 6,
        toRead := (List.range n).flatMap fun i => [(i, 0), (i, 1)] } })

/-- The bytes of a set's scratch area: one bit per element, each tensor's bits from a multiple of 8 B (R400). -/
def scratchBytes (ts : List WTensor) : Nat := (ts.map fun t => (boxCount t.sizes + 63) / 64 * 8).sum

/-- The offset of a tensor's bits in the scratch area. -/
def scratchAt (ts : List WTensor) (i : Nat) : Nat := scratchBytes (ts.take i)

/-- RESTORE up to the reading of the source list. -/
def restoreSet (q : Nat) (es : List EccEvent) (e : Entry) : Eff := .read fun s =>
  let b := s.qOwner q
  let k := e.get 16 1
  let n := e.get 17 1
  let a := e.get 32 6
  let sc := e.get 40 6
  let len := scratchBytes (s.wset k).defn.tensors
  let bad (st : Nat) : Eff := restoreRefused q k st
  if 15 < k || !s.setPresent k || s.setOwner k != b then finishCurrent q { status := 0x30 }
  else if s.setState k != 1 || (s.wset k).adopt.isSome || (s.wset k).undo then bad 0x30
  else if bitsOf (e.get 18 1) 3 5 ≠ 0 || e.get 19 5 ≠ 0 || e.get 38 2 ≠ 0 || e.get 46 18 ≠ 0 || n = 0 || decide (8 < n) then bad 0x15
  else
    checkUnits b (s.qAsker q) [⟨a, a + 16 * n - 1, rightR⟩, ⟨sc, sc + len - 1, rightR + rightW⟩] bad
      (if !inHbm (a + 16 * n - 1) || !inHbm (sc + len - 1) then bad 0x15
       else Eff.all
        [ readSectors b (sectorsOf a (16 * n)) es, actRead b (sectorsOf a (16 * n)).length,
          .read fun t => if t.anyPoison a (16 * n) then bad 0x1B else restoreChecked q k e (t.bytes a (16 * n)) ])

/-- A superblock counts for a restore (R401): valid, of the right count and index, its ARCHIVE_ID agreeing across sources. -/
def sbCounts (n : Nat) (x : Super) : Bool := sbValid x.bytes && getLe x.bytes 11 1 == n && getLe x.bytes 10 1 == x.source

/-- The superblocks of candidate epochs (R401; log entry 16 on agreement across sources). -/
def RestoreRun.candidates (r : RestoreRun) : List Super :=
  let ok := r.supers.filter (sbCounts r.sources.length)
  ok.filter fun x => (List.range r.sources.length).all fun i =>
    let there := ok.filter fun y => y.source == i
    there.isEmpty || there.any fun y => getLe y.bytes 16 16 == getLe x.bytes 16 16

/-- A list of numbers, falling, each once. -/
def falling (l : List Nat) : List Nat := (l.foldl sins []).reverse

/-- A source's reads stay within its AREA_LBAS and within the area or grant that holds its first two LBAs (R400, R401). -/
def State.sourceRange (s : State) (k : Nat) (r : RestoreRun) (i rel n : Nat) : Bool :=
  let p := r.sources.getD i (8, 0)
  let sbs := r.supers.filter fun x => x.source == i && sbValid x.bytes
  let area := (sbs.map fun x => getLe x.bytes 48 8).foldl max 0
  decide (i < r.sources.length) && decide (rel + n ≤ area)
    && (s.lbaRanges k p.1).any fun g => lbaWithin p.2 2 g && lbaWithin (p.2 + rel) n g

/-- A manifest verifies (R401). -/
def manifestOk (m : List Byte) (bytes epoch : Nat) : Bool :=
  m.take 8 == manMagic && getLe m 8 2 == 0x0100 && getLe m 248 8 == manCrc m bytes && getLe m 16 8 == epoch
    && (getLe m 10 1 == 0 || lensValid (((m.drop 256).take 256).map BitVec.toNat))

/-- A tensor record of a manifest. -/
structure ManTensor where
  gid : Nat
  etype : Nat
  ndim : Nat
  first : Nat
  gsize : List Nat
  boxOff : List Nat
  sizes : List Nat

/-- The tensor records of a manifest. -/
def manTensors (m : List Byte) : List ManTensor :=
  let base := 256 + 256 * getLe m 10 1
  (List.range (getLe m 12 4)).map fun i =>
    let x := (m.drop (base + 64 * i)).take 64
    let four (at' : Nat) : List Nat := (List.range 4).map fun k => getLe x (at' + 4 * k) 4
    { gid := getLe x 0 8, etype := getLe x 8 1, ndim := getLe x 9 1, first := getLe x 12 4, gsize := four 16,
      boxOff := four 32, sizes := four 48 }

/-- The extent record of an index in a manifest. -/
def manExtent (m : List Byte) (i : Nat) : List Byte :=
  (m.drop (256 + 256 * getLe m 10 1 + 64 * getLe m 12 4 + 32 * i)).take 32

/-- The element size of a record. -/
def ManTensor.es (r : ManTensor) : Nat := if r.etype = 0 then 2 else 4
/-- The elements of an extent of a record: first and count. -/
def ManTensor.elems (r : ManTensor) (ext : Nat) : Nat × Nat :=
  let per := 65536 / r.es
  (ext * per, min per (boxCount r.sizes - ext * per))

/-- The canonical index in a set tensor of a record's element, where it lies in the tensor's box (R402). -/
def mapElement (r : ManTensor) (t : WTensor) (j : Nat) : Option Nat :=
  let a := coords r.sizes j
  let g := (List.range 4).map fun k => a.getD k 0 + r.boxOff.getD k 0
  if (List.range 4).all fun k => decide (t.boxOff.getD k 0 ≤ g.getD k 0 ∧ g.getD k 0 < t.boxOff.getD k 0 + t.sizes.getD k 1) then
    some (canonIndex t.sizes ((List.range 4).map fun k => g.getD k 0 - t.boxOff.getD k 0))
  else none

/-- The extents that a restore applies, in order (R402). -/
def wantedExtents (m : List Byte) (ts : List WTensor) : List WantExtent :=
  let rs := manTensors m
  (List.range rs.length).flatMap fun ri =>
    match rs[ri]? with
    | none => []
    | some r =>
      (List.range ts.length).flatMap fun ti =>
        match ts[ti]? with
        | none => []
        | some t =>
          if t.gid ≠ r.gid then []
          else
            ((List.range ((boxCount r.sizes * r.es + 65535) / 65536)).filter fun x =>
              (List.range (r.elems x).2).any fun j => (mapElement r t ((r.elems x).1 + j)).isSome).map fun x =>
                let e := manExtent m (r.first + x)
                { record := ri, tensor := ti, ext := x, drive := getLe e 0 1, lbas := getLe e 1 1, stored := getLe e 4 4,
                  lba := getLe e 8 8, epoch := getLe e 16 8, crc := getLe e 24 8 }

/-- The shapes of matching records agree (R402). -/
def shapesAgree (m : List Byte) (ts : List WTensor) : Bool :=
  (manTensors m).all fun r => ts.all fun t =>
    t.gid != r.gid || (t.etype == r.etype && t.ndim == r.ndim && t.gsize == r.gsize)

/-- An extent may be applied (R403). -/
def extentOk (r : ManTensor) (w : WantExtent) (x : List Byte) : Bool :=
  let el := r.elems w.ext
  let units := (el.2 * r.es + 4095) / 4096
  let sl := extentSlens x
  x.take 4 == exMagic && getLe x 4 1 == 1 && getLe x 5 1 == r.etype && getLe x 8 4 == w.record && getLe x 12 4 == w.ext
    && getLe x 16 8 == w.epoch && getLe x 24 8 == el.1 && getLe x 32 4 == el.2
    && (sl.take units).all (fun n => n == 4096 || (n % 32 == 0 && decide (288 ≤ n ∧ n ≤ 4064))) && (sl.drop units).all (· == 0)
    && 128 + sl.sum == w.stored && decide (w.stored ≤ 4096 * w.lbas)
    && getLe x 120 8 == w.crc && crc64 (x.take 120 ++ (x.drop 128).take (w.stored - 128)) == w.crc

/-- The elements' bytes that an extent's payload holds: each unit expanded with the manifest's table (R402). -/
def extentData (lens : List Nat) : List Nat → List Byte → List Byte
  | [], _ => []
  | 0 :: ns, p => extentData lens ns p
  | n :: ns, p =>
    let u := (p.take n).toArray
    (if n = 4096 then p.take 4096 else expand lens fun i => u.getD i 0#8) ++ extentData lens ns (p.drop n)

/-- Writes that follow one another in memory joined into runs, given newest first. -/
def joinRuns (ws : List (Nat × List Byte)) : List (Nat × List Byte) :=
  (ws.foldl (fun acc w =>
    match acc with
    | (a, bs) :: rest => if a + bs.length = w.1 then (a, bs ++ w.2) :: rest else w :: acc
    | [] => [w]) []).reverse

/-- An extent that has been read and verifies is applied: elements and scratch bits (R402). Its writes wait for the copies that they need
(R389), and one that covers poison only in part ends the restore POISON (R154). -/
def applyExtent (k : Nat) (rr : RestoreRun) (w : WantExtent) (x : List Byte) (buf : Nat) (es : List EccEvent) : Eff := .read fun s =>
  let ts := (s.wset k).defn.tensors
  let b := s.setOwner k
  let taken : Eff := .andThen (onRestore k fun r => { r with got := none }) (freeBuffer buf)
  match (manTensors rr.man)[w.record]?, ts[w.tensor]? with
  | some r, some t =>
    if !extentOk r w x then Eff.all [taken, countAt (0xE0 + b) 0, failRun k 0x33]
    else
      let data := extentData (if getLe rr.man 10 1 = 0 then [] else ((rr.man.drop 256).take 256).map BitVec.toNat)
        (extentSlens x) (x.drop 128)
      let el := r.elems w.ext
      let hits := (List.range el.2).filterMap fun j =>
        (mapElement r t (el.1 + j)).map fun l => (l, (data.drop (j * r.es)).take r.es)
      let runs := joinRuns (hits.map fun h => (t.addr + r.es * h.1, h.2))
      let sc := rr.scratch + scratchAt ts w.tensor
      let bits := hits.foldl (fun (m : Map Nat) h => mput m (sc + h.1 / 8) (mget 0 m (sc + h.1 / 8) ||| 2 ^ (h.1 % 8))) []
      let marks := joinRuns (bits.map fun p => (p.1, [s.byte p.1 ||| BitVec.ofNat 8 p.2]))
      let touched := (runs.flatMap fun p => sectorsOf p.1 p.2.length).foldl sins []
      let scs := (bits.map fun p => sectorOf p.1).foldl sins []
      if (runs ++ marks).any fun p => s.cowWait p.1 p.2.length then .skip
      else Eff.all
        [ taken, Eff.each (runs ++ marks) fun p => rmwErrors p.1 p.2.length es, actWrite b (touched.length + scs.length),
          .read fun u => Eff.when ((runs ++ marks).any fun p => u.partialPoison p.1 p.2) (failRun k 0x1B),
          Eff.each (runs ++ marks) fun p => writeHbm p.1 p.2,
          onRestore k fun r => { r with want := r.want.drop 1, applied := r.applied + 1 } ]
  | _, _ => .andThen taken (failRun k 0x33)

/-- Every scratch bit of every tensor is 1 (R404). -/
def State.scratchFull (s : State) (scratch : Nat) (ts : List WTensor) : Bool :=
  (List.range ts.length).all fun i =>
    match ts[i]? with
    | none => true
    | some t => (List.range (boxCount t.sizes)).all fun l => bitOf (s.byte (scratch + scratchAt ts i + l / 8)).toNat (l % 8)

/-- The manifest has verified: the scratch area is zeroed with CLEAR, once the copies that this needs are made (R389), and the extents to apply
are listed (R402). -/
def beginExtents (k : Nat) (r : RestoreRun) (es : List EccEvent) : Eff := .read fun s =>
  let ts := (s.wset k).defn.tensors
  let b := s.setOwner k
  let n := scratchBytes ts
  if bitOf r.flags 0 && s.cowWait r.scratch n then .skip
  else Eff.all
    [ Eff.when (bitOf r.flags 0) (Eff.all
        [ rmwErrors r.scratch n es, actWrite b (sectorsOf r.scratch n).length,
          .read fun t => .andThen (Eff.when (t.partialPoison r.scratch (zeros n)) (failRun k 0x1B)) (writeHbm r.scratch (zeros n)) ]),
      releaseManifest k,
      if shapesAgree r.man ts then onRestore k fun r => { r with stage := 2, want := wantedExtents r.man ts }
      else failRun k 0x12 ]

/-- The end of a restore that has applied its extents: with FINAL the scratch area is read whole (R404). -/
def finishRestore (k : Nat) (r : RestoreRun) (es : List EccEvent) : Eff := .read fun s =>
  let ts := (s.wset k).defn.tensors
  let n := scratchBytes ts
  if !bitOf r.flags 1 then endRestore k r 0
  else Eff.all
    [ readSectors (s.setOwner k) (sectorsOf r.scratch n) es, actRead (s.setOwner k) (sectorsOf r.scratch n).length,
      .read fun t => endRestore k r (if t.anyPoison r.scratch n then 0x1B else if t.scratchFull r.scratch ts then 0 else 0x34) ]

/-- A restore goes on as far as it can without a drive completion. -/
def advanceRestore (k : Nat) (es : List EccEvent) (r : RestoreRun) : Eff := .read fun s =>
  let b := s.setOwner k
  let archive : Eff := .andThen (countAt (0xE0 + b) 0) (failRun k 0x33)
  if s.setBusy k then .skip
  else match r.fail with
    | some st => endRestore k r st
    | none =>
      if r.sources.any fun p => s.drvState p.1 != 1 then failRun k 0x32
      else if r.stage = 0 then
        (match r.toRead with
         | (i, w) :: rest =>
           let p := r.sources.getD i (0, 0)
           if !s.drvRoom p.1 || (s.dev.whf.manifest.isSome && s.dev.whf.manifest != some k) then .skip
           else Eff.all
             [ onWhf (fun x => { x with manifest := some k }), onRestore k (fun r => { r with toRead := rest }),
               submit p.1 2 (p.2 + w) 1 (sbBuf (2 * i + w)) (sideCid k) (.readSuper k i w) ]
         | [] =>
           let all := falling (r.candidates.map fun x => sbEpoch x.bytes)
           onRestore k fun r => { r with
             stage := 1, cands := if bitOf r.flags 2 then all.filter (· == r.named) else all })
      else if r.stage = 1 then
        (match r.cands with
         | [] => archive
         | c :: cs =>
           let next : Eff := onRestore k fun r => { r with cands := cs, manSb := [], man := [] }
           match r.manSb with
           | [] =>
             (match r.candidates.find? fun x => sbEpoch x.bytes == c with
              | some x => onRestore k fun r => { r with manSb := x.bytes, man := [] }
              | none => next)
           | _ =>
             let i := getLe r.manSb 72 1
             let lbas := getLe r.manSb 76 4
             let lba := getLe r.manSb 80 8
             let got := r.man.length / 4096
             if !s.sourceRange k r i lba lbas then next
             else if got < lbas then
               let p := r.sources.getD i (0, 0)
               let n := min 16 (lbas - got)
               if s.drvRoom p.1 then submit p.1 2 (p.2 + lba + got) n manBuf (sideCid k) (.readManifest k) else .skip
             else if manifestOk r.man (getLe r.manSb 88 8) c then beginExtents k r es
             else next)
      else
        match r.want, r.got with
        | [], _ => finishRestore k r es
        | w :: _, some (x, i) => applyExtent k r w x i es
        | w :: _, none =>
          let p := r.sources.getD w.drive (0, 0)
          if w.lbas = 0 || decide (17 < w.lbas) || !s.sourceRange k r w.drive w.lba w.lbas then archive
          else match s.freeBuf with
            | some i =>
              if s.drvRoom p.1 then
                .andThen (takeBuf i) (submit p.1 2 (p.2 + w.lba) w.lbas (bufAt i) i (.readExtent k i))
              else .skip
            | none => .skip

/-! ### The engine goes on -/

/-- What runs on a set goes on. -/
def advanceSet (es : List EccEvent) (k : Nat) : Eff := .read fun s =>
  let w := s.wset k
  match w.epoch, w.restore, w.adopt with
  | some e, _, _ => advanceEpoch k es e
  | _, some r, _ => advanceRestore k es r
  | _, _, some a => advanceAdopt k a
  | _, _, _ => if w.undo && !s.setBusy k then setIdle k else .skip

/-- Every set goes on as far as it can without a drive completion; what its accesses of HBM find. -/
def pumpWith (es : List EccEvent) : Eff := Eff.each (List.range 40) fun _ => Eff.each (List.range 16) (advanceSet es)

/-- The same where no access finds an error. -/
abbrev pumpWharf : Eff := pumpWith []

/-! ### EXTENT_STAGED and COW_COPY (R389 to R392) -/

/-- The units of an extent as stored: with COMPRESS coded under the set's table, otherwise raw (R391). -/
def setUnits (d : SetDef) (bs : List Byte) : List (Bool × List Byte) :=
  (chunks 4096 (bs.length + 1) bs).map fun u =>
    if d.compress then compress { table := d.table, lens := d.lens, surveying := false } u else (false, u)

/-- A unit of a set with COMPRESS goes through the compressor as a use of its table by the basin (Table 7.2): the block counts, and it adds to an
active survey of the table (R230). -/
def setUnitCoded (b : Nat) (d : SetDef) (u : Bool × List Byte) (bs : List Byte) : Eff :=
  Eff.when d.compress (.andThen (bumpReg (rCdcBlocks b (if u.1 then 0 else 1)) 64 1)
    (surveyUnit b { table := d.table, lens := d.lens, surveying := false } bs))

/-- EXTENT_STAGED (R391, R392): the next page, copies first, is read whole, formed into an extent and sent to its drive. -/
def stageExtent (k : Nat) (es : List EccEvent) : Eff := .read fun s =>
  let w := s.wset k
  match w.epoch with
  | none => .skip
  | some e =>
    let ds := s.setDrives k
    let d := ds.getD (e.next % ds.length) 0
    let pick : Option (Nat × Nat) := match w.copies, w.armed with
      | (p, c) :: _, _ => some (p, w.defn.cowAddr + 65536 * c)
      | [], p :: _ => some (p, 65536 * p)
      | [], [] => none
    match pick, s.freeBuf with
    | some (p, a), some i =>
      match pageExtent p 0 w.defn.tensors with
      | none => .skip
      | some (ti, t, ext) =>
        let b := s.setOwner k
        let n := 4096 * t.units ext
        let rec' := (firstExtents 0 w.defn.tensors).getD ti 0
        if s.setState k != 3 || e.fail.isSome then .skip
        else if s.drvState d != 1 then .andThen (failRun k 0x32) pumpWharf
        else if !s.drvRoom d then .skip
        else
          Eff.all
            [ readSectors b (sectorsOf a 65536) es, actRead b 2048,
              .read fun u =>
                if u.anyPoison a 65536 then .andThen (failRun k 0x1B) pumpWharf
                else if (List.range 16).any (fun j => u.coded (a / 4096 + j)) then .andThen (failRun k 0x35) pumpWharf
                else
                  let units := setUnits w.defn (u.bytes a n)
                  let x := extentBytes t ti ext e.number units
                  let lbas := x.length / 4096
                  let lba := u.runAt k d lbas
                  Eff.all
                    [ onSet k (fun w => match w.copies with
                        | _ :: cs => { w with copies := cs }
                        | [] => { w with armed := w.armed.drop 1 }),
                      onEpoch k (fun e => { e with next := e.next + 1 }),
                      Eff.each (units.zip (chunks 4096 17 (u.bytes a n))) fun p => setUnitCoded b w.defn p.1 p.2,
                      takeBuf i, sramPut (bufAt i) x, setWptr k d (lba + lbas),
                      submit d 1 (u.areaStart k d + lba) lbas (bufAt i) i (.extent k p ti (rec' + ext) i a) ] ]
    | _, _ => .skip

/-- The lowest free copy-on-write page of a set. -/
def WSet.freeCow (w : WSet) : Option Nat :=
  (List.range w.defn.cowPages).find? fun c => !w.copies.any fun p => p.2 == c

/-- COW_COPY (R389, R390): an armed page's 64 KiB and forms are copied to a free copy page, or its write waits for one. -/
def cowCopy (k page : Nat) (es : List EccEvent) : Eff := .read fun s =>
  let w := s.wset k
  let b := s.setOwner k
  if !w.armed.contains page then .skip
  else match w.freeCow with
    | none =>
      if w.stalled.contains page then .skip
      else .andThen (onSet k fun w => { w with stalled := sins w.stalled page }) (bumpFld (rWhfSetStalls k) 32 32 1)
    | some c =>
      let src := 65536 * page
      let dst := w.defn.cowAddr + 65536 * c
      Eff.all
        [ readSectors b (sectorsOf src 65536) es, actRead b 2048,
          .read fun t =>
            if t.anyPoison src 65536 then .andThen (failRun k 0x1B) pumpWharf
            else Eff.all
              [ actWrite b 2048, writeHbm dst (t.bytes src 65536),
                Eff.each (List.range 16) (fun j => setForm (dst / 4096 + j) (t.coded (src / 4096 + j))),
                bumpFld (rWhfSetStalls k) 0 32 1,
                onSet k fun w => { w with
                  armed := w.armed.filter fun p => p != page, copies := w.copies ++ [(page, c)],
                  stalled := sdel w.stalled page }, pumpWharf ] ]

/-! ### Drive completions (R383, R384) -/

/-- A drive command has completed successfully. The record of an extent of a set that is to become UNDEFINED, or whose basin is not OPEN, is
not written (R138, R166). -/
def cmdDone (d : Nat) (c : DrvCmd) (es : List EccEvent) : Eff := .read fun s =>
  match c.role with
  | .extent k _ _ rec i _ =>
    let w := s.wset k
    let x := s.sram c.buf (4096 * c.nlb)
    let r := extentRecord ((s.setDrives k).findIdx (· == d)) (c.slba - s.areaStart k d) x
    .andThen (freeBuffer i) (Eff.when (!w.undo && s.isOpen (s.setOwner k))
      (.andThen (metaPut k (w.defn.metaAddr + w.defn.recordAt rec) r es) (bumpFld (rWhfSetProgress k) 32 32 1)))
  | .readSuper k i w =>
    let x : Super := { source := i, bytes := s.sram (sbBuf (2 * i + w)) 4096 }
    onSet k fun w => { w with
                              restore := w.restore.map (fun r => { r with supers := r.supers ++ [x] }),
                              adopt := w.adopt.map fun a => { a with supers := a.supers ++ [x] } }
  | .readManifest k => onRestore k fun r => { r with man := r.man ++ s.sram manBuf (4096 * c.nlb) }
  | .readExtent k i =>
    match (s.wset k).restore with
    | some r =>
      if r.fail.isNone then onRestore k fun r => { r with got := some (s.sram c.buf (4096 * c.nlb), i) } else freeBuffer i
    | none => freeBuffer i
  | _ => .skip

/-- A drive command has failed for the third time. -/
def cmdFailed (c : DrvCmd) : Eff :=
  .andThen (match c.role.buffer with | some i => freeBuffer i | none => .skip) (failRun c.role.set 0x32)

/-- NVME_COMPLETION (R383): the next completion of a drive, by phase tag, and what the accesses of HBM that follow find. -/
def nvmeCompletion (d : Nat) (es : List EccEvent) : Eff := .read fun s =>
  let k := s.drive d
  let n := s.drvDepth d
  let x := s.sram (0x880000 + 0x10000 * d + 16 * k.cqHead) 16
  let dw3 := getLe x 12 4
  let head := (k.cqHead + 1) % n
  if s.drvState d != 1 || bitOf dw3 16 != k.phase then .skip
  else
    let cid := bitsOf dw3 0 16
    let ok := bitsOf dw3 17 15 == 0
    let drop : Eff := .andThen (onDrive d fun k => { k with cmds := k.cmds.eraseP fun c => c.cid == cid }) (showDrive d)
    let err : Eff := .andThen (countAt 0x23 d) (bumpFld (rWhfDrvErrors d) 0 32 1)
    Eff.all
      [ onDrive d (fun k => { k with
          cqHead := head, phase := if head = 0 then !k.phase else k.phase, sqHead := bitsOf (getLe x 8 4) 0 16 % n }),
        driveDoorbell (rWhfDrvCqdb d) head,
        match k.cmds.find? fun c => c.cid == cid with
        | none => err
        | some c =>
          if ok && c.again then Eff.all [bumpReg (rWhfDrvDone d) 64 1, drop, placeCmd d { c with again := false, tick := s.now }]
          else if ok then Eff.all [bumpReg (rWhfDrvDone d) 64 1, drop, cmdDone d c es]
          else if c.sends < 3 then
            Eff.all [err, drop, bumpFld (rWhfDrvErrors d) 32 32 1, placeCmd d { c with sends := c.sends + 1, tick := s.now }]
          else Eff.all [err, drop, cmdFailed c],
        pumpWith es ]

/-- The users of a drive end DRIVE_ERROR; its commands are forgotten, their buffers quarantined (`keep`) or freed. -/
def dropDrive (d : Nat) (keep : Bool) : Eff := .read fun s =>
  let bufs := (s.drive d).cmds.filterMap fun c => c.role.buffer
  let users := (List.range 16).filter fun k =>
    let w := s.wset k
    (w.epoch.isSome && (s.setDrives k).contains d && s.setState k != 2) || (w.adopt.isSome && (s.setDrives k).contains d)
      || (match w.restore with | some r => r.sources.any fun p => p.1 == d | none => false)
  Eff.all
    [ onWhf (fun w => { w with
        inUse := w.inUse.filter (fun i => !bufs.contains i),
        quarantined := if keep then bufs.foldl (fun m i => mput m i d) w.quarantined else w.quarantined }),
      onDrive d (fun k => { k with cmds := [] }), showDrive d, showWharf, Eff.each users fun k => failRun k 0x32 ]

/-- NVME_TIMEOUT (R384). -/
def nvmeTimeout (d : Nat) : Eff := .read fun s =>
  if s.drvState d == 1 && (s.drive d).cmds.any fun c => decide (c.tick + 2 ^ s.fld rWhfCfg 3 6 ≤ s.now) then
    Eff.all
      [ putFld (rWhfDrvStatus d) 0 2 2, putFld (rWhfDrvStatus d) 12 8 0x32, countAt 0x23 d, dropDrive d true, pumpWharf ]
  else .skip

/-- DRIVE_ENABLE (R381). -/
def driveEnable (d : Nat) : Eff := .read fun s =>
  let sq := (s.reg (rWhfDrvSqdb d)).toNat
  let cq := (s.reg (rWhfDrvCqdb d)).toNat
  let cause (st : Nat) : Eff := putFld (rWhfDrvStatus d) 12 8 st
  if s.drvState d != 0 then .skip
  else if !outbound sq || !outbound cq || s.fld (rWhfDrvCtrl d) 16 16 == 0 then cause 0x15
  else checkUnits 0 { agent := 3, source := d } [⟨sq, sq + 3, rightW⟩, ⟨cq, cq + 3, rightW⟩] cause
    (Eff.all [putReg (rWhfDrvStatus d) 1, wakeNode 5, onDrive d fun _ => {}])

/-- DRIVE_DISABLE (R384): users end DRIVE_ERROR, quarantine is released, the drive is OFF. -/
def driveDisable (d : Nat) : Eff :=
  Eff.all
    [ dropDrive d false, onWhf (fun w => { w with quarantined := w.quarantined.filter fun e => e.2 != d }),
      onDrive d (fun _ => {}), putReg (rWhfDrvStatus d) 0, showWharf, pumpWharf ]

/-- A keyed write to WHF_DRV_d.CMD. -/
def driveCmd (d v : Nat) : Eff :=
  if bitsOf v 16 16 != 0x4E56 then .skip
  else if bitOf v 1 then driveDisable d
  else if bitOf v 0 then driveEnable d
  else .skip

/-- A keyed write to WHF_SET_s.CTRL (R396, R662): ABANDON ends an epoch that is armed or streaming. -/
def setCtrl (k v : Nat) : Eff := .read fun s =>
  if bitsOf v 16 16 != 0xAB4D || !bitOf v 0 || !s.isOpen (s.setOwner k) then .skip
  else match (s.wset k).epoch with
    | some e =>
      if s.setState k = 2 then endEpoch k e 0x1C
      else if s.setState k = 3 then .andThen (failRun k 0x1C) pumpWharf
      else .skip
    | none => .skip

/-! ### EPOCH (R385) -/

/-- EPOCH on a set. -/
def startEpoch (q : Nat) (e : Entry) : Eff := .read fun s =>
  let k := e.get 16 1
  let kind := e.get 17 1
  let bad (st : Nat) : Eff := finishCurrent q { status := st }
  if e.get 19 1 ≠ 0 || e.get 32 32 ≠ 0 then bad 0x11
  else if 15 < k || !s.setPresent k || s.setOwner k != s.qOwner q || s.setState k != 1 || (s.wset k).adopt.isSome
      || (s.wset k).undo then bad 0x30
  else if 1 < kind || (kind == 1 && s.needFull k) then bad 0x15
  else
    Eff.all
      [ setSetState k 2,
        onSet k (fun w => { w with
          epoch := some
            { q := q, kind := kind, gate := e.get 18 1, value := e.get 24 8, limit := e.get 20 4, since := s.now } }),
        armOnGate (s.qOwner q) (e.get 18 1), pumpWharf ]

/-- EPOCH_WAIT_TIMEOUT (R385, R109): a wait whose limit of time marks has passed ends with nothing armed. -/
def epochWaitTimeout (k : Nat) : Eff := .read fun s =>
  match (s.wset k).epoch with
  | some e => if s.setState k = 2 ∧ e.limit ≠ 0 ∧ e.limit ≤ e.marks then endEpoch k e 0x19 else .skip
  | none => .skip

/-! ### BAR4 (R148, R379, R609) -/

/-- The wharf window map (Table 11.2): first and last offset, and rights. -/
def bar4Map : List Window :=
  [ ⟨0, 0x000000, 0x7DFFFF, 7⟩, ⟨1, 0x7E0000, 0x7FFFFF, 7⟩, ⟨2, 0x800000, 0x87FFFF, 5⟩, ⟨3, 0x880000, 0x8FFFFF, 6⟩,
    ⟨4, 0x900000, 0x907FFF, 5⟩ ]

/-- The check of an inbound TLP's range against the window map (R144, R379). -/
def bar4Check (first last need : Nat) : LockResult :=
  match lowestWindow first (bar4Map.filter fun w => decide (w.first ≤ last ∧ first ≤ w.last)) with
  | none => .refuse 0x17 none
  | some w =>
    if w.first ≤ first ∧ last ≤ w.last then
      if w.rights &&& need = need then .pass w else .refuse 0x17 (some w.num)
    else .refuse 0x16 (some w.num)

/-- The drive slot whose RID matches a requester. -/
def State.ridSlot (s : State) (rid : Nat) : Option Nat :=
  (List.range 8).find? fun d => s.bit (rPciP2pRid d) 16 && s.fld (rPciP2pRid d) 0 16 == rid

/-- BAR4_TLP: an inbound write of bytes, or a read of `n` bytes, at a BAR4 offset. In dry-dock, and while basin 0 is not OPEN, a write is
dropped and a read refused (R138). -/
def bar4Tlp (rid : Nat) (write : Bool) (off : Nat) (bs : List Byte) (n : Nat) : Eff := .read fun s =>
  let len := if write then bs.length else n
  let slot := s.ridSlot rid
  let refuse (st : Nat) (w : Option Nat) : Eff :=
    Eff.all
      [ lockRefuse 0 off (off + len - 1) { agent := 5, source := slot.getD 0xFFF, requester := rid } st w,
        bumpFld rPciErr 48 16 1, Eff.when (!write) (refuseUr 0) ]
  if !s.dlActive || len = 0 then .skip
  else if !(s.fn 0).mse then (if write then countUr else refuseUr 0)
  else if s.asleep then (if write then .skip else emit (.tlpData rid off (List.replicate n 0xFF#8)))
  else if s.dryDock || !s.isOpen 0 then (if write then .skip else refuseUr 0)
  else match slot with
    | some d =>
      if s.drvState d != 1 then refuse 0x17 none
      else match bar4Check off (off + len - 1) (if write then rightW + rightD else rightR + rightD) with
        | .pass _ => if write then sramPut off bs else emit (.tlpData rid off (s.sram off n))
        | .refuse st w => refuse st w
    | none => refuse 0x17 none

/-! ### The meanings -/

/-- DEFINE_SET. -/
def execDefineSet (q : Nat) (es : List EccEvent) (s : State) : Host.Outcome State Fault Refusal :=
  Eff.done (.andThen (takeUp q (· == 0x200) fun e => .andThen (setStage q e.idx .running) (defineSet q es e)) pumpWharf) s
/-- EPOCH. -/
def execEpoch (q : Nat) (s : State) : Host.Outcome State Fault Refusal :=
  Eff.done (takeUp q (· == 0x201) fun e => .andThen (setStage q e.idx .running) (startEpoch q e)) s
/-- RESTORE. -/
def execRestore (q : Nat) (es : List EccEvent) (s : State) : Host.Outcome State Fault Refusal :=
  Eff.done (.andThen (takeUp q (· == 0x202) fun e => .andThen (setStage q e.idx .running) (restoreSet q es e)) pumpWharf) s
/-- EPOCH_WAIT_TIMEOUT. -/
def execEpochWaitTimeout (k : Nat) (s : State) : Host.Outcome State Fault Refusal := (epochWaitTimeout k).done s
/-- COW_COPY. -/
def execCowCopy (k page : Nat) (es : List EccEvent) (s : State) : Host.Outcome State Fault Refusal := (cowCopy k page es).done s
/-- EXTENT_STAGED. -/
def execExtentStaged (k : Nat) (es : List EccEvent) (s : State) : Host.Outcome State Fault Refusal := (stageExtent k es).done s
/-- NVME_COMPLETION. -/
def execNvmeCompletion (d : Nat) (es : List EccEvent) (s : State) : Host.Outcome State Fault Refusal := (nvmeCompletion d es).done s
/-- NVME_TIMEOUT. -/
def execNvmeTimeout (d : Nat) (s : State) : Host.Outcome State Fault Refusal := (nvmeTimeout d).done s
/-- DRIVE_ENABLE. -/
def execDriveEnable (rd d : Nat) (s : State) : Host.Outcome State Fault Refusal :=
  (writeReg rd (rWhfDrvCmd d) (driveEnable d)).done s
/-- DRIVE_DISABLE. -/
def execDriveDisable (rd d : Nat) (s : State) : Host.Outcome State Fault Refusal :=
  (writeReg rd (rWhfDrvCmd d) (driveDisable d)).done s
/-- ABANDON. -/
def execAbandon (rd k : Nat) (s : State) : Host.Outcome State Fault Refusal :=
  (writeReg rd (rWhfSetCtrl k) (setCtrl k 0xAB4D0001)).done s
/-- BAR4_TLP. -/
def execBar4Tlp (rid : Nat) (write : Bool) (off : Nat) (bs : List Byte) (n : Nat) (s : State) :
    Host.Outcome State Fault Refusal := (bar4Tlp rid write off bs n).done s

end Sys2Proof.Machine
end

