-- ==== Sys2Proof/Machine/Gates.lean ====
section
/-!
DEFINITION. Gate counters (R108 to R113, R134): how they rise, and what a rise sets off.
-/
namespace Sys2Proof.Machine

/-- A gate counter is raised to a value, never lowered (R113), and the epochs that its rise satisfies are armed in the same
step (R386). -/
def raiseTo (b g v : Nat) : Eff := Eff.all [.act (.raiseGate b g v), armOnGate b g, pumpWharf]

/-- An increment of a gate counter, saturating (R110, R112). -/
def addGate (b g n : Nat) : Eff := .read fun s => if n = 0 then .skip else raiseTo b g (s.gate b g + n)

/-- A wait is satisfied (R108). -/
def State.gateMet (s : State) (b g v : Nat) : Bool := decide (v ≤ s.gate b g)

/-- A write to GLB_GATE_ADD_b. -/
def gateAddWrite (b v : Nat) : Eff := addGate b (bitsOf v 0 8) (bitsOf v 8 24)

/-- GLB_GATE_ADD. -/
def execGlbGateAdd (rd b v : Nat) (s : State) : Host.Outcome State Fault Refusal :=
  (writeReg rd (rGlbGateAdd b) (gateAddWrite b v)).done s
/-- GLB_GATE_WRITE: a committed write to GLB_GATE_b_g (R134). -/
def execGlbGateWrite (rd b g v : Nat) (s : State) : Host.Outcome State Fault Refusal :=
  (writeReg rd (rGlbGate b g) (raiseTo b g v)).done s

end Sys2Proof.Machine
end

