-- ==== Sys2Proof/Machine/Flags.lean ====
section
/-!
DEFINITION. The arithmetic flags of a basin (R70, R71).
-/
namespace Sys2Proof.Machine

/-- Flags are ORed into GLB_ARITH_FLAGS_b. -/
def raiseFlags (b f : Nat) : Eff := .read fun s =>
  putReg (rGlbArithFlags b) ((s.reg (rGlbArithFlags b)).toNat ||| f % 32)

/-- Flags without NAN_SEEN. A NaN read raises it where it is read; one carried on raises it no second time (Table 2.7). -/
def notSeen (f : Nat) : Nat := bitsOf f 1 4 * 2

end Sys2Proof.Machine
end

