-- ==== Sys2Proof/Machine/OpCheck.lean ====
section
/-!
DEFINITION. Operator descriptors (R101 to R102) and the static check (R105 stage 2, R664): roles and types of tensors,
parameters, shapes, limits, overlap.
-/
namespace Sys2Proof.Machine

/-! ### The header (Table 4.2); a descriptor is its bytes as a number -/

/-- OPCODE. -/
def dOpcode (d : Nat) : Nat := rfield d 0 2
/-- TCOUNT. -/
def dTcount (d : Nat) : Nat := rfield d 2 1
/-- OFLAGS.SR. -/
def dSr (d : Nat) : Bool := bitOf (rfield d 3 1) 0
/-- INST. -/
def dInst (d : Nat) : Nat := rfield d 8 8
/-- WAIT is enabled. -/
def dWaits (d : Nat) : Bool := bitOf (rfield d 16 2) 15
/-- The gate of WAIT. -/
def dWaitGate (d : Nat) : Nat := rfield d 16 1
/-- INC is enabled. -/
def dIncs (d : Nat) : Bool := bitOf (rfield d 18 2) 15
/-- The gate of INC. -/
def dIncGate (d : Nat) : Nat := rfield d 18 1
/-- WAIT_LIMIT. -/
def dWaitLimit (d : Nat) : Nat := rfield d 20 4
/-- WAIT_VALUE. -/
def dWaitValue (d : Nat) : Nat := rfield d 24 8
/-- INC_AMOUNT. -/
def dIncAmount (d : Nat) : Nat := rfield d 32 4
/-- Tn (R102). -/
def dTensor (d n : Nat) : TDesc := parseTensor (rfield d (64 * (n + 1)) 64)
/-- The length of a descriptor in bytes. -/
def dLen (d : Nat) : Nat := 64 * (dTcount d + 1)

/-- The opcodes of Table 4.4. -/
def opcodes : List Nat :=
  [0x0000, 0x0001, 0x0002, 0x0010, 0x0020, 0x0021, 0x0022, 0x0030, 0x0031, 0x0040, 0x0050, 0x0060, 0x0070, 0x0071, 0x0072,
   0x0073, 0x0074, 0x0080, 0x0081, 0x0090]

/-! ### Tensors by role (Table 4.4, Table 5.3) -/

/-- The role of a tensor. -/
inductive Role where
  | inp | out | io
deriving DecidableEq, Repr

/-- A tensor's role and the ETYPEs it may have. -/
structure TRole where
  role : Role
  types : List Nat
deriving DecidableEq, Repr

/-- The ETYPE of a tensor of a descriptor. -/
def dEtype (d n : Nat) : Nat := (dTensor d n).etype

/-- The tensors of an operator. GATHER and TRANSPOSE give y the type of T0; MAX and MIN take BF16 alone; SCATTER STORE takes
BF16 alone. -/
def opRoles (d : Nat) : List TRole :=
  let p40 := rfield d 40 1
  let any4 := [0, 1, 2, 3]
  let bp := [0, 1]
  match dOpcode d with
  | 0x0010 =>
    [⟨.inp, bp⟩, ⟨.inp, bp⟩, ⟨.out, [0, 1, 3]⟩] ++ (if dTcount d = 4 then [⟨.inp, [0, 1, 3]⟩] else [])
  | 0x0020 => [⟨.inp, bp⟩, ⟨.out, bp⟩]
  | 0x0021 => let t := if p40 = 4 ∨ p40 = 5 then [0] else bp; [⟨.inp, t⟩, ⟨.inp, t⟩, ⟨.out, bp⟩]
  | 0x0022 => [⟨.inp, bp⟩, ⟨.inp, bp⟩, ⟨.out, [0]⟩]
  | 0x0030 => [⟨.inp, [0]⟩, ⟨.inp, [0]⟩, ⟨.out, [0]⟩]
  | 0x0031 => [⟨.inp, [0]⟩, ⟨.inp, [0]⟩, ⟨.inp, [0]⟩, ⟨.out, [0]⟩]
  | 0x0040 => [⟨.inp, [0]⟩, ⟨.out, [0]⟩]
  | 0x0050 => [⟨.inp, [0]⟩, ⟨.inp, [0]⟩, ⟨.inp, [2]⟩, ⟨.out, [0]⟩]
  | 0x0060 => [⟨.inp, [0]⟩, ⟨.inp, [0]⟩, ⟨.inp, [0]⟩, ⟨.inp, [2]⟩, ⟨.out, [0]⟩]
  | 0x0070 => [⟨.inp, any4⟩, ⟨.inp, [2]⟩, ⟨.out, [dEtype d 0]⟩]
  | 0x0071 => [⟨.inp, if p40 = 0 then [0] else bp⟩, ⟨.inp, [2]⟩, ⟨.io, [0]⟩]
  | 0x0072 => [⟨.inp, bp⟩, ⟨.inp, [2]⟩, ⟨.out, [0]⟩]
  | 0x0073 => [⟨.inp, any4⟩, ⟨.out, [dEtype d 0]⟩]
  | 0x0074 => [⟨.inp, [2]⟩, ⟨.out, [0]⟩]
  | 0x0080 => [⟨.inp, [0]⟩, ⟨.out, [0]⟩, ⟨.out, [2]⟩]
  | 0x0081 => [⟨.inp, [0]⟩, ⟨.inp, [2]⟩, ⟨.out, [2]⟩, ⟨.inp, [0]⟩, ⟨.inp, [2]⟩]
  | 0x0090 => [⟨.inp, [0]⟩, ⟨.io, [1]⟩, ⟨.io, [1]⟩, ⟨.io, [1]⟩, ⟨.out, [0]⟩, ⟨.inp, [1]⟩]
  | _ => []

/-- The inputs that an output may repeat descriptor for descriptor (Table 4.4, In-place). -/
def inPlace (d : Nat) : List Nat :=
  match dOpcode d with
  | 0x0020 => [0] | 0x0021 => [0, 1] | 0x0022 => [0, 1] | 0x0030 => [0] | 0x0031 => [0] | 0x0040 => [0] | 0x0050 => [0]
  | _ => []

/-- The tensors of a descriptor with their numbers and roles. -/
def dTensors (d : Nat) : List (Nat × TRole × TDesc) :=
  (List.range (opRoles d).length).zip ((opRoles d).zip ((List.range (opRoles d).length).map (dTensor d)))

/-! ### BAD_DESCRIPTOR -/

/-- The bytes of PARAMS that an operator uses (Table 4.5). -/
def paramBytes (op : Nat) : Nat :=
  match op with
  | 0x0002 => 8
  | 0x0030 | 0x0031 | 0x0040 | 0x0072 => 2
  | 0x0060 => 3
  | 0x0020 | 0x0021 | 0x0022 | 0x0050 | 0x0071 | 0x0080 => 1
  | _ => 0

/-- The reserved bits of a header are zero, unused PARAMS bytes included. -/
def headerZeros (d : Nat) : Bool :=
  bitsOf (rfield d 3 1) 1 7 == 0 && rfield d 4 4 == 0 && bitsOf (rfield d 16 2) 8 7 == 0 && bitsOf (rfield d 18 2) 8 7 == 0
    && rfield d 36 4 == 0 && rfield d (40 + paramBytes (dOpcode d)) (24 - paramBytes (dOpcode d)) == 0

/-- Reserved fields, TCOUNT, ETYPEs, R97 and R98. -/
def descriptorOk (d : Nat) : Bool :=
  headerZeros d && dTcount d == (opRoles d).length
    && (dTensors d).all fun x => x.2.2.valid && x.2.1.types.contains x.2.2.etype

/-! ### BAD_PARAM (Table 4.5, INC_AMOUNT, R117) -/

/-- A finite BF16 pattern with a condition on its value. -/
def finBf (n : Nat) (c : Rat → Bool) : Bool :=
  match bfVal (BitVec.ofNat 16 n) with
  | .fin _ q => c q
  | _ => false

/-- The parameters lie in the ranges of Table 4.5. -/
def paramsOk (own d : Nat) : Bool :=
  let p40 := rfield d 40 1
  let w40 := rfield d 40 2
  (!dIncs d || dIncAmount d != 0) &&
  match dOpcode d with
  | 0x0002 =>
    decide (w40 ≤ 0xFFF) && w40 != own && decide (1 ≤ rfield d 43 1 ∧ rfield d 43 1 ≤ 3) && rfield d 44 4 != 0
  | 0x0020 | 0x0022 => decide (p40 ≤ 15)
  | 0x0021 => decide (p40 ≤ 5)
  | 0x0030 | 0x0031 => finBf w40 fun q => decide (0 ≤ q)
  | 0x0040 => finBf w40 fun q => decide (0 < q)
  | 0x0060 => (finBf w40 fun q => decide (0 < q)) && decide (1 ≤ rfield d 42 1 ∧ rfield d 42 1 ≤ 8)
  | 0x0050 | 0x0071 => decide (p40 ≤ 1)
  | 0x0072 => finBf w40 fun _ => true
  | 0x0080 => decide (1 ≤ p40 ∧ p40 ≤ 64)
  | _ => true

/-! ### SHAPE -/

/-- g and bias of the normalisations. -/
def rowVector (x g : TDesc) : Bool :=
  g.sizes == x.sizes && (List.range 3).all fun k => g.stride (k + 1) == 0

/-- Two sides agree outside dimension 1. -/
def agree1 (a b : TDesc) : Bool := a.size 0 == b.size 0 && a.size 2 == b.size 2 && a.size 3 == b.size 3

/-- The shapes agree with the operator's rules. For ATTN_PAGED the three head sizes are among them, and so are SIZE_3 of Q at 1 and
H divisible by KV_GROUP, to which the spec gives no status (log entry 17). -/
def shapeOk (d : Nat) : Bool :=
  let t := dTensor d
  let z (n : Nat) : List Nat := (t n).sizes
  let p40 := rfield d 40 1
  match dOpcode d with
  | 0x0010 =>
    let K := (t 0).size 0
    let M := (t 0).size 1
    let N := (t 1).size 0
    let rest (n : Nat) := (t n).size 2 == (t 0).size 2 && (t n).size 3 == (t 0).size 3
    (t 1).size 1 == K && rest 1 && (t 2).size 0 == N && (t 2).size 1 == M && rest 2
      && (dTcount d != 4 || ((t 3).size 0 == N && (t 3).size 1 == M && rest 3))
  | 0x0020 | 0x0040 | 0x0073 | 0x0074 => z 1 == z 0
  | 0x0021 | 0x0022 => z 1 == z 0 && z 2 == z 0
  | 0x0030 => z 2 == z 0 && rowVector (t 0) (t 1)
  | 0x0031 => z 3 == z 0 && rowVector (t 0) (t 1) && rowVector (t 0) (t 2)
  | 0x0050 =>
    z 3 == z 0 && (t 0).size 0 % 2 == 0 && z 1 == [(t 0).size 0 / 2, 1, 1, 1] && z 2 == [(t 0).size 2, 1, 1, 1]
  | 0x0060 =>
    let g := rfield d 42 1
    [64, 128, 256].contains ((t 0).size 0) && (t 0).size 3 == 1 && z 4 == z 0 && (t 0).size 1 % g == 0 && (t 1).size 0 == (t 0).size 0
      && (t 1).size 1 == (t 0).size 1 / g && (t 1).size 2 == 64 && z 2 == z 1 && decide (5 ≤ (t 3).size 0)
      && (t 3).size 1 == (t 0).size 2 && (t 3).size 2 == 1 && (t 3).size 3 == 1
  | 0x0070 | 0x0072 => agree1 (t 0) (t 2) && (t 1).count == (t 2).size 1
  | 0x0071 => agree1 (t 0) (t 2) && (t 1).count == (t 0).size 1
  | 0x0080 => decide (p40 ≤ (t 0).size 0) && z 1 == p40 :: (z 0).drop 1 && z 2 == z 1
  | 0x0081 =>
    let rows := (t 0).size 1 * (t 0).size 2 * (t 0).size 3
    (t 1).count == 2 * rows && (t 3).count == 2 * rows && (t 4).count == rows && (t 2).count == rows
  | 0x0090 => ([1, 2, 3, 4].all fun n => z n == z 0) && (t 5).count == 7
  | _ => true

/-! ### LIMIT (R131) -/

/-- The sizes lie within Table 4.6. The head sizes of ATTN_PAGED, which the table lists too, are judged as a shape before (R664 ranks SHAPE
first). -/
def limitsOk (d : Nat) : Bool :=
  let t := dTensor d
  match dOpcode d with
  | 0x0010 => decide ((t 0).size 0 ≤ 2 ^ 24)
  | 0x0030 | 0x0031 => decide ((t 0).size 0 ≤ 2 ^ 20)
  | 0x0040 => decide ((t 0).size 0 ≤ 2 ^ 24)
  | 0x0060 => decide ((t 0).size 2 ≤ 2 ^ 20)
  | 0x0081 => decide ((t 0).size 0 ≤ 2 ^ 20)
  | _ => true

/-! ### ALIAS (R119) -/

/-- Two byte ranges share a byte. -/
def overlap (a b : Nat × Nat) : Bool := decide (a.1 ≤ b.2 ∧ b.1 ≤ a.2)

/-- Some choice of distances below the sizes of the given (stride, size) dimensions, largest stride first, adds to `target`. -/
def reaches : List (Nat × Nat) → Int → Bool
  | [], target => decide (target = 0)
  | (st, n) :: rest, target =>
    let span : Nat := (rest.map fun e => e.1 * (e.2 - 1)).foldl (· + ·) 0
    let lo := max (1 - (n : Int)) (Int.fdiv (target - (span : Int) + (st : Int) - 1) (st : Int))
    let hi := min ((n : Int) - 1) (Int.fdiv (target + (span : Int)) (st : Int))
    (List.range (Int.toNat (hi - lo + 1))).any fun i => reaches rest (target - (lo + (i : Int)) * (st : Int))

/-- Two elements of a tensor share an address: some dimension, with those of smaller stride, brings a distance back to zero. -/
def selfShares : List (Nat × Nat) → Bool
  | [] => false
  | (st, n) :: rest =>
    let span : Nat := (rest.map fun e => e.1 * (e.2 - 1)).foldl (· + ·) 0
    st == 0
      || (List.range (min (n - 1) (span / st))).any (fun i => reaches rest (-(((i + 1) * st : Nat) : Int)))
      || selfShares rest

/-- A dimension joins a list kept by falling stride. -/
def insStride (x : Nat × Nat) : List (Nat × Nat) → List (Nat × Nat)
  | [] => [x]
  | y :: ys => if y.1 ≤ x.1 then x :: y :: ys else y :: insStride x ys

/-- Two output elements of the tensor share an address. -/
def TDesc.shares (t : TDesc) : Bool :=
  selfShares (((List.range 4).filterMap fun k =>
    if 1 < t.size k then some ((t.stride k).natAbs, t.size k) else none).foldr insStride [])

/-- R119 holds: no output shares an address within itself, and none overlaps another input but in place. -/
def aliasOk (d : Nat) : Bool :=
  (dTensors d).all fun x =>
    x.2.1.role == .inp ||
      (!x.2.2.shares && (dTensors d).all fun y =>
        y.1 == x.1 || y.2.1.role == .out || !overlap x.2.2.extent y.2.2.extent
          || ((inPlace d).contains y.1 && y.2.2.raw == x.2.2.raw))

/-! ### The static check (R664) -/

/-- The status of the first static check that fails, after BAD_OPCODE. `whole` tells that the descriptor lies whole in its
program; `route` gives the destinations that have a route. -/
def staticCheck (own : Nat) (route : Nat → Bool) (whole : Bool) (d : Nat) : Option Nat :=
  if !whole || !descriptorOk d then some 0x11
  else if !paramsOk own d then some 0x15
  else if !shapeOk d then some 0x12
  else if !limitsOk d then some 0x13
  else if !aliasOk d then some 0x14
  else if dOpcode d == 2 && !route (rfield d 40 2) then some 0x1D
  else none

end Sys2Proof.Machine
end

