-- ==== Sys2Proof/Machine/OpMath.lean ====
section
/-!
DEFINITION. What operators compute (chapter 04, from MATMUL to OPT_STEP): each output element with its flags, and the input
elements that it depends on.
-/
namespace Sys2Proof.Machine

/-- An output element: tensor, canonical index, raw bits, and the flags of the roundings behind it, NAN_SEEN aside. -/
structure OutElem where
  tensor : Nat
  idx : Nat
  raw : Nat
  flags : Nat := 0
deriving DecidableEq, Repr

/-- What an operator computes from: its descriptor, the elements of its tensors, the page lists of ATTN_PAGED by row (each
headed by the row's position), and the seed captured. -/
structure OpIn where
  d : Nat
  e : List Elems
  lists : List (List Nat) := []
  seed : Nat := 0

/-- A raw element by tensor and canonical index. -/
def OpIn.raw (x : OpIn) (n i : Nat) : Nat := (x.e.getD n #[]).getD i 0
/-- A BF16 element. -/
def OpIn.bf (x : OpIn) (n i : Nat) : Val := bfVal (BitVec.ofNat 16 (x.raw n i))
/-- A size of a tensor. -/
def OpIn.size (x : OpIn) (n k : Nat) : Nat := (dTensor x.d n).size k
/-- The number of elements of a tensor. -/
def OpIn.count (x : OpIn) (n : Nat) : Nat := (dTensor x.d n).count

/-- The terms of a BF16 or PAIR element (R65). -/
def elemTerms (etype raw : Nat) : List Val :=
  if etype = 1 then pairTerms (BitVec.ofNat 16 raw) (BitVec.ofNat 16 (raw / 65536)) else [bfVal (BitVec.ofNat 16 raw)]

/-- The terms of an element of a tensor. -/
def OpIn.terms (x : OpIn) (n i : Nat) : List Val := elemTerms (dEtype x.d n) (x.raw n i)

/-- The products of two sums, term by term (R65, R121). -/
def prodTerms (xs ys : List Val) : List Val := xs.flatMap fun a => ys.map fun b => a.mul b

/-- Terms with their signs turned. -/
def negTerms (xs : List Val) : List Val := xs.map Val.negate

/-- A BF16 pattern as terms. -/
def bfTerms (b : Bf16) : List Val := [bfVal b]

/-- INVALID where a term is a NaN made from no NaN (Table 2.7). -/
def termFlags (ts : List Val) : Nat := if ts.any (· == .nan false) then fInvalid else 0

/-- A sum of terms, with the INVALID its products raise. -/
def sumOf (ts : List Val) : Pound × Nat := (poundOf ts, termFlags ts)

/-- A pound times a positive exact real. -/
def Pound.scale (p : Pound) (k : Rat) : Pound := { p with q := p.q * k }

/-- The draw of an output element (R59); none where OFLAGS.SR is 0. -/
def OpIn.draw (x : OpIn) (idx : Nat) : Option Draw :=
  if dSr x.d then some { seed := x.seed, inst := dInst x.d, idx := idx, site := 0 } else none

/-- A pair's raw bits. -/
def pairRaw (p : Bf16 × Bf16 × Nat) : Nat := p.1.toNat + p.2.1.toNat * 65536

/-- An output element of an exact value at `out` (R122), for BF16 and PAIR. -/
def OpIn.out (x : OpIn) (n i : Nat) (v : Val) (f : Nat) : OutElem :=
  if dEtype x.d n = 1 then
    let p := pairVal v
    { tensor := n, idx := i, raw := pairRaw p, flags := f ||| notSeen p.2.2 }
  else
    let r := outVal (x.draw i) v
    { tensor := n, idx := i, raw := r.1.toNat, flags := f ||| notSeen r.2 }

/-- An output element of a sum, for every output type (R122). -/
def OpIn.outSum (x : OpIn) (n i : Nat) (p : Pound) (f : Nat) : OutElem :=
  if dEtype x.d n = 3 then { tensor := n, idx := i, raw := imageOfPound p, flags := f } else x.out n i p.val f

/-- An output element moved unchanged (R46). -/
def moved (n i raw : Nat) : OutElem := { tensor := n, idx := i, raw := raw }

/-- An output element of a BF16 value already rounded; a PAIR holds it as (value, +0) (R122). -/
def OpIn.outBf (n i : Nat) (b : Bf16) (f : Nat) : OutElem := { tensor := n, idx := i, raw := b.toNat, flags := f }

/-! ### MATMUL -/

/-- MATMUL. -/
def outMatmul (x : OpIn) : List OutElem :=
  let K := x.size 0 0
  let M := x.size 0 1
  let N := x.size 1 0
  (List.range (x.count 2)).map fun i =>
    let n := i % N
    let m := i / N % M
    let b := i / N / M
    let ts := (List.range K).flatMap fun k => prodTerms (x.terms 0 (k + K * (m + M * b))) (x.terms 1 (n + N * (k + K * b)))
    let p := poundOf ts
    let p :=
      if dTcount x.d = 4 then
        if dEtype x.d 3 = 3 then p.merge (poundOfImage (x.raw 3 i)) else (x.terms 3 i).foldl Pound.add p
      else p
    x.outSum 2 i p (termFlags ts)

/-! ### Elementwise -/

/-- EW_UNARY. -/
def outUnary (x : OpIn) : List OutElem :=
  let f := (fnOfCode (rfield x.d 40 1)).getD .ident
  (List.range (x.count 1)).map fun i =>
    let p := poundOf (x.terms 0 i)
    if f = .ident then x.out 1 i p.val 0
    else
      let r := fnVal f p.val
      OpIn.outBf 1 i r.1 (notSeen r.2)

/-- The larger, or the smaller, of two BF16 values (R125). -/
def pick (larger : Bool) (a b : Bf16) : Bf16 :=
  let lt (u v : Val) : Bool :=
    match u, v with
    | .inf n, .inf m => n && !m
    | .inf n, .fin _ _ => n
    | .fin _ _, .inf m => !m
    | .fin n p, .fin m q => decide (p < q) || (decide (p = 0 ∧ q = 0) && n && !m)
    | _, _ => false
  if bfIsNan a || bfIsNan b then bfNan
  else if lt (bfVal a) (bfVal b) == larger then b else a

/-- EW_BINARY. -/
def outBinary (x : OpIn) : List OutElem :=
  let op := rfield x.d 40 1
  (List.range (x.count 2)).map fun i =>
    let a := x.terms 0 i
    let b := x.terms 1 i
    match op with
    | 0 => x.out 2 i (poundOf (a ++ b)).val 0
    | 1 => x.out 2 i (poundOf (a ++ negTerms b)).val 0
    | 2 => let t := prodTerms a b; let s := sumOf t; x.out 2 i s.1.val s.2
    | 3 =>
      let v := divVal (poundOf a).val (poundOf b).val
      let r := rneVal v.1
      OpIn.outBf 2 i r.1 (v.2 ||| notSeen r.2)
    | _ => OpIn.outBf 2 i (pick (op == 4) (BitVec.ofNat 16 (x.raw 0 i)) (BitVec.ofNat 16 (x.raw 1 i))) 0

/-- EW_GLU. -/
def outGlu (x : OpIn) : List OutElem :=
  let f := (fnOfCode (rfield x.d 40 1)).getD .ident
  (List.range (x.count 2)).map fun i =>
    let v := (poundOf (x.terms 0 i)).val
    let t := if f = .ident then rneVal v else fnVal f v
    let s := sumOf (prodTerms (bfTerms t.1) (x.terms 1 i))
    x.out 2 i s.1.val (notSeen t.2 ||| s.2)

/-! ### Normalisations -/

/-- The canonical indices of a row. -/
def rowIdx (n j : Nat) : List Nat := (List.range n).map fun i => n * j + i

/-- The sum of squares of a row. -/
def OpIn.squares (x : OpIn) (row : List Nat) : Pound := poundOf (row.map fun i => (x.bf 0 i).mul (x.bf 0 i))

/-- RMSNORM. -/
def outRms (x : OpIn) : List OutElem :=
  let n := x.size 0 0
  let eps := bfVal (BitVec.ofNat 16 (rfield x.d 40 2))
  (List.range (x.count 0 / n)).flatMap fun j =>
    let row := rowIdx n j
    let r := fnVal .rsqrt (((x.squares row).scale (1 / ratOf n)).add eps).val
    row.map fun i =>
      let s := sumOf [((x.bf 0 i).mul (bfVal r.1)).mul (x.bf 1 (i % n))]
      x.out 2 i s.1.val (notSeen r.2 ||| s.2)

/-- LAYERNORM. The pseudocode's own terms are two: the product (x[i] − mu) · r · g[i], and bias[i] (R121). -/
def outLayer (x : OpIn) : List OutElem :=
  let n := x.size 0 0
  let eps := bfVal (BitVec.ofNat 16 (rfield x.d 40 2))
  (List.range (x.count 0 / n)).flatMap fun j =>
    let row := rowIdx n j
    let muP := (poundOf (row.map (x.bf 0))).scale (1 / ratOf n)
    let mu := muP.val
    let varP := ((x.squares row).scale (1 / ratOf n)).add (mu.mul mu).negate
    let r := fnVal .rsqrt (varP.add eps).val
    row.map fun i =>
      let g := x.bf 1 (i % n)
      let s := sumOf [(((x.bf 0 i).plus mu.negate).mul (bfVal r.1)).mul g, x.bf 2 (i % n)]
      x.out 3 i s.1.val (notSeen r.2 ||| s.2)

/-! ### SOFTMAX -/

/-- The larger of two values for m: a NaN makes m a NaN (R121). -/
def maxVal (a b : Val) : Val :=
  match a, b with
  | .nan _, _ => .nan true
  | _, .nan _ => .nan true
  | .inf n, v => if n then v else .inf false
  | v, .inf n => if n then v else .inf false
  | .fin n p, .fin m q => if p < q then .fin m q else .fin n p

/-- The maximum of values. -/
def maxOf : List Val → Val
  | [] => .inf true
  | v :: vs => vs.foldl maxVal v

/-- The exponential weight of a value against the row's maximum, at a scale. -/
def expWeight (scale v m : Val) : Bf16 × Nat :=
  let ts := [scale.mul v, (scale.mul m).negate]
  let r := fnVal .exp (poundOf ts).val
  (r.1, notSeen r.2 ||| termFlags ts)

/-- The exact quotient of two sums at `out`, with its flags. -/
def quotient (num den : Pound) (f : Nat) : Val × Nat :=
  let q := divVal num.val den.val
  (q.1, f ||| q.2)

/-- SOFTMAX. -/
def outSoftmax (x : OpIn) : List OutElem :=
  let n := x.size 0 0
  let scale := bfVal (BitVec.ofNat 16 (rfield x.d 40 2))
  (List.range (x.count 0 / n)).flatMap fun j =>
    let row := rowIdx n j
    let m := maxOf (row.map (x.bf 0))
    let es := row.map fun i => expWeight scale (x.bf 0 i) m
    let S := poundOf (es.map fun e => bfVal e.1)
    let fs := es.foldl (fun f e => f ||| e.2) 0
    (row.zip es).map fun p =>
      let q := quotient (poundOf [bfVal p.2.1]) S fs
      x.out 1 p.1 q.1 q.2

/-! ### ROPE -/

/-- θ = pos × f, exact; an exact zero is +0. -/
def theta (pos : Nat) (f : Val) : Val :=
  match (Val.fin false (ratOf pos)).mul f with
  | .fin _ q => .fin false q
  | v => v

/-- The indices p and q of pair j. -/
def ropePair (layout D j : Nat) : Nat × Nat := if layout = 0 then (j, j + D / 2) else (2 * j, 2 * j + 1)

/-- ROPE. -/
def outRope (x : OpIn) : List OutElem :=
  let D := x.size 0 0
  let H := x.size 0 1
  let T := x.size 0 2
  (List.range (x.count 0 / D)).flatMap fun row =>
    let t := row / H % T
    (List.range (D / 2)).flatMap fun j =>
      let th := theta (x.raw 2 t) (x.bf 1 j)
      let c := fnVal .cos th
      let s := fnVal .sin th
      let pq := ropePair (rfield x.d 40 1) D j
      let p := D * row + pq.1
      let q := D * row + pq.2
      let th0 := notSeen (c.2 ||| s.2)
      let yp := sumOf [(x.bf 0 p).mul (bfVal c.1), ((x.bf 0 q).mul (bfVal s.1)).negate]
      let yq := sumOf [(x.bf 0 p).mul (bfVal s.1), (x.bf 0 q).mul (bfVal c.1)]
      [x.out 3 p yp.1.val (th0 ||| yp.2), x.out 3 q yq.1.val (th0 ||| yq.2)]

/-! ### ATTN_PAGED -/

/-- The canonical index in a page pool of element d of head g for token j of a row whose list is given. -/
def poolIdx (D G : Nat) (list : List Nat) (d g j : Nat) : Nat := d + D * (g + G * (j % 64 + 64 * list.getD (j / 64) 0))

/-- The position and pages of a row. -/
def OpIn.rowList (x : OpIn) (r : Nat) : Nat × List Nat :=
  match x.lists.getD r [] with
  | p :: pages => (p, pages)
  | [] => (0, [])

/-- ATTN_PAGED. -/
def outAttn (x : OpIn) : List OutElem :=
  let D := x.size 0 0
  let H := x.size 0 1
  let G := x.size 1 1
  let grp := rfield x.d 42 1
  let scale := bfVal (BitVec.ofNat 16 (rfield x.d 40 2))
  (List.range (x.count 0 / D)).flatMap fun row =>
    let h := row % H
    let g := h / grp
    let (p, pages) := x.rowList (row / H)
    let js := List.range (p + 1)
    let ss := js.map fun j =>
      let ts := (List.range D).map fun d => scale.mul ((x.bf 0 (d + D * row)).mul (x.bf 1 (poolIdx D G pages d g j)))
      let s := sumOf ts
      let r := rneVal s.1.val
      (r.1, s.2 ||| notSeen r.2)
    let m := maxOf (ss.map fun s => bfVal s.1)
    let es := ss.map fun s => expWeight (bfVal bfOne) (bfVal s.1) m
    let S := poundOf (es.map fun e => bfVal e.1)
    let fs := (ss ++ es).foldl (fun f e => f ||| e.2) 0
    (List.range D).map fun d =>
      let ts := (js.zip es).map fun e => (bfVal e.2.1).mul (x.bf 2 (poolIdx D G pages d g e.1))
      let q := quotient (poundOf ts) S (fs ||| termFlags ts)
      x.out 4 (d + D * row) q.1 q.2

/-! ### Moves by index -/

/-- The canonical index of an element whose dimension 1 is replaced by column c. -/
def colIdx (t : TDesc) (i c : Nat) : Nat :=
  let n0 := t.size 0
  let rest := i / n0 / t.size 1
  i % n0 + n0 * (c + t.size 1 * rest)

/-- The canonical index in tensor `a` of the element of `y` at index i whose dimension 1 becomes c. The two agree outside
dimension 1. -/
def crossIdx (y a : TDesc) (i c : Nat) : Nat := i % y.size 0 + y.size 0 * (c + a.size 1 * (i / y.size 0 / y.size 1))

/-- The dimension-1 index of an element. -/
def colOf (t : TDesc) (i : Nat) : Nat := i / t.size 0 % t.size 1

/-- GATHER. -/
def outGather (x : OpIn) : List OutElem :=
  let y := dTensor x.d 2
  (List.range y.count).map fun i => moved 2 i (x.raw 0 (crossIdx y (dTensor x.d 0) i (x.raw 1 (colOf y i))))

/-- EMBED. -/
def outEmbed (x : OpIn) : List OutElem :=
  let y := dTensor x.d 2
  let scale := bfVal (BitVec.ofNat 16 (rfield x.d 40 2))
  (List.range y.count).map fun i =>
    let s := sumOf (prodTerms [scale] (x.terms 0 (crossIdx y (dTensor x.d 0) i (x.raw 1 (colOf y i)))))
    x.out 2 i s.1.val s.2

/-- The source columns of a destination column, rising. -/
def OpIn.sources (x : OpIn) (c : Nat) : List Nat := (List.range (x.count 1)).filter fun i => x.raw 1 i == c

/-- The elements of SCATTER's destination that an index names. -/
def OpIn.named (x : OpIn) : List Nat :=
  let y := dTensor x.d 2
  (List.range y.count).filter fun i => !(x.sources (colOf y i)).isEmpty

/-- SCATTER. -/
def outScatter (x : OpIn) : List OutElem :=
  let y := dTensor x.d 2
  let a := dTensor x.d 0
  x.named.map fun i =>
    let src := x.sources (colOf y i)
    if rfield x.d 40 1 = 0 then moved 2 i (x.raw 0 (crossIdx y a i (src.getLast?.getD 0)))
    else x.out 2 i (poundOf (x.terms 2 i ++ src.flatMap fun c => x.terms 0 (crossIdx y a i c))).val 0

/-- TRANSPOSE. -/
def outTranspose (x : OpIn) : List OutElem := (List.range (x.count 1)).map fun i => moved 1 i (x.raw 0 i)

/-- IDX_TO_BF16 (R73). -/
def outIndex (x : OpIn) : List OutElem :=
  (List.range (x.count 1)).map fun i => OpIn.outBf 1 i (bfOfIndex (x.raw 0 i)) 0

/-! ### TOPK -/

/-- The key by which TOPK and SAMPLE order logits: a NaN below −∞, zeros equal. -/
def orderKey : Val → Int × Rat
  | .nan _ => (-2, 0)
  | .inf true => (-1, 0)
  | .inf false => (1, 0)
  | .fin _ q => (0, q)

/-- One key is larger than another. -/
def keyGt (a b : Int × Rat) : Bool := decide (b.1 < a.1) || (a.1 == b.1 && decide (b.2 < a.2))

/-- A position joins a list kept largest first, lower positions first among equals. -/
def insOrder (gt : Nat → Nat → Bool) (x : Nat) : List Nat → List Nat
  | [] => [x]
  | y :: ys => if gt x y then x :: y :: ys else y :: insOrder gt x ys

/-- Positions largest first, ties by lower position. -/
def sortDown (n : Nat) (gt : Nat → Nat → Bool) : List Nat := (List.range n).foldl (fun l x => insOrder gt x l) []

/-- TOPK (R128). -/
def outTopk (x : OpIn) : List OutElem :=
  let n := x.size 0 0
  let K := rfield x.d 40 1
  (List.range (x.count 0 / n)).flatMap fun j =>
    let ks := (((List.range n).map fun i => orderKey (x.bf 0 (n * j + i))).toArray)
    let best := (sortDown n fun a b => keyGt (ks.getD a (0, 0)) (ks.getD b (0, 0))).take K
    ((List.range K).zip best).flatMap fun p =>
      [moved 1 (K * j + p.1) (x.raw 0 (n * j + p.2)), moved 2 (K * j + p.1) p.2]

/-! ### SAMPLE -/

/-- The shortest prefix whose weight reaches a threshold. -/
def prefixTo (w : Nat → Rat) (thr : Rat) : Rat → List Nat → List Nat
  | _, [] => []
  | acc, i :: is => if thr ≤ acc + w i then [i] else i :: prefixTo w thr (acc + w i) is

/-- The first candidate, taken in ascending order, whose cumulative weight passes the draw. -/
def drawFrom (w : Nat → Rat) (uW : Rat) : Rat → List Nat → Nat
  | _, [] => 0
  | acc, i :: is => if uW < ratOf (2 ^ 64) * (acc + w i) then i else drawFrom w uW (acc + w i) is

/-- One row of SAMPLE: the token and the flags of its exponentials. -/
def sampleRow (xs : List Val) (T topP : Rat) (topK draw inst seed : Nat) : Nat × Nat :=
  let V := xs.length
  let logits := xs.map fun v => match v with | .nan _ => Val.inf true | v => v
  let ks := (logits.map orderKey).toArray
  let gt (a b : Nat) : Bool := keyGt (ks.getD a (0, 0)) (ks.getD b (0, 0))
  let byX := sortDown V gt
  let top := byX.headD 0
  if T = 0 then (top, 0)
  else
    let m := logits.getD top (.inf true)
    let ws : List (Rat × Nat) := logits.map fun v =>
      match m with
      | .inf false => (if v == Val.inf false then 1 else 0, 0)
      | .inf true => (1, 0)
      | _ =>
        let r := expWeight (.fin false (1 / T)) v m
        (match bfVal r.1 with | .fin _ q => q | _ => 0, r.2)
    let wa := (ws.map (·.1)).toArray
    let w (i : Nat) : Rat := wa.getD i 0
    let C := if topK = 0 then List.range V else byX.take topK
    let sorted := (C.foldl (fun l x => sins l x) []).foldl (fun l x => insOrder (fun a b => decide (w b < w a)) x l) []
    let P := prefixTo w (topP * (C.map w).foldl (· + ·) 0) 0 sorted
    let W := (P.map w).foldl (· + ·) 0
    let r := philoxDraw seed inst draw 0x8000
    let u : Nat := r.2.1 * 2 ^ 32 + r.1
    (drawFrom w (ratOf u * W) 0 (P.foldl sins []), ws.foldl (fun f e => f ||| e.2) 0)

/-- SAMPLE. -/
def outSample (x : OpIn) : List OutElem :=
  let V := x.size 0 0
  (List.range (x.count 4)).map fun r =>
    let rat (i : Nat) : Rat := match x.bf 3 i with | .fin _ q => q | _ => 0
    let t := sampleRow ((rowIdx V r).map (x.bf 0)) (rat (2 * r)) (rat (2 * r + 1)) (x.raw 4 r)
      (x.raw 1 (2 * r) + x.raw 1 (2 * r + 1) % 65536 * 2 ^ 32) (dInst x.d) x.seed
    { tensor := 2, idx := r, raw := t.1, flags := t.2 }

/-! ### OPT_STEP -/

/-- OPT_STEP. A pair source is two terms and a product with a pair two products (R65); a bracket of the pseudocode, such as
(1 − β1) or (q + wd · w), is one value, the sum of its own terms (R121). -/
def outOpt (x : OpIn) : List OutElem :=
  let hyp (k : Nat) : List Val := x.terms 5 k
  let bc1 := hyp 5
  let bc2 := (poundOf (hyp 6)).val
  let rest (k : Nat) : List Val := [(poundOf (Val.fin false 1 :: negTerms (hyp k))).val]
  (List.range (x.count 1)).flatMap fun i =>
    let g := x.terms 0 i
    let mT := prodTerms (hyp 1) (x.terms 2 i) ++ prodTerms (rest 1) g
    let vT := prodTerms (hyp 2) (x.terms 3 i) ++ prodTerms (prodTerms (rest 2) g) g
    let m1 := sumOf mT
    let v1 := sumOf vT
    let mp := pairVal m1.1.val
    let vp := pairVal v1.1.val
    let mv := (poundOf (pairTerms mp.1 mp.2.1)).val
    let vv := (poundOf (pairTerms vp.1 vp.2.1)).val
    let rq := divVal vv bc2
    let r := fnVal .sqrt rq.1
    let denT := prodTerms bc1 [(poundOf (bfTerms r.1 ++ hyp 3)).val]
    let qd := divVal mv (sumOf denT).1.val
    let q := rneVal qd.1
    let fq := notSeen r.2 ||| rq.2 ||| termFlags denT ||| qd.2 ||| notSeen q.2
    let wT := x.terms 1 i ++ negTerms (prodTerms (hyp 0) [(poundOf (bfTerms q.1 ++ prodTerms (hyp 4) (x.terms 1 i))).val])
    let w1 := sumOf wT
    let wp := pairVal w1.1.val
    let fw := notSeen mp.2.2 ||| m1.2 ||| notSeen vp.2.2 ||| v1.2 ||| fq ||| w1.2 ||| notSeen wp.2.2
    [ { tensor := 1, idx := i, raw := pairRaw wp, flags := fw },
      { tensor := 2, idx := i, raw := pairRaw mp, flags := m1.2 ||| notSeen mp.2.2 },
      { tensor := 3, idx := i, raw := pairRaw vp, flags := v1.2 ||| notSeen vp.2.2 },
      x.out 4 i w1.1.val fw ]

/-! ### All operators -/

/-- The output elements of an operator. -/
def opOuts (x : OpIn) : List OutElem :=
  match dOpcode x.d with
  | 0x0010 => outMatmul x
  | 0x0020 => outUnary x
  | 0x0021 => outBinary x
  | 0x0022 => outGlu x
  | 0x0030 => outRms x
  | 0x0031 => outLayer x
  | 0x0040 => outSoftmax x
  | 0x0050 => outRope x
  | 0x0060 => outAttn x
  | 0x0070 => outGather x
  | 0x0071 => outScatter x
  | 0x0072 => outEmbed x
  | 0x0073 => outTranspose x
  | 0x0074 => outIndex x
  | 0x0080 => outTopk x
  | 0x0081 => outSample x
  | 0x0090 => outOpt x
  | _ => []

end Sys2Proof.Machine
end

