-- ==== Sys2Proof/Machine/OpReads.lean ====
section
/-!
DEFINITION. What operators read: the input elements behind each output element, the elements and sectors read, and the
NaN inputs that raise NAN_SEEN (Table 2.7).
-/
namespace Sys2Proof.Machine

/-- The tensors whose elements are arithmetic inputs, so that a NaN read there raises NAN_SEEN. -/
def arithTensors (d : Nat) : List Nat :=
  match dOpcode d with
  | 0x0010 => [0, 1, 3]
  | 0x0020 | 0x0040 | 0x0072 | 0x0080 | 0x0081 => [0]
  | 0x0021 | 0x0022 | 0x0030 | 0x0050 => [0, 1]
  | 0x0031 | 0x0060 => [0, 1, 2]
  | 0x0071 => if rfield d 40 1 = 1 then [0, 2] else []
  | 0x0090 => [0, 1, 2, 3, 5]
  | _ => []

/-- An element holds a NaN: a BF16 pattern, a half of a pair, or an image's NAN flag. -/
def elemNan (etype raw : Nat) : Bool :=
  if etype = 3 then bitOf raw 576
  else (elemTerms etype raw).any fun v => match v with | .nan _ => true | _ => false

/-- The input elements that an output element is computed from, as (tensor, canonical index). -/
def depsOf (x : OpIn) (o : OutElem) : List (Nat × Nat) :=
  let i := o.idx
  let all (n : Nat) : List (Nat × Nat) := (List.range (x.count n)).map fun k => (n, k)
  let row (n : Nat) : List (Nat × Nat) := (rowIdx (x.size n 0) (i / x.size n 0)).map fun k => (n, k)
  let n0 := x.size 0 0
  match dOpcode x.d with
  | 0x0010 =>
    let M := x.size 0 1
    let N := x.size 1 0
    let b := i / N / M
    (List.range n0).flatMap (fun k => [(0, k + n0 * (i / N % M + M * b)), (1, i % N + N * (k + n0 * b))])
      ++ (if dTcount x.d = 4 then [(3, i)] else [])
  | 0x0020 | 0x0073 | 0x0074 => [(0, i)]
  | 0x0021 | 0x0022 => [(0, i), (1, i)]
  | 0x0030 => (1, i % n0) :: row 0
  | 0x0031 => (1, i % n0) :: (2, i % n0) :: row 0
  | 0x0040 => row 0
  | 0x0050 =>
    let r := i / n0
    let within := i % n0
    let j := if rfield x.d 40 1 = 0 then within % (n0 / 2) else within / 2
    let pq := ropePair (rfield x.d 40 1) n0 j
    [(0, n0 * r + pq.1), (0, n0 * r + pq.2), (1, j), (2, r / x.size 0 1 % x.size 0 2)]
  | 0x0060 =>
    let r := i / n0
    let G := x.size 1 1
    let g := r % x.size 0 1 / rfield x.d 42 1
    let (p, pages) := x.rowList (r / x.size 0 1)
    row 0 ++ (List.range (p + 1)).flatMap fun j =>
      (2, poolIdx n0 G pages (i % n0) g j) :: (List.range n0).map fun d => (1, poolIdx n0 G pages d g j)
  | 0x0070 | 0x0072 =>
    let y := dTensor x.d 2
    [(0, crossIdx y (dTensor x.d 0) i (x.raw 1 (colOf y i))), (1, colOf y i)]
  | 0x0071 =>
    let y := dTensor x.d 2
    let src := x.sources (colOf y i)
    if rfield x.d 40 1 = 0 then [(0, crossIdx y (dTensor x.d 0) i (src.getLast?.getD 0))]
    else (2, i) :: src.map fun c => (0, crossIdx y (dTensor x.d 0) i c)
  | 0x0080 => (rowIdx n0 (i / rfield x.d 40 1)).map fun k => (0, k)
  | 0x0081 => (rowIdx n0 i).map (fun k => (0, k)) ++ [(1, 2 * i), (1, 2 * i + 1), (3, 2 * i), (3, 2 * i + 1), (4, i)]
  | 0x0090 =>
    if o.tensor = 2 then [(0, i), (2, i), (5, 1)]
    else if o.tensor = 3 then [(0, i), (3, i), (5, 2)]
    else [(0, i), (1, i), (2, i), (3, i)] ++ all 5
  | _ => []

/-- The elements of a tensor that an operator reads: none of them listed means all of them. -/
def opReads (x : OpIn) (n : Nat) : Option (List Nat) :=
  let y := dTensor x.d 2
  match dOpcode x.d with
  | 0x0070 | 0x0072 =>
    if n = 0 then some ((List.range y.count).map fun i => crossIdx y (dTensor x.d 0) i (x.raw 1 (colOf y i))) else none
  | 0x0071 =>
    if n = 2 then some (if rfield x.d 40 1 = 0 then [] else x.named)
    else if n = 0 ∧ rfield x.d 40 1 = 0 then
      some (x.named.map fun i => crossIdx y (dTensor x.d 0) i ((x.sources (colOf y i)).getLast?.getD 0))
    else none
  | 0x0060 =>
    let D := x.size 0 0
    let G := x.size 1 1
    if n = 1 ∨ n = 2 then
      some ((List.range (x.size 0 2)).flatMap fun r =>
        let (p, pages) := x.rowList r
        (List.range (p + 1)).flatMap fun j => (List.range G).flatMap fun g =>
          (List.range D).map fun d => poolIdx D G pages d g j)
    else if n = 3 then
      some ((List.range (x.size 3 1)).flatMap fun r => [1, 2, 3, 4].map fun w => w + x.size 3 0 * r)
    else none
  | _ => none

/-- The units of a compressed tensor. -/
def TDesc.units (t : TDesc) : Nat := (t.count * 2 + 4095) / 4096

/-- The sectors behind an element: for a compressed tensor, those that the decoder reads of its unit (R236). -/
def State.elemSectors (s : State) (t : TDesc) (i : Nat) : List Nat :=
  if t.compressed then s.unitSectors (t.addr + 4096 * (i / 2048)) else sectorsOf (t.elemAddr i) (esize t.etype)

/-- The sectors that an operator reads of a tensor, each once, rising (R169). A compressed tensor that is also written is read
whole (R225). -/
def State.readSectorsOf (s : State) (x : OpIn) (n : Nat) (role : Role) : List Nat :=
  let t := dTensor x.d n
  match role, opReads x n with
  | .out, _ => []
  | .inp, some is | .io, some is =>
    if t.compressed ∧ role = .io then s.tensorSectors t
    else if t.compressed then ((is.map (· / 2048)).foldl sins []).flatMap fun u => s.unitSectors (t.addr + 4096 * u)
    else (is.flatMap fun i => sectorsOf (t.elemAddr i) (esize t.etype)).foldl sins []
  | _, none => s.tensorSectors t

/-- The flags that an output element raises, with NAN_SEEN where one of its arithmetic inputs is a NaN. -/
def fullFlags (x : OpIn) (o : OutElem) : Nat :=
  let ar := arithTensors x.d
  let seen := (depsOf x o).any fun p => ar.contains p.1 && elemNan (dEtype x.d p.1) (x.raw p.1 p.2)
  (if seen then fNanSeen else 0) ||| o.flags

/-- An output element's exact value depends on a poisoned sector. -/
def State.dependsOnPoison (s : State) (x : OpIn) (o : OutElem) : Bool :=
  (depsOf x o).any fun p => (s.elemSectors (dTensor x.d p.1) p.2).any s.poisoned

end Sys2Proof.Machine
end

