-- ==== Sys2Proof/Machine/Compute.lean ====
section
/-!
DEFINITION. COMPUTE queues (R103 to R118, R186, R187): programs, the stages of an operator, acceptance on tiles, execution and
completion, with WAIT_GATE and INC_GATE.
-/
namespace Sys2Proof.Machine

/-! ### Programs -/

/-- The program of a queue. -/
def State.prog (s : State) (q : Nat) : Option Prog := (s.queue q).prog

/-- The program of a queue changes. -/
def onProg (q : Nat) (g : Prog → Prog) : Eff := onQueue q fun k => { k with prog := k.prog.map g }

/-- A program ends (R107): its completion carries the status, the offset of the operator that set it, and the flags. -/
def progEnd (q status : Nat) : Eff := .read fun s =>
  match s.prog q with
  | some p =>
    .andThen (onQueue q fun k => { k with prog := none })
      (finishCurrent q { status := status, flags := p.flags % 32, detail := p.pos })
  | none => .skip

/-- The descriptor at an offset lies whole in its program. -/
def wholeAt (p : Prog) (d : Nat) : Bool := decide (dTcount d ≤ 7 ∧ p.pos + dLen d ≤ p.len)

/-- Stage 1 of R105: the descriptor at the program's offset is read whole, once. A program at its length without END ends
BAD_DESCRIPTOR (R107), poison ends it POISON, an unknown opcode BAD_OPCODE. -/
def readDesc (q : Nat) (es : List EccEvent) : Eff := .read fun s =>
  match s.prog q with
  | none => .skip
  | some p =>
    if p.len ≤ p.pos then progEnd q 0x11
    else
      let b := s.qOwner q
      let a := p.addr + p.pos
      let n := if wholeAt p (s.num a 64) then dLen (s.num a 64) else 64
      Eff.all
        [ readSectors b (sectorsOf a n) es, actRead b (sectorsOf a n).length,
          .read fun t =>
            if t.anyPoison a n then progEnd q 0x1B
            else if !opcodes.contains (dOpcode (t.num a n)) then progEnd q 0x10
            else onProg q fun p => { p with desc := t.num a n, stage := .read } ]

/-- The current operator completes OK: its increment (R110, R112), GLB_OP_DONE, and the program's next operator or end. -/
def opDone (q : Nat) (es : List EccEvent) : Eff := .read fun s =>
  match s.prog q with
  | none => .skip
  | some p =>
    let b := s.qOwner q
    Eff.all
      [ Eff.when (dIncs p.desc) (addGate b (dIncGate p.desc) (dIncAmount p.desc)), bumpReg (rGlbOpDone b) 64 1,
        if dOpcode p.desc = 0 then progEnd q 0
        else .andThen (onProg q fun p => { p with pos := p.pos + dLen p.desc }) (readDesc q es) ]

/-- RUN_PROGRAM (R186). -/
def effRunProgram (q : Nat) (es : List EccEvent) : Eff := takeUp q (· == 1) fun e => .read fun s =>
  let addr := e.get 16 6
  let len := e.get 24 4
  if e.get 22 2 != 0 || e.get 28 36 != 0 || len % 64 != 0 || len = 0 || decide (2 ^ 20 < len) then
    finish q e.idx { status := 0x11 }
  else
    checkUnits (s.qOwner q) (s.qAsker q) [⟨addr, addr + len - 1, rightR⟩] (fun st => finish q e.idx { status := st })
      (if inHbm addr && inHbm (addr + len - 1) then
        Eff.all
          [ setStage q e.idx .running, onQueue q (fun k => { k with prog := some { addr := addr, len := len } }),
            readDesc q es ]
      else finish q e.idx { status := 0x11 })

/-! ### Waits (R108, R109) -/

/-- A wait has run out: its WAIT_LIMIT-th time mark came with the counter still below the value. -/
def waitExpired (limit marks : Nat) : Bool := limit != 0 && decide (limit ≤ marks)

/-- The wait of a descriptor is satisfied. -/
def State.opWaitMet (s : State) (b d marks : Nat) : Bool :=
  !dWaits d || (s.gateMet b (dWaitGate d) (dWaitValue d) && !waitExpired (dWaitLimit d) marks)

/-- The tick of the time mark that the timebase passed last. -/
def State.markTick (s : State) : Nat := s.now / 65536 * 65536

/-- One time mark, at tick `now`, for a wait: it counts where it falls after the wait began and the counter is still below the value. -/
def markOne (met : Bool) (limit marks since now : Nat) : Nat :=
  if met || waitExpired limit marks || decide (now ≤ since) then marks else marks + 1

/-- A time mark passes for the waits of a queue. -/
def State.markQueue (s : State) (q : Nat) (k : Queue) : Queue :=
  let b := s.qOwner q
  let prog := k.prog.map fun p =>
    match p.stage with
    | .gateWait m t =>
      if dWaits p.desc then
        { p with stage := .gateWait (markOne (s.gateMet b (dWaitGate p.desc) (dWaitValue p.desc)) (dWaitLimit p.desc) m t s.markTick) t }
      else p
    | _ => p
  let owed := k.owed.map fun e =>
    match e.stage with
    | .gateWait m t =>
      if e.cmd = 0x20 then
        { e with stage := .gateWait (markOne (s.gateMet b (e.get 16 1) (e.get 24 8)) (e.get 20 4) m t s.markTick) t }
      else e
    | _ => e
  { k with prog := prog, owed := owed }

/-- A time mark passes for every wait of queues and epochs. -/
def markWaits : Eff := .read fun s =>
  .andThen (onWork fun w => { w with queues := w.queues.map fun e => (e.1, s.markQueue e.1 e.2) })
    (onWhf fun w =>
      { w with sets := w.sets.map fun e =>
          (e.1, { e.2 with
            epoch := e.2.epoch.map fun r =>
              if s.setState e.1 = 2 then
                { r with marks := markOne (s.gateMet (s.setOwner e.1) r.gate r.value) r.limit r.marks r.since s.markTick }
              else r }) })

/-! ### The opcode rows: stages 2 and 3 of R105 -/

/-- An operator of the opcode given, whose descriptor has been read, takes its static check and begins its wait. END and NOP,
which run nothing, complete at once where the wait is satisfied. -/
def effOpcode (op q : Nat) (es : List EccEvent) : Eff := .read fun s =>
  match s.prog q with
  | none => .skip
  | some p =>
    if p.stage != .read || dOpcode p.desc != op then .skip
    else match staticCheck s.chipId s.hasRoute (wholeAt p p.desc) p.desc with
      | some st => progEnd q st
      | none =>
        if op ≤ 1 ∧ s.opWaitMet (s.qOwner q) p.desc 0 = true then opDone q es
        else onProg q fun p => { p with stage := .gateWait 0 s.now }

/-- GATE_TIMEOUT (R109): the current operator, or a WAIT_GATE, whose wait has run out. -/
def effGateTimeout (q : Nat) : Eff := .read fun s =>
  match s.prog q with
  | some p => match p.stage with
    | .gateWait m _ => if dWaits p.desc && waitExpired (dWaitLimit p.desc) m then progEnd q 0x19 else .skip
    | _ => .skip
  | none =>
    match s.current q with
    | some e => match e.stage with
      | .gateWait m _ => if waitExpired (e.get 20 4) m then finish q e.idx { status := 0x19 } else .skip
      | _ => .skip
    | none => .skip

/-! ### The data check: stage 4 of R105 (R126, R127, R129, R130, R664) -/

/-- What the data check has captured, and how many sectors of page lists it has read: a page list is no tensor of the descriptor, so
its reads count on their own (R169). -/
structure Checked where
  tables : Map Captured := []
  idx : Map (List Nat) := []
  lists : Nat := 0

/-- The rights a role needs (Table 5.3). -/
def Role.rights : Role → Nat
  | .inp => rightR
  | .out => rightW
  | .io => rightR + rightW

/-- The codec tables of the compressed tensors, in order (R224). An in-place tensor expands and compresses. -/
def State.captureTables (s : State) (b : Nat) : List (Nat × Role × Nat) → Option (Map Captured)
  | [] => some []
  | (n, r, t) :: rest =>
    match s.captureTable b t (r == .out), s.captureTables b rest with
    | some c, some m => some (mput m n c)
    | _, _ => none

/-- The sectors of a list of elements, read one by one as the basin, for the errors given. `bad` runs at the first poisoned
element; `k` gets the elements. -/
def readIdx (b : Nat) (t : TDesc) (lens : List Nat) (es : List EccEvent) (is : List Nat) (seen : List Nat)
    (bad : List Nat → Eff) (k : List Nat → List Nat → Eff) : Eff :=
  match is with
  | [] => k [] seen
  | i :: rest => .read fun s =>
    let secs := s.elemSectors t i
    let fresh := secs.filter fun p => !seen.contains p
    .andThen (readSectors b fresh es) (.read fun u =>
      if secs.any u.poisoned then bad (secs.foldl sins seen)
      else
        let v := if t.compressed then (u.readElems t lens).getD i 0 else u.num (t.elemAddr i) (esize t.etype)
        readIdx b t lens es rest (secs.foldl sins seen) bad fun vs seen => k (v :: vs) seen)

/-- The end of a data check that fails: what it read counts as activity, and the program ends. -/
def checkFails (q b : Nat) (sectors : List Nat) (st : Nat) : Eff := .andThen (actRead b sectors.length) (progEnd q st)

/-- The index elements under R127: each below the size of dimension 1 of the table or destination. -/
def checkIndex (q b d n of : Nat) (lens : List Nat) (es : List EccEvent) (c : Checked) (k : Checked → Eff) : Nat → List Nat →
    List Nat → Eff
  | 0, vs, _ => k { c with idx := mput c.idx n vs.reverse }
  | left + 1, vs, seen =>
    let t := dTensor d n
    readIdx b t lens es [t.count - (left + 1)] seen (fun seen => checkFails q b seen 0x1B) fun v seen =>
      if (dTensor d of).size 1 ≤ v.headD 0 then checkFails q b seen 0x18
      else checkIndex q b d n of lens es c k left (v.headD 0 :: vs) seen

/-- One row of SAMPLE under R129: T, then top_p, then top_k. -/
def sampleRowOk (V T topP topK : Nat) : Bool :=
  finBf T (fun q => decide (0 ≤ q)) && finBf topP (fun q => decide (0 < q ∧ q ≤ 1)) && decide (topK ≤ V)

/-- The rows of SAMPLE. A row's temperature, top_p and top_k are read and checked in that order. -/
def checkSample (q b d : Nat) (lens3 : List Nat) (es : List EccEvent) (c : Checked) (k : Checked → Eff) : Nat → List Nat →
    List Nat → List Nat → Eff
  | 0, ps, ks, _ => k { c with idx := mput (mput c.idx 3 ps.reverse) 4 ks.reverse }
  | left + 1, ps, ks, seen =>
    let r := (dTensor d 4).count - (left + 1)
    let V := (dTensor d 0).size 0
    let t3 := dTensor d 3
    let poison (seen : List Nat) : Eff := checkFails q b seen 0x1B
    readIdx b t3 lens3 es [2 * r] seen poison fun T seen =>
      if !finBf (T.headD 0) (fun x => decide (0 ≤ x)) then checkFails q b seen 0x15
      else readIdx b t3 lens3 es [2 * r + 1] seen poison fun P seen =>
        if !finBf (P.headD 0) (fun x => decide (0 < x ∧ x ≤ 1)) then checkFails q b seen 0x15
        else readIdx b (dTensor d 4) [] es [r] seen poison fun K seen =>
          if V < K.headD 0 then checkFails q b seen 0x15
          else checkSample q b d lens3 es c k left (P.headD 0 :: T.headD 0 :: ps) (K.headD 0 :: ks) seen

/-- The page list of a row under R126: the whole list against the locks, its length, and its first entries one by one. -/
def checkPages (q b d : Nat) (es : List EccEvent) (addr need : Nat) (k : List Nat → List Nat → Eff) : Nat → List Nat →
    List Nat → Eff
  | 0, vs, seen => k vs.reverse seen
  | left + 1, vs, seen =>
    let a := addr + 4 * (need - (left + 1))
    let secs := sectorsOf a 4
    let next (v : Nat) (seen : List Nat) : Eff :=
      if (dTensor d 1).size 3 ≤ v then checkFails q b seen 0x18
      else checkPages q b d es addr need k left (v :: vs) seen
    if inHbm a then
      .andThen (readSectors b (secs.filter fun p => !seen.contains p) es) (.read fun s =>
        if secs.any s.poisoned then checkFails q b (secs.foldl sins seen) 0x1B
        else next (s.num a 4) (secs.foldl sins seen))
    else withFree fun v => next (v % 2 ^ 32) seen

/-- The rows of ATTN_PAGED under R126. All four words of a row are read, and poison in any of them ends it, before the position is
judged; an empty page list has no byte to check and ends INDEX_RANGE by its length (both DESIGN CHOICE, log entry 91). -/
def checkRows (q b d : Nat) (ask : Asker) (es : List EccEvent) (c : Checked) (k : Checked → Eff) : Nat → List Nat → Eff
  | 0, _ => k c
  | left + 1, seen =>
    let t := dTensor d 3
    let r := t.size 1 - (left + 1)
    readIdx b t [] es ([1, 2, 3, 4].map fun w => w + t.size 0 * r) seen (fun seen => checkFails q b seen 0x1B) fun w seen =>
      let p := w.getD 0 0
      let addr := w.getD 1 0 + w.getD 2 0 * 2 ^ 32
      let len := w.getD 3 0
      let need := p / 64 + 1
      let lock := if len = 0 then [] else [AccUnit.mk addr (addr + 4 * len - 1) rightR]
      if 65536 ≤ p then checkFails q b seen 0x13
      else checkUnits b ask lock (fun st => checkFails q b seen st)
        (if len < need then checkFails q b seen 0x18
         else checkPages q b d es addr need (fun pages seen =>
           let secs := ((List.range need).flatMap fun j => sectorsOf (addr + 4 * j) 4).filter inHbm
           checkRows q b d ask es
             { c with idx := mput c.idx (8 + r) (p :: pages), lists := c.lists + (secs.foldl sins []).length }
             k left seen) need [] seen)

/-- The elements of hyper in canonical order from `i` on, `left` of them: eps (element 3) not negative, bc1 and bc2 (5 and 6) greater
than zero (R130, R664). -/
def checkHyper (q b d : Nat) (es : List EccEvent) (c : Checked) (k : Checked → Eff) : Nat → List Nat → Eff
  | 0, _ => k c
  | left + 1, seen =>
    let i := 7 - (left + 1)
    readIdx b (dTensor d 5) [] es [i] seen (fun seen => checkFails q b seen 0x1B) fun vs seen =>
      let pos (x : Val) : Bool := match x with | .fin _ r => decide (0 < r) | .inf n => !n | .nan _ => false
      let neg (x : Val) : Bool := match x with | .fin _ r => decide (r < 0) | .inf n => n | .nan _ => false
      let v := (poundOf (elemTerms 1 (vs.headD 0))).val
      if (i == 3 && neg v) || (decide (5 ≤ i) && !pos v) then checkFails q b seen 0x15
      else checkHyper q b d es c k left seen

/-- The index elements and row parameters that an operator reads (R126, R127, R129, R130). -/
def checkData (q b d : Nat) (ask : Asker) (es : List EccEvent) (c : Checked) (k : Checked → Eff) : Eff :=
  match dOpcode d with
  | 0x0060 => checkRows q b d ask es c k ((dTensor d 3).size 1) []
  | 0x0070 | 0x0072 => checkIndex q b d 1 0 [] es c k (dTensor d 1).count [] []
  | 0x0071 => checkIndex q b d 1 2 [] es c k (dTensor d 1).count [] []
  | 0x0081 =>
    checkSample q b d ((mget? c.tables 3).map (·.lens) |>.getD []) es c k (dTensor d 4).count [] [] []
  | 0x0090 => checkHyper q b d es c k 7 []
  | _ => k c

/-- Stage 4 whole: locks in tensor order, codec tables, then index elements and row parameters. -/
def dataCheck (q d : Nat) (es : List EccEvent) (k : Checked → Eff) : Eff := .read fun s =>
  let b := s.qOwner q
  let ask := s.qAsker q
  let units := (dTensors d).map fun x => AccUnit.mk x.2.2.extent.1 x.2.2.extent.2 x.2.1.role.rights
  checkUnits b ask units (fun st => progEnd q st)
    (match s.captureTables b (((dTensors d).filter fun x => x.2.2.compressed).map fun x => (x.1, x.2.1.role, x.2.2.table)) with
      | none => progEnd q 0x11
      | some m => checkData q b d ask es { tables := m } k)

/-! ### Acceptance: stage 5 -/

/-- The operators that wait for tiles: their wait is satisfied and they run on tiles. -/
def State.tileReady (s : State) (q : Nat) : Bool :=
  match s.prog q with
  | some p => match p.stage with
    | .gateWait m _ => decide (0x10 ≤ dOpcode p.desc) && s.opWaitMet (s.qOwner q) p.desc m
    | _ => false
  | none => false

/-- A node sum of a basin waits for a tile (R302). -/
def State.sumWaits (s : State) (b : Nat) : Bool := (mget {} s.dev.rnk.basins b).sums.any fun x => x.tile.isNone

/-- What is ready for tiles: a COMPUTE queue whose next operator may be granted them, or whose next entry is still to be fetched or started;
and the rank engine's work of each basin (R196, R302). -/
def State.tileQueues (s : State) : List Nat :=
  ((List.range 256).filter fun q => s.tileReady q || (s.qKind q == 0 && ((s.startable q).isSome || s.mayFetch q)))
    ++ ((List.range 16).filter s.sumWaits).map rankUser

/-- A tile that is in service and runs nothing. -/
def State.tileFree (s : State) (t : Nat) : Bool := decide (t < 96) && s.tileState t == 0 && !s.tileBusy t && !s.sumOn t

/-- Tiles that an operator may be given. -/
def State.tilesFree (s : State) (ts : List Nat) : Bool := !ts.isEmpty && ts.all s.tileFree

/-- GATE_RINC sends its barge (R114 to R116), or waits for a flow entry (R275). -/
def sendRinc (q d : Nat) : Eff := .read fun s =>
  let dest := rfield d 40 2
  let cls := rfield d 43 1
  let b := s.qOwner q
  let f := flowKey q dest cls
  let hdr := bargeHdr 0x03 cls false s.chipId q 0 dest b 0 (rfield d 42 1 + rfield d 44 4 * 2 ^ 32) 0
  if s.flowBroken f then progEnd q 0x1E
  else if !s.canFlow f then countAt 0x38 0
  else .andThen (needFlow f) (.read fun s =>
    match s.flow? f with
    | some x =>
      if x.state = 2 then progEnd q 0x1E
      else .andThen (onProg q fun p => { p with stage := .remote x.next x.gen }) (enqueueFlow f hdr [])
    | none => .skip)

/-- OPERATOR_ACCEPT: an operator whose wait is satisfied goes on. END and NOP complete, GATE_RINC sends its barge, and any
other, granted these tiles, passes its data check, captures GLB_SEED and starts (R105, R163). -/
def effOperatorAccept (q : Nat) (tiles : List Nat) (es : List EccEvent) : Eff := .read fun s =>
  match s.prog q with
  | none => .skip
  | some p =>
    match p.stage with
    | .gateWait m _ =>
      let b := s.qOwner q
      if !s.opWaitMet b p.desc m then .skip
      else if dOpcode p.desc ≤ 1 then opDone q es
      else if dOpcode p.desc = 2 then sendRinc q p.desc
      else if !s.tilesFree tiles then .skip
      else granted 0 State.tileQueues q (dataCheck q p.desc es fun c => .read fun s =>
        Eff.all
          [ onProg q (fun p =>
              { p with stage := PStage.running (RunOp.mk (s.reg (rGlbSeed b)).toNat tiles c.tables c.idx false) }),
            Eff.each tiles fun t => onTile t (Tile.enter b),
            actRead b c.lists ])
    | _ => .skip

/-! ### Execution and completion: stages 6 to 8 -/

/-- The elements of an operator's tensors as it reads them; what the data check captured stands in for what it read. -/
def State.opIn (s : State) (d : Nat) (r : RunOp) : OpIn :=
  let e (x : Nat × TRole × TDesc) : Elems :=
    match mget? r.idx x.1, x.2.1.role with
    | some vs, _ => vs.toArray
    | none, .out => #[]
    | none, _ => s.readElems x.2.2 ((mget? r.tables x.1).map (·.lens) |>.getD [])
  { d := d, e := (dTensors d).map e, seed := r.seed,
    lists := if dOpcode d = 0x60 then (List.range ((dTensor d 3).size 1)).map fun i => mget [] r.idx (8 + i) else [] }

/-- The output elements that a free value lets through: bit i for element i (R132, log entry 4). -/
def someOf (v : Nat) (os : List OutElem) : List OutElem :=
  ((List.range os.length).zip os).filterMap fun p => if bitOf v p.1 then some p.2 else none

/-- The sectors of an output element of an uncompressed tensor; none of a compressed one, whose units are written whole (R225). -/
def outSectors (tens : Nat → TDesc) (o : OutElem) : List Nat :=
  let t := tens o.tensor
  if t.compressed then [] else sectorsOf (t.elemAddr o.idx) (esize t.etype)

/-- The bytes of an output element of an uncompressed tensor. -/
def outBytes (tens : Nat → TDesc) (o : OutElem) : List Nat :=
  let t := tens o.tensor
  if t.compressed then [] else (List.range (esize t.etype)).map fun i => t.elemAddr o.idx + i

/-- The sectors that output elements occupy, and those of them that they do not cover whole, whatever tensors they are of (R661). -/
def outCover (tens : Nat → TDesc) (os : List OutElem) : List Nat × List Nat :=
  let secs := (os.flatMap (outSectors tens)).foldl sins []
  let bytes := os.flatMap (outBytes tens)
  (secs, secs.filter fun p => (bytes.filter fun a => sectorOf a == p).eraseDups.length != 32)

/-- The output elements that poison lets be written: none that has a byte in a poisoned sector which the elements to be written cover
only in part (R661), judged over every tensor together. Each element withheld may leave another sector covered in part. -/
def State.writable (s : State) (tens : Nat → TDesc) : Nat → List OutElem → List OutElem
  | 0, os => os
  | n + 1, os =>
    let held := (outCover tens os).2.filter s.poisoned
    if held.isEmpty then os else s.writable tens n (os.filter fun o => !((outSectors tens o).any held.contains))

/-- Poison withholds some output element of an operator (R661), judged over all its elements. -/
def State.withheld (s : State) (d : Nat) (all : List OutElem) : Bool :=
  (s.writable (dTensor d) all.length all).length != all.length

/-- The poison of the sectors that output elements cover whole is cleared, before any of them is written; none of them meets a poisoned
sector then. -/
def clearCovered (tens : Nat → TDesc) (os : List OutElem) : Eff :=
  let c := outCover tens os
  Eff.each (c.1.filter fun p => !c.2.contains p) fun p => .act (.poison p false)

/-- Elements of an uncompressed tensor are written, and count as activity. -/
def writeElems (b : Nat) (t : TDesc) (os : List OutElem) : Eff :=
  let n := esize t.etype
  .andThen (Eff.each os fun o => writeHbm (t.elemAddr o.idx) (leBytes n o.raw))
    (actWrite b ((os.flatMap fun o => sectorsOf (t.elemAddr o.idx) n).foldl sins []).length)

/-- The 4,096 bytes of a unit of a compressed output: new elements, others as they were, and free bytes beyond the tensor. -/
def unitBytes (t : TDesc) (old : Elems) (os : List OutElem) (v u : Nat) : List Byte :=
  (List.range 2048).flatMap fun j =>
    let i := 2048 * u + j
    if t.count ≤ i then leBytes 2 (bitsOf v (16 * j) 16)
    else leBytes 2 ((os.find? fun o => o.idx == i).map (·.raw) |>.getD (old.getD i 0))

/-- Units of a compressed output are written through the compressor (R225). -/
def writeUnits (b : Nat) (t : TDesc) (c : Captured) (old : Elems) (os : List OutElem) (us : List Nat) : Eff :=
  Eff.each us fun u => withFree fun v => compressTo b (t.addr + 4096 * u) c (unitBytes t old os v u)

/-- The outputs of one tensor, whole or in the part that an early end has let be written (R132, R225). -/
def writeTensor (b : Nat) (x : OpIn) (r : RunOp) (n : Nat) (all os : List OutElem) (early : Bool) (dep : OutElem → Bool) : Eff :=
  let t := dTensor x.d n
    if t.compressed then
      let us := List.range t.units
      let bad (u : Nat) : Bool := (all.filter fun o => o.idx / 2048 == u).any dep
      match mget? r.tables n with
      | some c =>
        if early then withFree fun v => writeUnits b t c (x.e.getD n #[]) all (us.filter fun u => bitOf v u && !bad u)
        else writeUnits b t c (x.e.getD n #[]) all us
      | none => .skip
    else writeElems b t os

/-- The tensors that an operator writes. -/
def outTensors (d : Nat) : List Nat := ((dTensors d).filter fun x => x.2.1.role != .inp).map (·.1)

/-- Writes to the outputs wait for a copy-on-write copy (R389). -/
def State.opCow (s : State) (d : Nat) : Bool :=
  (outTensors d).any fun n => s.cowWait (dTensor d n).extent.1 ((dTensor d n).extent.2 + 1 - (dTensor d n).extent.1)

/-- The outputs of an operator, but for the elements that poison withholds (R661). TOPK alone writes two tensors that may overlap; the
order of its writes is then left open. -/
def writeOutputs (b : Nat) (x : OpIn) (r : RunOp) (all os : List OutElem) (early : Bool) (dep : OutElem → Bool) : Eff := .read fun s =>
  let tens := dTensor x.d
  let keep := s.writable tens all.length all
  let put := s.writable tens os.length (os.filter keep.contains)
  let one (n : Nat) : Eff := writeTensor b x r n (all.filter (·.tensor == n)) (put.filter (·.tensor == n)) early dep
  .andThen (clearCovered tens put)
    (if dOpcode x.d = 0x80 && overlap (dTensor x.d 1).extent (dTensor x.d 2).extent then
      withFree fun v => Eff.each (if v % 2 = 0 then [1, 2] else [2, 1]) one
    else Eff.each (outTensors x.d) one)

/-- The flags of an operator's rounding points join its program's and its basin's (R70, R107). -/
def opFlags (q b f : Nat) : Eff := .andThen (onProg q fun p => { p with flags := p.flags ||| f }) (raiseFlags b f)

/-- An operator leaves its tiles. -/
def leaveTiles (q : Nat) (ts : List Nat) : Eff :=
  .andThen (onProg q fun p => { p with stage := .read }) (tileBoundary ts)

/-- Some of an operator's outputs are written as it ends early: a free choice among those that depend on no poison (R132,
R665) and rest on no pound with a parity mismatch (`hit`, R76). Its flags are those of a free choice of its elements, its activity a
free part of its reads. -/
def endEarly (q b : Nat) (x : OpIn) (r : RunOp) (reads : List Nat) (hit : List (Nat × Nat)) : Eff := .read fun s =>
  let all := opOuts x
  let dep (o : OutElem) : Bool := hit.contains (o.tensor, o.idx) || s.dependsOnPoison x o
  withFree fun v => withFree fun w =>
    let os := someOf v (all.filter fun o => !dep o)
    Eff.all
      [ writeOutputs b x r all os true dep, actRead b (w % (reads.length + 1)),
        opFlags q b ((someOf v (all.filter fun o => !dep o)).foldl (fun f o => f ||| fullFlags x o) 0), leaveTiles q r.tiles ]

/-- The reads of an operator that meets poisoned sectors count at its basin's source (R155). It ends POISON; how many of them it
has read by then is left open, one at least (log entry 4). -/
def poisonReads (b : Nat) (reads : List Nat) : Eff := .read fun s =>
  let n := (reads.filter s.poisoned).length
  if n = 0 then .skip else withFree fun v => Eff.each (List.range (1 + v % n)) fun _ => countAt (0x90 + b) 0

/-- The current operator of a program is cut short by a reset or a disable (R132, R665). An operator that executes ends POISON if
it has met poison, in what it reads or in an output sector that it may not write (left open), TILE_FAULT if a tile fault has reached it,
and ABORTED otherwise; its handshakes so far are left open. -/
def abortProg (q : Nat) : Eff := .read fun s =>
  match s.prog q with
  | none => .skip
  | some p =>
    match p.stage with
    | .running r =>
      let b := s.qOwner q
      let x := s.opIn p.desc r
      let reads := (dTensors p.desc).flatMap fun t => s.readSectorsOf x t.1 t.2.1.role
      let st := if r.faulted then 0x1A else 0x1C
      withFree fun v => withFree fun mx => withFree fun vx =>
        let read := reads.any s.poisoned && v % 2 == 1
        let met := read || (s.withheld p.desc (opOuts x) && v / 2 % 2 == 1)
        Eff.all
          [ bumpReg (rPacActMx b) 64 mx, bumpReg (rPacActVx b) 64 vx, Eff.when read (poisonReads b reads),
            endEarly q b x r reads [], progEnd q (if met then 0x1B else st) ]
    | _ => progEnd q 0x1C

/-- OPERATOR_COMPLETE (R110): the operator's reads, faults and outputs, its increment, and its completion. -/
def effOperatorComplete (q : Nat) (rep : OpReport) : Eff := .read fun s =>
  match s.prog q with
  | none => .skip
  | some p =>
    match p.stage with
    | .running r =>
      let b := s.qOwner q
      let d := p.desc
      if s.opCow d then .skip
      else
        let x0 := s.opIn d r
        let reads := (dTensors d).flatMap fun t => s.readSectorsOf x0 t.1 t.2.1.role
        let parts := (outCover (dTensor d) (opOuts x0)).2
        let ours (e : Nat × Nat) : Bool := r.tiles.contains e.1 && (e.2 == 0 || e.2 == 4 || e.2 == 5)
        let fault := r.faulted || rep.faults.any fun e => ours e && (e.2 == 0 || e.2 == 5)
        Eff.all
          [ bumpReg (rPacActMx b) 64 rep.mx, bumpReg (rPacActVx b) 64 rep.vx,
            poisonReads b reads, sectorErrors reads.contains rep.es,
            sectorErrors (fun p => !reads.contains p && parts.contains p) rep.es,
            Eff.each (rep.faults.filter ours) fun e => countAt e.2 e.1,
            .read fun t =>
              let x := t.opIn d r
              let all := opOuts x
              let held := t.withheld d all
              if reads.any t.poisoned then .andThen (endEarly q b x r reads rep.hit) (progEnd q 0x1B)
              else if fault then .andThen (endEarly q b x r reads rep.hit) (progEnd q (if held then 0x1B else 0x1A))
              else
                Eff.all
                  [ actRead b reads.length, writeOutputs b x r all all false (fun _ => false),
                    opFlags q b (all.foldl (fun f o => f ||| fullFlags x o) 0), leaveTiles q r.tiles,
                    if held then progEnd q 0x1B else opDone q rep.es ] ]
    | _ => .skip

/-! ### WAIT_GATE and INC_GATE (R187) -/

/-- WAIT_GATE. Its completion comes with this command where the wait is satisfied; otherwise the wait begins. -/
def effWaitGate (q : Nat) : Eff := .read fun s =>
  let b := s.qOwner q
  let met (e : Entry) : Bool := s.gateMet b (e.get 16 1) (e.get 24 8)
  match s.current q with
  | some e =>
    match e.stage with
    | .gateWait m _ => if met e && !waitExpired (e.get 20 4) m then finish q e.idx { status := 0 } else .skip
    | _ =>
      takeUp q (· == 0x20) fun e =>
        if e.get 17 3 != 0 || e.get 32 32 != 0 then finish q e.idx { status := 0x11 }
        else if met e then finish q e.idx { status := 0 }
        else setStage q e.idx (.gateWait 0 s.now)
  | none => .skip

/-- INC_GATE. An AMOUNT of 0 is malformed; which status says so is left open (log entry 4). -/
def effIncGate (q : Nat) : Eff := takeUp q (· == 0x21) fun e => .read fun s =>
  if e.get 17 3 != 0 || e.get 24 40 != 0 then finish q e.idx { status := 0x11 }
  else if e.get 20 4 = 0 then withFree fun v => finish q e.idx { status := if v % 2 = 0 then 0x11 else 0x15 }
  else .andThen (addGate (s.qOwner q) (e.get 16 1) (e.get 20 4)) (finish q e.idx { status := 0 })

/-! ### The meanings -/

/-- END takes its static check and begins its wait (R105); OPERATOR_ACCEPT and OPERATOR_COMPLETE carry it on. -/
def execEndProgram (q : Nat) (es : List EccEvent) (s : State) : Host.Outcome State Fault Refusal := (effOpcode 0x0000 q es).done s
/-- NOP takes its static check and begins its wait (R105); OPERATOR_ACCEPT and OPERATOR_COMPLETE carry it on. -/
def execNop (q : Nat) (es : List EccEvent) (s : State) : Host.Outcome State Fault Refusal := (effOpcode 0x0001 q es).done s
/-- GATE_RINC takes its static check and begins its wait (R105); OPERATOR_ACCEPT and OPERATOR_COMPLETE carry it on. -/
def execGateRinc (q : Nat) (es : List EccEvent) (s : State) : Host.Outcome State Fault Refusal := (effOpcode 0x0002 q es).done s
/-- MATMUL takes its static check and begins its wait (R105); OPERATOR_ACCEPT and OPERATOR_COMPLETE carry it on. -/
def execMatmul (q : Nat) (es : List EccEvent) (s : State) : Host.Outcome State Fault Refusal := (effOpcode 0x0010 q es).done s
/-- EW_UNARY takes its static check and begins its wait (R105); OPERATOR_ACCEPT and OPERATOR_COMPLETE carry it on. -/
def execEwUnary (q : Nat) (es : List EccEvent) (s : State) : Host.Outcome State Fault Refusal := (effOpcode 0x0020 q es).done s
/-- EW_BINARY takes its static check and begins its wait (R105); OPERATOR_ACCEPT and OPERATOR_COMPLETE carry it on. -/
def execEwBinary (q : Nat) (es : List EccEvent) (s : State) : Host.Outcome State Fault Refusal := (effOpcode 0x0021 q es).done s
/-- EW_GLU takes its static check and begins its wait (R105); OPERATOR_ACCEPT and OPERATOR_COMPLETE carry it on. -/
def execEwGlu (q : Nat) (es : List EccEvent) (s : State) : Host.Outcome State Fault Refusal := (effOpcode 0x0022 q es).done s
/-- RMSNORM takes its static check and begins its wait (R105); OPERATOR_ACCEPT and OPERATOR_COMPLETE carry it on. -/
def execRmsnorm (q : Nat) (es : List EccEvent) (s : State) : Host.Outcome State Fault Refusal := (effOpcode 0x0030 q es).done s
/-- LAYERNORM takes its static check and begins its wait (R105); OPERATOR_ACCEPT and OPERATOR_COMPLETE carry it on. -/
def execLayernorm (q : Nat) (es : List EccEvent) (s : State) : Host.Outcome State Fault Refusal := (effOpcode 0x0031 q es).done s
/-- SOFTMAX takes its static check and begins its wait (R105); OPERATOR_ACCEPT and OPERATOR_COMPLETE carry it on. -/
def execSoftmax (q : Nat) (es : List EccEvent) (s : State) : Host.Outcome State Fault Refusal := (effOpcode 0x0040 q es).done s
/-- ROPE takes its static check and begins its wait (R105); OPERATOR_ACCEPT and OPERATOR_COMPLETE carry it on. -/
def execRope (q : Nat) (es : List EccEvent) (s : State) : Host.Outcome State Fault Refusal := (effOpcode 0x0050 q es).done s
/-- ATTN_PAGED takes its static check and begins its wait (R105); OPERATOR_ACCEPT and OPERATOR_COMPLETE carry it on. -/
def execAttnPaged (q : Nat) (es : List EccEvent) (s : State) : Host.Outcome State Fault Refusal := (effOpcode 0x0060 q es).done s
/-- GATHER takes its static check and begins its wait (R105); OPERATOR_ACCEPT and OPERATOR_COMPLETE carry it on. -/
def execGather (q : Nat) (es : List EccEvent) (s : State) : Host.Outcome State Fault Refusal := (effOpcode 0x0070 q es).done s
/-- SCATTER takes its static check and begins its wait (R105); OPERATOR_ACCEPT and OPERATOR_COMPLETE carry it on. -/
def execScatter (q : Nat) (es : List EccEvent) (s : State) : Host.Outcome State Fault Refusal := (effOpcode 0x0071 q es).done s
/-- EMBED takes its static check and begins its wait (R105); OPERATOR_ACCEPT and OPERATOR_COMPLETE carry it on. -/
def execEmbed (q : Nat) (es : List EccEvent) (s : State) : Host.Outcome State Fault Refusal := (effOpcode 0x0072 q es).done s
/-- TRANSPOSE takes its static check and begins its wait (R105); OPERATOR_ACCEPT and OPERATOR_COMPLETE carry it on. -/
def execTranspose (q : Nat) (es : List EccEvent) (s : State) : Host.Outcome State Fault Refusal := (effOpcode 0x0073 q es).done s
/-- IDX_TO_BF16 takes its static check and begins its wait (R105); OPERATOR_ACCEPT and OPERATOR_COMPLETE carry it on. -/
def execIdxToBf16 (q : Nat) (es : List EccEvent) (s : State) : Host.Outcome State Fault Refusal := (effOpcode 0x0074 q es).done s
/-- TOPK takes its static check and begins its wait (R105); OPERATOR_ACCEPT and OPERATOR_COMPLETE carry it on. -/
def execTopk (q : Nat) (es : List EccEvent) (s : State) : Host.Outcome State Fault Refusal := (effOpcode 0x0080 q es).done s
/-- SAMPLE takes its static check and begins its wait (R105); OPERATOR_ACCEPT and OPERATOR_COMPLETE carry it on. -/
def execSample (q : Nat) (es : List EccEvent) (s : State) : Host.Outcome State Fault Refusal := (effOpcode 0x0081 q es).done s
/-- OPT_STEP takes its static check and begins its wait (R105); OPERATOR_ACCEPT and OPERATOR_COMPLETE carry it on. -/
def execOptStep (q : Nat) (es : List EccEvent) (s : State) : Host.Outcome State Fault Refusal := (effOpcode 0x0090 q es).done s
/-- RUN_PROGRAM. -/
def execRunProgram (q : Nat) (es : List EccEvent) (s : State) : Host.Outcome State Fault Refusal := (effRunProgram q es).done s
/-- OPERATOR_ACCEPT. -/
def execOperatorAccept (q : Nat) (tiles : List Nat) (es : List EccEvent) (s : State) : Host.Outcome State Fault Refusal :=
  (effOperatorAccept q tiles es).done s
/-- OPERATOR_COMPLETE. -/
def execOperatorComplete (q : Nat) (rep : OpReport) (s : State) : Host.Outcome State Fault Refusal :=
  (effOperatorComplete q rep).done s
/-- GATE_TIMEOUT. -/
def execGateTimeout (q : Nat) (s : State) : Host.Outcome State Fault Refusal := (effGateTimeout q).done s
/-- WAIT_GATE. -/
def execWaitGate (q : Nat) (s : State) : Host.Outcome State Fault Refusal := (effWaitGate q).done s
/-- INC_GATE. -/
def execIncGate (q : Nat) (s : State) : Host.Outcome State Fault Refusal := (effIncGate q).done s

end Sys2Proof.Machine
end

