-- ==== Sys2Proof/Machine/ServeReq.lean ====
section
/-!
DEFINITION. Serving (chapter 10): the request table, pages and reference counts, the prefix index and handles, and how a
request ends.
-/
namespace Sys2Proof.Machine

/-! ### State -/

/-- The serving engine's hidden state changes. -/
def onSrv (g : Serve → Serve) : Eff := onDev fun d => { d with srv := g d.srv }

/-- A basin's serving state. -/
def Serve.basin (v : Serve) (b : Nat) : SrvBasin := mget {} v.basins b
/-- A request-table entry. -/
def Serve.req (v : Serve) (e : Nat) : Req := mget {} v.reqs e
/-- A request-table entry changes. -/
def Serve.upd (v : Serve) (e : Nat) (g : Req → Req) : Serve := { v with reqs := mset {} v.reqs e (g (v.req e)) }
/-- A basin's serving state changes. -/
def Serve.updBasin (v : Serve) (b : Nat) (g : SrvBasin → SrvBasin) : Serve := { v with basins := mset {} v.basins b (g (v.basin b)) }

/-- A basin's serving state. -/
def State.srvBasin (s : State) (b : Nat) : SrvBasin := s.dev.srv.basin b
/-- A request-table entry. -/
def State.req (s : State) (e : Nat) : Req := s.dev.srv.req e
/-- SRV_STATE_b.STATE: 0 UNCONFIGURED, 1 SERVING, 2 FAULT. -/
def State.srvState (s : State) (b : Nat) : Nat := s.fld (rSrvState b) 0 2
/-- SRV_CFG_b.SLOT_BASE. -/
def State.slotBase (s : State) (b : Nat) : Nat := s.fld (rSrvCfg b) 0 12
/-- SRV_CFG_b.REQ_QUOTA. -/
def State.reqQuota (s : State) (b : Nat) : Nat := s.fld (rSrvCfg b) 12 13
/-- SRV_CFG_b.MODE is TENDED. -/
def State.tended (s : State) (b : Nat) : Bool := s.bit (rSrvCfg b) 58
/-- The slots of a basin. -/
def State.slots (s : State) (b : Nat) : List Nat := (List.range (s.reqQuota b)).map fun i => s.slotBase b + i
/-- The handles of a basin (Table 10.1). -/
def State.handleNums (s : State) (b : Nat) : List Nat :=
  (List.range (s.fld (rSrvState b) 13 11)).map fun i => s.fld (rSrvState b) 3 10 + i

/-- The 128 bytes of a request-table entry (Table 10.5). -/
def Req.bytes (r : Req) : List Byte :=
  leBytes 1 (r.state + r.prio * 16 + b2n r.cancel * 128) ++ leBytes 1 (r.basin + r.flags * 16) ++ leBytes 1 r.queue
    ++ leBytes 1 r.outcome ++ leBytes 4 r.tag ++ leBytes 2 r.gen ++ leBytes 2 r.pages ++ leBytes 2 r.shared ++ leBytes 2 r.spilled
    ++ leBytes 4 r.pos ++ leBytes 4 r.plen ++ leBytes 4 r.maxTok ++ leBytes 4 r.gened ++ leBytes 6 r.promptAddr ++ leBytes 2 r.notify
    ++ leBytes 6 r.outAddr ++ leBytes 2 0 ++ leBytes 4 r.endTok ++ leBytes 4 r.lastTok ++ leBytes 6 r.draw ++ leBytes 2 r.temp
    ++ leBytes 2 r.topP ++ leBytes 2 0 ++ leBytes 4 r.topK ++ leBytes 4 r.ttft ++ leBytes 4 r.tbt ++ leBytes 8 r.submitTick
    ++ leBytes 8 r.lastTick ++ leBytes 6 r.moor ++ leBytes 2 r.hblocks ++ leBytes 4 r.firstOrd ++ leBytes 4 r.handle ++ leBytes 4 r.slack
    ++ leBytes 4 r.admitSeq ++ leBytes 4 r.misses ++ leBytes 4 r.written

/-- OUT_EN. -/
def Req.outEn (r : Req) : Bool := bitOf r.flags 0
/-- PUBLISH. -/
def Req.publish (r : Req) : Bool := bitOf r.flags 1
/-- PIN. -/
def Req.pin (r : Req) : Bool := bitOf r.flags 2
/-- LOOKUP. -/
def Req.lookup (r : Req) : Bool := bitOf r.flags 3

/-! ### Reads and writes (R338) -/

/-- Bytes that a command brings from the PCIe outbound range. -/
def hostBytes (h : HostBytes) (a n : Nat) : Option (List Byte) :=
  h.findSome? fun c => if c.1 ≤ a ∧ a + n ≤ c.1 + c.2.length then some ((c.2.drop (a - c.1)).take n) else none

/-- The bytes at an address, as the engine reads them; none where a sector is poisoned or the read over PCIe fails. -/
def State.srvBytes (s : State) (host : HostBytes) (a n : Nat) : Option (List Byte) :=
  if inHbm a then (if s.anyPoison a n then none else some (s.bytes a n)) else hostBytes host a n

/-- A read of the engine on a basin's behalf: sector errors and activity, or a request over PCIe. -/
def srvRead (b a n : Nat) (es : List EccEvent) : Eff := .read fun s =>
  if n = 0 then .skip
  else if inHbm a then .andThen (readSectors b (sectorsOf a n) es) (actRead b (sectorsOf a n).length)
  else Eff.each (tlpCut (max 128 s.dev.pci.mrrs) (s.busAddr a) (List.replicate n 0#8) (n + 1)) fun r =>
    emit (.memRead b r.1 r.2.length)

/-- The status of an entry whose own structure could not be read: POISON, or HOST_ERROR (log entry 21). -/
def unreadStatus (a : Nat) : Nat := if inHbm a then 0x1B else 0x23

/-! ### Pages (R346, R360) -/

/-- The address of page `g` of a region. -/
def SrvCfg.pageAt (c : SrvCfg) (base g : Nat) : Nat := base + g * c.pageBytes

/-- The lowest number from `n` that a rising map does not list. -/
def lowestGap (n : Nat) : Map Nat → Nat
  | [] => n
  | (k, _) :: rest => if k = n then lowestGap (n + 1) rest else n

/-- A page's reference count. -/
def SrvBasin.refsOf (x : SrvBasin) (g : Nat) : Nat := mget 0 x.refs g

/-- A page's reference count changes. -/
def SrvBasin.setRefs (x : SrvBasin) (g n : Nat) : SrvBasin := { x with refs := mset 0 x.refs g n }

/-- A page gains a reference. -/
def Serve.addRef (v : Serve) (b g : Nat) : Serve := v.updBasin b fun x => x.setRefs g (x.refsOf g + 1)
/-- A page loses a reference. -/
def Serve.dropRef (v : Serve) (b g : Nat) : Serve := v.updBasin b fun x => x.setRefs g (x.refsOf g - 1)

/-- The index entries of a basin. -/
def State.pfxRange (s : State) (b : Nat) : Nat × Nat := (s.fld (rSrvCfg b) 25 16, s.fld (rSrvCfg b) 41 17)

/-- An entry number lies in a range. -/
def inRange (r : Nat × Nat) (n : Nat) : Bool := decide (r.1 ≤ n ∧ n < r.1 + r.2)

/-- Of two entries, the one with the smaller LAST_USE, then the lower number. -/
def olderEntry (a b : Nat × PfxEntry) : Nat × PfxEntry :=
  if b.2.lastUse < a.2.lastUse ∨ (b.2.lastUse = a.2.lastUse ∧ b.1 < a.1) then b else a

/-- The entry that goes first (R359, R360). -/
def oldestEntry : List (Nat × PfxEntry) → Option (Nat × PfxEntry)
  | [] => none
  | e :: es => match oldestEntry es with
    | none => some e
    | some f => some (olderEntry e f)

/-- A page is taken (R346): the lowest free one, or that of the index entry which is reclaimed. -/
def Serve.takePage (v : Serve) (b : Nat) (pfx : Nat × Nat) (pool : Nat) : Option (Nat × Serve) :=
  let x := v.basin b
  let g := lowestGap 0 x.refs
  if g < pool then some (g, v.addRef b g)
  else match oldestEntry (v.index.filter fun e => inRange pfx e.1 && x.refsOf e.2.page == 1) with
    | some e => some (e.2.page, { v with index := mdel v.index e.1 })
    | none => none

/-- Several pages are taken, or none. -/
def Serve.takePages (v : Serve) (b : Nat) (pfx : Nat × Nat) (pool : Nat) : Nat → Option (List Nat × Serve)
  | 0 => some ([], v)
  | n + 1 => match v.takePage b pfx pool with
    | none => none
    | some (g, w) => match w.takePages b pfx pool n with
      | none => none
      | some (gs, u) => some (g :: gs, u)

/-- The engine writes its pool meta area (R346): what it reads and writes there is left open (log entry 22). -/
def metaWrite (b : Nat) : Eff := .read fun s =>
  match (s.srvBasin b).cfg with
  | some c => withFree fun r => withFree fun w => .read fun t =>
      Eff.all
        [ actRead b (r % 2 ^ 32), actWrite b (w % 2 ^ 32), .act .free,
          writeHbm c.poolMeta ((List.range (8 * c.poolPages)).map (Config.poolMetaByte t.freeCount)) ]
  | none => .skip

/-- The engine's private traffic in the pool meta area. Where poison lies there it stays, for the next read to meet (R372). -/
def metaTraffic (b : Nat) : Eff := .read fun s =>
  match (s.srvBasin b).cfg with
  | some c => Eff.when (!s.anyPoison c.poolMeta (8 * c.poolPages)) (metaWrite b)
  | none => .skip

/-! ### Page lists (Table 10.5) -/

/-- The address of a slot's page list. -/
def State.listAt (s : State) (b e : Nat) : Nat :=
  (((s.srvBasin b).cfg.map fun c => c.listArea).getD 0) + 4096 * (e - s.slotBase b)

/-- An entry of a page list. -/
def State.listPage (s : State) (b e j : Nat) : Nat := s.num (s.listAt b e + 4 * j) 4

/-- What an entry of a page list reads while its page is spilled. -/
abbrev spilledPage : Nat := 0xFFFFFFFF

/-- The pages that a request holds, with their places in its list. -/
def State.reqPages (s : State) (b e : Nat) : List (Nat × Nat) :=
  ((List.range (s.req e).pages).map fun j => (j, s.listPage b e j)).filter fun p => p.2 != spilledPage

/-- The serving engine as the asker of a request's accesses. -/
def State.reqAsker (s : State) (e : Nat) : Asker := { agent := 2, source := (s.req e).queue }

/-- Page-list entries are written. -/
def writeList (b e : Nat) (new : List (Nat × Nat)) : Eff := .read fun s =>
  match new with
  | [] => .skip
  | (j, _) :: _ => writeAny b (s.reqAsker e) (s.listAt b e + 4 * j) (new.flatMap fun p => leBytes 4 p.2)

/-- The page list of a request holds poison. -/
def State.listPoison (s : State) (b e : Nat) : Bool := (s.req e).pages != 0 && s.anyPoison (s.listAt b e) (4 * (s.req e).pages)

/-! ### The end of a request (R366, R371, Table 10.12) -/

/-- The 32 bytes of a request completion (Table 10.10). -/
def Req.completion (r : Req) (outcome : Nat) : List Byte :=
  leBytes 1 1 ++ leBytes 1 outcome ++ leBytes 2 0 ++ leBytes 4 r.tag ++ leBytes 4 r.gened ++ leBytes 4 r.written ++ leBytes 4 r.shared
    ++ leBytes 4 r.handle ++ leBytes 4 r.misses ++ leBytes 4 0

/-- A page's regions are written zero (R371). -/
def zeroPage (b g : Nat) : Eff := .read fun s =>
  match (s.srvBasin b).cfg with
  | some c => Eff.each c.bases fun base =>
      let a := c.pageAt base g
      Eff.all
        [ Eff.each (sectorsOf a c.pageBytes) fun p => .act (.poison p false), .act (.store a (List.replicate c.pageBytes 0#8)),
          markRaw a c.pageBytes, markDirty a c.pageBytes, actWrite b (c.pageBytes / 32) ]
  | none => .skip

/-- The zeroing of a page waits for no copy-on-write copy (R389). -/
def State.zeroFree (s : State) (b g : Nat) : Bool :=
  match (s.srvBasin b).cfg with
  | some c => c.bases.all fun base => !s.cowWait (c.pageAt base g) c.pageBytes
  | none => true

/-- A page of a request that ends loses its reference; one that so becomes free after POISON is first zeroed, and keeps its reference while
its zeroing waits (R371, R389). -/
def releasePage (b g : Nat) (zero : Bool) : Eff := .read fun s =>
  if zero && (s.srvBasin b).refsOf g == 1 then
    (if s.zeroFree b g then .andThen (zeroPage b g) (onSrv fun v => v.dropRef b g)
     else onSrv fun v => v.updBasin b fun x => { x with zeros := x.zeros ++ [g] })
  else onSrv fun v => v.dropRef b g

/-- The pages whose zeroing has waited are zeroed and free, as far as that may go ahead. -/
def zeroWaiting (b : Nat) : Eff := .read fun s => Eff.each ((s.srvBasin b).zeros.filter (s.zeroFree b)) fun g => Eff.all
  [ zeroPage b g, onSrv fun v => (v.dropRef b g).updBasin b fun x => { x with zeros := x.zeros.erase g } ]

/-- A spill or restore copy of a request is given up: its engine, if it is on one, is free. -/
def dropMove (e : Nat) : Eff := .read fun s => Eff.all
  [ Eff.each (s.runsOf (moverOf e)) fun k => Eff.all
      [ onWork fun w => { w with engines := mdel w.engines k }, dropRead (.copy k), Eff.when (decide (k < 8)) (putBit rDmaStatus k false) ],
    onSrv fun v => v.upd e fun r => { r with region := 0 } ]

/-- A request leaves its slot: its pages are released and the slot is FREE. -/
def freeSlot (b e : Nat) (zero : Bool) : Eff := .read fun s =>
  Eff.all
    [ dropMove e, Eff.each (s.reqPages b e) fun p => releasePage b p.2 zero,
      Eff.each (s.req e).held fun g => releasePage b g zero, onSrv fun v => v.upd e fun r => { r with state := 0, held := [] }, metaTraffic b ]

/-- A request ends with an outcome: its completion where OUT_EN asks for it, its message, its pages. One that was cancelled and runs to
its end is CANCELLED (R365). -/
def endReq (b e outcome : Nat) : Eff := .read fun s =>
  let r := s.req e
  let oc := if r.state = 7 ∧ outcome ≤ 1 then 2 else outcome
  if r.state = 0 then .skip
  else Eff.all
    [ onSrv fun v => v.upd e fun r => { r with state := 8, outcome := oc },
      Eff.when r.outEn (writeAny b (s.reqAsker e) r.outAddr (r.completion oc)),
      Eff.when (r.outEn && r.notify != 0) (queueMessage r.queue),
      freeSlot b e (oc == 4) ]

/-- Every request of a basin ends with an outcome. -/
def endAll (b outcome : Nat) : Eff := .read fun s =>
  Eff.each ((s.slots b).filter fun e => (s.req e).state != 0) fun e => endReq b e outcome

/-- A poisoned read of the pool meta area puts the basin in FAULT (R372). -/
def srvFault (b : Nat) : Eff :=
  Eff.all [putFld (rSrvState b) 0 2 2, countAt (0xD0 + b) 0, endAll b 4, onSrv fun v => v.updBasin b fun x => { x with step := none },
    putBit (rSrvState b) 2 false]

/-- What the surviving words of an entry give of a completion: which of the other fields survive is a free choice `v`, and a lost one shows
a free value of `w` (log entry 4). -/
def Req.surviving (r : Req) (v w : Nat) : Req :=
  let f (i n : Nat) : Nat := if bitOf v i then n else bitsOf w (32 * i) 32
  { r with gened := f 0 r.gened, shared := f 1 r.shared, handle := f 2 r.handle, misses := f 3 r.misses }

/-- An uncorrectable error in a request-table entry (R372): `intact` tells that OUT_ADDR, TAG and WRITTEN are. -/
def tableFault (e : Nat) (intact : Bool) : Eff := .read fun s =>
  let r := s.req e
  .andThen (countAt 0x18 0)
    (if r.state = 0 then .skip
     else if intact then withFree fun v => withFree fun w =>
      .andThen (onSrv fun u => u.upd e fun r => r.surviving v w) (endReq r.basin e 6)
     else .andThen (bumpFld (rSrvState r.basin) 24 8 1) (freeSlot r.basin e false))

/-- An uncorrectable error in a prefix-index entry invalidates it (Table 5.6, R372). -/
def indexFault (n : Nat) : Eff := .read fun s =>
  .andThen (countAt 0x1A 0)
    (match mget? s.dev.srv.index n with
      | some x => match (List.range 16).find? fun b => inRange (s.pfxRange b) n with
        | some b => onSrv fun v => { v.dropRef b x.page with index := mdel v.index n }
        | none => .skip
      | none => .skip)

/-! ### Prefix blocks (R357 to R361) -/

/-- The token ids of a prompt, from one position on. -/
def State.promptBytes (s : State) (host : HostBytes) (r : Req) (lo n : Nat) : List Byte :=
  if inHbm r.promptAddr then s.bytes (r.promptAddr + 4 * lo) (4 * n)
  else (hostBytes host (r.promptAddr + 4 * lo) (4 * n)).getD (List.replicate (4 * n) 0#8)

/-- A prompt token. -/
def State.promptToken (s : State) (host : HostBytes) (r : Req) (p : Nat) : Nat := leNat (s.promptBytes host r p 1)

/-- The chained hashes of blocks 0 to n − 1. -/
def blockHashes (key : Nat × Nat) (block : Nat → List Byte) (h : Nat) (j : Nat) : Nat → List Nat
  | 0 => []
  | n + 1 =>
    let x := sipHash24 key.1 key.2 (leBytes 8 h ++ block j)
    x :: blockHashes key block x (j + 1) n

/-- The hashes of a request's first `n` blocks. -/
def State.reqHashes (s : State) (host : HostBytes) (b : Nat) (r : Req) (n : Nat) : List Nat :=
  blockHashes (s.srvBasin b).key (fun j => s.promptBytes host r (64 * j) 64) 0 0 n

/-- The entries of the set that a hash belongs to. -/
def pfxSet (pfx : Nat × Nat) (h : Nat) : Nat × Nat := (pfx.1 + 8 * (h % (pfx.2 / 8)), if pfx.2 < 8 then 0 else 8)

/-- The index entry that holds a hash. -/
def Serve.findHash (v : Serve) (pfx : Nat × Nat) (h : Nat) : Option (Nat × PfxEntry) :=
  v.index.find? fun e => inRange (pfxSet pfx h) e.1 && e.2.hash == h

/-- A handle as commands and descriptors name it: VALID at that generation, of the basin; its pages. -/
def State.handlePages (s : State) (b h : Nat) : Option (List Nat) :=
  let n := h % 65536
  let x := mget {} s.dev.srv.handles n
  if (s.handleNums b).contains n && x.gen == h / 65536 then x.pages else none

/-- One block's insert (R359). -/
def Serve.insertHash (v : Serve) (b : Nat) (pfx : Nat × Nat) (h page step : Nat) : Serve :=
  let set := pfxSet pfx h
  let entry : PfxEntry := { hash := h, page := page, lastUse := step }
  if set.2 = 0 || (v.findHash pfx h).isSome then v
  else match ((List.range 8).map fun i => set.1 + i).find? fun n => (mget? v.index n).isNone with
    | some n => { v.addRef b page with index := mput v.index n entry }
    | none => match oldestEntry (v.index.filter fun e => inRange set e.1) with
      | some e => { (v.dropRef b e.2.page).addRef b page with index := mput v.index e.1 entry }
      | none => v

/-- The key is installed and the basin's index emptied (R362). -/
def installKey (b k1 : Nat) : Eff := .read fun s =>
  onSrv fun v =>
    let gone := v.index.filter fun e => inRange (s.pfxRange b) e.1
    let w := gone.foldl (fun (w : Serve) e => w.dropRef b e.2.page) v
    { w.updBasin b fun x => { x with key := ((s.reg (rSrvKey b 0)).toNat, k1) } with
      index := v.index.filter fun e => !inRange (s.pfxRange b) e.1 }

/-! ### Resets (R373) -/

/-- Serving in a basin is undone: requests end with no completion, index entries and handles are dropped, and the basin is
UNCONFIGURED. -/
def serveReset (b : Nat) : Eff := .read fun s =>
  Eff.all
    [ Eff.each ((s.slots b).filter fun e => (s.req e).state != 0) dropMove, onSrv fun v =>
        { v with
          reqs := v.reqs.map fun e => if (s.slots b).contains e.1 then (e.1, { e.2 with state := 0, held := [] }) else e
          index := v.index.filter fun e => !inRange (s.pfxRange b) e.1
          handles := v.handles.map fun e => if (s.handleNums b).contains e.1 then (e.1, { e.2 with pages := none }) else e
          basins := mset {} v.basins b { key := (v.basin b).key } },
      putFld (rSrvState b) 0 3 0 ]

end Sys2Proof.Machine
end

