-- ==== Sys2Proof/Machine/Moves.lean ====
section
/-!
DEFINITION. The copies that spill and restore the pages of a request (R354, R355): which comes next, and what happens once it is made. The
copy engines make them, one page and region at a time (Table 6.7).
-/
namespace Sys2Proof.Machine

/-- The pages of a request that mooring spills, with their places: not shared, and with one reference. -/
def State.spillable (s : State) (b e : Nat) : List (Nat × Nat) :=
  (s.reqPages b e).filter fun p => decide ((s.req e).shared ≤ p.1) && (s.srvBasin b).refsOf p.2 == 1

/-- The places of a request's spilled pages. -/
def State.spilledAt (s : State) (b e : Nat) : List Nat :=
  (List.range (s.req e).pages).filter fun j => s.listPage b e j == spilledPage

/-- A copy of one region of a page, made for a request. -/
def moveRun (e pageBytes src dst : Nat) : CopyRun :=
  { q := moverOf e, src := src, dst := dst, remote := false, destChip := 0, rowBytes := pageBytes, rows := 1, srcStride := pageBytes,
    dstStride := pageBytes, cmode := 0, cls := 0 }

/-- A region of a page in the moor area: page `k` of those spilled. -/
def Req.moorAt (r : Req) (c : SrvCfg) (k : Nat) : Nat := r.moor + (k * c.bases.length + r.region) * c.pageBytes

/-- The copy that a MOORING or RESUMING request needs next. -/
def State.moveOf (s : State) (e : Nat) : Option CopyRun :=
  let r := s.req e
  match (s.srvBasin r.basin).cfg with
  | none => none
  | some c =>
    let page (g : Nat) : Nat := c.pageAt (c.bases.getD r.region 0) g
    if r.state = 4 then (s.spillable r.basin e).head?.map fun p => moveRun e c.pageBytes (page p.2) (r.moorAt c r.spilled)
    else if r.state = 6 then match s.spilledAt r.basin e, r.held with
      | _ :: _, g :: _ => some (moveRun e c.pageBytes (r.moorAt c (r.spilled - r.held.length)) (page g))
      | _, _ => none
    else none

/-- A page of a request has been copied out: its list entry is marked, its reference dropped, and SPILLED rises. -/
def pageOut (b e : Nat) : Eff := .read fun s =>
  match s.spillable b e with
  | (j, g) :: _ => .andThen (writeList b e [(j, spilledPage)]) (onSrv fun v => (v.dropRef b g).upd e fun r => { r with spilled := r.spilled + 1 })
  | [] => .skip

/-- A page of a request has been copied back: its list entry names it. With the last one SPILLED becomes 0. -/
def pageBack (b e : Nat) : Eff := .read fun s =>
  match s.spilledAt b e, (s.req e).held with
  | j :: _, g :: gs =>
    .andThen (writeList b e [(j, g)]) (onSrv fun v => v.upd e fun r =>
      { r with held := gs, spilled := if gs.isEmpty then 0 else r.spilled })
  | _, _ => .skip

/-- A spill or restore copy has ended. One that failed, or a page list that holds poison, ends the request POISON (R372, log entry 24). -/
def moveEnd (e status : Nat) : Eff := .read fun s =>
  let r := s.req e
  let b := r.basin
  if status != 0 || s.listPoison b e then endReq b e 4
  else if r.region + 1 < ((s.srvBasin b).cfg.map fun c => c.bases.length).getD 1 then onSrv fun v => v.upd e fun r => { r with region := r.region + 1 }
  else .andThen (onSrv fun v => v.upd e fun r => { r with region := 0 }) (if r.state = 4 then pageOut b e else pageBack b e)

end Sys2Proof.Machine
end

