-- ==== Sys2Proof/Machine/Copy.lean ====
section
/-!
DEFINITION. Copy engines (R196 to R204, R226, R227, R236): the checks of a COPY entry, its blocks, its end, and which copy is on which engine.
-/
namespace Sys2Proof.Machine

/-! ### Entries and their transfer order (Table 6.6, R201, R203) -/

/-- The copy that an entry asks for. -/
def Entry.copy (e : Entry) (q : Nat) : CopyRun :=
  { q := q, src := e.get 16 6, dst := e.get 24 6, remote := bitOf (e.get 30 2) 15, destChip := bitsOf (e.get 30 2) 0 12,
    rowBytes := e.get 32 4, rows := e.get 36 4, srcStride := signed 64 (e.get 40 8), dstStride := signed 64 (e.get 48 8),
    cmode := e.get 56 1, cls := e.get 58 1 }

/-- The reserved bytes and bits of an entry are zero. -/
def copyReservedOk (e : Entry) : Bool := e.get 22 2 == 0 && bitsOf (e.get 30 2) 12 3 == 0 && e.get 59 5 == 0

/-- The bytes of the transfer. -/
def CopyRun.total (c : CopyRun) : Nat := c.rows * c.rowBytes

/-- The lowest and the highest addressed byte of a side. -/
def CopyRun.span (c : CopyRun) (base : Nat) (stride : Int) : Int × Int :=
  let d := ((c.rows : Int) - 1) * stride
  ((base : Int) + min 0 d, (base : Int) + max 0 d + (c.rowBytes : Int) - 1)

/-- A range lies wholly in HBM. -/
def spanInHbm (x : Int × Int) : Bool := decide (0 ≤ x.1 ∧ x.2 < (hbmSize : Int))
/-- A range lies wholly in the PCIe outbound range. -/
def spanOutbound (x : Int × Int) : Bool := decide (((2 ^ 47 : Nat) : Int) ≤ x.1 ∧ x.2 < ((2 ^ 48 : Nat) : Int))

/-- The source extent. -/
def CopyRun.srcSpan (c : CopyRun) : Int × Int := c.span c.src c.srcStride
/-- The destination extent. -/
def CopyRun.dstSpan (c : CopyRun) : Int × Int := c.span c.dst c.dstStride

/-- The address of byte `i` of the transfer on a side. -/
def CopyRun.at (c : CopyRun) (base : Nat) (stride : Int) (i : Nat) : Nat :=
  ((base : Int) + ((i / c.rowBytes : Nat) : Int) * stride + ((i % c.rowBytes : Nat) : Int)).toNat

/-- The source address of byte `i` of the transfer. -/
def CopyRun.srcAt (c : CopyRun) (i : Nat) : Nat := c.at c.src c.srcStride i
/-- The destination address of byte `i` of the transfer. -/
def CopyRun.dstAt (c : CopyRun) (i : Nat) : Nat := c.at c.dst c.dstStride i

/-- The length of the block that begins at byte `i` (R201). -/
def CopyRun.blockLen (c : CopyRun) (i : Nat) : Nat :=
  if c.cmode != 0 then 4096
  else min (4096 - c.dstAt i % 4096) (if c.dstStride = (c.rowBytes : Int) then c.total - i else c.rowBytes - i % c.rowBytes)

/-- The source pieces of the bytes from `i`: address and length, cut at row ends. -/
def CopyRun.srcPieces (c : CopyRun) : Nat → Nat → Nat → List (Nat × Nat)
  | 0, _, _ => []
  | f + 1, i, n =>
    if n = 0 then []
    else
      let k := min n (c.rowBytes - i % c.rowBytes)
      (c.srcAt i, k) :: c.srcPieces f (i + k) (n - k)

/-- The source pieces of the block that begins at byte `i`. -/
def CopyRun.block (c : CopyRun) (i : Nat) : List (Nat × Nat) := c.srcPieces 4096 i (c.blockLen i)

/-- Bytes of the transfer before byte `i` have touched a sector on a side. Each sector counts once per extent (R169). -/
def CopyRun.touched (c : CopyRun) (base : Nat) (stride : Int) (i sector : Nat) : Bool :=
  (List.range (i / c.rowBytes + 1)).any fun r =>
    let lo : Int := (base : Int) + (r : Int) * stride
    let n := min c.rowBytes (i - r * c.rowBytes)
    decide (0 < n ∧ lo < ((sector + 32 : Nat) : Int) ∧ (sector : Int) < lo + (n : Int))

/-- The rule for compressed copies holds (R203). -/
def CopyRun.codecOk (c : CopyRun) : Bool :=
  let plain (a : Nat) (st : Int) : Bool := a % 4096 == 0 && (c.rows == 1 || st % 4096 == 0)
  let packed (a : Nat) (st : Int) : Bool := a % 4096 == 0 && st == (c.rowBytes : Int)
  c.rowBytes % 4096 == 0
    && (if c.cmode = 1 then plain c.src c.srcStride && packed c.dst c.dstStride && spanInHbm c.dstSpan
        else packed c.src c.srcStride && spanInHbm c.srcSpan && plain c.dst c.dstStride)

/-- Two extents share a byte. -/
def spansMeet (x y : Int × Int) : Bool := decide (x.1 ≤ y.2 ∧ y.1 ≤ x.2)

/-- Two destination rows share a byte. -/
def CopyRun.rowsMeet (c : CopyRun) : Bool := decide (1 < c.rows ∧ c.dstStride.natAbs < c.rowBytes)

/-- Steps 1 to 5 of R200. -/
def CopyRun.staticCheck (c : CopyRun) (chip : Nat) : Option Nat :=
  let hbm := spanInHbm c.srcSpan && spanInHbm c.dstSpan
  let sides := (spanInHbm c.srcSpan || spanOutbound c.srcSpan) && (spanInHbm c.dstSpan || spanOutbound c.dstSpan)
  if 2 < c.cmode || 3 < c.cls || (!c.remote && c.cls != 0) || !sides || !(spanInHbm c.srcSpan || spanInHbm c.dstSpan) then some 0x11
  else if c.remote && (c.cls == 0 || c.destChip == chip || !hbm) then some 0x15
  else if 2 ^ 24 < c.rows || 2 ^ 35 < c.total then some 0x13
  else if (!c.remote && spansMeet c.srcSpan c.dstSpan) || c.rowsMeet then some 0x14
  else if c.cmode != 0 && !c.codecOk then some 0x11
  else none

/-! ### Engines -/

/-- The engines' state changes. -/
def onEngine (e : Nat) (g : CopyRun → CopyRun) : Eff := onWork fun w =>
  match mget? w.engines e with
  | some c => { w with engines := mput w.engines e (g c) }
  | none => w

/-- The entry on an engine. -/
def State.copyOn (s : State) (e : Nat) : Option CopyRun := mget? s.dev.work.engines e

/-- Who asks for a copy's accesses. -/
def copyAsker (q : Nat) : Asker := { agent := 1, source := q }

/-- Who asks for the accesses of what an engine runs: a COPY queue, or the serving engine for a request. -/
def State.runAsker (s : State) (q : Nat) : Asker := if q < 256 then copyAsker q else s.reqAsker (q - 256)

/-- An engine gives up its copy: an entry ends with a status (R193, R204), and DETAIL counts the bytes written or acknowledged; a request's
copy goes on to the next. -/
def copyEnd (e status : Nat) : Eff := .read fun s =>
  match s.copyOn e with
  | some c =>
    Eff.all
      [ onWork (fun w => { w with engines := mdel w.engines e }), dropRead (.copy e), Eff.when (decide (e < 8)) (putBit rDmaStatus e false),
        if c.q < 256 then finishCurrent c.q { status := status, detail := c.detail } else moveEnd (c.q - 256) status ]
  | none => .skip

/-- A copy ends once something has stopped it, or once every byte has been written, and acknowledged where it is remote. -/
def copyAdvance (e : Nat) : Eff := .read fun s =>
  match s.copyOn e with
  | some c =>
    match c.stop with
    | some st => copyEnd e st
    | none => if c.total ≤ c.pos ∧ c.inFlight = [] then copyEnd e (if c.poisoned then 0x1B else 0) else .skip
  | none => .skip

/-- A copy stops with a status. -/
def copyStop (e st : Nat) : Eff := .andThen (onEngine e fun c => { c with stop := some (c.stop.getD st) }) (copyAdvance e)

/-- The COPY queues that an engine may take an entry from, or from which the next entry is still to be fetched. -/
def State.copyWaiting (s : State) : List Nat :=
  (s.startableQueues 1).filter fun q => match s.startable q with
    | some e => e.cmd == 0x10 && (s.judge q e).isNone
    | none => true

/-- The next block's write may go ahead, and for a request's copy that of its page list (R389). -/
def State.blockFree (s : State) (c : CopyRun) : Bool :=
  (c.remote || !inHbm (c.dstAt c.pos) || !s.cowWait (c.dstAt c.pos) (c.blockLen c.pos))
    && (decide (c.q < 256) || !s.cowWait (s.listAt (s.req (c.q - 256)).basin (c.q - 256)) 4096)

/-- The requests that need a spill or restore copy and have none on an engine or set aside. -/
def State.movesWaiting (s : State) : List Nat :=
  (s.dev.srv.reqs.filter fun r => (s.runsOf (moverOf r.1)).isEmpty && ((s.moveOf r.1).map s.blockFree).getD false).map fun r => moverOf r.1

/-- Every copy engine holds a copy. -/
def State.enginesBusy (s : State) : Bool := (List.range 8).all fun e => (s.copyOn e).isSome

/-- What waits for the grant of a block (Table 6.7): the copies on engines and those set aside, the requests' copies, and, while every engine
holds a copy, the queues whose next entry waits for one. -/
def State.blockQueues (s : State) : List Nat :=
  (((s.dev.work.engines.filter fun x =>
    x.2.stop.isNone && decide (x.2.pos < x.2.total) && s.blockFree x.2 && (s.outRead (.copy x.1)).isNone).map fun x => x.2.q)
      ++ s.movesWaiting ++ (if s.enginesBusy then s.copyWaiting else [])).foldl sins []

/-- An engine may take up another copy: it holds none, or every engine holds one and its own lies between two blocks, with no read in flight
(R198, log entry 85). -/
def State.mayTake (s : State) (e : Nat) : Bool :=
  (s.copyOn e).isNone || (s.enginesBusy && (s.outRead (.copy e)).isNone)

/-- The copy of an engine is set aside between two blocks. -/
def setAside (e : Nat) : Eff := onWork fun w =>
  match mget? w.engines e with
  | some c => { w with engines := mput (mdel w.engines e) (16 + c.q) c }
  | none => w

/-- An engine takes a copy. -/
def placeCopy (e : Nat) (c : CopyRun) : Eff := Eff.all
  [ setAside e, putBit rDmaStatus e true, onWork fun w => { w with engines := mput (mdel w.engines (16 + c.q)) e c } ]

/-- The copy of a user that is on no engine: set aside, or a request's next. -/
def State.copyAside (s : State) (u : Nat) : Option CopyRun :=
  (s.copyOn (16 + u)).or (if 256 ≤ u ∧ s.runsOf u = [] then s.moveOf (u - 256) else none)

/-- Where the next block's grant goes to a copy that is on no engine, this engine takes it, if it may. -/
def switchCopy (e : Nat) : Eff := .read fun s =>
  match s.grant 1 s.blockQueues with
  | some (u, _) =>
    if (s.copyOn e).map (·.q) = some u || !s.mayTake e then .skip
    else match s.copyAside u with
      | some c => placeCopy e c
      | none => .skip
  | none => .skip

/-- The last checks of R200 and the start of the copy on its engine. -/
def copyStart (q idx e : Nat) (c : CopyRun) (ent : Entry) : Eff := .read fun s =>
  let b := s.qOwner q
  let bad (st : Nat) : Eff := finish q idx { status := st }
  let table := if c.cmode = 0 then some none else (s.captureTable b (ent.get 57 1) (c.cmode == 1)).map some
  match table with
  | none => bad 0x21
  | some t =>
    if c.remote && !s.hasRoute c.destChip then bad 0x1D
    else
      let unit (x : Int × Int) (need : Nat) : AccUnit := ⟨x.1.toNat, x.2.toNat, need⟩
      checkUnits b (copyAsker q) (unit c.srcSpan rightR :: if c.remote then [] else [unit c.dstSpan rightW]) bad
        (Eff.all
          [ setStage q idx .running, placeCopy e { c with table := t } ])

/-- A queue's entry may be taken up by an engine: on a free one by the grants for entries, and where every engine holds a copy by the grant
of the next block. -/
def copyGrant (q e : Nat) (body : Eff) : Eff := .read fun s =>
  if (s.copyOn e).isNone then granted 4 State.copyWaiting q body
  else Eff.when ((s.grant 1 s.blockQueues).map (·.1) == some q) body

/-- COPY: an engine takes up a queue's entry and checks it (R200). What ROW_BYTES or ROWS of 0 ends with is left open among
three statuses (log entry 4). -/
def effCopy (q e : Nat) : Eff := .read fun s =>
  if 8 ≤ e || !s.mayTake e || !(s.qKind q == 1) then .skip
  else takeUp q (· == 0x10) fun ent =>
    copyGrant q e
      (let c := ent.copy q
       let bad (st : Nat) : Eff := finish q ent.idx { status := st }
       if !copyReservedOk ent then bad 0x11
       else if c.total = 0 then withFree fun v => bad (if v % 3 = 0 then 0x11 else if v % 3 = 1 then 0x15 else 0x13)
       else match c.staticCheck s.chipId with
         | some st => bad st
         | none => copyStart q ent.idx e c ent)

/-! ### A block held whole (R202, R236) -/

/-- A block in its buffer: its bytes, and for each whether it came from poison. -/
structure Held where
  bytes : List Byte
  bad : List Bool

/-- What a block of an HBM source holds. Bytes from poison read zero; a decoder read that meets poison makes its whole unit so. -/
def State.heldFrom (s : State) (c : CopyRun) : Held :=
  if c.cmode = 2 then
    let a := c.srcAt c.pos
    if (s.unitSectors a).any s.poisoned then { bytes := List.replicate 4096 0#8, bad := List.replicate 4096 true }
    else { bytes := s.expandPage ((c.table.map (·.lens)).getD []) a, bad := List.replicate 4096 false }
  else
    let each := (c.block c.pos).flatMap fun p => (List.range p.2).map fun i =>
      let a := p.1 + i
      if s.poisoned (sectorOf a) then (0#8, true) else (s.byte a, false)
    { bytes := each.map (·.1), bad := each.map (·.2) }

/-- The sectors that a block reads. -/
def State.blockSectors (s : State) (c : CopyRun) : List Nat :=
  if c.cmode = 2 then s.unitSectors (c.srcAt c.pos)
  else ((c.block c.pos).flatMap fun p => sectorsOf p.1 p.2).foldl sins []

/-- The destination sectors that poison reaches. -/
def badSectors (dst : Nat) (h : Held) : List Nat :=
  (((List.range h.bad.length).filter fun i => h.bad.getD i false).map fun i => sectorOf (dst + i)).foldl sins []

/-- The destination's sector numbers of a page as a POISON_MAP (Table 8.4). -/
def poisonMap (secs : List Nat) : Nat := (secs.map fun p => 2 ^ (p % 4096 / 32)).foldl (· + ·) 0

/-- A block has been written, or sent: the engine goes on to the next. -/
def blockDone (e n : Nat) (poison : Bool) (ack : Option Nat) : Eff :=
  Eff.all
    [ bumpReg rDmaBlocks 64 1,
      onEngine e fun c =>
        { c with
          pos := c.pos + n, poisoned := c.poisoned || poison,
          detail := if ack.isNone then c.detail + n else c.detail,
          inFlight := match ack with
            | some seq => c.inFlight ++ [(seq, n)]
            | none => c.inFlight },
      copyAdvance e ]

/-- A block written to HBM by a plain or an expanding copy. Whole sectors reached by poison are written poisoned (R153); a part
of a poisoned sector is left, and the copy ends POISON (R154). -/
def copyToHbm (b e : Nat) (c : CopyRun) (h : Held) (es : List EccEvent) : Eff :=
  let dst := c.dstAt c.pos
  let n := h.bytes.length
  let bad := badSectors dst h
  let parts := ((pieces dst h.bytes).filter fun p => p.2.length != 32).map fun p => sectorOf p.1
  let fresh := (sectorsOf dst n).filter fun p => !c.touched c.dst c.dstStride c.pos p
  .andThen (sectorErrors parts.contains es) (.read fun s =>
    let good := (pieces dst h.bytes).filter fun p => !bad.contains (sectorOf p.1)
    let lost := good.any fun p => s.partialPoison p.1 p.2
    Eff.all
      [ Eff.each good fun p => writeHbm p.1 p.2, poisonSectors bad, Eff.each bad fun p => markRaw p 32, markDirty dst n,
        actWrite b fresh.length, blockDone e n (lost || !bad.isEmpty) none ])

/-- A unit that a COMPRESS writes (R220, R236). -/
def copyCompress (b e : Nat) (c : CopyRun) (t : Captured) (h : Held) : Eff :=
  let dst := c.dstAt c.pos
  if h.bad.any id then
    Eff.all
      [ storeBlock dst false h.bytes, poisonSectors (sectorsOf dst 4096), actWrite b 128, bumpReg (rCdcBlocks b 1) 64 1,
        blockDone e 4096 true none ]
  else .andThen (compressTo b dst t h.bytes) (blockDone e 4096 false none)

/-- A block leaves as one barge (R204, R227, R254, R255). -/
def copyRemote (b e : Nat) (c : CopyRun) (h : Held) : Eff := .read fun s =>
  let dst := c.dstAt c.pos
  let f := flowKey c.q c.destChip c.cls
  let n := h.bytes.length
  let bad := h.bad.any id
  let out : Bool × List Byte × List Nat :=
    match c.table with
    | some t =>
      if c.cmode = 1 then
        if bad then (false, List.replicate 4096 0#8, sectorsOf dst 4096)
        else
          let r := compress t h.bytes
          (r.1, r.2, [])
      else (false, h.bytes, badSectors dst h)
    | none => (false, h.bytes, badSectors dst h)
  let hdr := bargeHdr 0x01 c.cls out.1 s.chipId c.q out.2.1.length c.destChip b dst 0 (poisonMap out.2.2)
  if s.flowBroken f then copyStop e 0x1E
  else if !s.canFlow f then countAt 0x38 0
  else .andThen (needFlow f) (.read fun s =>
    match s.flow? f with
    | some x =>
      if x.state = 2 then copyStop e 0x1E
      else
        Eff.all
          [ match c.table with
            | some t => Eff.when (c.cmode == 1) (.andThen (bumpReg (rCdcBlocks b (if out.1 then 0 else 1)) 64 1)
                (Eff.when (!bad) (surveyUnit b t h.bytes)))
            | none => .skip,
            enqueueFlow f hdr out.2.1, blockDone e n bad (some x.next) ]
    | none => .skip)

/-- A block held whole is written. -/
def copyWrite (e : Nat) (c : CopyRun) (h : Held) (es : List EccEvent) : Eff := .read fun s =>
  let b := s.userBasin c.q
  let dst := c.dstAt c.pos
  if c.remote then copyRemote b e c h
  else if inHbm dst then
    match c.table with
    | some t => if c.cmode = 1 then copyCompress b e c t h else copyToHbm b e c h es
    | none => copyToHbm b e c h es
  else if h.bad.any id then copyStop e 0x1B
  else if s.busMaster b then .andThen (sendWrite b dst h.bytes) (blockDone e h.bytes.length false none)
  else .andThen (lockRefuse b dst (dst + h.bytes.length - 1) (s.runAsker c.q) 0x17 none) (copyStop e 0x17)

/-- The next block of an engine's copy. From HBM it is read, checked and written at once. From the PCIe outbound range its reads are issued
first, and it is written by the COPY_BLOCK that finds their data. `ce` and `ue` are the errors that the block buffer shows; after each
uncorrectable one the block is read again (Table 6.11). -/
def copyStep (e ce ue : Nat) (es : List EccEvent) : Eff := .read fun s =>
  match s.copyOn e with
  | none => .skip
  | some c =>
    let b := s.userBasin c.q
    let src := c.srcAt c.pos
    let buffer := .andThen (Eff.each (List.range ce) fun _ => countAt 0x20 e) (Eff.each (List.range ue) fun _ => countAt 0x21 e)
    if c.stop.isSome || c.total ≤ c.pos then copyAdvance e
    else if inHbm src then
      granted 1 State.blockQueues c.q (.read fun s =>
        let secs := s.blockSectors c
        let fresh := if c.cmode = 2 then secs else secs.filter fun p => !c.touched c.src c.srcStride c.pos p
        Eff.all
          [ Eff.each (List.range (ue + 1)) fun i => readSectors b secs (if i = 0 then es else []), actRead b fresh.length, buffer,
            .read fun t => copyWrite e c (t.heldFrom c) es ])
    else match s.outRead (.copy e) with
      | none =>
        granted 1 State.blockQueues c.q
          (if s.busMaster b then
            .andThen (onReads fun l => l ++ [{ user := .copy e, tick := s.now }])
              (Eff.each (c.block c.pos) fun p =>
                Eff.each (tlpCut (max 128 s.dev.pci.mrrs) (s.busAddr p.1) (List.replicate p.2 0#8) (p.2 + 1)) fun r =>
                  emit (.memRead b r.1 r.2.length))
          else .andThen (lockRefuse b src (src + c.blockLen c.pos - 1) (s.runAsker c.q) 0x17 none) (copyStop e 0x17))
      | some r =>
        match r.got with
        | none => .skip
        | some (.data bs) =>
          if ue != 0 then .andThen (dropRead (.copy e)) buffer
          else if s.blockFree c then
            Eff.all
              [ dropRead (.copy e), buffer,
                copyWrite e c { bytes := (bs ++ List.replicate (c.blockLen c.pos) 0#8).take (c.blockLen c.pos),
                                bad := List.replicate (c.blockLen c.pos) false } es ]
          else .skip
        | some _ => .andThen (dropRead (.copy e)) (copyStop e 0x23)

/-- COPY_BLOCK: an engine does the next block of its copy, or of the copy that the block's grant brings to it. -/
def effCopyBlock (e ce ue : Nat) (es : List EccEvent) : Eff :=
  Eff.when (decide (e < 8)) (.andThen (switchCopy e) (copyStep e ce ue es))

/-- The end of one of a copy's barges (R204): an acknowledged one counts in DETAIL, and any other end stops the copy. -/
def copyAnswer (e seq status : Nat) : Eff := .read fun s =>
  match s.copyOn e with
  | none => .skip
  | some c =>
    match c.inFlight.find? fun p => p.1 == seq with
    | none => .skip
    | some p =>
      if status = 0 then
        .andThen (onEngine e fun c => { c with inFlight := c.inFlight.filter fun x => x.1 != seq, detail := c.detail + p.2 })
          (copyAdvance e)
      else copyStop e status

/-- COPY. -/
def execCopy (q e : Nat) (s : State) : Host.Outcome State Fault Refusal := (effCopy q e).done s
/-- COPY_BLOCK. -/
def execCopyBlock (e ce ue : Nat) (es : List EccEvent) (s : State) : Host.Outcome State Fault Refusal :=
  (effCopyBlock e ce ue es).done s

end Sys2Proof.Machine
end

