-- ==== Sys2Proof/Machine/RankTree.lean ====
section
/-!
DEFINITION. Rank groups and collectives (R296 to R325): the tree, the collective descriptor and its static checks, and node
arithmetic.
-/
namespace Sys2Proof.Machine

/-! ### State of the engine -/

/-- The rank engine's state changes. -/
def onRanks (g : Ranks → Ranks) : Eff := onDev fun d => { d with rnk := g d.rnk }

/-- A basin's part of the rank engine. -/
def State.rankBasin (s : State) (b : Nat) : RankBasin := mget {} s.dev.rnk.basins b
/-- A group of a basin. -/
def State.grp (s : State) (b g : Nat) : RankGrp := mget {} s.dev.rnk.groups (16 * b + g)

/-- A basin's part changes. -/
def onRankBasin (b : Nat) (f : RankBasin → RankBasin) : Eff :=
  onRanks fun r => { r with basins := mset {} r.basins b (f (mget {} r.basins b)) }
/-- A group changes. -/
def onGrp (b g : Nat) (f : RankGrp → RankGrp) : Eff :=
  onRanks fun r => { r with groups := mset {} r.groups (16 * b + g) (f (mget {} r.groups (16 * b + g))) }

/-- RNK_GRP_b_g.STATE: 0 CLOSED, 1 OPEN, 2 FAILED. -/
def State.grpState (s : State) (b g : Nat) : Nat := s.fld (rRnkGrp b g) 0 2
/-- L of a group. -/
def State.grpL (s : State) (b g : Nat) : Nat := 2 ^ s.fld (rRnkGrp b g) 2 4
/-- The tree's depth H (R303). -/
def State.grpH (s : State) (b g : Nat) : Nat := (s.fld (rRnkGrp b g) 2 4 + 2) / 3
/-- V of a group. -/
def State.grpV (s : State) (b g : Nat) : Nat := 2 ^ s.fld (rRnkGrp b g) 6 2
/-- The logical rank of VSLOT 0 on this chip. -/
def State.grpFirst (s : State) (b g : Nat) : Nat := s.fld (rRnkGrp b g) 8 15

/-! ### The canonical tree (R303, R304) -/

/-- A node's key. -/
def nodeKey (j i : Nat) : Nat := j * 32768 + i

/-- The children's indices of node (j, i), j ≥ 1, under L ranks. -/
def nodeKids (L j i : Nat) : List Nat := ((List.range 8).map fun c => i + c * 8 ^ (j - 1)).filter fun k => decide (k < L)

/-- The index of the parent of node (j, i). -/
def nodeParent (j i : Nat) : Nat := i - i % 8 ^ (j + 1)

/-- The chip that hosts logical rank i (R298, R304). -/
def State.hostOf (s : State) (b g i : Nat) : Nat := (s.grp b g).map.getD (i / s.grpV b g) 4096

/-- A node lies on this chip. -/
def State.localNode (s : State) (b g i : Nat) : Bool := decide (s.grpFirst b g ≤ i ∧ i < s.grpFirst b g + s.grpV b g)

/-- The nodes of the group's tree on this chip, as (level, index), leaves first. -/
def State.localNodes (s : State) (b g : Nat) : List (Nat × Nat) :=
  let f := s.grpFirst b g
  ((List.range (s.grpV b g)).map fun v => (0, f + v))
    ++ ((List.range (s.grpH b g)).filter fun j => f % 8 ^ (j + 1) == 0).map fun j => (j + 1, f)

/-- The local nodes whose parent lies on another chip. -/
def State.topNodes (s : State) (b g : Nat) : List (Nat × Nat) :=
  (s.localNodes b g).filter fun n => decide (n.1 < s.grpH b g) && !s.localNode b g (nodeParent n.1 n.2)

/-- The parent of the top nodes: its level, index and chip. -/
def State.parentOf (s : State) (b g : Nat) : Option (Nat × Nat × Nat) :=
  ((s.topNodes b g).head?).map fun n => (n.1 + 1, nodeParent n.1 n.2, s.hostOf b g (nodeParent n.1 n.2))

/-- The chips that host children of a local node, each once, in ascending order of their first child. -/
def State.kidChips (s : State) (b g j i : Nat) : List Nat :=
  (((nodeKids (s.grpL b g) j i).filter fun k => !s.localNode b g k).map (s.hostOf b g)).foldl
    (fun l c => if l.contains c then l else l ++ [c]) []

/-- The logical ranks below node (j, i): the first, and one past the last. -/
def nodeSpan (L j i : Nat) : Nat × Nat := (i, min (i + 8 ^ j) L)

/-- The ranks that a chip's children of a local node lie over. -/
def State.chipSpan (s : State) (b g j i chip : Nat) : Nat × Nat :=
  let ks := (nodeKids (s.grpL b g) j i).filter fun k => s.hostOf b g k == chip
  ((ks.head?.map fun k => (nodeSpan (s.grpL b g) (j - 1) k).1).getD 0,
    (ks.getLast?.map fun k => (nodeSpan (s.grpL b g) (j - 1) k).2).getD 0)

/-! ### The collective descriptor (Tables 9.2 and 9.3) -/

/-- COP. -/
def cCop (d : Nat) : Nat := rfield d 0 2
/-- GROUP. -/
def cGroup (d : Nat) : Nat := rfield d 2 1
/-- VSLOT. -/
def cVslot (d : Nat) : Nat := rfield d 3 1
/-- REDOP. -/
def cRedop (d : Nat) : Nat := rfield d 4 1
/-- NODE_MODE. -/
def cMode (d : Nat) : Nat := rfield d 5 1
/-- T0 and T1. -/
def cTensor (d n : Nat) : TDesc := parseTensor (rfield d (64 * (n + 1)) 64)

/-- ARG byte [7] of a collective's barges. -/
def cOps (d : Nat) : Nat := cCop d % 16 + cRedop d % 4 * 16 + cMode d % 4 * 64

/-- The collective reduces. -/
def reducing (d : Nat) : Bool := cCop d == 2 || cCop d == 3 || cCop d == 4

/-- A tensor of a rank's descriptor is used (Table 9.3). -/
def cUses (d rank n : Nat) : Bool :=
  match cCop d with
  | 1 => false
  | 3 => n == 0 || rank == 0
  | 6 => n == 1 || rank == 0
  | _ => true

/-- The element count n: of T0, or of T1 where T0 is unused. -/
def cCount (d rank : Nat) : Nat :=
  if cUses d rank 0 then (cTensor d 0).count else if cUses d rank 1 then (cTensor d 1).count else 0

/-- Reserved fields, unused tensors, R97 and the element types of R311. -/
def cDescOk (d rank : Nat) : Bool :=
  let t0 := cTensor d 0
  let t1 := cTensor d 1
  let used (n : Nat) : Bool := cUses d rank n
  let reserved := bitsOf (rfield d 6 1) 1 7 == 0 && rfield d 7 1 == 0 && bitsOf (rfield d 16 2) 8 7 == 0
    && bitsOf (rfield d 18 2) 8 7 == 0 && rfield d 36 28 == 0
  let one (n : Nat) : Bool :=
    if used n then (cTensor d n).reservedOk && (cTensor d n).valid97 && !(cTensor d n).compressed
    else rfield d (64 * (n + 1)) 64 == 0
  let types :=
    if reducing d then
      if cRedop d = 1 ∨ cRedop d = 2 then t0.etype == 0 && (!used 1 || t1.etype == 0)
      else [0, 1, 3].contains t0.etype && (!used 1 || [0, 1].contains t1.etype || (t1.etype == 3 && cMode d == 0))
    else !used 0 || !used 1 || t0.etype == t1.etype
  reserved && one 0 && one 1 && types

/-- The element counts of Table 9.3. -/
def cShapeOk (d rank L : Nat) : Bool :=
  let n := cCount d rank
  let m := (cTensor d 1).count
  match cCop d with
  | 1 => true
  | 4 => n % L == 0 && m == n / L
  | 5 => m == n * L
  | _ => !cUses d rank 1 || m == n

/-- The static check of a rank's descriptor (R309 to R311, R325, in the order of R664). -/
def cStatic (d rank L : Nat) : Option Nat :=
  let used (n : Nat) : Bool := cUses d rank n
  if cCop d = 0 ∨ 6 < cCop d then some 0x10
  else if !cDescOk d rank then some 0x11
  else if 2 < cRedop d ∨ 2 < cMode d ∨ (dIncs d = true ∧ dIncAmount d = 0) then some 0x15
  else if !cShapeOk d rank L then some 0x12
  else if [0, 1].any fun n => used n && decide (2 ^ 32 < (cTensor d n).count) then some 0x13
  else if used 0 && used 1 && overlap (cTensor d 0).extent (cTensor d 1).extent then some 0x14
  else none

/-! ### Elements on the wire (Table 9.4) -/

/-- FORMAT of an element type. -/
def fmtOf (etype : Nat) : Nat := if etype = 0 then 0 else if etype = 3 then 2 else 1
/-- The bytes of an element of a FORMAT. -/
def fmtSize (f : Nat) : Nat := if f = 0 then 2 else if f = 1 then 4 else 80
/-- The elements that one barge carries at most. -/
def fmtPer (f : Nat) : Nat := if f = 0 then 2048 else if f = 1 then 1024 else 51
/-- The element type of a reducing contribution's FORMAT. -/
def fmtEtype (f : Nat) : Nat := if f = 0 then 0 else if f = 1 then 1 else 3

/-- The elements of a payload. -/
def payloadElems (f : Nat) (bs : List Byte) : List Nat := (chunks (fmtSize f) (bs.length + 1) bs).map leNat
/-- The payload of some elements. -/
def elemsPayload (f : Nat) (es : List Nat) : List Byte := es.flatMap (leBytes (fmtSize f) ·)

/-! ### Node arithmetic (R305, R306) -/

/-- An element of a child joins a node's pound. -/
def addElem (etype : Nat) (p : Pound) (raw : Nat) : Pound :=
  if etype = 3 then p.merge (poundOfImage raw) else (elemTerms etype raw).foldl Pound.add p

/-- A rounded or unrounded sum as an element of a type, with the flags of its rounding. -/
def sumElem (etype : Nat) (draw : Option Draw) (p : Pound) : Nat × Nat :=
  if etype = 3 then (imageOfPound p, 0)
  else if etype = 1 then let r := pairVal p.val; (pairRaw r, notSeen r.2.2)
  else let r := outVal draw p.val; (r.1.toNat, notSeen r.2)

/-- The type of a node's value below the root. -/
def modeEtype (mode : Nat) : Nat := if mode = 0 then 3 else if mode = 1 then 0 else 1

/-- Element e of a node: its bits and flags. The root rounds as its chip's descriptor says. -/
def nodeElem (d : Nat) (root : Bool) (seed : Nat) (kids : List RankData) (e : Nat) : Nat × Nat :=
  let xs := kids.map fun k => (fmtEtype k.fmt, k.elems.getD e 0)
  let seen := if xs.any fun x => elemNan x.1 x.2 then fNanSeen else 0
  if cRedop d = 0 then
    let p := xs.foldl (fun p x => addElem x.1 p x.2) Pound.empty
    let draw := if root && bitOf (rfield d 6 1) 0 then some { seed := seed, inst := rfield d 8 8, idx := e, site := 0 } else none
    let r := sumElem (if root then (cTensor d 1).etype else modeEtype (cMode d)) draw p
    (r.1, seen ||| r.2)
  else
    let bf := xs.map fun x => (BitVec.ofNat 16 x.2 : Bf16)
    (((bf.drop 1).foldl (fun a b => pick (cRedop d == 1) a b) (bf.headD 0#16)).toNat, seen)

/-- The value of a node from its children's, and its flags. What does not reduce is moved: ALL_GATHER joins its children's
elements, BROADCAST passes rank 0's, and BARRIER carries none. -/
def nodeValue (d n : Nat) (root : Bool) (seed : Nat) (kids : List RankData) : RankData × Nat :=
  if reducing d then
    let es := (List.range n).map (nodeElem d root seed kids)
    let et := if cRedop d != 0 then 0 else if root then (cTensor d 1).etype else modeEtype (cMode d)
    ({ fmt := fmtOf et, base := 0, elems := es.map (·.1) }, es.foldl (fun f x => f ||| x.2) 0)
  else if cCop d = 5 then
    ({ fmt := (kids.head?.map (·.fmt)).getD 3, base := (kids.head?.map (·.base)).getD 0, elems := kids.flatMap (·.elems) }, 0)
  else (kids.headD {}, 0)

/-- The element indices that a contribution of ranks `lo` to `hi − 1` covers. -/
def upRange (d n : Nat) (span : Nat × Nat) : Nat × Nat :=
  if reducing d then (0, n)
  else if cCop d = 5 then (span.1 * n, span.2 * n)
  else (0, 0)

/-- The element indices of an outcome that ranks `lo` to `hi − 1` need, with n the element count of the collective. -/
def downRange (d n L : Nat) (span : Nat × Nat) : Nat × Nat :=
  match cCop d with
  | 2 | 6 => (0, n)
  | 3 => if span.1 = 0 then (0, n) else (0, 0)
  | 4 => (span.1 * (n / L), span.2 * (n / L))
  | 5 => (0, n * L)
  | _ => (0, 0)

/-- Elements `lo` to `hi − 1` of some data. -/
def RankData.slice (x : RankData) (lo hi : Nat) : RankData :=
  { x with base := lo, elems := (x.elems.drop (lo - x.base)).take (hi - lo) }

end Sys2Proof.Machine
end

