-- ==== Sys2Proof/Machine/Ranks.lean ====
section
/-!
DEFINITION. The rank engine at work (R299 to R330): opening and closing groups, submissions, instances, REDUCE_PART traffic,
completion and failure.
-/
namespace Sys2Proof.Machine

/-- Who asks for the rank engine's accesses (R301). -/
def rankAsker (g : Nat) : Asker := { agent := 6, source := g }

/-! ### Instances and collectives -/

/-- An instance of a group. -/
def RankGrp.inst (x : RankGrp) (q : Nat) : RankInst := mget {} x.insts q

/-- An instance changes; it comes to be where there was none. -/
def onInst (b g q : Nat) (f : RankInst → RankInst) : Eff :=
  onGrp b g fun x => { x with insts := mput x.insts q (f (x.inst q)) }

/-- The collective of a virtual slot in an instance. -/
def RankGrp.collOf (x : RankGrp) (v q : Nat) : Option RankColl := x.colls.find? fun c => c.vslot == v && c.seq == q

/-- The collective of logical rank i in an instance, once accepted. -/
def State.acceptedOf (s : State) (b g q i : Nat) : Option RankColl :=
  ((s.grp b g).collOf (i - s.grpFirst b g) q).filter (·.accepted)

/-- A local collective of the instance. -/
def State.anyColl (s : State) (b g q : Nat) : Option RankColl := (s.grp b g).colls.find? fun c => c.seq == q && c.accepted

/-- The collectives of an instance that have no status yet take one. -/
def giveStatus (b g q st : Nat) : Eff := onGrp b g fun x =>
  { x with colls := x.colls.map fun c => if c.seq = q ∧ c.fin = none then { c with fin := some st } else c }

/-- RNK_RESULT_b_g takes a failing status (R317). -/
def rankResult (b g vslot q st : Nat) : Eff := putReg (rRnkResult b g) (st + vslot % 8 * 2 ^ 8 + q % 2 ^ 16 * 2 ^ 16)

/-- FAIL_GATE of a group is raised by 1. -/
def failGate (b g : Nat) : Eff := .read fun s => addGate b (s.fld (rRnkGrp b g) 23 8) 1

/-- An OPEN group becomes FAILED (R328). -/
def groupFails (b g : Nat) : Eff := .read fun s =>
  if s.grpState b g = 1 then .andThen (putFld (rRnkGrp b g) 0 2 2) (countAt (0xF0 + b) 0) else .skip

/-! ### Sending (R318, R319) -/

/-- ARG of a REDUCE_PART. -/
def rankArg (node level g q fmt : Nat) (down last : Bool) (ops : Nat) : Nat :=
  node + level * 2 ^ 16 + g * 2 ^ 20 + q * 2 ^ 24 + fmt * 2 ^ 48 + b2n down * 2 ^ 50 + b2n last * 2 ^ 51 + ops * 2 ^ 56

/-- A barge joins the basin's outgoing ones. -/
def rankSend (b : Nat) (m : RankMsg) : Eff := onRankBasin b fun k => { k with out := k.out ++ [m] }

/-- COP, REDOP and NODE_MODE in a node's barges: those of the collective of the logical rank that hosts the node (R319), or, before it is
there, what the instance has shown so far. -/
def State.nodeOps (s : State) (b g q : Nat) (node : Nat × Nat) : Nat :=
  (((s.grp b g).collOf (node.2 - s.grpFirst b g) q).map fun c => cOps c.desc).getD ((s.grp b g).inst q).ops

/-- A control payload from a node to a chip: READY, OK without data, or a failing status. -/
def sendCode (b g q : Nat) (node : Nat × Nat) (dest : Nat) (down : Bool) (code : Nat) : Eff := .read fun s =>
  rankSend b
    { dest := dest, arg := rankArg node.2 node.1 g q 3 down (code != 1) (s.nodeOps b g q node), addr := 0,
      payload := leBytes 8 code, group := g, coll := q }

/-- Data cut into barges. -/
def dataParts (per size : Nat) (x : RankData) : List (Nat × List Byte × Bool) :=
  let cs := chunks per (x.elems.length + 1) x.elems
  (List.range cs.length).map fun i =>
    (x.base + per * i, (cs.getD i []).flatMap (leBytes size ·), i + 1 == cs.length)

/-- A contribution or an outcome from a node to a chip. -/
def sendData (b g q : Nat) (node : Nat × Nat) (dest : Nat) (down : Bool) (x : RankData) : Eff := .read fun s =>
  if x.elems.isEmpty then sendCode b g q node dest down 0
  else Eff.each (dataParts (fmtPer x.fmt) (fmtSize x.fmt) x) fun p =>
    rankSend b
      { dest := dest, arg := rankArg node.2 node.1 g q x.fmt down p.2.2 (s.nodeOps b g q node), addr := p.1,
        payload := p.2.1, group := g, coll := q }

/-! ### Completion (R316, R317) -/

/-- Outputs of the tensor wait for a copy-on-write copy (R389). -/
def State.rankCow (s : State) (g : Nat) (c : RankColl) (rank : Nat) : Bool :=
  let t := cTensor c.desc 1
  g < 16 && c.fin == some 0 && cUses c.desc rank 1 && s.cowWait t.extent.1 (t.extent.2 + 1 - t.extent.1)

/-- The elements of T1 that a rank takes from the outcome; none where the outcome does not fit it. -/
def outcomeFor (c : RankColl) (rank L : Nat) (o : RankData) : Option (List Nat) :=
  let r := downRange c.desc (cCount c.desc rank) L (rank, rank + 1)
  let es := (o.slice r.1 r.2).elems
  if o.base ≤ r.1 && es.length == r.2 - r.1 && (r.2 == r.1 || o.fmt == fmtOf (cTensor c.desc 1).etype) then some es else none

/-- A collective completes with a failing status: no increment, FAIL_GATE and RNK_RESULT (R317), and its group FAILED. -/
def collFails (b g : Nat) (c : RankColl) (st : Nat) : Eff :=
  Eff.all [groupFails b g, failGate b g, rankResult b g c.vslot c.seq st]

/-- A collective that ends OK writes its output, then makes its increment. A part of a poisoned sector is left, and it ends POISON
(R154, R661). -/
def collOk (b g : Nat) (c : RankColl) : Eff := .read fun s =>
  let rank := s.grpFirst b g + c.vslot
  let good := Eff.all
    [ Eff.when (dIncs c.desc) (addGate b (dIncGate c.desc) (dIncAmount c.desc)), bumpReg (rRnkDone b g) 64 1 ]
  if !cUses c.desc rank 1 then good
  else
    match ((s.grp b g).inst c.seq).outcome.bind (outcomeFor c rank (s.grpL b g)) with
    | none => collFails b g c 0x2A
    | some es =>
      let t := cTensor c.desc 1
      let os := (List.range es.length).map fun i => moved 1 i (es.getD i 0)
      let ok := s.writable (fun _ => t) os.length os
      Eff.all [ clearCovered (fun _ => t) ok, writeElems b t ok, if ok.length = os.length then good else collFails b g c 0x1B ]

/-- A collective completes and leaves its group; an instance ends with its last local rank. -/
def complete (b g : Nat) (c : RankColl) (st : Nat) : Eff := .read fun s =>
  Eff.all
    [ if st = 0 then collOk b g c else collFails b g c st,
      onGrp b g fun x =>
        let n := (x.inst c.seq).done + 1
        { x with
          colls := x.colls.filter fun y => !(y.vslot == c.vslot && y.seq == c.seq),
          insts := match mget? x.insts c.seq with
            | some i => if s.grpV b g ≤ n then mdel x.insts c.seq else mput x.insts c.seq { i with done := n }
            | none => x.insts } ]

/-- The collectives of a virtual slot complete in COLL_SEQ order as far as their statuses are known. -/
def rankDoneLoop (b g v : Nat) : Nat → Eff
  | 0 => .skip
  | n + 1 => .read fun s =>
    match (s.grp b g).colls.find? fun c => c.vslot == v with
    | some c => match c.fin with
      | some st => if s.rankCow g c (s.grpFirst b g + v) then .skip else .andThen (complete b g c st) (rankDoneLoop b g v n)
      | none => .skip
    | none => .skip

/-- Every virtual slot of a group completes what it can. -/
def rankDone (b g : Nat) : Eff := .read fun s =>
  Eff.each (List.range 8) fun v => rankDoneLoop b g v (s.grp b g).colls.length

/-! ### Failure (R327, R328) -/

/-- Node sums of a basin end without a result, and the tiles they ran on are at a boundary. -/
def dropSums (b : Nat) (p : RankSum → Bool) : Eff := .read fun s =>
  .andThen (onRankBasin b fun k => { k with sums := k.sums.filter fun x => !p x })
    (tileBoundary (((s.rankBasin b).sums.filter p).filterMap RankSum.tile))

/-- An instance ends with a failing status: the group FAILS, the status goes up and down the tree, but not back to the chip it came
from, and every local rank's collective takes it. The first status stays. -/
def failInst (b g q st : Nat) (src : Option Nat) : Eff := .read fun s =>
  let i := (s.grp b g).inst q
  if i.fail.isSome || i.outcome.isSome then .skip
  else
    let down := (s.localNodes b g).filter fun n => n.1 != 0
    Eff.all
      [ onInst b g q fun i => { i with fail := some st, waits := [] },
        groupFails b g,
        match s.parentOf b g, s.topNodes b g with
          | some p, t :: _ => Eff.when (src != some p.2.2) (sendCode b g q t p.2.2 false st)
          | _, _ => .skip,
        Eff.each down fun n => Eff.each ((s.kidChips b g n.1 n.2).filter fun c => src != some c) fun c =>
          sendCode b g q n c true st,
        onRankBasin b fun k => { k with cur := k.cur.filter fun c => !(c.group == g && c.seq == q) },
        dropSums b fun x => x.group == g && x.coll == q,
        giveStatus b g q st, rankDone b g ]

/-! ### The instance goes on (R305, R315, R318) -/

/-- The outcome has reached this chip: it goes on to the children on other chips, and the local ranks complete. -/
def rankOutcome (b g q : Nat) (o : RankData) : Eff := .read fun s =>
  let L := s.grpL b g
  let down := (s.localNodes b g).filter fun n => n.1 != 0
  match s.anyColl b g q with
  | none => .skip
  | some c =>
    let n := cCount c.desc (s.grpFirst b g + c.vslot)
    Eff.all
      [ onInst b g q fun i => { i with outcome := some o, waits := [] },
        Eff.each down fun x => Eff.each (s.kidChips b g x.1 x.2) fun chip =>
          let r := downRange c.desc n L (s.chipSpan b g x.1 x.2 chip)
          sendData b g q x chip true (o.slice r.1 r.2),
        giveStatus b g q 0, rankDone b g ]

/-- A local rank's collective disagrees with a node's own (R315). -/
def collDiffers (c d : RankColl) (rc rd : Nat) : Bool := cOps c.desc != cOps d.desc || cCount c.desc rc != cCount d.desc rd

/-- The values of a node's children, once all of them are there. -/
def State.nodeVals (s : State) (b g q j i : Nat) : Option (List RankData) :=
  (nodeKids (s.grpL b g) j i).mapM fun k => mget? ((s.grp b g).inst q).vals (nodeKey (j - 1) k)

/-- A node takes its value from its children's, and the root's value is the outcome. The tile handshakes of a sum are left open (R321,
log entry 4). -/
def nodeDone (b g q j i : Nat) (c : RankColl) (vs : List RankData) : Eff := .read fun s =>
  let root := j == s.grpH b g
  let r := nodeValue c.desc (cCount c.desc i) root c.seed vs
  Eff.all
    [ raiseFlags b r.2,
      Eff.when (reducing c.desc) (withFree fun mx => withFree fun vx =>
        .andThen (bumpReg (rPacActMx b) 64 mx) (bumpReg (rPacActVx b) 64 vx)),
      onInst b g q fun y => { y with vals := mput y.vals (nodeKey j i) r.1 },
      Eff.when root (rankOutcome b g q r.1) ]

/-- A node's sum joins those of its basin that wait for a tile (R302). -/
def queueSum (b g q j i : Nat) : Eff := onRankBasin b fun k =>
  if k.sums.any fun x => x.group == g && x.coll == q && x.level == j && x.index == i then k
  else { k with sums := k.sums ++ [{ group := g, coll := q, level := j, index := i }] }

/-- A node of level j ≥ 1 on this chip goes on: READY, then, once all of its children are there, its value: a sum is made on a tile (R302),
and a node that sums nothing needs none. -/
def nodeStep (b g q j i : Nat) : Eff := .read fun s =>
  let L := s.grpL b g
  match s.acceptedOf b g q i with
  | none => .skip
  | some c =>
    let x := (s.grp b g).inst q
    let ready := Eff.when (!x.ready.contains j) (.andThen (onInst b g q fun y => { y with ready := sins y.ready j })
      (Eff.each (s.kidChips b g j i) fun chip => sendCode b g q (j, i) chip true 1))
    let kids := nodeKids L j i
    let bad := j == 1 && kids.any fun k => s.localNode b g k && (match s.acceptedOf b g q k with
      | some d => collDiffers c d i k
      | none => false)
    if x.fail.isSome || x.outcome.isSome then .skip
    else if bad then .andThen ready (failInst b g q 0x2A none)
    else if (mget? x.vals (nodeKey j i)).isSome then ready
    else match s.nodeVals b g q j i with
      | none => ready
      | some vs => .andThen ready (if reducing c.desc then queueSum b g q j i else nodeDone b g q j i c vs)

/-- The contributions of the nodes whose parent lies on another chip go up once READY has come. -/
def sendUp (b g q : Nat) : Eff := .read fun s =>
  match s.parentOf b g with
  | none => .skip
  | some p => Eff.each (s.topNodes b g) fun n => .read fun s =>
    let x := (s.grp b g).inst q
    match mget? x.vals (nodeKey n.1 n.2) with
    | some v =>
      if x.parentReady && x.fail.isNone && x.outcome.isNone && !x.sent.contains (nodeKey n.1 n.2) then
        .andThen (onInst b g q fun y => { y with sent := sins y.sent (nodeKey n.1 n.2) }) (sendData b g q n p.2.2 false v)
      else .skip
    | none => .skip

/-- The key under which a chip waits for READY. -/
abbrev waitReady : Nat := 2 ^ 20
/-- The key under which a chip waits for the outcome. -/
abbrev waitOutcome : Nat := 2 ^ 20 + 1

/-- What the nodes of an instance wait for (R326). -/
def State.rankWants (s : State) (b g q : Nat) : List Nat :=
  let x := (s.grp b g).inst q
  if x.fail.isSome || x.outcome.isSome then []
  else
    let kids := (s.localNodes b g).flatMap fun n =>
      if n.1 = 0 || (s.acceptedOf b g q n.2).isNone then []
      else ((nodeKids (s.grpL b g) n.1 n.2).map (nodeKey (n.1 - 1) ·)).filter fun k => (mget? x.vals k).isNone
    let tops := s.topNodes b g
    let ready := if !x.parentReady && tops.any fun n => (s.acceptedOf b g q n.2).isSome then [waitReady] else []
    let outcome := if !tops.isEmpty && tops.all fun n => x.sent.contains (nodeKey n.1 n.2) then [waitOutcome] else []
    kids ++ ready ++ outcome

/-- The waits of an instance are brought up to date; one that goes on keeps its marks. -/
def keepWaits (b g q : Nat) : Eff := .read fun s =>
  let w := s.rankWants b g q
  if (mget? (s.grp b g).insts q).isNone then .skip
  else onInst b g q fun x => { x with waits := w.foldl (fun m k => mput m k (mget (0, s.now) x.waits k)) [] }

/-- An instance goes on as far as what is there allows. -/
def advanceInst (b g q : Nat) : Eff := .read fun s =>
  Eff.all
    [ Eff.each ((s.localNodes b g).filter fun n => n.1 != 0) fun n => nodeStep b g q n.1 n.2,
      sendUp b g q, keepWaits b g q ]

/-! ### Node sums on tiles (R302, R76) -/

/-- A node sum has run on its tile. A tile fault that reached it ends the instance TILE_FAULT. -/
def endSum (b : Nat) (x : RankSum) : Eff := .read fun s =>
  if x.faulted then failInst b x.group x.coll 0x1A none
  else .andThen (dropSums b fun y => y == x)
    (match s.acceptedOf b x.group x.coll x.index, s.nodeVals b x.group x.coll x.level x.index with
      | some c, some vs => .andThen (nodeDone b x.group x.coll x.level x.index c vs) (advanceInst b x.group x.coll)
      | _, _ => .skip)

/-- A node sum takes a free tile, if the grant goes to the rank engine's work of its basin. Which of the free tiles is left open (R120). -/
def placeSum (b : Nat) (x : RankSum) : Eff := .read fun s =>
  let free := (List.range 96).filter s.tileFree
  if free.isEmpty then .skip
  else granted 0 State.tileQueues (rankUser b) (withFree fun v =>
    let t := free.getD (v % free.length) 0
    .andThen (onTile t (Tile.enter b)) (onRankBasin b fun k =>
      { k with sums := k.sums.map fun y => if y = x then { y with tile := some t } else y }))

/-- The node sums of a basin that run on tiles end. -/
def endSums (b : Nat) : Eff := .read fun s => Eff.each ((s.rankBasin b).sums.filter fun x => x.tile.isSome) (endSum b)

/-- Those that wait take tiles as the grants allow. -/
def placeSums (b : Nat) : Eff := .read fun s => Eff.each ((s.rankBasin b).sums.filter fun x => x.tile.isNone) (placeSum b)

/-! ### Barges out, and their answers -/

/-- The barges of a basin go into their flows (R318). One whose flow is BROKEN fails its instance; one that needs a flow entry waits
and counts (R275). -/
def rankFlushLoop (b : Nat) : Nat → Eff
  | 0 => .skip
  | n + 1 => .read fun s =>
    match (s.rankBasin b).out with
    | [] => .skip
    | m :: _ =>
      let f := flowKey (0x100 + b) m.dest 1
      let pop := onRankBasin b fun k => { k with out := k.out.drop 1 }
      if s.flowBroken f then Eff.all [pop, failInst b m.group m.coll 0x1E none, rankFlushLoop b n]
      else if !s.canFlow f then countAt 0x38 0
      else .andThen (needFlow f) (.read fun s =>
        match s.flow? f with
        | some x =>
          if x.state = 2 then Eff.all [pop, failInst b m.group m.coll 0x1E none, rankFlushLoop b n]
          else
            Eff.all
              [ pop, onRankBasin b fun k => { k with acks := k.acks ++ [⟨m.dest, x.next, m.group, m.coll⟩] },
                enqueueFlow f
                  (bargeHdr 0x04 1 false s.chipId (0x100 + b) m.payload.length m.dest b m.addr m.arg 0) m.payload,
                rankFlushLoop b n ]
        | none => .skip)

/-- The barges of a basin go out. -/
def rankFlush (b : Nat) : Eff := rankFlushLoop b 65536

/-- The end of one of the engine's barges: any but OK fails its instance FLOW_BROKEN (Table 9.8). -/
def rankAnswer (b dest seq status : Nat) : Eff := .read fun s =>
  match (s.rankBasin b).acks.find? fun a => a.dest == dest && a.seq == seq with
  | none => .skip
  | some a =>
    Eff.all
      [ onRankBasin b fun k => { k with acks := k.acks.filter fun x => !(x.dest == dest && x.seq == seq) },
        Eff.when (status != 0) (.read fun s =>
          if (mget? (s.grp b a.group).insts a.coll).isSome then failInst b a.group a.coll 0x1E none else .skip),
        rankFlush b ]

/-! ### OPEN and CLOSE (R299, R328) -/

/-- The number of groups OPEN or FAILED on the chip. -/
def State.openGroups (s : State) : Nat :=
  ((List.range 256).filter fun k => s.grpState (k / 16) (k % 16) != 0).length

/-- The outcome of a command in RNK_STATUS_b. -/
def rankCmdResult (b st : Nat) : Eff := putFld (rRnkStatus b) 0 8 st

/-- The map's entries and its checks (R299 steps 4 and 5); the group then opens. -/
def openMapped (b g d : Nat) (map : List Nat) : Eff := .read fun s =>
  let own := s.chipId
  let routed (c : Nat) : Bool := s.hasRoute c
  if !(map.all fun c => decide (c ≤ 0xFFF)) || !decide (map.Nodup) || !map.contains own then rankCmdResult b 0x11
  else if !(map.all fun c => c == own || routed c) then rankCmdResult b 0x1D
  else
    let v := rfield d 1 1
    Eff.all
      [ putReg (rRnkGrp b g)
          (1 + rfield d 0 1 * 2 ^ 2 + v * 2 ^ 6 + map.idxOf own * 2 ^ v * 2 ^ 8 + rfield d 2 1 * 2 ^ 23),
        onGrp b g fun _ => { timeout := rfield d 4 4, map := map, counts := List.replicate 8 0 }, rankCmdResult b 0 ]

/-- OPEN (R299). Step 2 judges the descriptor as it is stored. A descriptor or map outside HBM ends BAD_DESCRIPTOR, a poisoned one
POISON. -/
def groupOpen (b g : Nat) (es : List EccEvent) : Eff := .read fun s =>
  let a := s.fld (rRnkArg b) 0 48
  let d := s.num a 64
  let l := rfield d 0 1
  let v := rfield d 1 1
  let m := rfield d 8 6
  let n := 4 * 2 ^ (l - v)
  let fields := rfield d 3 1 == 0 && rfield d 14 50 == 0 && decide (1 ≤ l ∧ l ≤ 15 ∧ v ≤ 3 ∧ v ≤ l ∧ l - v ≤ 12)
    && rfield d 4 4 != 0 && m % 4 == 0
  if !s.isOpen b then .skip
  else if s.grpState b g != 0 || decide (64 ≤ s.openGroups) then rankCmdResult b 0x29
  else if inHbm a && inHbm (a + 63) && !fields then rankCmdResult b 0x15
  else
    checkUnits b (rankAsker g) (⟨a, a + 63, rightR⟩ :: if inHbm (a + 63) then [⟨m, m + n - 1, rightR⟩] else [])
      (rankCmdResult b)
      (if !(inHbm a && inHbm (a + 63) && inHbm m && inHbm (m + n - 1)) then rankCmdResult b 0x11
       else
        Eff.all
          [ readSectors b (sectorsOf a 64) es, actRead b (sectorsOf a 64).length, readSectors b (sectorsOf m n) es,
            actRead b (sectorsOf m n).length,
            .read fun t =>
              if t.anyPoison a 64 || t.anyPoison m n then rankCmdResult b 0x1B
              else openMapped b g d ((List.range (2 ^ (l - v))).map fun k => t.num (m + 4 * k) 4) ])

/-- A collective joins others in COLL_SEQ order. -/
def insColl (c : RankColl) : List RankColl → List RankColl
  | [] => [c]
  | d :: ds => if older 24 c.seq d.seq then c :: d :: ds else d :: insColl c ds

/-- Every outstanding collective of a group ends ABORTED in COLL_SEQ order. -/
def abortGroup (b g : Nat) : Eff := .read fun s =>
  Eff.all
    [ onRankBasin b fun k =>
        { k with
          cur := k.cur.filter fun c => c.group != g, out := k.out.filter fun m => m.group != g,
          acks := k.acks.filter fun a => a.group != g },
      dropSums b fun x => x.group == g,
      onGrp b g fun x => { x with insts := [] },
      Eff.each ((s.grp b g).colls.foldr insColl []) fun c =>
        .andThen (failGate b g) (rankResult b g c.vslot c.seq (match c.fin with
          | some 0 => 0x1C
          | some st => st
          | none => 0x1C)),
      onGrp b g fun x => { x with colls := [] } ]

/-- A flow takes its next generation (R278). -/
def renewFlow (f : Nat) : Eff := .read fun s =>
  match s.flow? f with
  | some x =>
    onFab fun k => { k with src := mput k.src f { gen := (x.gen + 1) % 65536, path := (s.choosePath (flowDest f)).getD 0 } }
  | none => .skip

/-- CLOSE (R328). -/
def groupClose (b g : Nat) : Eff := .read fun s =>
  if s.grpState b g = 0 then rankCmdResult b 0x29
  else
    Eff.all
      [ abortGroup b g, putReg (rRnkGrp b g) 0, onGrp b g fun _ => {},
        .read fun t => Eff.each (t.dev.fab.src.filter fun e => flowQueue e.1 == 0x100 + b && e.2.state == 2) fun e =>
          renewFlow e.1,
        rankCmdResult b 0 ]

/-- A write to RNK_CMD_b (R662). -/
def rankCmd (b v : Nat) (es : List EccEvent) : Eff := .read fun s =>
  let g := bitsOf v 0 4
  if !s.isOpen b then .skip
  else if bitsOf v 4 2 = 1 then groupOpen b g es
  else if bitsOf v 4 2 = 2 then groupClose b g
  else .skip

/-! ### Submissions (R309 to R316) -/

/-- The number of descriptors waiting is shown in RNK_STATUS_b. -/
def showFifo (b : Nat) : Eff := .read fun s => putFld (rRnkStatus b) 16 7 (s.rankBasin b).fifo.length

/-- A write to RNK_SUBMIT_b. -/
def rankSubmit (b v : Nat) : Eff := .read fun s =>
  if !s.isOpen b then .skip
  else if 64 ≤ (s.rankBasin b).fifo.length then putBit (rRnkStatus b) 8 true
  else .andThen (onRankBasin b fun k => { k with fifo := k.fifo ++ [bitsOf v 0 48] }) (showFifo b)

/-- The descriptor under way has passed its stages, or ended. -/
def dropCur (b : Nat) : Eff := onRankBasin b fun k => { k with cur := none }

/-- Stages 4 and 5: locks, the limit of R316, the seed and the input. -/
def acceptColl (b : Nat) (c : RankCur) (es : List EccEvent) : Eff := .read fun s =>
  let g := c.group
  let rank := s.grpFirst b g + c.vslot
  let t0 := cTensor c.desc 0
  let units := ([0, 1].filter (cUses c.desc rank ·)).map fun n =>
    AccUnit.mk (cTensor c.desc n).extent.1 (cTensor c.desc n).extent.2 (if n = 0 then rightR else rightW)
  let past := ((s.grp b g).colls.filter fun x => x.vslot == c.vslot && x.accepted).length
  checkUnits b (rankAsker g) units (fun st => failInst b g c.seq st none)
    (if 16 ≤ past then .skip
     else
      let secs := if cUses c.desc rank 0 then s.tensorSectors t0 else []
      Eff.all
        [ dropCur b, readSectors b secs es, actRead b secs.length,
          .read fun t =>
            if secs.any t.poisoned then failInst b g c.seq 0x1B none
            else
              let base := if cCop c.desc = 5 then rank * t0.count else 0
              let v : RankData :=
                if cUses c.desc rank 0 then { fmt := fmtOf t0.etype, base := base, elems := (t.readElems t0 []).toList } else {}
              Eff.all
                [ onGrp b g fun x =>
                    { x with colls := x.colls.map fun y =>
                        if y.vslot = c.vslot ∧ y.seq = c.seq then
                          { y with accepted := true, seed := (t.reg (rGlbSeed b)).toNat } else y },
                  onInst b g c.seq fun i => { i with ops := cOps c.desc, vals := mput i.vals (nodeKey 0 rank) v },
                  advanceInst b g c.seq ] ])

/-- The wait of the descriptor under way (stage 3, R108, R109). Where its group has FAILED meanwhile it ends GROUP_STATE (R328). -/
def collWait (b : Nat) (c : RankCur) (es : List EccEvent) : Eff := .read fun s =>
  if s.grpState b c.group = 2 then Eff.all
    [ dropCur b,
      onGrp b c.group fun x =>
        { x with colls := x.colls.map fun y =>
            if y.vslot = c.vslot ∧ y.seq = c.seq ∧ y.fin = none then { y with fin := some 0x29 } else y },
      rankDone b c.group ]
  else if dWaits c.desc && waitExpired (dWaitLimit c.desc) c.marks then failInst b c.group c.seq 0x19 none
  else if s.opWaitMet b c.desc c.marks then acceptColl b c es
  else .skip

/-- A descriptor that has been read. One that names no rank of an OPEN group ends GROUP_STATE or BAD_PARAM by itself; the number
that RNK_RESULT then shows, where there is none, is left open (log entry 4). -/
def collRead (b d : Nat) (es : List EccEvent) : Eff := .read fun s =>
  let g := cGroup d
  let v := cVslot d
  let st := s.grpState b g
  if 16 ≤ g then .skip
  else if st = 0 then withFree fun x => rankResult b g v x 0x29
  else if s.grpV b g ≤ v then withFree fun x => .andThen (failGate b g) (rankResult b g v x (if st = 2 then 0x29 else 0x15))
  else
    let q := (s.grp b g).counts.getD v 0
    let rank := s.grpFirst b g + v
    let join (c : RankColl) : Eff := onGrp b g fun x =>
      { x with counts := x.counts.set v ((q + 1) % 2 ^ 24), colls := x.colls ++ [c] }
    if st = 2 then .andThen (join { vslot := v, seq := q, desc := d, fin := some 0x29 }) (rankDone b g)
    else
      .andThen (join { vslot := v, seq := q, desc := d }) (.andThen
        (onInst b g q fun i => if i.ops = 0 then { i with ops := cOps d } else i)
        (match cStatic d rank (s.grpL b g) with
          | some e => failInst b g q e none
          | none =>
            let c : RankCur := { desc := d, group := g, vslot := v, seq := q, since := s.now }
            .andThen (onRankBasin b fun k => { k with cur := some c }) (collWait b c es)))

/-- The next descriptor of a basin's FIFO is read (stage 1). One that its lock check refuses, that lies outside HBM or is poisoned
names no group, and is lost. -/
def collFetch (b a : Nat) (es : List EccEvent) : Eff :=
  Eff.all
    [ onRankBasin b fun k => { k with fifo := k.fifo.drop 1 }, showFifo b,
      checkUnits b (rankAsker 0) [⟨a, a + 191, rightR⟩] (fun _ => .skip)
        (if inHbm a && inHbm (a + 191) then
          Eff.all
            [ readSectors b (sectorsOf a 192) es, actRead b (sectorsOf a 192).length,
              .read fun t => if t.anyPoison a 192 then .skip else collRead b (t.num a 192) es ]
         else .skip) ]

/-- A collective command: the basin's node sums that run on tiles end; its next descriptor, if it asks for this collective or for none of
Table 9.3, is taken through its stages, or the one under way goes on (R312); and the sums that wait take tiles (log entry 85). -/
def effCollective (cop b : Nat) (es : List EccEvent) : Eff := .read fun s =>
  let ours (c : Nat) : Bool := c == cop || c == 0 || decide (6 < c)
  if !s.isOpen b then .skip
  else Eff.all
    [ endSums b,
      .read fun s => match (s.rankBasin b).cur with
        | some c => Eff.when (cCop c.desc == cop) (collWait b c es)
        | none => match (s.rankBasin b).fifo with
          | a :: _ => Eff.when (ours (s.num a 2)) (collFetch b a es)
          | [] => Eff.each (List.range 16) fun g => rankDone b g,
      placeSums b, rankFlush b ]

/-! ### REDUCE_PART (R315, R320) -/

/-- Fields of ARG. -/
def aNode (a : Nat) : Nat := bitsOf a 0 15
def aLevel (a : Nat) : Nat := bitsOf a 16 3
def aGroup (a : Nat) : Nat := bitsOf a 20 4
def aSeq (a : Nat) : Nat := bitsOf a 24 24
def aFmt (a : Nat) : Nat := bitsOf a 48 2
def aDown (a : Nat) : Bool := bitOf a 50
def aLast (a : Nat) : Bool := bitOf a 51

/-- A failing status that a control payload may carry (Tables 4.9 and 9.7). -/
def failCode (c : Nat) : Bool := decide (0x10 ≤ c ∧ c ≤ 0x1E) || decide (0x28 ≤ c ∧ c ≤ 0x2A)

/-- The fields of a REDUCE_PART are as Tables 8.4 and 9.4 give them. -/
def rankFieldsOk (b : Barge) : Bool :=
  let a := b.arg
  let n := b.payload.length
  let f := aFmt a
  b.cls == 1 && !b.coded && b.pmap == 0 && b.srcQueue == 0x100 + b.basin && !bitOf a 15 && !bitOf a 19 && bitsOf a 52 4 == 0
    && (if f = 3 then n == 8 && bitsOf (leNat b.payload) 8 56 == 0 && (decide (leNat b.payload ≤ 1) || failCode (leNat b.payload))
        else decide (0 < n) && n % fmtSize f == 0 && decide (n / fmtSize f ≤ fmtPer f))

/-- A COLL_SEQ that the group's local ranks have not all finished with. -/
def State.liveSeq (s : State) (b g q : Nat) : Bool :=
  (mget? (s.grp b g).insts q).isSome
    || (List.range (s.grpV b g)).any fun v => !older 24 q ((s.grp b g).counts.getD v 0)

/-- The local node that a remote child (level, index) belongs to. -/
def State.parentHere (s : State) (b g j i : Nat) : Option (Nat × Nat) :=
  if j < s.grpH b g && decide (i < s.grpL b g) && i % 8 ^ j == 0 && !s.localNode b g i && s.localNode b g (nodeParent j i) then
    some (j + 1, nodeParent j i) else none

/-- A REDUCE_PART is expected (R320). -/
def State.rankExpects (s : State) (x : Barge) : Bool :=
  let a := x.arg
  let b := x.basin
  let g := aGroup a
  let q := aSeq a
  let i := (s.grp b g).inst q
  let code := if aFmt a = 3 then some (leNat x.payload) else none
  let failing := (code.map failCode).getD false
  s.grpState b g == 1 && s.liveSeq b g q
    && (if aDown a then
          (match s.parentOf b g with
            | some p => p.1 == aLevel a && p.2.1 == aNode a && p.2.2 == x.srcChip
            | none => false)
          && (failing
            || (if code = some 1 then !i.parentReady && i.fail.isNone
                else i.fail.isNone && i.outcome.isNone
                  && (s.topNodes b g).all fun n => i.sent.contains (nodeKey n.1 n.2)))
        else
          (match s.parentHere b g (aLevel a) (aNode a) with
            | some p => s.hostOf b g (aNode a) == x.srcChip
                && (failing || (code != some 1 && i.fail.isNone && i.ready.contains p.1
                    && (mget? i.vals (nodeKey (aLevel a) (aNode a))).isNone))
            | none => false))

/-- A chunk joins what has come of a contribution over the indices `r`: the data so far, and whether it is whole. None where R315 is
broken. -/
def takeChunk (r : Nat × Nat) (had : RankData) (a addr : Nat) (bs : List Byte) : Option (RankData × Bool) :=
  if aFmt a = 3 then (if had.elems.isEmpty && r.1 == r.2 then some ({ fmt := 3, base := r.1 }, true) else none)
  else
    let es := payloadElems (aFmt a) bs
    let next := r.1 + had.elems.length
    if addr != next || r.2 < next + es.length || (!had.elems.isEmpty && had.fmt != aFmt a)
        || (aLast a && next + es.length != r.2) then none
    else some ({ fmt := aFmt a, base := r.1, elems := had.elems ++ es }, aLast a)

/-- A contribution or an outcome of a REDUCE_PART that has been accepted takes effect. -/
def rankPart (x : Barge) : Eff := .read fun s =>
  let a := x.arg
  let b := x.basin
  let g := aGroup a
  let q := aSeq a
  let ops := bitsOf a 56 8
  let code := leNat x.payload
  .andThen (onInst b g q fun i => if i.ops = 0 then { i with ops := ops } else i)
    (if aFmt a = 3 && failCode code then failInst b g q code (some x.srcChip)
     else if aDown a then
      (if aFmt a = 3 && code == 1 then .andThen (onInst b g q fun i => { i with parentReady := true }) (advanceInst b g q)
       else match s.anyColl b g q with
        | none => failInst b g q 0x2A (some x.srcChip)
        | some c =>
          let tops := s.topNodes b g
          let span := ((tops.head?.map (·.2)).getD 0, (tops.getLast?.map fun n => (nodeSpan (s.grpL b g) n.1 n.2).2).getD 0)
          let r := downRange c.desc (cCount c.desc (s.grpFirst b g + c.vslot)) (s.grpL b g) span
          let bad := failInst b g q 0x2A (some x.srcChip)
          if ops != cOps c.desc then bad
          else match takeChunk r ((((s.grp b g).inst q).down).getD {}) a x.addr x.payload with
            | none => bad
            | some (v, true) => rankOutcome b g q v
            | some (v, false) => onInst b g q fun i => { i with down := some v })
     else match s.parentHere b g (aLevel a) (aNode a) with
      | none => .skip
      | some p => match s.acceptedOf b g q p.2 with
        | none => .skip
        | some c =>
          let n := cCount c.desc p.2
          let key := nodeKey (aLevel a) (aNode a)
          let r := upRange c.desc n (nodeSpan (s.grpL b g) (aLevel a) (aNode a))
          let bad := failInst b g q 0x2A none
          let had := (mget? ((s.grp b g).inst q).parts key).getD {}
          let form := !(reducing c.desc) || aFmt a == 3
            || (if cRedop c.desc != 0 then aFmt a == 0 else aLevel a == 0 || aFmt a == fmtOf (modeEtype (cMode c.desc)))
          if ops != cOps c.desc || !form then bad
          else match takeChunk r had a x.addr x.payload with
            | none => bad
            | some (v, true) =>
              .andThen (onInst b g q fun i => { i with vals := mput i.vals key v, parts := mdel i.parts key }) (advanceInst b g q)
            | some (v, false) => onInst b g q fun i => { i with parts := mput i.parts key v })

/-! ### Marks, RANK_TIMEOUT and resets -/

/-- A time mark passes for the descriptor under way. -/
def State.markCur (s : State) (b : Nat) (c : RankCur) : RankCur :=
  let met := !dWaits c.desc || s.gateMet b (dWaitGate c.desc) (dWaitValue c.desc)
  { c with marks := markOne met (dWaitLimit c.desc) c.marks c.since s.markTick }

/-- A time mark passes for the waits of an instance. -/
def State.markInst (s : State) (i : RankInst) : RankInst :=
  { i with waits := i.waits.map fun w => (w.1, (if w.2.2 < s.markTick then w.2.1 + 1 else w.2.1), w.2.2) }

/-- A time mark passes for the waits of the rank engine (R109, R326). -/
def markRanks : Eff := .read fun s => onRanks fun r =>
  let bs := r.basins.map fun e => (e.1, { e.2 with cur := e.2.cur.map (s.markCur e.1) })
  let gs := r.groups.map fun e => (e.1, { e.2 with insts := e.2.insts.map fun i => (i.1, s.markInst i.2) })
  { r with basins := bs, groups := gs }

/-- RANK_TIMEOUT (R326): a wait of the instance has lasted TIMEOUT time marks. -/
def effRankTimeout (b g q : Nat) : Eff := .read fun s =>
  match mget? (s.grp b g).insts q with
  | some i =>
    if i.waits.any fun w => decide ((s.grp b g).timeout ≤ w.2.1) then .andThen (failInst b g q 0x28 none) (rankFlush b)
    else .skip
  | none => .skip

/-- The engine's part in a basin reset (R329): the basin's groups close and its submissions are lost. -/
def rankBasinReset (b : Nat) : Eff := .read fun s =>
  Eff.all
    [ Eff.each ((List.range 16).filter fun g => s.grpState b g != 0) fun g =>
        Eff.all
          [ abortGroup b g, putReg (rRnkGrp b g) 0, onGrp b g fun _ => {} ],
      .read fun t => Eff.each (t.dev.fab.src.filter fun e => flowQueue e.1 == 0x100 + b && e.2.state == 2) fun e => renewFlow e.1,
      dropSums b fun _ => true, onRankBasin b fun _ => {}, showFifo b ]

/-- BLOCK_RESET of the rank engine (Table 9.8): instances end ABORTED and OPEN groups become FAILED. -/
def rankBlockReset : Eff := .read fun s =>
  Eff.all
    [ Eff.each ((List.range 256).filter fun k => s.grpState (k / 16) (k % 16) != 0) fun k =>
        .andThen (abortGroup (k / 16) (k % 16)) (groupFails (k / 16) (k % 16)),
      Eff.each (List.range 16) fun b => dropSums b fun _ => true,
      onRanks fun r => { r with basins := [] }, Eff.each (List.range 16) showFifo ]

/-- An uncorrectable error of the rank state store (R330): the instances it holds end ABORTED, and the status travels. -/
def rankStateUe (hit : List (Nat × Nat × Nat)) : Eff :=
  .andThen (countAt 0x27 0) (Eff.each hit fun h => .read fun s =>
    if (mget? (s.grp h.1 h.2.1).insts h.2.2).isSome then .andThen (failInst h.1 h.2.1 h.2.2 0x1C none) (rankFlush h.1) else .skip)

/-! ### The meanings -/

/-- OPEN. -/
def execOpenGroup (rd b g : Nat) (es : List EccEvent) (s : State) : Host.Outcome State Fault Refusal :=
  (writeReg rd (rRnkCmd b) (rankCmd b (bitsOf g 0 4 + 16) es)).done s
/-- CLOSE. -/
def execClose (rd b g : Nat) (s : State) : Host.Outcome State Fault Refusal :=
  (writeReg rd (rRnkCmd b) (rankCmd b (bitsOf g 0 4 + 32) [])).done s
/-- RNK_SUBMIT. -/
def execRnkSubmit (rd b v : Nat) (s : State) : Host.Outcome State Fault Refusal :=
  (writeReg rd (rRnkSubmit b) (rankSubmit b v)).done s
/-- BARRIER. -/
def execBarrier (b : Nat) (es : List EccEvent) (s : State) : Host.Outcome State Fault Refusal := (effCollective 1 b es).done s
/-- ALL_REDUCE. -/
def execAllReduce (b : Nat) (es : List EccEvent) (s : State) : Host.Outcome State Fault Refusal := (effCollective 2 b es).done s
/-- REDUCE. -/
def execReduce (b : Nat) (es : List EccEvent) (s : State) : Host.Outcome State Fault Refusal := (effCollective 3 b es).done s
/-- REDUCE_SCATTER. -/
def execReduceScatter (b : Nat) (es : List EccEvent) (s : State) : Host.Outcome State Fault Refusal := (effCollective 4 b es).done s
/-- ALL_GATHER. -/
def execAllGather (b : Nat) (es : List EccEvent) (s : State) : Host.Outcome State Fault Refusal := (effCollective 5 b es).done s
/-- BROADCAST. -/
def execBroadcast (b : Nat) (es : List EccEvent) (s : State) : Host.Outcome State Fault Refusal := (effCollective 6 b es).done s
/-- RANK_TIMEOUT. -/
def execRankTimeout (b g q : Nat) (s : State) : Host.Outcome State Fault Refusal := (effRankTimeout b g q).done s

end Sys2Proof.Machine
end

