-- ==== Sys2Proof/Machine/Users.lean ====
section
/-!
DEFINITION. How the ends of barges reach the users of source flows (R115, R116, R204, R277, R318): programs, copy engines and
the rank engine; and the command that resets a flow.
-/
namespace Sys2Proof.Machine

/-- The program of a queue waits for this barge of this flow. -/
def State.progWaits (s : State) (e : FlowEvent) : Bool :=
  let q := flowQueue e.flow
  match (s.queue q).prog with
  | some p => match p.stage with
    | .remote seq gen =>
      seq == e.seq && gen == e.gen
        && flowKey q (rfield p.desc 40 2) (rfield p.desc 43 1) == e.flow
    | _ => false
  | none => false

/-- The copy engines that run an entry on this flow. -/
def State.flowEngines (s : State) (f : Nat) : List Nat :=
  (s.dev.work.engines.filter fun e => e.2.remote && flowKey e.2.q e.2.destChip e.2.cls == f).map (·.1)

/-- A barge's end reaches its user. Management agents take no note of one. -/
def tellOne (e : FlowEvent) (es : List EccEvent) : Eff := .read fun s =>
  let q := flowQueue e.flow
  if q < 0x100 then
    if s.progWaits e then (if e.status = 0 then opDone q es else progEnd q e.status)
    else Eff.each (s.flowEngines e.flow) fun k => copyAnswer k e.seq e.status
  else if q < 0x110 then rankAnswer (q - 0x100) (flowDest e.flow) e.seq e.status
  else .skip

/-- What flows owe their users is told, in order. -/
def drainLoop (es : List EccEvent) : Nat → Eff
  | 0 => .skip
  | n + 1 => .read fun s =>
    match s.dev.fab.events with
    | [] => .skip
    | e :: rest => Eff.all [onFab fun k => { k with events := rest }, tellOne e es, drainLoop es n]

/-- What flows owe their users is told: at most one event for each outstanding barge, and for each that the telling breaks. -/
def drainUsers (es : List EccEvent) : Eff := drainLoop es 65536

/-! ### Management agents (R256, R275) -/

/-- The management barges that wait for a flow entry are sent, in order, as far as entries are at hand (R275); a flow that is BROKEN is
begun anew (log entry 19). -/
def manageLoop : Nat → Eff
  | 0 => .skip
  | n + 1 => .read fun s =>
    match s.dev.fab.manage with
    | [] => .skip
    | (dest, kind, payload) :: rest =>
      let f := flowKey 0x1F0 dest 0
      if s.flowBroken f || s.canFlow f then
        Eff.all
          [ onFab fun k => { k with manage := rest },
            if s.flowBroken f then renewFlow f else needFlow f,
            enqueueFlow f (bargeHdr kind 0 false s.chipId 0x1F0 payload.length dest 0 0 0 0) payload, manageLoop n ]
      else .skip

/-- What the management agents hold waiting is sent. -/
def drainManage : Eff := .read fun s => manageLoop s.dev.fab.manage.length

/-- A management barge goes to a chip; where no flow entry can be freed it waits and counts (R275). -/
def sendManagement (dest kind : Nat) (payload : List Byte) : Eff := Eff.all
  [ onFab fun f => { f with manage := f.manage ++ [(dest, kind, payload)] }, drainManage,
    .read fun s => Eff.when (!s.dev.fab.manage.isEmpty) (countAt 0x38 0) ]

/-! ### FLOW_RESET (R278) -/

/-- The result of a flow reset. -/
def flowResult (b status : Nat) : Eff := putFld (rIbnFlowResult b) 0 8 status

/-- A committed write to IBN_FLOW_RESET_b. -/
def flowReset (b v : Nat) : Eff := .read fun s =>
  let q := bitsOf v 0 8
  let f := flowKey q (bitsOf v 16 12) (bitsOf v 12 2)
  if !s.qPresent q || s.qOwner q != b then flowResult b 1
  else match s.flow? f with
    | none => flowResult b 3
    | some x =>
      if x.state != 2 && !x.outs.isEmpty then flowResult b 2
      else Eff.all [renewFlow f, flowResult b 0, putFld (rIbnFlowResult b) 16 16 ((x.gen + 1) % 65536)]

/-- FLOW_RESET. -/
def execFlowReset (rd b v : Nat) (s : State) : Host.Outcome State Fault Refusal :=
  (writeReg rd (rIbnFlowReset b) (onlyIf (fun s => s.isOpen b) (flowReset b v))).done s

end Sys2Proof.Machine
end

