-- ==== Sys2Proof/Machine/Ports.lean ====
section
/-!
DEFINITION. Ports (R245 to R249, R257, R261 to R264, R284, R293 to R295): training, width changes, control frames, retry,
retrain, retirement and winding holes.
-/
namespace Sys2Proof.Machine

/-- IBN_P_p_STATE.CAUSE. -/
def State.pCause (s : State) (p : Nat) : Nat := s.fld (rIbnPState p) 16 8
/-- IBN_P_p_STATE.LANES_ACTIVE. -/
def State.pActive (s : State) (p : Nat) : Nat := s.fld (rIbnPState p) 8 4
/-- IBN_P_p_STATE.LANES_RETIRED. -/
def State.pRetired (s : State) (p : Nat) : Nat := s.fld (rIbnPState p) 12 4

/-- A port's state, cause and active lanes; its width is their number (R247). -/
def setPort (p st cause active : Nat) : Eff :=
  Eff.all
    [ putFld (rIbnPState p) 0 3 st, putFld (rIbnPState p) 16 8 cause, putFld (rIbnPState p) 8 4 active,
      putFld (rIbnPState p) 4 3 ((List.range 4).filter (bitOf active)).length ]

/-! ### Leaving service (R266, R276, R294) -/

/-- An own barge that a port had not yet sent is to be rerouted (R276, R294). -/
def unsent (b : Barge) : Eff :=
  let f := flowKey b.srcQueue b.dest b.cls
  .andThen (onFlow f fun x =>
      if x.gen = b.gen then { x with outs := x.outs.map fun o => if o.seq = b.seq then { o with answer := some 0x27 } else o }
      else x)
    (fence f)

/-- A lane stoppage on a port ends (Table 18.9). -/
def endLaneStoppage (p : Nat) : Eff := .read fun s =>
  Eff.when (s.bit rStpStatus 1 && s.fld rStpStatus 16 6 / 4 == p) (.andThen (putBit rStpStatus 1 false) (putFld rStpStatus 16 6 0))

/-- A port that has gone DOWN or RETIRED loses its replay contents; barges it held are answered PATH_DOWN or rerouted, its
replies are lost, and the flows whose PATH uses it are fenced. -/
def closePort (p : Nat) : Eff := .read fun s =>
  Eff.all
    [ onPort p fun k => { k with replay := [], outQ := [], lanes := none, credits := [8, 8, 8, 8] }, endLaneStoppage p,
      Eff.each (s.port p).outQ fun w =>
        if w.input = 16 then (if w.barge.isReply then .skip else unsent w.barge)
        else .andThen (returnCredit w.input) (if w.barge.isReply then .skip else sendAck w.barge 0x27 true),
      fencePort p, drainUsers [] ]

/-- A port goes DOWN with a cause. -/
def portDown (p cause : Nat) : Eff := .read fun s =>
  Eff.all [setPort p 0 cause 0, onPort p (fun k => { k with since := s.now }), closePort p]

/-- A port is retired (R294, R295). -/
def retirePort (p cause : Nat) : Eff :=
  Eff.all
    [ setPort p 5 cause 0, onPort p (fun k => { k with retired := true }), journalUnits 4 cause p 0xFF 0 0, closePort p ]

/-! ### Replay and RETRAIN (R263, R264) -/

/-- A port enters RETRAIN; its third within 2^30 ticks retires it (R294). -/
def enterRetrain (p : Nat) : Eff := .read fun s =>
  let recent := s.now :: (s.port p).retrains.filter fun t => decide (s.now < t + 2 ^ 30)
  Eff.all
    [ bumpReg (rIbnPCnt p 1) 64 1, countAt 0x32 p, endLaneStoppage p,
      onPort p fun k => { k with retrains := recent, since := s.now, lanes := none },
      if 3 ≤ recent.length then retirePort p 6
      else .andThen (putFld (rIbnPState p) 0 3 3)
        (onPort p fun k => { k with replay := k.replay.map fun r => { r with sends := 0, again := false } }) ]

/-- A replay entry is resent: the resend counts once (R263), and a TOWPATH barge's slots count towards its cap (R259). -/
def resendOne (p : Nat) (r : Replay) : Eff := .read fun s => Eff.all
  [ sendFrame p (bargeFrame (r.barge.bytes r.lseq)), bumpReg (rIbnPCnt p 0) 64 1, countAt 0x31 p,
    onPort p fun k =>
      { k with
        replay := k.replay.map fun x => if x.lseq = r.lseq then { x with sends := x.sends + 1, tick := s.now, again := false } else x
        towSlots := if r.barge.cls = 0 then k.towSlots + r.barge.slots else k.towSlots } ]

/-- The entries that wait to be resent go out in LSEQ order; a TOWPATH barge that would pass its cap waits for the next mark interval,
and those behind it with it (R259, R263). -/
def resendLoop (p : Nat) : Nat → Eff
  | 0 => .skip
  | n + 1 => .read fun s =>
    match (s.port p).replay.find? (·.again) with
    | some r =>
      if r.barge.cls = 0 ∧ s.towCap p < (s.port p).towSlots + r.barge.slots then .skip
      else .andThen (resendOne p r) (resendLoop p n)
    | none => .skip

/-- The replay entries from position `i` on are to be resent, in order. -/
def resendFrom (p i : Nat) : Eff :=
  .andThen
    (onPort p fun k => { k with replay := k.replay.take i ++ (k.replay.drop i).map fun r => { r with again := true } })
    (resendLoop p 32)

/-- After a resend: a barge that has now been sent 8 times puts the port into RETRAIN; otherwise the port goes on. -/
def afterResend (p : Nat) : Eff := .read fun s =>
  if (s.port p).replay.any fun r => decide (8 ≤ r.sends) then enterRetrain p else pumpPort p

/-- A port goes on in a new mark interval: what waits to be resent, then what waits to be sent. -/
def continuePort (p : Nat) : Eff := .read fun s =>
  if (s.port p).lanes.isSome then .skip else .andThen (resendLoop p 32) (afterResend p)

/-- A port's barges are resent from an LSEQ. -/
def resendSeq (p lseq : Nat) : Eff := .read fun s =>
  match (s.port p).replay.findIdx? fun r => r.lseq == lseq with
  | some i => .andThen (resendFrom p i) (afterResend p)
  | none => .skip

/-! ### Width changes (R248) -/

/-- A LANES exchange starts: both ends will switch at the CW_SEQ named, which the sender chooses (log entry 4). -/
def startLanes (p mask : Nat) : Eff := withFree fun v =>
  .andThen (sendControl p 0x18 (mask + v % 16 * 256)) (onPort p fun k => { k with lanes := some (mask, v % 16) })

/-- The lanes that are due to leave port p. -/
def State.dueLanes (s : State) (p : Nat) : Nat := ((s.dev.due.lanes.filter fun l => l / 4 == p).map fun l => 2 ^ (l % 4)).foldl (· + ·) 0

/-- The retired lanes of a port leave it: by a LANES exchange while it is UP; with its last lane it is retired (R294). -/
def leaveLanes (p : Nat) : Eff := .read fun s =>
  let gone := s.pActive p &&& s.dueLanes p
  let rest := s.pActive p - gone
  if s.dueLanes p = 0 ∨ (s.pState p = 2 ∧ (s.port p).lanes.isSome) then .skip
  else .andThen (onDue fun d => { d with lanes := d.lanes.filter fun l => l / 4 != p })
    (if s.pRetired p = 15 ∧ s.pState p != 5 then retirePort p 4
     else if s.pState p = 2 ∧ gone != 0 then (if rest = 0 then portDown p 4 else startLanes p rest)
     else .skip)

/-- Retired lanes leave their ports. -/
def processLanes : Eff := Eff.each (List.range 16) leaveLanes

/-! ### Training (R245 to R247) -/

/-- A port trains from cold. -/
def beginTraining (p : Nat) : Eff := .read fun s =>
  Eff.all
    [ setPort p 1 0 0, onPort p fun k => { k with since := s.now, badAdapt := k.leftOut, leftOut := 0, helloSent := false },
      Eff.when (s.pRetired p == 15) (portDown p 4) ]


/-- LANE_ADAPT_TIMEOUT (R245, R293). -/
def effLaneAdaptTimeout (p l : Nat) : Eff := .read fun s =>
  let k := s.port p
  if p < 16 ∧ l < 4 ∧ s.pState p = 1 ∧ k.since + 2 ^ 22 ≤ s.now ∧ bitOf (s.pRetired p) l = false ∧ bitOf k.leftOut l = false then
    Eff.all
      [ onPort p fun k => { k with leftOut := k.leftOut + 2 ^ l },
        calFail (16 + 4 * p + l) 1, Eff.when (bitOf k.badAdapt l) (countAt 0x33 (4 * p + l)), processLanes ]
  else .skip

/-- TRAIN_TIMEOUT (R245). -/
def effTrainTimeout (p : Nat) : Eff :=
  onlyIf (fun s => decide (p < 16) && s.pState p == 1 && decide ((s.port p).since + 2 ^ 24 ≤ s.now)) (portDown p 2)

/-- TRAIN_RETRY (R245). -/
def effTrainRetry (p : Nat) : Eff :=
  onlyIf (fun s => decide (p < 16) && s.pState p == 0 && s.pCause p == 2 && decide ((s.port p).since + 2 ^ 27 ≤ s.now))
    (beginTraining p)

/-- The lanes of a training or retrain that have locked record their adaptation (Table 17.2). -/
def lanesAdapted (p lanes : Nat) : Eff := Eff.each ((List.range 4).filter (bitOf lanes)) fun l => calAccept (16 + 4 * p + l)

/-- A port goes UP on its active lanes; at its first, the timebase master admits itself. -/
def portUp (p active : Nat) : Eff := .read fun s =>
  Eff.all
    [ setPort p 2 0 active,
      onPort p fun k => { k with txSeq := 0, rxSeq := 0, replay := [], credits := [8, 8, 8, 8] },
      onFab fun f => { f with firstUp := f.firstUp <|> some s.now },
      selfAdmit, pumpPort p ]

/-- The body of the HELLO that port p sends (Table 8.3). -/
def State.helloBody (s : State) (p lanes : Nat) : Nat :=
  s.chipId + p * 2 ^ 16 + lanes % 16 * 2 ^ 24 + s.fld rIbnReach 0 32 * 2 ^ 32

/-- A control frame of a type arrives on a port: one whose CHECK is wrong is discarded and counted (R243). -/
def onFrame (p ftype : Nat) (frame : List Byte) (k : Nat → Eff) : Eff := .read fun s =>
  if 16 ≤ p ∨ s.pState p = 0 ∨ s.pState p = 5 ∨ frame.length != 16 ∨ (frame.headD 0#8).toNat != ftype then .skip
  else match frameBody ftype frame with
    | none => countAt 0x30 p
    | some m => k m

/-- The port's own HELLO goes out, once in a training (R245 step 3). -/
def sendHello (p lanes : Nat) : Eff := .read fun s =>
  if (s.port p).helloSent then .skip
  else .andThen (sendControl p 0x15 (s.helloBody p lanes)) (onPort p fun k => { k with helloSent := true })

/-- The lanes that take part in a training: those locked at this end, neither retired nor left out (R245, R247). -/
def State.trainLanes (s : State) (p lanes : Nat) : Nat := (lanes % 16) &&& (15 - (s.pRetired p ||| (s.port p).leftOut))

/-- TRAINING (R245): an enabled port that is neither retired nor stopped begins training from cold; in a port that trains, `lanes` have
found codeword lock and its HELLO goes out. -/
def effTraining (p lanes : Nat) : Eff := .read fun s =>
  if p < 16 ∧ s.pState p = 1 then (if s.trainLanes p lanes = 0 then .skip else sendHello p (s.trainLanes p lanes))
  else onlyIf (fun s => decide (p < 16) && (s.port p).enabled && !(s.port p).retired && s.pState p == 0 && s.pCause p == 0
      && !s.bit rGlbRole 19 && (s.phase == 5 || s.phase == 6)) (beginTraining p)

/-! ### TEST barges (R249) -/

/-- The PRBS31 generator x^31 + x^28 + 1 goes on by `n` bits; its state, and the bits as a number, the first the highest (log entry
83). -/
def prbsBits : Nat → Nat → Nat → Nat × Nat
  | st, acc, 0 => (st, acc)
  | st, acc, n + 1 =>
    let b := (st / 2 ^ 30 + st / 2 ^ 27) % 2
    prbsBits (st * 2 % 2 ^ 31 + b) (acc * 2 + b) n

/-- `n` bytes of PRBS31. -/
def prbsBytes : Nat → Nat → Nat × List Byte
  | st, 0 => (st, [])
  | st, n + 1 =>
    let x := prbsBits st 0 8
    let r := prbsBytes x.1 n
    (r.1, BitVec.ofNat 8 x.2 :: r.2)

/-- The next TEST barge of a winding hole: its payload is PRBS31; its CLASS and length are left open. EXTERNAL puts it on the lanes. -/
def sendTest (p : Nat) : Eff := withFree fun len => withFree fun cls => .read fun s =>
  let k := s.port p
  let x := prbsBytes k.prbs (len % 4096 + 1)
  let b : Barge := { hdr := bargeHdr 0x08 (cls % 4) false s.chipId 0x1F0 x.2.length s.chipId 0 0 0 0, payload := x.2 }
  .andThen (onPort p fun k => { k with prbs := x.1, windSent := x.2 })
    (Eff.when (k.wind == 2) (sendFrame p (bargeFrame (b.bytes 0))))

/-- The bits in which two bytes differ. -/
def bitErrors (a b : Byte) : Nat := ((List.range 8).filter fun i => a.getLsbD i != b.getLsbD i).length

/-- HELLO (R245, R246): the port exchanges HELLOs, `lanes` being those locked at its own end. -/
def effHello (p lanes : Nat) (frame : List Byte) : Eff := onFrame p 0x15 frame fun m => .read fun s =>
    let chip := bodyGet m 1 2
    let port := bodyGet m 3 1
    let k := s.port p
    let own := s.trainLanes p lanes
    let width := own &&& bodyGet m 4 1
    .andThen (putFld (rIbnPNeigh p) 0 16 (chip % 4096 + port % 16 * 4096))
      (if s.pState p = 4 then
        (if k.wind = 2 then .andThen (onPort p fun k => { k with windOk := chip == s.chipId && port == p })
          (Eff.when (chip == s.chipId && port == p && k.windSent.isEmpty) (sendTest p)) else .skip)
       else if s.pState p = 1 ∧ s.now ≤ k.since + 2 ^ 24 then
        Eff.all [sendHello p own, lanesAdapted p own,
          (if bodyGet m 5 4 != s.fld rIbnReach 0 32 || chip != s.fld (rIbnPNeigh p) 16 12 || port != s.fld (rIbnPNeigh p) 28 4 then
            .andThen (countAt 0x36 p) (portDown p 3)
           else if width = 0 then portDown p 4
           else portUp p width)]
       else .skip)

/-! ### Control frames of a port in service -/

/-- LANES (R248): the neighbour announces a new lane mask. -/
def effLanes (p : Nat) (frame : List Byte) : Eff := onFrame p 0x18 frame fun m => .read fun s =>
  let had := match (s.port p).lanes with
    | some (a, _) => a
    | none => 15
  Eff.when (s.pState p == 2)
    (onPort p fun k => { k with lanes := some (bodyGet m 1 1 &&& had &&& (15 - s.pRetired p), bodyGet m 2 1 % 16) })

/-- LANE_SWITCH (R248): both ends switch, and the port resends from the oldest barge that no LACK covers. -/
def effLaneSwitch (p : Nat) : Eff := .read fun s =>
  match (s.port p).lanes with
  | some (mask, _) =>
    if s.pState p = 2 then
      .andThen (onPort p fun k => { k with lanes := none })
        (if mask = 0 then portDown p 4
         else Eff.all [setPort p 2 0 mask, resendFrom p 0, afterResend p, processLanes])
    else .skip
  | none => .skip

/-- The barges of a class that a port has sent and no LACK covers. -/
def Port.unacked (k : Port) (c : Nat) : Nat := (k.replay.filter fun r => r.barge.cls == c).length

/-- CREDIT (R257): the neighbour's free buffers of each class, less the barges on their way to them (log entry 81). Each CREDIT
tells all, so that a lost one is made good by the next (R243). -/
def effCredit (p : Nat) (frame : List Byte) : Eff := onFrame p 0x11 frame fun m =>
  .andThen (onPort p fun k =>
      { k with credits := (List.range 4).map fun c => min 8 (bodyGet m (1 + c) 1) - k.unacked c })
    (pumpPort p)

/-- LACK (R261): the entries up to its LSEQ are freed. -/
def effLack (p : Nat) (frame : List Byte) : Eff := onFrame p 0x12 frame fun m =>
  .andThen (onPort p fun k =>
      match k.replay.findIdx? fun r => r.lseq == bodyGet m 1 2 % 4096 with
      | some i => { k with replay := k.replay.drop (i + 1) }
      | none => k)
    (pumpPort p)

/-- LNAK (R263). -/
def effLnak (p : Nat) (frame : List Byte) : Eff := onFrame p 0x13 frame fun m => .read fun s =>
  Eff.when (s.pState p == 2 && (s.port p).lanes.isNone) (resendSeq p (bodyGet m 1 2 % 4096))

/-- REPLAY_TIMEOUT (R262): the oldest replay entry has had no LACK for 8,192 ticks. -/
def effReplayTimeout (p : Nat) : Eff := .read fun s =>
  match (s.port p).replay with
  | r :: _ => if s.pState p = 2 ∧ (s.port p).lanes = none ∧ r.tick + 8192 ≤ s.now then resendSeq p r.lseq else .skip
  | [] => .skip

/-- CODEWORD_UNCORRECTABLE (R240, R242, R262): a word arrives that the code cannot correct; `hit` tells that a barge overlaps it. -/
def effCodewordUncorrectable (p : Nat) (word : List Nat) (hit : Bool) : Eff := .read fun s =>
  if 16 ≤ p ∨ s.pState p = 0 ∨ s.pState p = 5 ∨ (rsDecode word).isSome = true then .skip
  else Eff.all
    [ bumpReg (rIbnPCnt p 3) 64 1, countAt 0x30 p,
      Eff.when (hit && s.pState p == 2) (sendControl p 0x13 (s.port p).rxSeq) ]

/-- RETRAIN_DONE (R264): the retrain ends in time; `lanes` are those locked at both ends. -/
def effRetrainDone (p lanes : Nat) : Eff := .read fun s =>
  let mask := (lanes % 16) &&& (15 - s.pRetired p)
  if 16 ≤ p ∨ s.pState p != 3 ∨ (s.port p).since + 2 ^ 18 < s.now then .skip
  else if mask = 0 then portDown p 4
  else Eff.all [lanesAdapted p mask, setPort p 2 0 mask, resendFrom p 0, pumpPort p, processLanes]

/-- RETRAIN_TIMEOUT (R294). -/
def effRetrainTimeout (p : Nat) : Eff :=
  onlyIf (fun s => decide (p < 16) && s.pState p == 3 && decide ((s.port p).since + 2 ^ 18 < s.now)) (retirePort p 6)

/-- PING (R284): answered at once; the largest value received is kept (R428). The residence is a matter of timing (log entry
4). -/
def effPing (p : Nat) (frame : List Byte) : Eff := onFrame p 0x16 frame fun m => withFree fun v =>
  .andThen (sendControl p 0x17 (bodyGet m 1 8 + v % 2 ^ 32 * 2 ^ 64))
    (onPort p fun k => { k with ping := max k.ping (bodyGet m 1 8) })

/-- The mean of link-delay exchanges, each twice the delay in ticks, in units of 1/16 tick. How it is rounded is left open. -/
def meanDelay (v : Nat) (l : List Nat) : Nat :=
  let n := 2 * l.length
  let t := 16 * l.foldl (· + ·) 0
  if n = 0 then 0 else t / n + (if t % n = 0 then 0 else v % 2)

/-- PONG (R284): the port's link delay is the mean over the last 16 exchanges. -/
def effPong (p : Nat) (frame : List Byte) : Eff := onFrame p 0x17 frame fun m => .read fun s =>
  let two := s.now - bodyGet m 1 8 - bodyGet m 9 4
  let l := (two :: (s.port p).delays).take 16
  withFree fun v => .andThen (onPort p fun k => { k with delays := l }) (putFld (rIbnPDelay p) 0 20 (min (meanDelay v l) (2 ^ 20 - 1)))

/-! ### Winding holes and releases (R249, R295) -/

/-- A winding hole starts, on a port that is DOWN or RETIRED. INTERNAL begins its test; EXTERNAL sends a HELLO that it expects back.
The cause of an id conflict stays (R291). -/
def windStart (p mode : Nat) : Eff := .read fun s =>
  if s.pState p = 0 ∨ s.pState p = 5 then
    Eff.all
      [ setPort p 4 (if s.bit rGlbRole 19 then s.pCause p else 0) 0,
        onPort p fun k => { k with wind := mode, windOk := false, windSent := [] },
        if mode = 2 then sendControl p 0x15 (s.helloBody p (15 - s.pRetired p)) else sendTest p ]
  else .skip

/-- A winding hole stops: the port leaves WINDING for DOWN, with ID_CONFLICT where that is its cause until the next reset (R291). -/
def windStop (p : Nat) : Eff := .read fun s =>
  if s.pState p = 4 then
    .andThen (setPort p 0 (if s.bit rGlbRole 19 then 5 else if (s.port p).enabled then 0 else 1) 0)
      (onPort p fun k => { k with wind := 0, windOk := false, windSent := [] })
  else .skip

/-- A release record for each retired lane of the port, and for the port where it is retired. -/
def linkRelease (p : Nat) : Eff := .read fun s =>
  .andThen (Eff.each ((List.range 4).filter (bitOf (s.pRetired p))) fun l => journalUnits 5 0 p l 0 0)
    (Eff.when (s.port p).retired (journalUnits 5 0 p 0xFF 0 0))

/-- A write to IBN_P_p_CTRL. -/
def portCtrl (p v : Nat) : Eff :=
  if bitsOf v 16 16 != 0x7E1A then .skip
  else .andThen
    (match bitsOf v 0 2 with
      | 0 => .skip
      | 3 => windStop p
      | m => windStart p m)
    (Eff.when (bitOf v 2) (linkRelease p))

/-- TEST (R249): a TEST barge comes back through a winding hole with these payload bytes; they are compared with the PRBS31 sent, and the
next one follows. -/
def effTest (p : Nat) (got : List Byte) : Eff := .read fun s =>
  let k := s.port p
  let pairs := k.windSent.zip got
  if p < 16 ∧ s.pState p = 4 ∧ (k.wind = 1 ∨ k.windOk = true) then
    Eff.all
      [ bumpReg (rIbnPCnt p 6) 64 (pairs.map fun x => bitErrors x.1 x.2).sum, bumpReg (rIbnPCnt p 7) 64 (8 * pairs.length), sendTest p ]
  else .skip

/-! ### The meanings -/

/-- TRAINING. -/
def execTraining (p lanes : Nat) (s : State) : Host.Outcome State Fault Refusal := (effTraining p lanes).done s
/-- LANE_ADAPT_TIMEOUT. -/
def execLaneAdaptTimeout (p l : Nat) (s : State) : Host.Outcome State Fault Refusal := (effLaneAdaptTimeout p l).done s
/-- TRAIN_TIMEOUT. -/
def execTrainTimeout (p : Nat) (s : State) : Host.Outcome State Fault Refusal := (effTrainTimeout p).done s
/-- TRAIN_RETRY. -/
def execTrainRetry (p : Nat) (s : State) : Host.Outcome State Fault Refusal := (effTrainRetry p).done s
/-- HELLO. -/
def execHello (p lanes : Nat) (frame : List Byte) (s : State) : Host.Outcome State Fault Refusal := (effHello p lanes frame).done s
/-- LANES. -/
def execLanes (p : Nat) (frame : List Byte) (s : State) : Host.Outcome State Fault Refusal := (effLanes p frame).done s
/-- LANE_SWITCH. -/
def execLaneSwitch (p : Nat) (s : State) : Host.Outcome State Fault Refusal := (effLaneSwitch p).done s
/-- CREDIT. -/
def execCredit (p : Nat) (frame : List Byte) (s : State) : Host.Outcome State Fault Refusal := (effCredit p frame).done s
/-- LACK. -/
def execLack (p : Nat) (frame : List Byte) (s : State) : Host.Outcome State Fault Refusal := (effLack p frame).done s
/-- LNAK. -/
def execLnak (p : Nat) (frame : List Byte) (s : State) : Host.Outcome State Fault Refusal := (effLnak p frame).done s
/-- PING. -/
def execPing (p : Nat) (frame : List Byte) (s : State) : Host.Outcome State Fault Refusal := (effPing p frame).done s
/-- PONG. -/
def execPong (p : Nat) (frame : List Byte) (s : State) : Host.Outcome State Fault Refusal := (effPong p frame).done s
/-- CODEWORD_UNCORRECTABLE. -/
def execCodewordUncorrectable (p : Nat) (word : List Nat) (hit : Bool) (s : State) : Host.Outcome State Fault Refusal :=
  (effCodewordUncorrectable p word hit).done s
/-- REPLAY_TIMEOUT. -/
def execReplayTimeout (p : Nat) (s : State) : Host.Outcome State Fault Refusal := (effReplayTimeout p).done s
/-- RETRAIN_DONE. -/
def execRetrainDone (p lanes : Nat) (s : State) : Host.Outcome State Fault Refusal := (effRetrainDone p lanes).done s
/-- RETRAIN_TIMEOUT. -/
def execRetrainTimeout (p : Nat) (s : State) : Host.Outcome State Fault Refusal := (effRetrainTimeout p).done s
/-- TEST. -/
def execTest (p : Nat) (got : List Byte) (s : State) : Host.Outcome State Fault Refusal := (effTest p got).done s
/-- WIND_INTERNAL. -/
def execWindInternal (rd p : Nat) (s : State) : Host.Outcome State Fault Refusal :=
  (writeReg rd (rIbnPCtrl p) (portCtrl p 0x7E1A0001)).done s
/-- WIND_EXTERNAL. -/
def execWindExternal (rd p : Nat) (s : State) : Host.Outcome State Fault Refusal :=
  (writeReg rd (rIbnPCtrl p) (portCtrl p 0x7E1A0002)).done s
/-- WIND_STOP. -/
def execWindStop (rd p : Nat) (s : State) : Host.Outcome State Fault Refusal :=
  (writeReg rd (rIbnPCtrl p) (portCtrl p 0x7E1A0003)).done s
/-- LINK_RELEASE. -/
def execLinkRelease (rd p : Nat) (s : State) : Host.Outcome State Fault Refusal :=
  (writeReg rd (rIbnPCtrl p) (portCtrl p 0x7E1A0004)).done s

end Sys2Proof.Machine
end

