-- ==== Sys2Proof/Machine/Inbox.lean ====
section
/-!
DEFINITION. Barges that reach this chip (R252 to R256, R260, R266, R270 to R274, R276, R320): their reception, the kinds they perform,
and the replies.
-/
namespace Sys2Proof.Machine

/-! ### The barges that wait to be performed -/

/-- The order that two barges of this chip's inbox keep: those of one flow, and the replies of one flow. -/
def Barge.order (b : Barge) : Nat × Bool := (b.dstKey, b.isReply)

/-- The first barge of the inbox that fits and has none of its order before it. -/
def firstFit (ok : Barge → Bool) (seen : List (Nat × Bool)) : Inbox → Option Waiting
  | [] => none
  | w :: ws =>
    if ok w.barge && !seen.contains w.barge.order then some w else firstFit ok (w.barge.order :: seen) ws

/-- A barge leaves the inbox, and its buffer is free again. -/
def leaveInbox (w : Waiting) : Eff :=
  .andThen (onFab fun f => { f with inbox := dropWaiting w f.inbox }) (returnCredit w.input)

/-- The first barge of a kind that fits leaves the inbox for `k`. -/
def fromInbox (kind : Nat) (ok : State → Barge → Bool) (k : Waiting → Eff) : Eff := .read fun s =>
  match firstFit (fun b => b.kind == kind && ok s b) [] s.dev.fab.inbox with
  | some w => .andThen (leaveInbox w) (k w)
  | none => .skip

/-! ### Checks at the destination (R271) -/

/-- The fields that every barge carries are in order. -/
def Barge.baseOk (b : Barge) : Bool :=
  b.reservedOk && (decide (b.srcQueue < 0x110) || b.srcQueue == 0x1F0) && b.poisonedBit == (b.pmap != 0)

/-- The bytes of a payload lie within one 4 KiB page from `a`. -/
def onePage (a n : Nat) : Bool := decide (a % 4096 + n ≤ 4096)

/-- The sectors that a POISON_MAP names lie in the range. -/
def mapInside (pmap a n : Nat) : Bool :=
  (List.range 128).all fun i => !bitOf pmap i || (sectorsOf (a % 4096) n).contains (32 * i)

/-- The fields of each kind (Table 8.5, R254, R255, R320). -/
def Barge.fieldsOk (b : Barge) : Bool :=
  let n := b.payload.length
  b.baseOk &&
    (if b.kind = 0x01 then
      b.cls != 0 && b.arg == 0 && onePage b.addr n && (b.pmap == 0 || inHbm b.addr) && mapInside b.pmap b.addr n
        && (!b.coded || (inHbm b.addr && b.addr % 4096 == 0 && n % 32 == 0 && decide (288 ≤ n ∧ n ≤ 4064)))
     else if b.kind = 0x02 then
      let len := bitsOf b.arg 48 16
      b.cls != 0 && !b.coded && b.pmap == 0 && n == 0 && decide (1 ≤ len ∧ len ≤ 4096) && onePage (bitsOf b.arg 0 48) len
     else if b.kind = 0x03 then b.cls != 0 && !b.coded && b.pmap == 0 && n == 0 && bitsOf b.arg 8 24 == 0
     else if b.kind = 0x04 then rankFieldsOk b
     else
      b.cls == 0 && !b.coded && b.pmap == 0 && b.arg == 0
        && (((b.kind == 0x20 || b.kind == 0x21 || b.kind == 0x22) && n == 16) || (b.kind == 0x28 && n == 784) || b.kind == 0x2F))

/-- What the lock check of an inbound barge finds: first and last byte, status and window of a refusal. -/
def State.bargeLock (s : State) (b : Barge) : Option (Nat × Nat × Nat × Option Nat) :=
  let n := if b.kind = 0x02 then bitsOf b.arg 48 16 else b.payload.length
  if (b.kind = 0x01 ∧ n != 0) ∨ b.kind = 0x02 then
    match s.lockCheck b.basin b.addr (b.addr + n - 1) ((if b.kind = 0x01 then rightW else rightR) + rightD) with
    | .pass _ => none
    | .refuse st w => some (b.addr, b.addr + n - 1, st, w)
  else none

/-- The checks of R271 in order. TOWPATH barges go to the chip and not to a basin. -/
def State.bargeCheck (s : State) (b : Barge) : Option Nat :=
  if b.cls != 0 && !s.isOpen b.basin then some 0x24
  else if !b.fieldsOk then some 0x25
  else if b.cls != 0 && !s.inReach then some 0x24
  else if b.kind = 0x04 ∧ s.rankExpects b = false then some 0x25
  else (s.bargeLock b).map fun r => r.2.2.1

/-- A refusal by the lock check is recorded (R146). -/
def bargeRefused (b : Barge) : Eff := .read fun s =>
  if s.isOpen b.basin && b.fieldsOk && s.inReach then
    match s.bargeLock b with
    | some (lo, hi, st, w) => lockRefuse b.basin lo hi { agent := 4, source := b.srcChip } st w
    | none => .skip
  else .skip

/-- A barge is taken through R271; if nothing refuses it, its kind is performed. -/
def takeBarge (b : Barge) (perform : Eff) : Eff := acceptBarge b (fun s => s.bargeCheck b) (bargeRefused b) perform

/-- A barge delivered to a basin counts as its activity (R292), and is answered OK (R272). -/
def delivered (b : Barge) : Eff :=
  .andThen (Eff.when (b.cls != 0) (bumpReg (rIbnActRx b.basin) 64 b.charge)) (sendAck b 0 false)

/-! ### Reception (R260 to R262, R266) -/

/-- A barge of no kind of Table 8.5 that a chip takes is refused BAD_BARGE, in its flow's order. -/
def knownKind (k : Nat) : Bool :=
  k == 0x01 || k == 0x02 || k == 0x03 || k == 0x04 || k == 0x10 || k == 0x11 || k == 0x20 || k == 0x21 || k == 0x22 || k == 0x28
    || k == 0x2F

/-- The barges of unknown kinds that are next in their flows are taken through R271. -/
def sweepLoop : Nat → Eff
  | 0 => .skip
  | n + 1 => .read fun s =>
    match firstFit (fun b => !knownKind b.kind) [] s.dev.fab.inbox with
    | some w => Eff.all [leaveInbox w, takeBarge w.barge .skip, sweepLoop n]
    | none => .skip

/-- The barges of unknown kinds that are next in their flows are taken through R271. -/
def sweep : Eff := .read fun s => sweepLoop s.dev.fab.inbox.length

/-- BARGE_RECEIVE (R260, R262): a whole barge has arrived on a port. `spoilt` tells that its second check fails. -/
def effBargeReceive (p : Nat) (bs : List Byte) (spoilt : Bool) : Eff := .read fun s =>
  let k := s.port p
  if 16 ≤ p ∨ s.pState p != 2 then .skip
  else match parseBarge bs with
    | (none, _) => sendControl p 0x13 k.rxSeq
    | (some l, none) => if l = k.rxSeq then sendControl p 0x13 l else .skip
    | (some l, some b) =>
      if l != k.rxSeq then .skip
      else Eff.all
        [ onPort p fun k => { k with rxSeq := (l + 1) % 4096 }, bumpReg (rIbnPCnt p 5) 64 1, sendControl p 0x12 l,
          if spoilt then .andThen (returnCredit p) (countAt 0x34 p)
          else if b.dest = s.chipId then
            .andThen (onFab fun f => { f with inbox := f.inbox ++ [{ input := p, barge := b }] }) sweep
          else forward p b ]

/-! ### The kinds -/

/-- The bytes of a WRITE are written (R254, R255). A part of a sector that stays poisoned is not (R154). -/
def bargeWrite (b : Barge) (es : List EccEvent) : Eff :=
  let a := b.addr
  let n := b.payload.length
  let bad := ((List.range 128).filter (bitOf b.pmap)).map fun i => a / 4096 * 4096 + 32 * i
  if n = 0 then .skip
  else if !inHbm a then sendWrite b.basin a b.payload
  else if b.coded then
    Eff.all [storeBlock a true b.payload, poisonSectors bad, actWrite b.basin (sectorsOf a n).length]
  else
    let parts := ((pieces a b.payload).filter fun p => p.2.length != 32).map fun p => sectorOf p.1
    Eff.all
      [ sectorErrors parts.contains es,
        Eff.each ((pieces a b.payload).filter fun p => !bad.contains (sectorOf p.1)) fun p => writeHbm p.1 p.2,
        poisonSectors bad, markRaw a n, markDirty a n, actWrite b.basin (sectorsOf a n).length ]

/-- WRITE: the first WRITE that no copy-on-write copy holds up. -/
def effWrite (es : List EccEvent) : Eff :=
  .andThen
    (fromInbox 0x01 (fun s b => !(inHbm b.addr && s.cowWait b.addr b.payload.length)) fun w =>
      takeBarge w.barge (.andThen (bargeWrite w.barge es) (delivered w.barge)))
    sweep

/-- A READ_DATA answers a READ_REQ (R252, R254). `bad` are the offsets of bytes that came from poisoned sectors: zero bytes stand in
their place, and POISON_MAP names the sectors of the destination's page that they reach. -/
def sendReadData (b : Barge) (bs : List Byte) (bad : List Nat) : Eff := .read fun s =>
  let ret := bitsOf b.arg 0 48
  let secs := (bad.map fun i => sectorOf (ret + i)).foldl sins []
  let out := bs.mapIdx fun i x => if bad.contains i then 0#8 else x
  sendReply (s.replyHdr b 0x11 bs.length ret 0 (poisonMap secs)) out

/-- The bytes of a READ_REQ are read: from HBM at once, over PCIe by a request whose completion READ_REQ takes up. The barge
is delivered and counts (R292). -/
def bargeRead (b : Barge) (es : List EccEvent) : Eff := .andThen (bumpReg (rIbnActRx b.basin) 64 b.charge) <| .read fun s =>
  let n := bitsOf b.arg 48 16
  if inHbm b.addr then
    Eff.all
      [ readSectors b.basin (sectorsOf b.addr n) es, actRead b.basin (sectorsOf b.addr n).length,
        .read fun t => sendReadData b (t.bytes b.addr n) ((List.range n).filter fun i => t.poisoned (sectorOf (b.addr + i))) ]
  else
    let k := ((List.range 65536).find? fun k => (mget? s.dev.fab.reading k).isNone).getD 65536
    Eff.all
      [ onFab fun f => { f with reading := mput f.reading k b },
        onReads fun l => l ++ [{ user := .barge k, tick := s.now }],
        Eff.each (tlpCut (max 128 s.dev.pci.mrrs) (s.busAddr b.addr) (List.replicate n 0#8) (n + 1)) fun r =>
          emit (.memRead b.basin r.1 r.2.length) ]

/-- A READ_REQ whose bytes have come over PCIe is answered; one whose read failed has no answer (log entry 18). -/
def readBack (k : Nat) (b : Barge) (r : HostRead) : Eff :=
  Eff.all
    [ onFab fun f => { f with reading := mdel f.reading k }, dropRead (.barge k),
      match r with
      | .data bs => sendReadData b (bs.take (bitsOf b.arg 48 16)) []
      | _ => .skip ]

/-- The READ_REQ whose bytes have come over PCIe. -/
def State.readReady (s : State) : Option (Nat × Barge × HostRead) :=
  s.dev.fab.reading.findSome? fun e => match s.outRead (.barge e.1) with
    | some r => r.got.map fun g => (e.1, e.2, g)
    | none => none

/-- READ_REQ (R272). -/
def effReadReq (es : List EccEvent) : Eff := .read fun s =>
  match s.readReady with
  | some (k, b, r) => readBack k b r
  | none => .andThen (fromInbox 0x02 (fun _ _ => true) fun w => takeBarge w.barge (bargeRead w.barge es)) sweep

/-- GATE_INC (R272): the gate of the basin in DEST rises by AMOUNT. -/
def effGateInc : Eff :=
  .andThen
    (fromInbox 0x03 (fun _ _ => true) fun w =>
      takeBarge w.barge
        (.andThen (addGate w.barge.basin (bitsOf w.barge.arg 0 8) (bitsOf w.barge.arg 32 32)) (delivered w.barge)))
    sweep

/-- REDUCE_PART (R320). -/
def effReducePart : Eff :=
  .andThen
    (fromInbox 0x04 (fun _ _ => true) fun w =>
      takeBarge w.barge (Eff.all [rankPart w.barge, delivered w.barge, rankFlush w.barge.basin]))
    sweep

/-- FIRMWARE (R256): the message is handed to the control cores. -/
def effFirmware : Eff :=
  .andThen
    (fromInbox 0x2F (fun _ _ => true) fun w =>
      takeBarge w.barge (.andThen (emit (.firmware w.barge.srcChip w.barge.payload)) (delivered w.barge)))
    sweep

/-! ### Replies -/

/-- ACK (R276): it answers an outstanding barge. A transit hop's PATH_DOWN waits until its flow is known. -/
def effAck (es : List EccEvent) : Eff :=
  Eff.all
    [ fromInbox 0x10 (fun _ _ => true) (fun w => .read fun s =>
        if bitOf w.barge.arg 8 then holdTransit w.barge
        else match s.answerFlow w.barge with
        | some f => answered f w.barge.seq (bitsOf w.barge.arg 0 8)
        | none => .skip),
      settleTransit, drainUsers es, drainManage, sweep ]

/-- The bytes of a READ_DATA are written where its READ_REQ asked for them. -/
def readDataWrite (f : Nat) (b : Barge) (es : List EccEvent) : Eff := .read fun s =>
  match s.flow? f with
  | none => .skip
  | some x =>
    if x.outs.any fun o => o.seq == b.seq && bitsOf o.hdr 0 8 == 0x02 then
      .andThen (bargeWrite b es) (answered f b.seq 0)
    else .skip

/-- READ_DATA (R252): the OK answer to a READ_REQ. -/
def effReadData (es : List EccEvent) : Eff :=
  Eff.all
    [ fromInbox 0x11 (fun s b => !(inHbm b.addr && s.cowWait b.addr b.payload.length)) (fun w => .read fun s =>
        match s.answerFlow w.barge with
        | some f => readDataWrite f w.barge es
        | none => .skip),
      settleTransit, drainUsers es, drainManage, sweep ]

/-- ACK_TIMEOUT (R270): the oldest barge of a flow without an answer has waited ACK_TIMEOUT. -/
def effAckTimeout (queue dest cls : Nat) : Eff := .read fun s =>
  let f := flowKey queue dest cls
  match s.flow? f with
  | none => .skip
  | some x =>
    match x.outs.find? fun o => o.sent && o.answer.isNone && decide (o.tick + s.ackTimeout ≤ s.now) with
    | some o => Eff.all [answered f o.seq 256, settleTransit, drainUsers [], drainManage]
    | none => .skip

/-! ### The meanings -/

/-- BARGE_RECEIVE. -/
def execBargeReceive (p : Nat) (bs : List Byte) (spoilt : Bool) (s : State) : Host.Outcome State Fault Refusal :=
  (effBargeReceive p bs spoilt).done s
/-- WRITE. -/
def execWrite (es : List EccEvent) (s : State) : Host.Outcome State Fault Refusal := (effWrite es).done s
/-- READ_REQ. -/
def execReadReq (es : List EccEvent) (s : State) : Host.Outcome State Fault Refusal := (effReadReq es).done s
/-- GATE_INC. -/
def execGateInc (s : State) : Host.Outcome State Fault Refusal := effGateInc.done s
/-- REDUCE_PART. -/
def execReducePart (s : State) : Host.Outcome State Fault Refusal := effReducePart.done s
/-- FIRMWARE. -/
def execFirmware (s : State) : Host.Outcome State Fault Refusal := effFirmware.done s
/-- ACK. -/
def execAck (es : List EccEvent) (s : State) : Host.Outcome State Fault Refusal := (effAck es).done s
/-- READ_DATA. -/
def execReadData (es : List EccEvent) (s : State) : Host.Outcome State Fault Refusal := (effReadData es).done s
/-- ACK_TIMEOUT. -/
def execAckTimeout (queue dest cls : Nat) (s : State) : Host.Outcome State Fault Refusal := (effAckTimeout queue dest cls).done s

end Sys2Proof.Machine
end

