-- ==== Sys2Proof/Machine/Journal.lean ====
section
/-!
DEFINITION. The SPI flash and the toll journal in it (R500 to R504, R619 to R621, Tables 14.5 to 14.7): records, what of them is
live, the writing of records with the carrying of live content, and the operations of the flash.
-/
namespace Sys2Proof.Machine

/-- The flash's state changes. -/
def onFlash (g : Flash → Flash) : Eff := onDev fun d => { d with flash := g d.flash }
/-- The keeper's state changes. -/
def onKeep (g : Keeper → Keeper) : Eff := onDev fun d => { d with keep := g d.keep }
/-- The meter's state changes. -/
def onMtr (g : Mtr → Mtr) : Eff := onDev fun d => { d with mtr := g d.mtr }
/-- The toll block's state changes. -/
def onTol (g : Tol → Tol) : Eff := onDev fun d => { d with tol := g d.tol }

/-- GLB_ROLE.TOLL_MASTER. -/
def State.isToll (s : State) : Bool := s.bit rGlbRole 16

/-- SECONDS of the real-time clock (R431). -/
def State.seconds (s : State) : Nat := s.rtc / 32768

/-- TBS_KEEPER.RTC_VALID. -/
def State.rtcValid (s : State) : Bool := s.bit rTbsKeeper 4

/-! ### Flash bytes -/

/-- Bytes of the flash; an erased byte reads 0xFF. -/
def Flash.read (f : Flash) (a n : Nat) : List Byte := (List.range n).map fun i => mget 0xFF#8 f.bytes (a + i)

/-- Programming clears bits only. -/
def flashProgram (m : Map Byte) (a : Nat) : List Byte → Map Byte
  | [] => m
  | b :: bs => flashProgram (mset 0xFF#8 m a (mget 0xFF#8 m a &&& b)) (a + 1) bs

/-- A range of the flash is erased. -/
def Flash.blank (f : Flash) (a n : Nat) : Bool := f.bytes.all fun e => !(decide (a ≤ e.1) && decide (e.1 < a + n))

/-- An operation's effect on the flash. -/
def Flash.perform (f : Flash) : FlashOp → Flash
  | .erase a => { f with bytes := f.bytes.filter fun e => !(decide (a ≤ e.1) && decide (e.1 < a + 4096)) }
  | .program a bs => { f with bytes := flashProgram f.bytes a bs }

/-- The journal region's first byte (R537). -/
def Flash.base (f : Flash) : Nat := f.density - 0x100000

/-- The address of a journal sector. -/
def Flash.sectorAt (f : Flash) (k : Nat) : Nat := f.base + 4096 * (k % 256)

/-- A journal sector is erased. -/
def Flash.sectorBlank (f : Flash) (k : Nat) : Bool := f.blank (f.sectorAt k) 4096

/-! ### Records (Tables 14.5 and 14.6) -/

/-- A valid record with its sector. -/
structure JRec where
  sector : Nat
  typ : Nat
  reason : Nat
  seq : Nat
  rtc : Nat
  era : Nat
  body : List Byte
deriving DecidableEq, Repr

/-- The magic of a record. -/
def jrnMagic : List Byte := [0x56#8, 0x4A#8, 0x52#8, 0x4E#8]

/-- A record read from a sector: MAGIC and CRC must be correct (R502). -/
def readRecord (k : Nat) (b : List Byte) : Option JRec :=
  if b.take 4 == jrnMagic && getLe b 4088 8 == crc64 (b.take 4088) then
    some { sector := k, typ := getLe b 4 1, reason := getLe b 5 1, seq := getLe b 8 8, rtc := getLe b 16 8, era := getLe b 34 2,
           body := (b.drop 64).take (min 4024 (getLe b 6 2)) }
  else none

/-- The valid records of the journal, by sector. -/
def Flash.records (f : Flash) : List JRec :=
  (List.range 256).filterMap fun k => if f.sectorBlank k then none else readRecord k (f.read (f.sectorAt k) 4096)

/-- A record as it fills its sector; the bytes past the body stay erased. -/
def journalBytes (r : JReq) (seq rtc tb chip era : Nat) : List Byte :=
  let body := r.body.take 4024
  let head := jrnMagic ++ leBytes 1 r.typ ++ leBytes 1 r.reason ++ leBytes 2 body.length ++ leBytes 8 seq ++ leBytes 8 rtc ++ leBytes 8 tb
    ++ leBytes 2 chip ++ leBytes 2 era ++ zeros 28
  let b := head ++ body ++ List.replicate (4024 - body.length) 0xFF#8
  b ++ leBytes 8 (crc64 b)

/-- The page programs of a record, in ascending order, the page with the CRC last (R500). -/
def recordOps (a : Nat) (b : List Byte) : List FlashOp :=
  (List.range 16).filterMap fun i =>
    let p := (b.drop (256 * i)).take 256
    if p.all fun x => x == 0xFF#8 then none else some (.program (a + 256 * i) p)

/-! ### Live content (R501) -/

/-- A TOLLS record's snapshot: KIND, ERA, SNAP_SEQ and CLOSE_SEQ (Table 14.8). -/
def snapKind (b : List Byte) : Nat := getLe b 10 1
/-- SNAP_SEQ in its era, as one number. -/
def snapOrder (b : List Byte) : Nat := getLe b 14 2 * 2 ^ 64 + getLe b 16 8
/-- CLOSE_SEQ in its era, as one number. -/
def closeOrder (b : List Byte) : Nat := getLe b 14 2 * 2 ^ 32 + getLe b 52 4

/-- Some record of a list is greater by a key, or equal by it and later. -/
def outdone (key : JRec → Nat) (r : JRec) (rs : List JRec) : Bool :=
  rs.any fun q => decide (key r < key q) || (key r == key q && decide (r.seq < q.seq))

/-- The TOLLS records. -/
def tollsOf (rs : List JRec) : List JRec := rs.filter fun r => r.typ == 1

/-- The newest TOLLS record: by its snapshot's order. -/
def newestTolls (rs : List JRec) : Option JRec :=
  let ts := tollsOf rs
  ts.find? fun r => !outdone (fun q => snapOrder q.body) r ts

/-- A TOLLS_DELTA is based on a TOLLS record, or on the one that was carried forward as it (log entry 26). -/
def basedOn (rs : List JRec) (t d : JRec) : Bool :=
  let base := getLe d.body 0 8
  d.typ == 2 && (base == t.seq || (t.reason == 4 && decide (base < t.seq) && !(tollsOf rs).any fun q => q.seq == base))

/-- The closes held by the journal: TOLLS records of CLOSE snapshots, the newest of each, of the last 12 closes. -/
def closesOf (rs : List JRec) : List JRec :=
  let cs := (tollsOf rs).filter fun r => snapKind r.body == 1
  let newest := cs.filter fun r => !cs.any fun q => closeOrder q.body == closeOrder r.body && decide (r.seq < q.seq)
  newest.filter fun r => decide ((newest.filter fun q => decide (closeOrder r.body < closeOrder q.body)).length < 12)

/-- A CALENDAR record's ROLE and ACT_RTC. -/
def calRole (r : JRec) : Nat := getLe r.body 0 1
/-- ACT_RTC, in SECONDS. -/
def calAct (r : JRec) : Nat := getLe r.body 8 8

/-- A CALENDAR record is superseded: while it was pending another was committed or it was cancelled, or a calendar that became active
later has become active. -/
def superseded (now : Nat) (cs : List JRec) (r : JRec) : Bool :=
  cs.any fun q => decide (r.seq < q.seq) &&
    (if calRole r = 1 then
       (decide (q.rtc / 32768 < calAct r) && (calRole q == 2 || decide (q.rtc / 32768 < calAct q)))
         || (calRole q == 1 && decide (calAct r ≤ calAct q) && decide (calAct q ≤ now))
     else true)

/-- The live CALENDAR records. -/
def liveCalendars (now : Nat) (rs : List JRec) : List JRec :=
  let cs := rs.filter fun r => r.typ == 4
  cs.filter fun r => !superseded now cs r

/-- A UNITS entry with its record's JSEQ. -/
structure UEntry where
  seq : Nat
  bytes : List Byte
deriving DecidableEq, Repr

/-- A byte or number of a UNITS entry (Table 14.7). -/
def UEntry.get (e : UEntry) (i n : Nat) : Nat := getLe e.bytes i n
/-- KIND. -/
def UEntry.kind (e : UEntry) : Nat := e.get 0 1

/-- The entries of a UNITS record. -/
def unitsOf (r : JRec) : List UEntry :=
  if r.typ = 5 then (List.range (min 124 (getLe r.body 0 2))).map fun i => { seq := r.seq, bytes := (r.body.drop (32 + 32 * i)).take 32 } else []

/-- One entry arose after another: by the real-time clock of the events, then by JSEQ. -/
def UEntry.after (e q : UEntry) : Bool :=
  decide (q.get 24 8 < e.get 24 8) || (e.get 24 8 == q.get 24 8 && decide (q.seq < e.seq))

/-- A release undoes a retirement. -/
def UEntry.undoes (e q : UEntry) : Bool :=
  match e.kind with
  | 2 => q.kind == 1 && e.get 8 8 == q.get 8 8
  | 5 => e.get 2 1 == q.get 2 1 && ((q.kind == 3 && e.get 3 1 == q.get 3 1) || (q.kind == 4 && e.get 3 1 == 0xFF))
  | 7 => q.kind == 6 && e.get 2 1 == q.get 2 1
  | 9 => q.kind == 8 && e.get 2 1 == q.get 2 1
  | _ => false

/-- The live UNITS entries among all: those that no later release undoes, the newest METER_CAL of each channel, and of
entries carried forward only the carried copy. Only the newest METER_CAL is ever carried, so that JSEQ orders them; releases are carried too, and
go by the real-time clock of their events (log entry 75). -/
def liveUnits (all : List UEntry) : List UEntry :=
  all.filter fun q => !all.any fun e =>
    (e.undoes q && e.after q) || (e.bytes == q.bytes && decide (q.seq < e.seq))
      || (q.kind == 10 && e.kind == 10 && e.get 2 1 == q.get 2 1 && decide (q.seq < e.seq))

/-- The real-time clock of the newest close. -/
def lastCloseRtc (rs : List JRec) : Nat := ((closesOf rs).map fun r => getLe r.body 24 8).foldl max 0

/-- The moment that a GAP, TAMPER or TIME_SET record tells of; a time set's later side. -/
def recordMoment (r : JRec) : Nat :=
  match r.typ with
  | 3 => getLe r.body 16 8
  | 6 => getLe r.body (32 + 32 * (getLe r.body 0 2 - 1) + 16) 8
  | _ => max (getLe r.body 0 8) (getLe r.body 8 8)

/-- A GAP, TAMPER or TIME_SET record is newer than the newest close: by JSEQ, which a carried close may have passed, or by what it tells of. -/
def sinceClose (rs : List JRec) (r : JRec) : Bool :=
  decide (lastCloseRtc rs ≤ recordMoment r) || (closesOf rs).all fun c => decide (c.seq < r.seq)

/-- A record of N entries of 32 B, as UNITS and TAMPER records are laid out. -/
def entryRecord (typ : Nat) (es : List (List Byte)) : JReq := { typ := typ, body := leBytes 2 es.length ++ zeros 30 ++ es.flatten, tag := .carry }

/-- The entries of such a record. -/
def entriesOf (r : JRec) : List (List Byte) := (List.range (min 124 (getLe r.body 0 2))).map fun i => (r.body.drop (32 + 32 * i)).take 32

/-- The UNITS entries of the journal. -/
def allUnits (rs : List JRec) : List UEntry := rs.flatMap unitsOf

/-- The live content of a record, as the record that carries it forward; none where nothing of it is live. TOLLS records take REASON
CARRY; Table 14.5 gives other records REASON 0. -/
def liveOf (now : Nat) (rs : List JRec) (r : JRec) : Option JReq :=
  let again : Option JReq := some { typ := r.typ, reason := if r.typ = 1 then 4 else 0, body := r.body, tag := .carry }
  match r.typ with
  | 1 => if (newestTolls rs).any (fun t => t.seq == r.seq) || (closesOf rs).any (fun t => t.seq == r.seq) then again else none
  | 2 => match newestTolls rs with
    | some t => if basedOn rs t r && !rs.any (fun d => basedOn rs t d && d.body == r.body && decide (r.seq < d.seq)) then again else none
    | none => none
  | 4 => if (liveCalendars now rs).any fun t => t.seq == r.seq then again else none
  | 5 =>
    let es := (liveUnits (allUnits rs)).filter fun e => e.seq == r.seq
    if es.isEmpty then none else some (entryRecord 5 (es.map UEntry.bytes))
  | 3 | 6 | 7 =>
    if !sinceClose rs r || rs.any (fun d => d.typ == r.typ && d.body == r.body && decide (r.seq < d.seq)) then none
    else if r.typ = 6 ∧ entriesOf r ≠ [] then
      let es := (entriesOf r).filter fun e => !rs.any fun d => d.typ == 6 && decide (r.seq < d.seq) && (entriesOf d).contains e
      if es.isEmpty then none else some (entryRecord 6 es)
    else again
  | _ => none

/-- Where both sectors that are to be erased hold entries of one type, the first record takes those of the second, as far as they fit (R501). -/
def merged (c : JReq) (d : Option JReq) : JReq :=
  match d with
  | some d =>
    if d.typ = c.typ ∧ (c.typ = 5 ∨ c.typ = 6) then
      let bs := (c.body.drop 32 ++ d.body.drop 32).take (32 * 124)
      { c with body := leBytes 2 (bs.length / 32) ++ zeros 30 ++ bs }
    else c
  | none => c

/-! ### Writing -/

/-- The journal may be written: the chip is past the image and not in dry-dock, and SPI is not forced (R419, R558). -/
def State.journalOn (s : State) : Bool :=
  decide (4 ≤ s.phase) && !s.dryDock && decide (0x100000 < s.dev.flash.density) && !s.bit rClkStatus 4

/-- The first erased sector after the one begun last. -/
def Flash.nextErased (f : Flash) : Option Nat := ((List.range 256).map fun i => (f.sector + 1 + i) % 256).find? f.sectorBlank

/-- A flash operation is issued. -/
def issueOp (o : FlashOp) (rest : List FlashOp) : Eff := .read fun s => onFlash fun f => { f with op := some (o, s.now), todo := rest }

/-- A record begins in the next erased sector; its pages follow (R500). -/
def beginRecord (r : JReq) : Eff := .read fun s =>
  let f := s.dev.flash
  match f.nextErased with
  | none => .skip
  | some k =>
    let b := journalBytes r f.nextSeq s.rtc s.now (s.fld rGlbRole 0 12) s.dev.keep.era
    .andThen (onFlash fun f => { f with cur := some r, sector := k })
      (match recordOps (f.sectorAt k) b with
       | o :: rest => issueOp o rest
       | [] => .skip)

/-- What the journal's writer does when no operation is outstanding: it makes the two sectors after the write pointer erased, carrying
live content forward first (R501), and then begins the next record asked for. -/
def pumpJournal : Eff := .read fun s =>
  let f := s.dev.flash
  if f.op.isSome || !s.journalOn then .skip
  else
    let clear (k : Nat) (next : Eff) : Eff :=
      if f.sectorBlank k then next
      else
        let rs := f.records
        let live (k : Nat) : Option JReq := (rs.find? fun r => r.sector == k % 256).bind (liveOf s.seconds rs)
        match live k with
        | some c =>
          if f.nextErased.isSome then beginRecord (if k = f.sector + 1 then merged c (live (k + 1)) else c) else issueOp (.erase (f.sectorAt k)) []
        | none => issueOp (.erase (f.sectorAt k)) []
    clear (f.sector + 1) (clear (f.sector + 2) (match s.dev.jrn with
      | r :: rest => .andThen (onDev fun d => { d with jrn := rest }) (beginRecord r)
      | [] => .skip))

/-- A record is asked for, and its writing begins where nothing else is being written. -/
def writeRecord (r : JReq) : Eff := .andThen (journal r) pumpJournal

/-- CAL_ID of a calendar; 0 for none. -/
def calId (c : List Byte) : Nat := getLe c 4 4

/-- RTC of the record in a sector (Table 14.5). -/
def Flash.recordRtc (f : Flash) (k : Nat) : Nat := leNat (f.read (f.sectorAt k + 16) 8)

/-- A record has been committed: what has waited for it comes about (R472, R493). -/
def recordDone (r : JReq) : Eff :=
  Eff.all
    [ .read fun s => onFlash fun f => { f with cur := none, nextSeq := s.dev.flash.nextSeq + 1 },
      Eff.when (r.typ == 1) (.read fun s => putReg rTolJrnLast (s.dev.flash.recordRtc s.dev.flash.sector)),
      match r.tag with
      | .calendar => .read fun s => match s.dev.tol.commit with
        | some (c, act, _) => Eff.all
          [ onKeep fun k => { k with pending := c, pendingAct := act }, putReg (rTolCalActive 1) (calId c), putFld rTolCalStatus 0 3 0,
            onTol fun t => { t with commit := none } ]
        | none => .skip
      | .meterCal => onMtr fun m => { m with applying := m.applying.map fun a => { a with committed := true } }
      | _ => .skip ]

/-- FLASH_OPERATION_DONE (R619): the operation outstanding has taken effect; the next one of its record is issued, or the record
is committed; in dry-dock the command ends OK. -/
def effFlashOperationDone : Eff := .read fun s =>
  let f := s.dev.flash
  match f.op with
  | none => .skip
  | some (o, _) =>
    if s.bit rClkStatus 4 then .skip
    else
      .andThen (onFlash fun f => { f.perform o with op := none })
        (match f.todo with
         | n :: rest => issueOp n rest
         | [] =>
           if s.dryDock then putFld rImgFlashStatus 0 2 2
           else .andThen (match f.cur with
             | some r => recordDone r
             | none => .skip) pumpJournal)

/-- What an operation cut short leaves in the flash is free (log entry 27). -/
def cutShort (o : FlashOp) : Eff := withFree fun v =>
  match o with
  | .erase a => onFlash fun f => { f.perform (.erase a) with
      bytes := flashProgram (f.perform (.erase a)).bytes a (leBytes 4096 v) }
  | .program a bs => onFlash fun f => { f with bytes := flashProgram f.bytes a ((bs.zip (leBytes bs.length v)).map fun p => p.1 ||| p.2) }

/-- FLASH_TIMEOUT (R620): a page program still busy after 2^22 ticks, or an erase after 2^29, is a flash error: it counts at JOURNAL
and the record is rewritten in the next erased sector, or in dry-dock it sets the flash error bit. -/
def effFlashTimeout : Eff := .read fun s =>
  let f := s.dev.flash
  match f.op with
  | none => .skip
  | some (o, t) =>
    let bound : Nat := match o with
      | .erase _ => 2 ^ 29
      | .program _ _ => 2 ^ 22
    if s.bit rClkStatus 4 || decide (s.now < t + bound) then .skip
    else Eff.all
      [ cutShort o, onFlash fun f => { f with op := none, todo := [] }, bumpFld rBrdSpi 16 16 1,
        if s.dryDock then .andThen (putFld rImgFlashStatus 0 2 2) (putBit rImgFlashStatus 2 true)
        else .andThen (countAt 0x60 0) (match f.cur with
          | some r => beginRecord r
          | none => .andThen (onFlash fun f => { f with sector := (f.sector + 1) % 256 }) pumpJournal) ]

/-- Every SPI transaction in progress is abandoned (R503, R532); a record cut short is dropped. -/
def abandonFlash : Eff := .read fun s =>
  .andThen (match s.dev.flash.op with
    | some (o, _) => cutShort o
    | none => .skip) (onFlash fun f => { f with op := none, todo := [], cur := none })

/-- What the journal read of start step 3 keeps (R502): the sector and JSEQ of the newest record. -/
def Flash.locateEnd (f : Flash) : Flash :=
  match f.records.find? fun r => !f.records.any fun q => decide (r.seq < q.seq) with
  | some r => { f with sector := r.sector, nextSeq := r.seq + 1 }
  | none => { f with sector := 255, nextSeq := 0 }

/-- FLASH_OPERATION_DONE. -/
def execFlashOperationDone (s : State) : Host.Outcome State Fault Refusal := effFlashOperationDone.done s
/-- FLASH_TIMEOUT. -/
def execFlashTimeout (s : State) : Host.Outcome State Fault Refusal := effFlashTimeout.done s

end Sys2Proof.Machine
end

