-- ==== Sys2Proof/Machine/Tolls.lean ====
section
/-!
DEFINITION. Tolls (chapter 14): hand-offs, apportionment, maximum demand, billing closes, gaps, snapshots and seals, calendars,
activity reports, and what start and power failure do to them.
-/
namespace Sys2Proof.Machine

/-! ### Gaps (R506, R507, Table 14.9) -/

/-- The words of a gap entry. -/
def gapWords (kind seq start fin : Nat) (derived : Bool) : List Nat :=
  [kind + (1 + 2 * b2n derived) * 256 + seq % 2 ^ 32 * 2 ^ 32, start, fin, 0]

/-- A gap-log slot takes an entry. -/
def putGap (slot : Nat) (ws : List Nat) : Eff := Eff.each (List.range 4) fun i => putReg (rTolGap slot i) (ws.getD i 0)

/-- The bytes of a gap-log slot. -/
def State.gapBytes (s : State) (slot : Nat) : List Byte := (List.range 4).flatMap fun i => leBytes 8 (s.reg (rTolGap slot i)).toNat

/-- A gap begins at a real-time-clock moment (R506). -/
def addGap (kind start : Nat) : Eff := .read fun s =>
  let n := s.dev.keep.gapSeq + 1
  .andThen (onKeep fun k => { k with gapSeq := n, flags := k.flags ||| 4 }) (putGap ((n - 1) % 16) (gapWords kind n start 0 false))

/-- A gap's END_RTC is known: it is written, and the gap is recorded in the journal. -/
def finishGap (slot fin : Nat) (derived : Bool) : Eff :=
  Eff.all
    [ putReg (rTolGap slot 2) fin, Eff.when derived (putBit (rTolGap slot 0) 9 true),
      .read fun s => writeRecord { typ := 3, body := s.gapBytes slot } ]

/-- A gap ends now: at once where the real-time clock is valid, otherwise it is completed at the first time set (R507). -/
def endGap (slot : Nat) : Eff := .read fun s =>
  if s.rtcValid then finishGap slot s.rtc false else onKeep fun k => { k with openGaps := k.openGaps ++ [slot] }

/-- The slot of the newest gap. -/
def State.gapSlot (s : State) : Nat := (s.dev.keep.gapSeq + 15) % 16

/-- The subinterval under way is incomplete (R497). -/
def spoilSub : Eff := onKeep fun k => { k with curBad := true }

/-! ### Hand-offs (R451, R453, R490) -/

/-- A toll rises. -/
def addToll (off n : Nat) : Eff := bumpReg off 64 n

/-- Whole units are handed to the tolls, with the flags ESTIMATED (bit 0) and I_LOST (bit 1). -/
def handOff (rtc : Nat) (units : List Nat) (flags : Nat) : Eff := .read fun s =>
  let band := s.dev.keep.band
  Eff.all
    [ Eff.each (List.range 7) fun q => .andThen (addToll (rTolTray q 0) (units.getD q 0)) (addToll (rTolTray q band) (units.getD q 0)),
      addToll rTolPending (units.getD 0 0),
      onKeep fun k =>
        { k with cur := (k.cur.1 + units.getD 0 0, k.cur.2 + units.getD 6 0), lastHand := rtc, flags := k.flags ||| flags } ]

/-! ### Apportionment (R487 to R489) -/

/-- The weighted activity of each basin since the last close (R487); basin 0 also receives the base term. -/
def State.activity (s : State) : List Nat :=
  let w (i : Nat) : Nat := (s.reg (rTolW i)).toNat
  (List.range 16).map fun b =>
    let one (r : Report) : Nat := ((List.range 6).map fun i => w i * r.rises.getD (6 * b + i) 0).sum
    ((s.dev.tol.reports.map fun e => one e.2).sum) + (if b = 0 then w 6 * (s.now - s.dev.tol.since) else 0)

/-- The exact shares x_b of R488. -/
def shares (dE : Nat) (as : List Nat) : List Nat :=
  let total := as.sum
  let num (b : Nat) : Nat := dE * as.getD b 0 * 2 ^ 32
  let xs := (List.range 16).map fun b => num b / total
  let t := dE * 2 ^ 32 - xs.sum
  let rank (b : Nat) : Nat := ((List.range 16).filter fun c =>
    decide (0 < as.getD c 0) && (decide (num b % total < num c % total) || (num c % total == num b % total && decide (c < b)))).length
  (List.range 16).map fun b => xs.getD b 0 + (if 0 < as.getD b 0 ∧ rank b < t then 1 else 0)

/-- A list with one element changed. -/
def bumpAt {α : Type} (xs : List α) (i : Nat) (g : α → α) : List α := (xs.zip (List.range xs.length)).map fun p => if p.2 = i then g p.1 else p.1

/-- The basin whose residue is largest, or smallest among those with units; ties go to the lowest number. -/
def pickBasin (smallest : Bool) (ws : List Nat) (rs : List Int) : Nat :=
  let ok := (List.range 16).filter fun b => !smallest || decide (0 < ws.getD b 0)
  (ok.find? fun b => ok.all fun c => if smallest then decide (rs.getD b 0 ≤ rs.getD c 0) else decide (rs.getD c 0 ≤ rs.getD b 0)).getD 0

/-- The unit steps of R488; there are at most 15. -/
def settle : Nat → Int → List Nat → List Int → List Nat × List Int
  | 0, _, ws, rs => (ws, rs)
  | n + 1, d, ws, rs =>
    if 0 < d then
      let b := pickBasin false ws rs
      settle n (d - 1) (bumpAt ws b fun w => w + 1) (bumpAt rs b fun r => r - 2 ^ 32)
    else if d < 0 then
      let b := pickBasin true ws rs
      settle n (d + 1) (bumpAt ws b fun w => w - 1) (bumpAt rs b fun r => r + 2 ^ 32)
    else (ws, rs)

/-- The division of R488: units and residues of the basins. -/
def apportion (dE : Nat) (as : List Nat) (rs : List Int) : List Nat × List Int :=
  let as := if as.sum = 0 then 1 :: List.replicate 15 0 else as
  let ys := (List.range 16).map fun b => rs.getD b 0 + ((shares dE as).getD b 0 : Nat)
  let ws := ys.map fun y => (y / 2 ^ 32).toNat
  let rs := (List.range 16).map fun b => ys.getD b 0 - (ws.getD b 0 : Nat) * 2 ^ 32
  settle 16 (rs.sum / 2 ^ 32) ws rs

/-- The residues R_b. -/
def State.residues (s : State) : List Int := (List.range 16).map fun b => signed 64 (s.reg (rTolRes b)).toNat

/-- PENDING_E is divided by weights for the band in force, and becomes 0 (R488). -/
def divide (as : List Nat) : Eff := .read fun s =>
  let r := apportion (s.reg rTolPending).toNat as s.residues
  let band := s.dev.keep.band
  Eff.all
    [ Eff.each (List.range 16) fun b => Eff.all
        [ addToll (rTolBasin b 0) (r.1.getD b 0), addToll (rTolBasin b band) (r.1.getD b 0),
          putReg (rTolRes b) (unsigned 64 (r.2.getD b 0)) ],
      putReg rTolPending 0 ]

/-- The apportionment interval closes. -/
def closeInterval : Eff := .read fun s =>
  Eff.all
    [ onKeep fun k => { k with heldA := s.activity }, divide s.activity,
      onTol fun t => { t with since := s.now, reports := t.reports.map fun e => (e.1, { e.2 with rises := [] }) } ]

/-! ### Maximum demand (R495 to R497) -/

/-- TOL_MD_CFG.SUB_MIN. -/
def State.subMin (s : State) : Nat := s.fld rTolMdCfg 0 6
/-- TOL_MD_CFG.NSUB. -/
def State.nSub (s : State) : Nat := s.fld rTolMdCfg 6 4

/-- A demand replaces the value held where it is greater (R496). -/
def takeDemand (m k demand secs : Nat) : Eff := .read fun s =>
  Eff.when (decide ((s.reg (rTolMd m (2 * k))).toNat < demand))
    (.andThen (putReg (rTolMd m (2 * k)) demand) (putReg (rTolMd m (2 * k + 1)) (secs * 32768)))

/-- A subinterval ends at a minute boundary, and with it the demand window that ends there (R495, R497). -/
def demandBoundary (secs : Nat) : Eff := .read fun s =>
  let sub := s.subMin
  let n := s.nSub
  if sub = 0 || secs % (60 * sub) != 0 then .skip
  else
    .andThen (onKeep fun k =>
      { k with
        subs := ((k.cur.1, k.cur.2, !k.curBad) :: k.subs).take 15
        cur := (0, 0)
        curBad := !s.rtcValid || s.bit rMtrStatus 1 })
      (.read fun t =>
        let win := t.dev.keep.subs.take n
        if (!s.bit rTolMdCfg 10 && secs % (60 * sub * n) != 0) || n = 0 || win.length < n || win.any (fun w => !w.2.2) then .skip
        else
          let demand (e : Nat) : Nat := e * 60 / (sub * n)
          let d0 := demand (win.map fun w => w.1).sum
          let d1 := demand (win.map fun w => w.2.1).sum
          Eff.all [takeDemand 0 t.dev.keep.band d0 secs, takeDemand 0 0 d0 secs, takeDemand 1 t.dev.keep.band d1 secs, takeDemand 1 0 d1 secs])

/-! ### Snapshots (R509 to R511, Table 14.8) -/

/-- Bytes [2583:0] of a snapshot of a kind with a SNAP_SEQ. -/
def State.snapshot (s : State) (kind seq : Nat) : List Byte :=
  let k := s.dev.keep
  let flags := k.flags % 8 + 8 * b2n (!s.rtcValid) + 16 * b2n (s.bit rMtrTamperStatus 0) + 32 * b2n (s.bit rTbsKeeper 5)
  let r (off : Nat) : List Byte := leBytes 8 (s.reg off).toNat
  [0x56#8, 0x45#8, 0x4C#8, 0x46#8, 0x54#8, 0x4F#8, 0x4C#8, 0x4C#8] ++ leBytes 2 0x0100 ++ leBytes 1 kind ++ leBytes 1 flags
    ++ leBytes 2 (s.fld rGlbRole 0 12) ++ leBytes 2 k.era ++ leBytes 8 seq ++ leBytes 8 s.rtc ++ leBytes 8 s.now
    ++ leBytes 8 (s.reg rImgSerial).toNat ++ leBytes 4 (calId k.active) ++ leBytes 4 k.closeSeq ++ leBytes 8 k.periodStart
    ++ r rTolPending ++ leBytes 1 k.band ++ zeros 3 ++ leBytes 4 k.timeSets ++ r rMtrTamper ++ leBytes 8 k.gapSeq ++ zeros 32
    ++ ((List.range 63).flatMap fun i => r (rTolTray (i / 9) (i % 9)))
    ++ ((List.range 144).flatMap fun i => r (rTolBasin (i / 9) (i % 9)))
    ++ ((List.range 18).flatMap fun i => leBytes 4 (s.reg (rTolMd (i / 9) (2 * (i % 9)))).toNat ++ zeros 4 ++ r (rTolMd (i / 9) (2 * (i % 9) + 1)))
    ++ ((List.range 16).flatMap fun g => s.gapBytes g)

/-- The seal of a snapshot (R510). -/
def sealOf (b : List Byte) : List Byte := edSign (leBytes 32 Config.deviceSeed) b

/-- A snapshot is taken: SNAP_SEQ rises and its bytes are used. -/
def takeSnapshot (kind : Nat) (k : List Byte → Eff) : Eff := .read fun s =>
  .andThen (onKeep fun x => { x with snapSeq := s.dev.keep.snapSeq + 1 }) (.read fun t => k (t.snapshot kind t.dev.keep.snapSeq))

/-- The residues as a TOLLS record holds them: RES_0 to RES_6 and R_0 to R_15. -/
def State.residueBytes (s : State) : List Byte :=
  ((List.range 7).flatMap fun q => leBytes 4 (s.reg (rMtrRes q)).toNat) ++ ((List.range 16).flatMap fun b => leBytes 8 (s.reg (rTolRes b)).toNat)

/-- A TOLLS record with a REASON, holding a sealed snapshot. -/
def writeTolls (reason : Nat) (snap : List Byte) : Eff := .read fun s => writeRecord { typ := 1, reason := reason, body := snap ++ s.residueBytes }

/-- A TOLLS record with a snapshot of KIND JOURNAL. -/
def journalTolls (reason : Nat) : Eff := takeSnapshot 2 fun b => writeTolls reason (b ++ sealOf b)

/-- A snapshot for a reader's buffer: BUSY until its seal is complete (R509). -/
def snapFor (who : Nat) : Eff := takeSnapshot 0 fun b => .read fun s => onTol fun t =>
  { t with bufs := mput t.bufs who (b ++ zeros 64), status := mput t.status who 1, sealing := mput t.sealing who s.now }

/-- SNAPSHOT_SEALED (R510). -/
def effSnapshotSealed (who : Nat) : Eff := .read fun s =>
  match mget? s.dev.tol.sealing who with
  | none => .skip
  | some _ =>
    let b := (mget [] s.dev.tol.bufs who).take 2584
    onTol fun t => { t with bufs := mput t.bufs who (b ++ sealOf b), status := mput t.status who 2, sealing := mdel t.sealing who }

/-! ### Billing close (R498, R499) -/

/-- Bytes kept in an archive slot. -/
def archive (slot : Nat) (b : List Byte) : Eff := Eff.each (List.range 662) fun w => putReg (rTolArch slot w) (getLe b (4 * w) 4)

/-- Steps 3 to 6 of a billing close. -/
def billTail : Eff := .andThen (onKeep fun k => { k with closeSeq := k.closeSeq + 1 }) (takeSnapshot 1 fun b =>
  let z := b ++ sealOf b
  .read fun s => Eff.all
    [ archive (s.dev.keep.closeSeq % 12) z,
      Eff.each (List.range 36) (fun i => putReg (rTolMd (i / 18) (i % 18)) 0),
      onKeep fun k => { k with periodStart := s.rtc, flags := 0 }, writeTolls 2 z ])

/-- A close by command: nothing ends at its tick but the interval. -/
def billNow (secs : Nat) : Eff := Eff.all [closeInterval, billTail, onKeep fun k => { k with lastBill := some secs }]

/-! ### The minute boundary (R492, R494, R495, R498) -/

/-- The band in force is fixed for the next minute (R492). -/
def fixBand (secs : Nat) : Eff := .read fun s =>
  let band := if s.rtcValid then calBand s.dev.keep.active secs else 1
  Eff.all
    [ onKeep fun k => { k with band := band }, putFld rTolStatus 4 4 band, putBit rTolStatus 1 (!s.rtcValid) ]

/-- A pending calendar whose time has come becomes active (R494). -/
def activateCalendar (secs : Nat) : Eff := .read fun s =>
  let k := s.dev.keep
  Eff.when (!k.pending.isEmpty && decide (k.pendingAct ≤ secs)) (Eff.all
    [ onKeep fun k => { k with active := k.pending, pending := [] }, putReg (rTolCalActive 0) (calId k.pending),
      putReg (rTolCalActive 1) 0 ])

/-- The work of a minute boundary: the interval closes, the demand windows that end are evaluated, the calendar's billing close is taken unless a
close by command was taken in the minute that ends here (R499), a pending calendar becomes active, and the band is fixed. -/
def minuteWork (secs : Nat) : Eff := .read fun s =>
  let recent := match s.dev.keep.lastBill with
    | some t => decide (secs ≤ t + 60 ∧ t ≤ secs)
    | none => false
  let due := s.rtcValid && calBills s.dev.keep.active secs && !recent
  Eff.all [closeInterval, demandBoundary secs, Eff.when due billTail, activateCalendar secs, fixBand secs]

/-! ### Updates that the battery test holds (R596) -/

/-- A toll update is made. -/
def applyTolOp : TolOp → Eff
  | .hand _ rtc units flags => handOff rtc units flags
  | .minute secs => minuteWork secs
  | .close => closeInterval
  | .snap who => snapFor who
  | .bill secs => billNow secs

/-- The battery test runs. -/
def State.testing (s : State) : Bool := s.dev.keep.test

/-- A toll update arises: made at once, or held in keeper order during the battery test. -/
def tolOp (o : TolOp) : Eff := .read fun s =>
  if s.testing then onKeep fun k => { k with held := k.held ++ [o] } else applyTolOp o

/-- The battery test ends: the held updates are applied, in the order they arose. -/
def applyHeld : Eff := .read fun s => Eff.all
  [ putBit rStpStatus 3 false, onKeep fun k => { k with held := [], test := false }, Eff.each s.dev.keep.held applyTolOp ]

/-! ### Activity reports (R484 to R486, Table 14.1) -/

/-- The chip ids of the tray, by slot (TOL section). -/
def State.trayChips (s : State) : List Nat := (List.range 8).map fun i => getLe s.dev.tol.sec (2 * i) 2

/-- The six activity counters of each basin (R485). -/
def State.counters (s : State) : List Nat := (List.range 16).flatMap fun b =>
  [rPacActMx b, rPacActVx b, rMemActRd b, rMemActWr b, rIbnActTx b, rIbnActRx b].map fun off => (s.reg off).toNat

/-- A report of a tray slot is accepted (R486). The first report sets the counters held and shows no rise (log entry 29). -/
def acceptReport (slot seq : Nat) (cs : List Nat) : Eff := .read fun s =>
  let r := mget {} s.dev.tol.reports slot
  let restart := match r.seq with
    | some q => decide (seq ≤ q) || (cs.zip r.counters).any (fun p => decide (p.1 < p.2))
    | none => false
  let held := if restart then [] else if r.seq.isNone then cs else r.counters
  let rises := (List.range 96).map fun i => r.rises.getD i 0 + (cs.getD i 0 - held.getD i 0)
  Eff.all
    [ onTol fun t => { t with reports := mput t.reports slot { seq := some seq, counters := cs, tick := s.now, rises := rises } },
      bumpFld (rTolRpt slot) 0 32 1, putFld (rTolRpt slot) 32 12 (s.trayChips.getD slot 0) ]

/-- The payload of a report. -/
def State.reportBytes (s : State) : List Byte :=
  leBytes 2 (s.fld rGlbRole 0 12) ++ leBytes 1 (s.fld rGlbRole 12 3) ++ leBytes 1 1 ++ leBytes 4 s.dev.tol.sent ++ leBytes 8 s.now
    ++ s.counters.flatMap (leBytes 8)

/-- ACTIVITY (R484): the toll master accepts the reports of its tray's chips and discards others, which count. -/
def effActivity : Eff :=
  .andThen (fromInbox 0x28 (fun _ _ => true) fun w => takeBarge w.barge (.andThen (delivered w.barge) (.read fun s =>
    let p := w.barge.payload
    if !s.isToll then .skip
    else match s.trayChips.findIdx? fun c => c == w.barge.srcChip with
      | some slot => acceptReport slot (getLe p 4 4) ((List.range 96).map fun i => getLe p (16 + 8 * i) 8)
      | none => countAt 0x63 0))) sweep

/-- ACTIVITY_SILENT (Table 14.12): no report from a tray chip for 2^24 ticks. -/
def effActivitySilent (slot : Nat) : Eff := .read fun s =>
  let r := mget {} s.dev.tol.reports slot
  if s.isToll && s.dev.tol.started && decide (slot < 8) && decide (r.tick + 2 ^ 24 ≤ s.now) then
    .andThen (onTol fun t => { t with reports := mput t.reports slot { r with tick := s.now } }) (countAt 0x64 slot)
  else .skip

/-! ### Calendars by command (R493, R494) -/

/-- The staged calendar. -/
def State.stagedCalendar (s : State) : List Byte := (List.range 512).flatMap fun i => leBytes 4 (s.reg (rTolCalStage i)).toNat

/-- A CALENDAR record. -/
def calendarRecord (role act : Nat) (c : List Byte) (tag : JTag) : JReq :=
  { typ := 4, body := leBytes 1 role ++ zeros 7 ++ leBytes 8 act ++ c, tag := tag }

/-- COMMIT (R493). -/
def calCommit : Eff := .read fun s =>
  let c := s.stagedCalendar
  let act := (s.reg rTolCalAct).toNat
  let fail (n : Nat) : Eff := putFld rTolCalStatus 0 3 n
  if s.dev.tol.commit.isSome then .skip
  else if !calFormatOk c then fail 1
  else if !calCrcOk c then fail 2
  else if !s.rtcValid || decide (act < s.seconds + 60) then fail 3
  else
    let c := c.take (calLen c)
    Eff.all
      [ fail 7, onTol fun t => { t with commit := some (c, act, s.now) }, writeRecord (calendarRecord 1 act c .calendar) ]

/-- CANCEL (R494). -/
def calCancel : Eff := .read fun s =>
  let k := s.dev.keep
  Eff.when (!k.pending.isEmpty) (Eff.all
    [ writeRecord (calendarRecord 2 k.pendingAct k.pending .none), onKeep fun k => { k with pending := [] },
      putReg (rTolCalActive 1) 0 ])

/-- A write to TOL_CAL_CMD. -/
def effTolCalCmd (v : Nat) : Eff := .read fun s =>
  if !s.isToll || v / 65536 != 0x7A11 then .skip
  else if v % 4 = 1 then calCommit else if v % 4 = 2 then calCancel else .skip

/-- CALENDAR_COMMIT_TIMEOUT (R493 step 4). -/
def effCalendarCommitTimeout : Eff := .read fun s =>
  match s.dev.tol.commit with
  | some (_, _, t) =>
    Eff.when (decide (t + 2 ^ 30 ≤ s.now)) (Eff.all
      [ putFld rTolCalStatus 0 3 4, onTol fun t => { t with commit := none },
        onDev fun d => { d with jrn := d.jrn.filter fun r => r.tag != .calendar } ])
  | none => .skip

/-! ### TOL_CMD (R498, R509) -/

/-- A write of SNAPSHOT to TOL_CMD by a reader. -/
def effSnapshot (rd : Nat) : Eff := .read fun s => Eff.when s.isToll (tolOp (.snap (if rd = i2cReader then 1 else 0)))

/-! ### Start and power failure (R503 to R508) -/

/-- The toll registers by the index of a TOLLS_DELTA pair. -/
def tollOff (i : Nat) : Nat := if i < 63 then rTolTray (i / 9) (i % 9) else rTolBasin ((i - 64) / 9) ((i - 64) % 9)

/-- The indices of the tolls. -/
def tollIndices : List Nat := List.range 63 ++ (List.range 144).map fun i => 64 + i

/-- A toll's value in a snapshot. -/
def tollIn (b : List Byte) (i : Nat) : Nat := if i < 63 then getLe b (128 + 8 * i) 8 else getLe b (632 + 8 * (i - 64)) 8

/-- The TOLLS_DELTA against a TOLLS record (R503). -/
def State.delta (s : State) (t : JRec) : JReq :=
  let changed := tollIndices.filter fun i => (s.reg (tollOff i)).toNat != tollIn t.body i
  { typ := 2, body := leBytes 8 t.seq ++ leBytes 2 changed.length ++ s.residueBytes
      ++ changed.flatMap fun i => leBytes 2 i ++ leBytes 8 (s.reg (tollOff i)).toNat }

/-- PFAIL_N falls (R503). Before the START record nothing is written, and the next start records a DOWN gap (Table 16.15). -/
def pfailTolls : Eff := .read fun s =>
  if s.isToll && s.dev.tol.started then
    Eff.all
      [ Eff.when s.testing applyHeld, closeInterval, abandonFlash,
        .read fun t => match newestTolls t.dev.flash.records with
          | some r => beginRecord (t.delta r)
          | none => .skip,
        onKeep fun k => { k with cleanStop := true } ]
  else onKeep fun k => { k with cleanStop := false }

/-- Residues come back from a record. -/
def restoreResidues (b : List Byte) (at_ : Nat) : Eff :=
  .andThen (Eff.each (List.range 7) fun q => putReg (rMtrRes q) (getLe b (at_ + 4 * q) 4))
    (Eff.each (List.range 16) fun i => putReg (rTolRes i) (getLe b (at_ + 28 + 8 * i) 8))

/-- A TOLLS_DELTA is applied. -/
def applyDelta (d : JRec) : Eff :=
  Eff.all
    [ restoreResidues d.body 10, putReg rTolPending 0,
      Eff.each (List.range (min 207 (getLe d.body 8 2))) fun i =>
        let at_ := 166 + 10 * i
        Eff.when (tollIndices.contains (getLe d.body at_ 2)) (putReg (tollOff (getLe d.body at_ 2)) (getLe d.body (at_ + 2) 8)) ]

/-- Records sorted by JSEQ. -/
def bySeq (rs : List JRec) : List JRec :=
  rs.foldl (fun acc r => acc.filter (fun q => decide (q.seq < r.seq)) ++ r :: acc.filter (fun q => !decide (q.seq < r.seq))) []

/-- The calendars come back: of the live records the one active latest by now, and the one pending. -/
def restoreCalendars (rs : List JRec) : Eff := .read fun s =>
  let live := (liveCalendars s.seconds rs).filter fun r => calRole r == 1
  let act := live.filter fun r => decide (calAct r ≤ s.seconds)
  let latest := act.find? fun r => !act.any fun q => decide (calAct r < calAct q)
  let pend := live.find? fun r => decide (s.seconds < calAct r)
  .andThen (match latest with
    | some r => .andThen (onKeep fun k => { k with active := r.body.drop 16 }) (putReg (rTolCalActive 0) (calId (r.body.drop 16)))
    | none => .skip)
    (match pend with
     | some r => .andThen (onKeep fun k => { k with pending := r.body.drop 16, pendingAct := calAct r })
        (putReg (rTolCalActive 1) (calId (r.body.drop 16)))
     | none => .skip)

/-- Step 1 of R505 where the keeper's RAM is not intact: tolls, residues, archives and calendars come back from the journal. -/
def restoreTolls : Eff := .read fun s =>
  let rs := s.dev.flash.records
  let clear := Eff.all
    [ Eff.each tollIndices fun i => putReg (tollOff i) 0, putReg rTolPending 0,
      onKeep fun k => { k with
        intact := true, snapSeq := 0, closeSeq := 0, timeSets := 0, gapSeq := 0, flags := 0, heldA := [], subs := [], cur := (0, 0),
        curBad := true, openGaps := [] } ]
  let newEra (e : Nat) : Eff := .andThen (onKeep fun k => { k with era := e }) (putFld rTolStatus 16 16 e)
  match newestTolls rs with
  | some t =>
    Eff.all
      [ clear, newEra (getLe t.body 14 2 + 1),
        Eff.each tollIndices fun i => putReg (tollOff i) (tollIn t.body i),
        putReg rTolPending (getLe t.body 64 8), restoreResidues t.body 2648,
        Eff.each (bySeq (rs.filter (basedOn rs t))) applyDelta,
        Eff.each (closesOf rs) fun c => archive (getLe c.body 52 4 % 12) (c.body.take 2648),
        restoreCalendars rs, putBit rTolStatus 0 true, addGap 3 t.rtc, .read fun s => endGap s.gapSlot ]
  | none => Eff.all [clear, newEra (s.dev.keep.era + 1), restoreCalendars rs, addGap 4 0, .read fun s => endGap s.gapSlot]

/-- The TAMPER entries of the meter's event log after a SEQ, oldest first. -/
def State.tamperEntries (s : State) (from_ : Nat) : List (List Byte) :=
  let es := (List.range 64).map fun e => (List.range 4).flatMap fun i => leBytes 8 (s.reg (rMtrEvt e i)).toNat
  let hit := es.filter fun b => getLe b 0 1 == 9 && decide (from_ < getLe b 28 4)
  hit.foldl (fun acc b => acc.filter (fun c => decide (getLe c 28 4 < getLe b 28 4)) ++ b :: acc.filter (fun c => !decide (getLe c 28 4 < getLe b 28 4))) []

/-- R508: tamper energy that has risen since the newest TAMPER record is recorded. -/
def tamperRecord : Eff := .read fun s =>
  let k := s.dev.keep
  let es := s.tamperEntries k.tamperSeen
  Eff.when (decide (k.tamperMark < (s.reg rMtrTamper).toNat))
    (.andThen (onKeep fun k => { k with tamperMark := (s.reg rMtrTamper).toNat, tamperSeen := k.evtSeq })
      (writeRecord { typ := 6, body := leBytes 2 es.length ++ zeros 30 ++ es.flatten }))

/-- The toll steps of start (R505, R508). The TOL section's calendar is active only where neither the keeper nor the journal holds one (R494). -/
def tollStart : Eff := .read fun s =>
  let was := s.dev.keep.intact
  Eff.all
    [ Eff.when (!was) restoreTolls,
      Eff.when (was && !s.dev.keep.cleanStop)
        (.andThen (addGap 2 s.dev.keep.lastHand) (.read fun t => onTol fun x => { x with downGap := some t.gapSlot })),
      .read fun t => Eff.when (t.dev.keep.active.isEmpty && decide (48 < t.dev.tol.sec.length))
        (.andThen (onKeep fun k => { k with active := t.dev.tol.sec.drop 48 }) (putReg (rTolCalActive 0) (calId (t.dev.tol.sec.drop 48)))),
      .read fun t => Eff.when (t.reg rTolPending != 0) (divide t.dev.keep.heldA),
      onKeep fun k => { k with cleanStop := false, curBad := true },
      onTol fun x => { x with since := s.now, carries := 0, started := true, reports := (List.range 8).map fun i => (i, { tick := s.now }) },
      Eff.each (List.range 8) fun i => putFld (rTolRpt i) 32 12 (s.trayChips.getD i 0),
      Eff.each (List.range 8) fun i => putReg (rTolPubkey i) (getLe (edPublic (leBytes 32 Config.deviceSeed)) (4 * i) 4),
      .read fun t => putFld rTolStatus 16 16 t.dev.keep.era, fixBand s.seconds, journalTolls 3, tamperRecord ]

/-- The gap of KIND DOWN ends at the first window end after start. -/
def endDownGap : Eff := .read fun s =>
  match s.dev.tol.downGap with
  | some slot => .andThen (onTol fun t => { t with downGap := none }) (endGap slot)
  | none => .skip

/-- A meter gap is recorded (R506): it began at a real-time-clock moment and ends now. -/
def meterGap (start : Nat) : Eff := Eff.all [spoilSub, addGap 1 start, .read fun s => endGap s.gapSlot]

/-! ### The commands -/

/-- SNAPSHOT, as a write to TOL_CMD. -/
def execSnapshot (rd v : Nat) (s : State) : Host.Outcome State Fault Refusal :=
  (Eff.when (v % 4 == 1) (writeReg rd rTolCmd (effSnapshot rd))).done s
/-- SNAPSHOT_SEALED. -/
def execSnapshotSealed (who : Nat) (s : State) : Host.Outcome State Fault Refusal := (effSnapshotSealed who).done s
/-- CALENDAR_COMMIT, as a write to TOL_CAL_CMD. -/
def execCalendarCommit (rd v : Nat) (s : State) : Host.Outcome State Fault Refusal :=
  (Eff.when (v % 4 == 1) (writeReg rd rTolCalCmd (effTolCalCmd v))).done s
/-- CALENDAR_CANCEL, as a write to TOL_CAL_CMD. -/
def execCalendarCancel (rd v : Nat) (s : State) : Host.Outcome State Fault Refusal :=
  (Eff.when (v % 4 == 2) (writeReg rd rTolCalCmd (effTolCalCmd v))).done s
/-- CALENDAR_COMMIT_TIMEOUT. -/
def execCalendarCommitTimeout (s : State) : Host.Outcome State Fault Refusal := effCalendarCommitTimeout.done s
/-- ACTIVITY. -/
def execActivity (s : State) : Host.Outcome State Fault Refusal := effActivity.done s
/-- ACTIVITY_SILENT. -/
def execActivitySilent (slot : Nat) (s : State) : Host.Outcome State Fault Refusal := (effActivitySilent slot).done s

end Sys2Proof.Machine
end

