-- ==== Sys2Proof/Machine/Meter.lean ====
section
/-!
DEFINITION. The meter (chapter 13): samples, windows, hand-offs, events, CF_OUT, pulse inputs, calibration and retirement.
-/
namespace Sys2Proof.Machine

/-! ### Configuration (Table 16.9, MTR section) -/

/-- A number of the MTR section. -/
def State.mtrSec (s : State) (i n : Nat) : Nat := getLe s.dev.mtr.sec i n

/-- The channels that the wiring uses (R439). -/
def State.mtrUsed (s : State) : List Nat := if s.mtrSec 0 1 = 1 then [0, 3, 6] else List.range 7
/-- The phases that the wiring uses. -/
def State.mtrPhases (s : State) : List Nat := if s.mtrSec 0 1 = 1 then [0] else [0, 1, 2]
/-- The full scale of a channel, in mV or mA. -/
def State.fullScale (s : State) (c : Nat) : Nat := s.mtrSec (4 + 4 * c) 4
/-- U_DIN. -/
def State.uDin (s : State) : Nat := s.mtrSec 32 4
/-- CYC (R447). -/
def State.cyc (s : State) : Nat := if s.mtrSec 1 1 = 1 then 12 else 10
/-- Cycles per sample at NOMINAL_HZ. -/
def State.nominalRate (s : State) : Rat := mkRat ((if s.mtrSec 1 1 = 1 then 60 else 50) * 128) 1000000

/-- A channel's state (Table 13.12). -/
def State.chState (s : State) (c : Nat) : Nat := s.fld (rMtrCh c 0) 0 2
/-- A channel is in service. -/
def State.inService (s : State) (c : Nat) : Bool := s.mtrUsed.contains c && s.chState c == 1
/-- The voltage channels in service. -/
def State.voltages (s : State) : List Nat := s.mtrPhases.filter s.inService

/-- The layers of a channel combined (R469). -/
def State.layerOf (s : State) (c : Nat) (g : Nat) (off ph : Int) : Layer :=
  { g := (s.reg (rMtrChFact c 0)).toNat * (s.reg (rMtrChImg c 0)).toNat * g / 2 ^ 60
    off := s.sfld (rMtrChFact c 1) 0 32 + s.sfld (rMtrChImg c 1) 0 32 + off
    ph := s.sfld (rMtrChFact c 2) 0 32 + s.sfld (rMtrChImg c 2) 0 32 + ph }

/-- The layer in force. -/
def State.layer (s : State) (c : Nat) : Layer :=
  s.layerOf c (s.reg (rMtrChRun c 0)).toNat (s.sfld (rMtrChRun c 1) 0 32) (s.sfld (rMtrChRun c 2) 0 32)

/-- The temperature terms in force (R445). -/
def State.terms (s : State) (c : Nat) : Int × Int := mget (0, 0) s.dev.mtr.terms c

/-- The points of a channel's temperature table. -/
def State.tempPoints (s : State) (c : Nat) : List (Int × Int × Int) :=
  (List.range 8).filterMap fun k =>
    let r := rMtrTtab c k
    if s.bit r 16 then some (s.sfld r 0 16, s.sfld r 24 16, s.sfld r 40 24) else none

/-- The effective values of a channel are shown, tau_c and phi_c applied. -/
def showEff (c : Nat) : Eff := .read fun s =>
  let l := s.layer c
  let (tau, phi) := s.terms c
  Eff.all
    [ putReg (rMtrChEff c 0) (rfloor (ratOf l.g * (1 + mkRat tau 1000000))).toNat, putSigned (rMtrChEff c 1) 32 l.off,
      putSigned (rMtrChEff c 2) 32 (l.ph + phi) ]

/-! ### The event log (R457 to R460, Table 13.5) -/

/-- A new entry of the event log; `k` is given its place, counted from the first entry. -/
def logEvent (kind flags which dur tick rtc value : Nat) (k : Nat → Eff) : Eff := .read fun s =>
  let n := s.dev.keep.evtSeq
  let slot := n % 64
  Eff.all
    [ putReg (rMtrEvt slot 0) (kind + flags * 256 + which * 65536 + dur % 2 ^ 32 * 2 ^ 32), putReg (rMtrEvt slot 1) tick,
      putReg (rMtrEvt slot 2) rtc, putReg (rMtrEvt slot 3) (value % 2 ^ 32 + (n + 1) % 2 ^ 32 * 2 ^ 32),
      putFld rMtrEvtHead 0 6 slot, Eff.when (decide (64 ≤ n)) (bumpFld rMtrEvtHead 32 32 1),
      onKeep fun k => { k with evtSeq := n + 1 }, k n ]

/-- An entry that is whole at once. -/
def logNow (kind which value : Nat) : Eff := .read fun s => logEvent kind 0 which 0 s.now s.rtc value fun _ => .skip

/-- An entry whose event goes on, found by its kind. -/
def openEvent (kind which value : Nat) : Eff := .read fun s =>
  logEvent kind 1 which 0 s.now s.rtc value fun n => onMtr fun m => { m with events := mput m.events kind n }

/-- The entry at a place of the event log still stands: 64 newer entries have not replaced it (R460). -/
def State.evtHeld (s : State) (n : Nat) : Bool := decide (n < s.dev.keep.evtSeq ∧ s.dev.keep.evtSeq ≤ n + 64)

/-- An open entry's duration, mask and extreme are updated, while it stands. -/
def updateEvent (n which value : Nat) : Eff := .read fun s =>
  let slot := n % 64
  Eff.when (s.evtHeld n) (Eff.all
    [ putFld (rMtrEvt slot 0) 32 32 ((s.now - (s.reg (rMtrEvt slot 1)).toNat) / 800000), putFld (rMtrEvt slot 0) 16 8 which,
      putFld (rMtrEvt slot 3) 0 32 value ])

/-- An open entry's event ends. -/
def closeEvent (kind n : Nat) : Eff := .read fun s =>
  .andThen (Eff.when (s.evtHeld n) (putBit (rMtrEvt (n % 64) 0) 8 false)) (onMtr fun m => { m with events := mdel m.events kind })

/-- An entry's WHICH, while it stands. -/
def State.evtWhich (s : State) (n : Nat) : Nat := if s.evtHeld n then s.fld (rMtrEvt (n % 64) 0) 16 8 else 0

/-! ### Voltage events (R456 to R459) -/

/-- A voltage in mV, from its mean square. -/
def mvOf (ms : Rat) : Nat := (ratSqrt ms).round.toNat

/-- A mean square is below a threshold in units of 0.1 % of U_DIN. -/
def State.belowThr (s : State) (ms : Rat) (off lo : Nat) : Bool :=
  let t := mkRat (s.fld off lo 12 * s.uDin) 1000
  decide (ms < t * t)

/-- A mean square is above a threshold. -/
def State.aboveThr (s : State) (ms : Rat) (off lo : Nat) : Bool :=
  let t := mkRat (s.fld off lo 12 * s.uDin) 1000
  decide (t * t < ms)

/-- One kind of voltage event at a refresh: `starts` are the phases that meet its start condition where it holds, `ends` tells that its end condition
holds; the extreme is the lowest value over its phases, or the highest. -/
def voltageEvent (kind : Nat) (high : Bool) (halves : List (Nat × Rat)) (starts : List Nat) (ends : Bool) : Eff := .read fun s =>
  let bits (ps : List Nat) : Nat := (ps.map fun p => 2 ^ p).sum
  let extreme (mask : Nat) : Nat :=
    let vs := (halves.filter fun h => bitOf mask h.1).map fun h => mvOf h.2
    if high then vs.foldl max 0 else vs.foldl min (2 ^ 32 - 1)
  match mget? s.dev.mtr.events kind with
  | none => Eff.when (!starts.isEmpty) (openEvent kind (bits starts) (extreme (bits starts)))
  | some n =>
    let mask := s.evtWhich n ||| bits starts
    let held := s.fld (rMtrEvt (n % 64) 3) 0 32
    let e := extreme mask
    .andThen (updateEvent n mask (if high then max held e else min held e)) (Eff.when ends (closeEvent kind n))

/-- The thresholds are compared at a refresh (Table 13.4). -/
def refreshEvents : Eff := .read fun s =>
  let halves := s.voltages.map fun c => (c, mget 0 s.dev.mtr.half c)
  let sag := halves.filter fun h => s.belowThr h.2 (rMtrThr 2) 0
  let swell := halves.filter fun h => s.aboveThr h.2 (rMtrThr 3) 0
  let lost := halves.all fun h => s.belowThr h.2 (rMtrThr 4) 0
  if halves.isEmpty then .skip
  else Eff.all
    [ voltageEvent 1 false halves (sag.map Prod.fst) (halves.all fun h => !s.belowThr h.2 (rMtrThr 2) 12),
      voltageEvent 2 true halves (swell.map Prod.fst) (halves.all fun h => !s.aboveThr h.2 (rMtrThr 3) 12),
      voltageEvent 3 false halves (if lost then halves.map Prod.fst else []) (halves.any fun h => !s.belowThr h.2 (rMtrThr 4) 12),
      .read fun t => match mget? t.dev.mtr.events 1, mget? t.dev.mtr.events 3 with
        | some n, some _ => Eff.when (t.evtHeld n) (putBit (rMtrEvt (n % 64) 0) 9 true)
        | _, _ => .skip ]

/-! ### Samples (R440 to R447) -/

/-- The stage-3 samples that are kept: a window, what may follow it, and a cycle before it. -/
def keptSamples : Nat := 2700

/-- A channel takes a block of 512 sampled bits; its run of equal bits and its ones are counted (R477). -/
def MChan.take (m : MChan) (block : Nat) : MChan :=
  let step (a : Nat × Bool × Bool × Nat) (i : Nat) : Nat × Bool × Bool × Nat :=
    let b := bitOf block i
    let run := if b == a.2.1 then a.1 + 1 else 1
    (run, b, a.2.2.1 || decide (256 ≤ run), a.2.2.2 + b2n b)
  let (run, level, stuck, ones) := (List.range 512).foldl step (m.run, m.level, false, 0)
  { m with older := m.newer, newer := block, marks := ((ones, stuck) :: m.marks).take keptSamples, run := run, level := level }

/-- A channel takes a sample: stage 1, and past the discarded samples stages 2 and 3. The value is in mV or mA. -/
def MChan.sample (m : MChan) (l : Layer) (hpf : Bool) (tau phi : Int) (voltage : Bool) (full skip block : Nat) : MChan :=
  let x := decimate m.older m.newer block
  let m := m.take block
  if 0 < skip then m
  else
    let (u, d) := stage2 l hpf tau m.d x
    let us := (u :: m.us).take 3
    let m := { m with d := d, us := us }
    match stage3 voltage (l.ph + phi) us with
    | some v => { m with recent := (v * ratOf full / ratOf (2 ^ 31 : Nat) :: m.recent).take keptSamples }
    | none => m

/-- HPF_MASK of a channel. -/
def State.hpf (s : State) (c : Nat) : Bool := bitOf (s.mtrSec 3 1) c

/-- The newest and the second newest stage-3 value of a channel. -/
def Mtr.last2 (m : Mtr) (c : Nat) : Option (Rat × Rat) :=
  match (mget {} m.chans c).recent with
  | b :: a :: _ => some (b, a)
  | _ => none

/-- The meter takes samples: it has started, and its clock is not forced (R419, R475). -/
def State.metering (s : State) : Bool := s.bit rMtrStatus 0 && !s.bit rMtrStatus 1

/-- Crossing detection at the newest sample (R446). -/
def crossing (s : State) (m : Mtr) : Mtr :=
  match m.ref.bind fun c => m.last2 c with
  | none => m
  | some (b, a) =>
    let lim := mkRat (s.uDin * s.uDin) 200
    let m := if b < 0 ∧ lim < b * b then { m with below := true } else m
    if m.below ∧ a < 0 ∧ 0 ≤ b then
      let t := ratOf (m.n - 1 : Nat) + a / (a - b)
      let m := { m with below := false }
      if m.open_ then { m with cross := t :: m.cross }
      else { m with open_ := true, cross := [t], from_ := if t = ratOf m.n then m.n + 1 else m.n }
    else m

/-- With no reference, a window begins at the first sample there is; it has no crossing (log entry 30). -/
def beginBlind (m : Mtr) : Mtr :=
  if m.open_ || m.ref.isSome then m else { m with open_ := true, cross := [], from_ := m.n }

/-- The end of the window under way, once it is found: its length in samples, and its last crossing where f is valid (R447, R448). A window that
follows one with f invalid starts at no crossing; its t_0 is the first crossing in it, and its samples follow on (log entry 30). -/
def State.windowEnd (s : State) : Option (Nat × Option Rat) :=
  let m := s.dev.mtr
  let cnt := m.n + 1 - m.from_
  let ts := m.cross.reverse
  if !m.open_ then none
  else match ts[s.cyc]?, ts[0]? with
    | some t, some t0 =>
      let span := (t - t0) * mkRat 128 1000000
      if 45 * span ≤ s.cyc ∧ (s.cyc : Rat) ≤ 65 * span then some ((rfloor t).toNat + 1 - m.from_, some t)
      else if 1563 ≤ cnt then some (1563, none) else none
    | _, _ => if (m.ref.isNone ∧ 1563 ≤ cnt) ∨ 2000 ≤ cnt then some (1563, none) else none

/-- C1 (R456): samples in a cycle, halves rounded up. -/
def cycleSamples (rate : Rat) : Nat := (rfloor (1 / rate + mkRat 1 2)).toNat

/-- The Urms(1/2) refresh at the newest sample. -/
def halfRefresh : Eff := .read fun s =>
  let m := s.dev.mtr
  let rate := m.rate.getD s.nominalRate
  let due := rfloor (2 * rate * ratOf (m.n - 1 : Nat)) < rfloor (2 * rate * ratOf m.n)
  if !due then .skip
  else
    let c1 := cycleSamples rate
    let ms (c : Nat) : Rat := meanSquare ((mget {} m.chans c).recent.take c1)
    Eff.all
      [ onMtr fun m => { m with half := s.voltages.map fun c => (c, ms c) },
        Eff.each s.voltages (fun c => putReg (rMtrCh c 3) (mvOf (ms c))), refreshEvents ]

/-- The channel pair of a MEASURE: voltage and current (R467, R470). -/
def pairOf (c : Nat) : Nat × Nat := if c = 6 then (0, 6) else if c < 3 then (c, c + 3) else (c - 3, c)

/-- The lanes of a MEASURE take the blocks of their pair. -/
def Measure.sample (q : Measure) (s : State) (blocks : List Nat) : Measure :=
  if !q.attached then q
  else
    let (v, i) := pairOf q.ch
    let lane (k c : Nat) : MChan :=
      let l := if c = q.ch then s.layerOf c q.g q.off q.ph else s.layer c
      (q.lanes.getD k {}).sample l (s.hpf c) (s.terms c).1 (s.terms c).2 (decide (c < 3)) (s.fullScale c) q.skip (blocks.getD c 0)
    let a := lane 0 v
    let b := lane 1 i
    let sums := match a.recent, b.recent with
      | x :: _, y :: _ => [q.sums.getD 0 0 + x * x, q.sums.getD 1 0 + y * y, q.sums.getD 2 0 + x * y, q.sums.getD 3 0 + 1]
      | _, _ => q.sums
    { q with lanes := [{ a with recent := a.recent.take 1 }, { b with recent := b.recent.take 1 }], skip := q.skip - 1, sums := sums }

/-- The channels that the shadow path tests in this window: none while a MEASURE is attached (R467, Table 13.9). -/
def State.shadowed (s : State) : List Nat :=
  let k := s.fld rMtrWin 0 32 % 4
  if (s.dev.mtr.measure.map (·.attached)).getD false then [] else ([[0, 3], [1, 4], [2, 5], [6, 0]].getD k []).filter s.inService

/-! ### Windows (R448 to R455) -/

/-- The samples of a window of a channel, oldest first, `late` samples earlier. -/
def Mtr.windowOf (m : Mtr) (w late c : Nat) : List Rat :=
  (((mget {} m.chans c).recent.drop (m.n + 1 - m.from_ - w + late)).take w).reverse

/-- The same of a channel's modulator: of each sample its ones, and whether a run of equal bits reached 256 in it. -/
def Mtr.marksOf (m : Mtr) (w c : Nat) : List (Nat × Bool) := ((mget {} m.chans c).marks.drop (m.n + 1 - m.from_ - w)).take w

/-- The phase order difference from the reference to a phase, under ROTATION (Table 13.7). -/
def State.phaseLag (s : State) (ref p : Nat) : Nat := if s.mtrSec 2 1 = 1 then (ref + 3 - p) % 3 else (p + 3 - ref) % 3

/-- The quantities of a phase in a window, with the replacements of Table 13.7. Samples that a delay asks of the time before the first are left
open (log entry 31). -/
def State.phaseQ (s : State) (w : Nat) (rho : Rat) (p : Nat) : PhaseQ :=
  let m := s.dev.mtr
  let is := m.windowOf w 0 (p + 3)
  let startI := s.mtrSec 36 2
  if !s.inService (p + 3) then
    if s.inService p then { vms := meanSquare (m.windowOf w 0 p) } else {}
  else if s.inService p then phaseOf rho startI 1 (m.windowOf w 0 p) is
  else match s.voltages with
    | [] => phaseBlind s.uDin startI is
    | v :: _ =>
      let ref := (m.ref.filter s.inService).getD v
      let late := (rfloor (mkRat (s.phaseLag ref p) 3 / rho + mkRat 1 2)).toNat
      let held := m.windowOf w late ref
      let vs := (List.range (w - held.length)).map (Config.earlierSample s.freeCount) ++ held
      let ms := meanSquare vs
      phaseOf rho startI (if ms = 0 then 0 else ratOf (s.uDin * s.uDin : Nat) / ms) vs is

/-- P, Q, S and PF of a total or a phase are shown; P/S where S is 0 is free (log entry 31). -/
def showPower (off : Nat → Nat) (p q t : Iv) : Eff :=
  Eff.all
    [ putSigned (off 0) 32 p.round, putSigned (off 1) 32 q.round, putReg (off 2) t.round.toNat,
      if 0 < t.lo then putReg (off 3) (unsigned 16 ((p.div t).scale 10000).round)
      else withFree fun v => putReg (off 3) (v % 65536) ]

/-- The harmonics of a channel (R454, R455). -/
def showHarmonics (c : Nat) (rho : Rat) (xs : List Rat) : Eff := .read fun s =>
  let w := ratOf xs.length
  let h (k : Nat) : Iv :=
    let x := phasor k rho xs
    let abs := ((x.1.mul x.1).add (x.2.mul x.2)).sqrt.scale (2 / w)
    abs.div ((ratSqrt 2).mul (sincResponse (ratOf k * rho)))
  let h1 := h 1
  let hs := (List.range 39).map fun i => h (i + 2)
  let ok := decide (mkRat (s.fullScale c) 100 ≤ h1.hi) && decide (0 < h1.lo)
  let pct (x : Iv) : Nat := if ok then min 65535 ((x.div h1).scale 10000).floor.toNat else 0
  let thd := (hs.foldl (fun acc x => acc.add (x.mul x)) (iv 0)).sqrt
  let half (k : Nat) : Nat := if k = 0 then pct thd else if 2 ≤ k ∧ k ≤ 40 then pct (hs.getD (k - 2) (iv 0)) else 0
  Eff.all
    [ putReg (rMtrCh c 2) ((if c < 3 then h1 else h1.scale 10).round.toNat),
      Eff.each (List.range 21) fun i => putReg (rMtrHarm c i) (half (2 * i) + half (2 * i + 1) * 65536),
      Eff.when (s.dev.mtr.ref == some c) (putBit rMtrStatus 6 ok) ]

/-- A retired neutral channel reads zero (Table 13.7). -/
def zeroChannel (c : Nat) : Eff := Eff.all
  [ putReg (rMtrCh c 1) 0, putReg (rMtrCh c 2) 0, Eff.each (List.range 21) fun i => putReg (rMtrHarm c i) 0 ]

/-- The density and the runs of a channel over the window (R477). -/
def judgeChannel (w c : Nat) : Eff := .read fun s =>
  let ms := s.dev.mtr.marksOf w c
  let ones := (ms.map (·.1)).sum
  let bits := 512 * ms.length
  let bad := decide (ones * 32 < bits) || decide (bits * 31 < ones * 32) || ms.any (·.2)
  .andThen (putFld (rMtrCh c 0) 16 16 (if bits = 0 then 0 else min 65535 (ones * 65536 / bits)))
    (Eff.when bad (.andThen (bumpFld (rMtrCh c 0) 8 8 1) (countAt 0x50 c)))

/-- The channels that retire leave service for the windows to come, each with its CH_RETIRED (R477). -/
def retireChannels : Eff := .read fun s =>
  .andThen (Eff.each (s.dev.mtr.retiring.filter s.mtrUsed.contains) fun c => .andThen (putFld (rMtrCh c 0) 0 2 2) (logNow 6 c 0))
    (onMtr fun m => { m with retiring := [] })

/-- The next window's temperature terms (R445); an excluded sensor leaves them, and a tile sensor stands in for it in MTR_TEMP (R574). -/
def temperatureTerms (raw : Option Nat) : Eff := .read fun s =>
  match raw with
  | none => .skip
  | some r =>
    if s.excluded 96 then .andThen (showT 96 r) (withStandIn 96 fun t => putSFld rMtrTemp 0 12 t)
    else
      let t := s.sensorT 96 r
      let terms (c : Nat) : Int × Int :=
        (tempSet ((s.tempPoints c).map fun p => (p.1, p.2.1)) t, tempSet ((s.tempPoints c).map fun p => (p.1, p.2.2)) t)
      Eff.all
        [ putSFld rMtrTemp 0 12 t, showT 96 r, onMtr fun m => { m with terms := s.mtrUsed.map fun c => (c, terms c) } ]

/-- A sensor's accepted auto-zero comes into force (R571, Table 17.2). -/
def zeroInForce (k rec_ : Nat) : Eff := .read fun s =>
  match mget? s.dev.cal.azDue k with
  | some az => Eff.all
    [ putSFld (rCalTs k) 36 8 az, onDev fun d => { d with cal := { d.cal with azDue := mdel d.cal.azDue k } }, calAccept rec_ ]
  | none => .skip

/-- CF (R461, R462): the accumulator gains, whole pulses are queued, and the spacing is set. -/
def cfWindow (w : Nat) (a : Iv) : Eff := .read fun s =>
  let gain := (a.scale (mkRat (s.fld rMtrCfCfg 0 20 * 2 ^ 32) 1000000)).floor.toNat
  let acc := s.fld rMtrCfFrac 0 32 + gain
  let queued := (s.reg rMtrCfQueue).toNat + acc / 2 ^ 32
  let min2 := ratOf (2 * s.fld rMtrCfCfg 20 7 * 800000 : Nat)
  Eff.all
    [ putReg rMtrCfFrac (acc % 2 ^ 32), putReg rMtrCfQueue queued,
      onMtr fun m => { m with spacing := if queued = 0 then min2 else rmax min2 (mkRat (w * 102400) queued) } ]

/-- A cross-check span of a pulse input (R465). -/
def crossCheck (n : Nat) (units : List Nat) : Eff := .read fun s =>
  let qty := s.fld (rMtrPinCfg n) 20 3
  let const := s.fld (rMtrPinCfg n) 0 20
  let count := (s.reg (rMtrPinCount n)).toNat
  let fresh : XSpan := { start := s.now, count := count }
  let put (x : XSpan) : Eff := onMtr fun m => { m with spans := mput m.spans n x }
  match mget? s.dev.mtr.spans n with
  | none => put fresh
  | some x =>
    let em := x.units + units.getD qty 0
    if s.now < x.start + s.mtrSec 60 2 * 60 * 800000000 then put { x with units := em }
    else if x.bad || const = 0 then put fresh
    else
      let dev : Rat := mkRat ((count - x.count) * 1000000) const - ratOf em
      let pct : Int := if em = 0 then 0 else (dev * 10000 / ratOf em).num.tdiv (dev * 10000 / ratOf em).den
      let bad := decide (s.mtrSec 64 4 * 1000 ≤ em) && decide (mkRat (s.mtrSec 62 2 * em) 10000 < (if dev < 0 then -dev else dev))
      Eff.all
        [ put fresh, Eff.when (em != 0) (putSigned (rMtrPinDev n) 32 pct),
          Eff.when bad (Eff.all [bumpReg (rMtrPinXcheck n) 32 1, logNow 7 n (unsigned 32 pct), countAt 0x52 n]) ]

/-- A MEASURE at a window end (R470, R471). -/
def measureWindow : Eff := .read fun s =>
  match s.dev.mtr.measure with
  | none => .skip
  | some q =>
    let put (x : Option Measure) : Eff := onMtr fun m => { m with measure := x }
    let avg (l : List Rat) (k : Nat) : Rat := if l.getD 3 0 = 0 then 0 else l.getD k 0 / l.getD 3 0
    if !q.attached then put (some { q with attached := true })
    else if q.done + 1 < q.n then put (some { q with done := q.done + 1 })
    else match q.first with
      | none => put (some { q with done := 0, first := some q.sums, sums := [0, 0, 0, 0] })
      | some f =>
        let eps := mkRat 200 1000000
        let apart (a b : Rat) (e : Rat) : Bool := decide (rmin a b * (1 + e) < rmax a b)
        let twice := 2 * eps + eps * eps
        let p1 := avg f 2
        let p2 := avg q.sums 2
        let abs (x : Rat) : Rat := if x < 0 then -x else x
        let bad := apart (avg f 0) (avg q.sums 0) twice || apart (avg f 1) (avg q.sums 1) twice
          || decide (rmin (abs p1) (abs p2) * eps < abs (p1 - p2))
        let mean (k : Nat) : Iv := ((ratSqrt (avg f k)).add (ratSqrt (avg q.sums k))).scale (mkRat 1 2)
        .andThen (put none)
          (if bad then putFld rMtrCalResult 4 4 2
           else Eff.all
            [ putFld rMtrCalResult 4 4 1, putReg (rMtrCalMeas 0) ((mean 0).scale 100).round.toNat,
              putReg (rMtrCalMeas 1) ((mean 1).scale 1000).round.toNat,
              putSigned (rMtrCalMeas 2) 64 (iv ((p1 + p2) / 2 / 10)).round ])

/-- A committed APPLY or CLEAR comes into force for the window that starts (R472, R474). -/
def applyWindow : Eff := .read fun s =>
  match s.dev.mtr.applying with
  | some a =>
    if !a.committed then .skip
    else Eff.all
      [ putReg (rMtrChRun a.ch 0) a.g, putSigned (rMtrChRun a.ch 1) 32 a.off, putSigned (rMtrChRun a.ch 2) 32 a.ph, bumpReg (rMtrChCalcnt a.ch) 32 1,
        putReg (rMtrChCaltick a.ch 0) s.now, putReg (rMtrChCaltick a.ch 1) s.rtc, logNow 8 a.ch 0, putFld rMtrCalResult 4 4 1,
        onMtr fun m => { m with applying := none } ]
  | none => .skip

/-- The reference channel of the next window (R446). -/
def State.nextRef (s : State) (phases : List (Nat × PhaseQ)) : Option Nat :=
  s.voltages.find? fun c => (phases.any fun p => p.1 == c && decide (ratOf (s.uDin * s.uDin : Nat) ≤ 100 * p.2.vms))

/-- A window of `w` samples ends, with its last crossing where f is valid (R448 to R453, R477); `gap` tells that MCLK_MTR has been forced. It
ends at the sample at which that crossing is detected, at the last of its samples where f is invalid, and at a gap's start now. -/
def endWindow (w : Nat) (last : Option Rat) (raw : Option Nat) (gap : Bool) : Eff := .read fun s =>
  let m := s.dev.mtr
  let blind := s.voltages.isEmpty
  let t0 := m.cross.getLast?.getD 0
  let rate : Option Rat := if blind then none else last.map fun t => ratOf s.cyc / (t - t0)
  let rho := rate.getD s.nominalRate
  let phases := s.mtrPhases.map fun p => (p, s.phaseQ w rho p)
  let sum (g : PhaseQ → Iv) : Iv := phases.foldl (fun acc p => acc.add (g p.2)) (iv 0)
  let p := sum PhaseQ.p
  let q := sum PhaseQ.q
  let t := sum PhaseQ.s
  let creep := phases.all fun x => x.2.creep
  let adds := if creep then List.replicate 7 0 else additions w p q t
  let res (k : Nat) : Nat := s.fld (rMtrRes k) 0 32 + adds.getD k 0
  let units := (List.range 7).map fun k => res k / 2 ^ 32
  let estimated := s.mtrPhases.any fun c => s.chState c == 2
  let iLost := s.mtrPhases.any fun c => s.chState (c + 3) == 2
  let tick := if gap then s.now else m.tick - (m.n - (match last with
    | some t => (-rfloor (-t)).toNat
    | none => m.from_ + w - 1)) * 102400
  Eff.all
    [ Eff.each (List.range 7) fun k => .andThen (putFld (rMtrRes k) 0 32 (res k % 2 ^ 32)) (addToll (rMtrE k) (units.getD k 0)),
      Eff.when (!creep) (tolOp (.hand tick s.rtc units (b2n estimated + 2 * b2n iLost))),
      cfWindow w (if creep then iv 0 else (additionOf w p q t).getD (s.fld rMtrCfg 3 3) (iv 0)),
      endDownGap,
      showPower (fun k => rMtrTot k) p q t, Eff.each phases fun x => showPower (fun k => rMtrPh x.1 k) x.2.p x.2.q x.2.s,
      Eff.each (s.mtrUsed.filter s.inService) fun c => .andThen
        (putReg (rMtrCh c 1) (((ratSqrt (meanSquare (m.windowOf w 0 c))).scale (if c < 3 then 1 else 10)).round.toNat))
        (Eff.when (decide (0 < w)) (showHarmonics c rho (m.windowOf w 0 c))),
      Eff.when (s.chState 6 == 2) (zeroChannel 6), Eff.when (!(m.ref.map s.inService).getD false) (putBit rMtrStatus 6 false),
      putFld rMtrWin 0 32 (s.fld rMtrWin 0 32 + 1), putFld rMtrWin 32 11 w, putReg rMtrWinTick tick,
      putBit rMtrStatus 2 creep, putBit rMtrStatus 3 estimated, putBit rMtrStatus 4 iLost,
      Eff.when (!gap && rate.isNone && s.bit rMtrStatus 5) (logNow 4 0 0),
      putBit rMtrStatus 5 rate.isSome,
      match rate with
      | some r => putFld rMtrFreq 0 17 (rfloor (r * 7812500 + mkRat 1 2)).toNat
      | none => .skip,
      Eff.each (s.mtrUsed.filter s.inService) (judgeChannel w), retireChannels, .act .free,
      Eff.each [0, 1] (fun n => crossCheck n units), measureWindow, applyWindow, temperatureTerms raw, zeroInForce 96 1,
      Eff.each s.mtrUsed showEff,
      .read fun u =>
        let ref := u.nextRef phases
        .andThen (putFld rMtrStatus 7 3 (ref.getD 0)) (onMtr fun x =>
          let start := x.from_ + w
          { x with
            ref := ref
            rate := if rate.isSome then rate else x.rate
            from_ := start
            below := if ref == x.ref then x.below else false
            cross := match last with
              | some t => (if ref == x.ref then x.cross.filter (fun c => decide (t < c)) else []) ++ [t]
              | none => if ref == x.ref then x.cross.filter (fun c => decide (ratOf (start - 1 : Nat) < c)) else [] }) ]

/-- WINDOW_END: the window whose end has been found is measured, with the conversion code of the meter's sensor. -/
def effWindowEnd (raw : Nat) : Eff := .read fun s =>
  if !s.metering then .skip
  else match s.windowEnd with
    | some (w, t) => endWindow w t (some raw) false
    | none => .skip

/-- The same where the command carries no code: what the sensor reads is a free value (log entry 4). -/
def measureDue : Eff := .read fun s =>
  Eff.when (s.metering && s.windowEnd.isSome) (withFree fun v => effWindowEnd (v % 4096))

/-- A write of CLOSE to TOL_CMD (R498, R499). A window that has ended by then belongs to the interval that closes (Table 14.11). -/
def effClose (v : Nat) : Eff := .read fun s =>
  Eff.when (s.isToll && v / 65536 == 0x5EA1) (.andThen measureDue (tolOp (.bill s.seconds)))

/-- A write to TOL_CMD by a reader. -/
def effTolCmd (rd v : Nat) : Eff := if v % 4 = 1 then effSnapshot rd else Eff.when (v % 4 == 2) (effClose v)

/-- What takes force as the first window after a start or a gap opens (R472, Table 13.9). -/
def firstWindow : Eff := Eff.all
  [ applyWindow, .read fun s => Eff.each s.mtrUsed showEff, onMtr fun m => { m with measure := m.measure.map fun q => { q with attached := true } } ]

/-- METER_SAMPLE: 512 bits of every modulator have been sampled. `wrong` are the channels whose shadow output differs (R467). A window whose
end has been found before is measured first. -/
def effMeterSample (blocks wrong : List Nat) : Eff := .read fun s =>
  if !s.metering then .skip
  else .andThen measureDue (.read fun s =>
    let m := s.dev.mtr
    let used := s.mtrUsed.filter s.inService
    let chan (c : Nat) : MChan :=
      (mget {} m.chans c).sample (s.layer c) (s.hpf c) (s.terms c).1 (s.terms c).2 (decide (c < 3)) (s.fullScale c) m.skip (blocks.getD c 0)
    let m' := { m with
      chans := used.map fun c => (c, chan c)
      skip := m.skip - 1
      tick := s.now
      measure := m.measure.map fun q => q.sample s blocks }
    let grown := used.any fun c => (mget {} m'.chans c).recent != (mget {} m.chans c).recent || decide (0 < (mget {} m.chans c).recent.length)
    let m' := if grown then { m' with n := m.n + 1 } else m'
    let m' := if grown then beginBlind (crossing s m') else m'
    Eff.all
      [ onMtr fun _ => m', Eff.when (!m.open_ && m'.open_) firstWindow, Eff.when grown halfRefresh,
        Eff.when (decide (m.skip = 0)) (Eff.each ((s.shadowed).filter wrong.contains) fun c => .andThen (logNow 10 c 0) (countAt 0x51 0)) ])

/-! ### Clock loss (R475, R476) -/

/-- MCLK_MTR is forced: the window under way ends with the samples it holds, and a METER_GAP opens. -/
def openMeterGap : Eff := .read fun s =>
  if !s.metering then .skip
  else
    Eff.all
      [ measureDue,
        .read fun t => Eff.when (t.dev.mtr.open_ && decide (t.dev.mtr.from_ ≤ t.dev.mtr.n))
          (withFree fun v => endWindow (t.dev.mtr.n + 1 - t.dev.mtr.from_) none (some (v % 4096)) true),
        putBit rMtrStatus 0 false, putBit rMtrStatus 1 true, openEvent 5 0 0, spoilSub,
        onMtr fun m => { m with
          gapStart := some s.rtc, open_ := false, cross := [], high := false, spans := m.spans.map fun e => (e.1, { e.2 with bad := true }) } ]

/-- MCLK_MTR restarts: a gap is closed and reported to the tolls, and the decimators restart, a MEASURE's too (R441, R475). A meter that has
started while the clock was forced begins to sample. -/
def closeMeterGap : Eff := .read fun s =>
  Eff.when (s.dev.mtr.on && s.bit rMtrStatus 1) (Eff.all
    [ match mget? s.dev.mtr.events 5 with
      | some n => .andThen (updateEvent n 0 0) (closeEvent 5 n)
      | none => .skip,
      putBit rMtrStatus 0 true, putBit rMtrStatus 1 false,
      match s.dev.mtr.gapStart with
      | some rtc => meterGap rtc
      | none => .skip,
      onMtr fun m => { m with
        gapStart := none, skip := 3, n := 0, from_ := 0, open_ := false, cross := [], below := false
        chans := m.chans.map fun e => (e.1, {})
        measure := m.measure.map fun q => { q with lanes := [], skip := 3 } } ])

/-! ### CF_OUT and pulse inputs (R462, R464) -/

/-- CF_PULSE_START. -/
def effCfPulseStart : Eff := .read fun s =>
  let m := s.dev.mtr
  let ready := match m.lastPulse with
    | some t => decide (ratOf t + m.spacing ≤ ratOf s.now)
    | none => true
  Eff.when (s.metering && !m.high && ready && s.reg rMtrCfQueue != 0) (Eff.all
    [ putReg rMtrCfQueue ((s.reg rMtrCfQueue).toNat - 1), bumpReg rMtrCfCount 64 1,
      onMtr fun m => { m with high := true, lastPulse := some s.now } ])

/-- CF_PULSE_END. -/
def effCfPulseEnd : Eff := .read fun s =>
  let m := s.dev.mtr
  Eff.when (m.high && decide (m.lastPulse.getD 0 + s.fld rMtrCfCfg 20 7 * 800000 ≤ s.now)) (onMtr fun m => { m with high := false })

/-- PULSE_IN_ACCEPT: a new level of an input has been held for 2 ms. -/
def effPulseInAccept (n : Nat) (level : Bool) : Eff := .read fun s =>
  Eff.when (s.dev.mtr.on && decide (n < 2) && level != s.bit (rMtrPinCfg n) 23) (bumpReg (rMtrPinCount n) 64 1)

/-! ### Calibration commands (R470 to R472, R479) -/

/-- MTR_CAL_STAGE.CH. -/
def State.stageCh (s : State) : Nat := s.fld (rMtrCalStage 0) 0 3

/-- A calibration command runs (MTR_CAL_RESULT reads BUSY). -/
def State.calBusy (s : State) : Bool := s.dev.mtr.measure.isSome || s.dev.mtr.applying.isSome

/-- MTR_CAL_RESULT at a command's start. -/
def calResult (op ch status : Nat) : Eff := putReg rMtrCalResult (op + 16 * status + 256 * ch)

/-- MEASURE. A channel that is not in use, or N outside 1 to 64, is refused (log entry 32). -/
def calMeasure : Eff := .read fun s =>
  let ch := s.stageCh
  let n := s.fld (rMtrCalStage 0) 8 8
  if !s.mtrUsed.contains ch || n = 0 || 64 < n then calResult 1 ch 4
  else
    let q : Measure :=
      { ch := ch, n := n, g := (s.reg (rMtrCalStage 1)).toNat, off := s.sfld (rMtrCalStage 2) 0 32, ph := s.sfld (rMtrCalStage 3) 0 32,
        start := s.now }
    .andThen (calResult 1 ch 0) (onMtr fun m => { m with measure := some q })

/-- An APPLY, of the staged values or of identity: its record is written to the journal (R472). -/
def calApply (op g : Nat) (off ph : Int) : Eff := .read fun s =>
  let ch := s.stageCh
  let base := (s.layerOf ch 0 0 ph).ph
  let phis := (0 : Int) :: (s.tempPoints ch).map fun p => p.2.2
  let phis := if (s.tempPoints ch).isEmpty then phis else phis.drop 1
  let refused := !s.mtrUsed.contains ch || decide (g < 2 ^ 29) || decide (2 ^ 31 < g) || decide (off < -1048576) || decide (1048576 < off)
    || phis.any fun f => decide (65536 ≤ base + f) || decide (base + f ≤ -65536)
  if refused then calResult op ch 4
  else Eff.all
    [ calResult op ch 0, onMtr (fun m => { m with applying := some { op := op, ch := ch, g := g, off := off, ph := ph, start := s.now } }),
      journalUnits 10 0 ch 0 (unsigned 32 ph) (g + unsigned 32 off * 2 ^ 32) .meterCal, pumpJournal ]

/-- A write to MTR_CAL_CMD. -/
def effMtrCalCmd (v : Nat) : Eff := .read fun s =>
  if !s.isToll || v / 65536 != 0xCA1B || s.calBusy then .skip
  else match v % 4 with
    | 1 => calMeasure
    | 2 => calApply 2 (s.reg (rMtrCalStage 1)).toNat (s.sfld (rMtrCalStage 2) 0 32) (s.sfld (rMtrCalStage 3) 0 32)
    | 3 => calApply 3 (2 ^ 30) 0 0
    | _ => .skip

/-- MEASURE_TIMEOUT (R471). -/
def effMeasureTimeout : Eff := .read fun s =>
  match s.dev.mtr.measure with
  | some q => Eff.when (decide (q.start + 2 ^ 34 ≤ s.now))
    (.andThen (putFld rMtrCalResult 4 4 3) (onMtr fun m => { m with measure := none }))
  | none => .skip

/-- APPLY_TIMEOUT (R472). The command's record commits no later command. -/
def effApplyTimeout : Eff := .read fun s =>
  match s.dev.mtr.applying with
  | some a => Eff.when (!a.committed && decide (a.start + 2 ^ 30 ≤ s.now)) (Eff.all
      [ putFld rMtrCalResult 4 4 3, onMtr fun m => { m with applying := none },
        onDev fun d => { d with
          jrn := d.jrn.filter fun r => r.tag != .meterCal
          flash := { d.flash with cur := d.flash.cur.map fun r => if r.tag = .meterCal then { r with tag := .none } else r } } ])
  | none => .skip

/-- A write to MTR_CH_CTRL: RELEASE writes a release record (R479). -/
def effMtrChCtrl (v : Nat) : Eff := .read fun s =>
  Eff.when (s.isToll && v / 65536 == 0x7E1A && bitOf v 3 && decide (v % 8 < 7)) (.andThen (journalUnits 9 0 (v % 8) 0 0 0) pumpJournal)

/-! ### Start (R441, R473, R479) -/

/-- The meter starts on the toll master: every channel that the wiring uses and the journal does not hold retired is in service. While MCLK_MTR is
forced it takes no sample (R419). -/
def meterStart (retired : List Nat) : Eff := .read fun s =>
  Eff.all
    [ Eff.each s.mtrUsed fun c => putFld (rMtrCh c 0) 0 2 (if retired.contains c then 2 else 1),
      Eff.each s.mtrUsed showEff, putBit rMtrStatus 0 (!s.bit rClkStatus 4), putBit rMtrStatus 1 (s.bit rClkStatus 4), onMtr fun m => { m with on := true } ]

/-! ### The commands -/

/-- METER_SAMPLE. -/
def execMeterSample (blocks wrong : List Nat) (s : State) : Host.Outcome State Fault Refusal := (effMeterSample blocks wrong).done s
/-- WINDOW_END. -/
def execWindowEnd (raw : Nat) (s : State) : Host.Outcome State Fault Refusal := (effWindowEnd raw).done s
/-- CF_PULSE_START. -/
def execCfPulseStart (s : State) : Host.Outcome State Fault Refusal := effCfPulseStart.done s
/-- CF_PULSE_END. -/
def execCfPulseEnd (s : State) : Host.Outcome State Fault Refusal := effCfPulseEnd.done s
/-- PULSE_IN_ACCEPT. -/
def execPulseInAccept (n : Nat) (level : Bool) (s : State) : Host.Outcome State Fault Refusal := (effPulseInAccept n level).done s
/-- MEASURE, as a write to MTR_CAL_CMD. -/
def execMeasure (rd v : Nat) (s : State) : Host.Outcome State Fault Refusal :=
  (Eff.when (v % 4 == 1) (writeReg rd rMtrCalCmd (effMtrCalCmd v))).done s
/-- APPLY, as a write to MTR_CAL_CMD. -/
def execApply (rd v : Nat) (s : State) : Host.Outcome State Fault Refusal :=
  (Eff.when (v % 4 == 2) (writeReg rd rMtrCalCmd (effMtrCalCmd v))).done s
/-- CLEAR, as a write to MTR_CAL_CMD. -/
def execClear (rd v : Nat) (s : State) : Host.Outcome State Fault Refusal :=
  (Eff.when (v % 4 == 3) (writeReg rd rMtrCalCmd (effMtrCalCmd v))).done s
/-- MEASURE_TIMEOUT. -/
def execMeasureTimeout (s : State) : Host.Outcome State Fault Refusal := effMeasureTimeout.done s
/-- APPLY_TIMEOUT. -/
def execApplyTimeout (s : State) : Host.Outcome State Fault Refusal := effApplyTimeout.done s
/-- METER_RELEASE, as a write to MTR_CH_CTRL. -/
def execMeterRelease (rd v : Nat) (s : State) : Host.Outcome State Fault Refusal := (writeReg rd rMtrChCtrl (effMtrChCtrl v)).done s
/-- BILLING_CLOSE, as a write of CLOSE to TOL_CMD; the calendar's closes are part of SECONDS_CARRY. -/
def execBillingClose (rd v : Nat) (s : State) : Host.Outcome State Fault Refusal :=
  (Eff.when (v % 4 == 2) (writeReg rd rTolCmd (effClose v))).done s

end Sys2Proof.Machine
end

