-- ==== Sys2Proof/Machine/ServeStep.lean ====
section
/-!
DEFINITION. Decode steps (R339 to R353, R370): composition, the manifest, the step program, and the collect.
-/
namespace Sys2Proof.Machine

/-! ### Composition (R341 to R347, R357) -/

/-- What a step build has come to: the engine's state, rows, requests in composition order, page-list entries to be written (slot, place,
page), blocks looked up and hits, the prompt blocks hashed for each slot, whether a mooring has begun, the last request that could not obtain
pages, and whether any request was resumed. -/
structure Build where
  srv : Serve
  rows : Nat := 0
  items : List StepItem := []
  lists : List (Nat × Nat × Nat) := []
  looked : Nat := 0
  hits : Nat := 0
  hashed : List (Nat × Nat) := []
  moored : Bool := false
  short : Option Nat := none
  resumed : Bool := false

/-- What a build takes from the state: basin, configuration, index range, hashes by slot, handle pages by slot, and its tick. -/
structure BuildEnv where
  basin : Nat
  cfg : SrvCfg
  pfx : Nat × Nat
  hashes : Nat → List Nat
  handle : Nat → Option (List Nat)
  tick : Nat
  step : Nat

/-- The blocks that LOOKUP finds, from the first one not yet shared on: their pages, the entries' LAST_USE set (R357). -/
def lookupBlocks (env : BuildEnv) (v : Serve) : List Nat → List Nat × Nat × Serve
  | [] => ([], 0, v)
  | h :: hs => match v.findHash env.pfx h with
    | none => ([], 1, v)
    | some (n, x) =>
      let w := { v.addRef env.basin x.page with index := mput v.index n { x with lastUse := env.step } }
      let r := lookupBlocks env w hs
      (x.page :: r.1, r.2.1 + 1, r.2.2)

/-- What prefix resolution gives: the pages shared, the blocks looked up, the hits, the engine's state. -/
structure Resolved where
  shared : List Nat
  looked : Nat
  hits : Nat
  srv : Serve

/-- Prefix resolution of a request in its first step (R357). -/
def resolve (env : BuildEnv) (v : Serve) (e : Nat) : Resolved :=
  let r := v.req e
  let fromHandle := match env.handle e with
    | some ps => ps.take r.hblocks
    | none => []
  let w := fromHandle.foldl (fun (u : Serve) g => u.addRef env.basin g) v
  if r.lookup then
    let found := lookupBlocks env w ((env.hashes e).drop fromHandle.length)
    { shared := fromHandle ++ found.1, looked := found.2.1, hits := found.1.length, srv := found.2.2 }
  else { shared := fromHandle, looked := 0, hits := 0, srv := w }

/-- A request that may run joins the step with at most `limit` prefill rows. None where its pages cannot be taken. -/
def addRun (env : BuildEnv) (x : Build) (e limit : Nat) : Option Build :=
  let r0 := x.srv.req e
  let res := if r0.state = 1 then resolve env x.srv e else { shared := [], looked := 0, hits := 0, srv := x.srv }
  let shared := res.shared
  let v := res.srv
  let pos := if r0.state = 1 then 64 * shared.length else r0.pos
  let held := if r0.state = 1 then shared.length else r0.pages
  let need := if r0.plen ≤ pos then 1 else min (r0.plen - pos) limit
  if need = 0 then some x
  else
    let blocks := (pos + need - 1) / 64 + 1
    match v.takePages env.basin env.pfx env.cfg.poolPages (blocks - held) with
    | none => none
    | some (new, w) =>
      let st := if r0.state = 1 then (if r0.cancel then 7 else 2) else r0.state
      let u := w.upd e fun r =>
        { r with
          state := st, cancel := (if r0.state = 1 then false else r.cancel), pos := pos, pages := max blocks held,
          shared := if r0.state = 1 then shared.length else r.shared }
      let places := (if r0.state = 1 then shared else []) ++ new
      let first := if r0.state = 1 then 0 else r0.pages
      some { x with
        srv := u, rows := x.rows + need,
        items := x.items ++ [{ slot := e, first := pos, rows := need, sample := decide (r0.plen ≤ pos + need), gen := r0.gen }],
        hashed := if r0.state = 1 ∧ r0.lookup = true then x.hashed ++ [(e, shared.length - res.hits + res.looked)] else x.hashed,
        lists := x.lists ++ places.mapIdx fun i g => (e, first + i, g),
        looked := x.looked + res.looked, hits := x.hits + res.hits }

/-- The signed slack of a request at a tick (R352); none for no deadline. -/
def slackOf (r : Req) (t : Nat) : Option Int :=
  let due : Option Nat :=
    if r.gened = 0 then (if r.ttft = 0 then none else some (r.submitTick + 1024 * r.ttft))
    else if r.tbt = 0 then none else some (r.lastTick + 1024 * r.tbt)
  due.map fun d => (d : Int) - t

/-- The SLACK field. -/
def slackField (x : Option Int) : Nat :=
  match x with
  | none => 0x7FFFFFFF
  | some z => unsigned 32 (max (-2147483648) (min 2147483647 (z / 1024)))

/-- Request `a` comes before `b` in the order of R341. -/
def before (t : Nat) (a b : Req) : Bool :=
  if a.prio != b.prio then decide (a.prio < b.prio)
  else match slackOf a t, slackOf b t with
    | some x, some y => if x = y then decide (a.admitSeq < b.admitSeq) else decide (x < y)
    | some _, none => true
    | none, some _ => false
    | none, none => decide (a.admitSeq < b.admitSeq)

/-- A slot takes its place in the order of R341. -/
def orderInsert (v : Serve) (t e : Nat) : List Nat → List Nat
  | [] => [e]
  | x :: xs => if before t (v.req e) (v.req x) then e :: x :: xs else x :: orderInsert v t e xs

/-- The requests that compete for a step, in the order of R341. -/
def buildOrder (v : Serve) (t : Nat) (slots : List Nat) : List Nat :=
  (slots.filter fun e => [1, 2, 3, 5, 7].contains (v.req e).state).foldl (fun l e => orderInsert v t e l) []

/-- A request begins to resume (R355): its pages are taken. -/
def beginResume (env : BuildEnv) (v : Serve) (e : Nat) : Option Serve :=
  (v.takePages env.basin env.pfx env.cfg.poolPages (v.req e).spilled).map fun p =>
    p.2.upd e fun r => { r with state := 6, held := p.1 }

/-- The victim that is moored for a request of a priority (R347). -/
def moorVictim (v : Serve) (prio : Nat) (order : List Nat) : Option Nat :=
  (order.filter fun e => let r := v.req e
    r.state == 3 && r.moor != 0 && decide (prio < r.prio)).getLast?

/-- One request of the composition in TRACKED mode. -/
def composeOne (env : BuildEnv) (order : List Nat) (x : Build) (e : Nat) : Build :=
  let r := x.srv.req e
  if x.items.length = env.cfg.stepReqs then x
  else if r.state = 5 then
    match beginResume env x.srv e with
    | some v => { x with srv := v, resumed := true }
    | none => { x with short := some e }
  else if r.state = 4 then x
  else
    match addRun env x e (min env.cfg.chunk (env.cfg.rowBudget - x.rows)) with
    | some y => y
    | none =>
      let x := { x with short := some e }
      if x.moored then x
      else match moorVictim x.srv r.prio order with
        | some m => { x with srv := x.srv.upd m fun q => { q with state := 4 }, moored := true }
        | none => x

/-- The composition of a step in TRACKED mode (R341). -/
def compose (env : BuildEnv) (v : Serve) (slots : List Nat) : Build :=
  let order := buildOrder v env.tick slots
  order.foldl (composeOne env order) { srv := v }

/-! ### Writing a step (R345, R348, R349, Table 10.8) -/

/-- What a build takes from the state. -/
def State.buildEnv (s : State) (host : HostBytes) (b : Nat) (c : SrvCfg) : BuildEnv :=
  { basin := b, cfg := c, pfx := s.pfxRange b,
    hashes := fun e => s.reqHashes host b (s.req e) (((s.req e).plen - 1) / 64),
    handle := fun e => s.handlePages b (s.req e).handle, tick := s.now, step := (s.srvBasin b).steps + 1 }

/-- A row's 64 bytes. -/
def State.rowBytes (s : State) (host : HostBytes) (b e p : Nat) : List Byte :=
  let r := s.req e
  let tok := if p < r.plen then s.promptToken host r p else r.lastTok
  let l := s.listAt b e
  leBytes 4 tok ++ leBytes 4 p ++ leBytes 4 l ++ leBytes 4 (l / 2 ^ 32) ++ leBytes 4 (p / 64 + 1)
    ++ leBytes 4 (s.listPage b e (p / 64) * 64 + p % 64) ++ leBytes 4 e ++ leBytes 36 0

/-- The rows of a step, with their slots and positions. -/
def stepRows (items : List StepItem) : List (Nat × Nat) := items.flatMap fun i => (List.range i.rows).map fun k => (i.slot, i.first + k)

/-- The samples of a step: slot and index of the request's last row. -/
def stepSamples (n : Nat) : List StepItem → List (Nat × Nat)
  | [] => []
  | i :: is => if i.sample then (i.slot, n + i.rows - 1) :: stepSamples (n + i.rows) is else stepSamples (n + i.rows) is

/-- A sample's 32 bytes; TOKEN_OUT is the step program's to write, and holds an open value before (log entry 4). -/
def Req.sampleBytes (r : Req) (e row v : Nat) : List Byte :=
  let d := (r.draw + r.firstOrd + r.gened) % 2 ^ 48
  leBytes 4 row ++ leBytes 4 e ++ leBytes 8 d ++ leBytes 2 r.temp ++ leBytes 2 r.topP ++ leBytes 4 r.topK ++ leBytes 4 v ++ leBytes 4 0

/-- The address of sample `i`. -/
def SrvCfg.sampleAt (c : SrvCfg) (i : Nat) : Nat := c.manifest + 64 + 64 * c.rowBudget + 32 * i

/-- The serving engine as an asker. -/
def srvAsker (q : Nat) : Asker := { agent := 2, source := q }

/-- The manifest of a step is written. -/
def writeStepManifest (b : Nat) (c : SrvCfg) (host : HostBytes) (n : Nat) (items : List StepItem) : Eff := .read fun s =>
  let rows := stepRows items
  let samples := stepSamples 0 items
  Eff.all
    [ writeAny b (srvAsker c.stepQueue) c.manifest (leBytes 8 n ++ leBytes 4 rows.length ++ leBytes 4 samples.length ++ leBytes 48 0
        ++ rows.flatMap fun r => s.rowBytes host b r.1 r.2),
      Eff.each samples.zipIdx fun x => withFree fun v =>
        writeAny b (srvAsker c.stepQueue) (c.sampleAt x.2) ((s.req x.1.1).sampleBytes x.1.1 x.1.2 v) ]

/-- One patch entry is applied (R349); one whose fields lie outside their ranges is not (log entry 23). Part of a poisoned sector of the
program stays as it is (R154), and the program meets the poison. -/
def applyPatch (b : Nat) (c : SrvCfg) (es : List EccEvent) (rows samples n p : Nat) : Eff :=
  let off := bitsOf p 0 32
  let mul := bitsOf p 48 16
  let src := bitsOf p 32 8
  let x := if src = 0 then rows else if src = 1 then samples else if src = 2 then n % 2 ^ 32 else n / 2 ^ 32
  if off % 4 != 0 || c.programLen ≤ off || 3 < src || bitsOf p 40 8 != 0 || mul = 0 then .skip
  else .andThen (rmwErrors (c.program + off) 4 es) (writeAny b (srvAsker c.stepQueue) (c.program + off) (leBytes 4 (x * mul % 2 ^ 32)))

/-- The engine submits RUN_PROGRAM on its step queue (R335, R349). -/
def submitStep (b : Nat) (c : SrvCfg) : Eff := .read fun s =>
  let q := c.stepQueue
  let t := (s.queue q).sqTail
  Eff.all
    [ writeAny b (srvAsker q) (s.fld (rQueSqBase q) 12 36 * 4096 + 64 * t)
        (leBytes 2 1 ++ leBytes 14 0 ++ leBytes 6 c.program ++ leBytes 2 0 ++ leBytes 4 c.programLen ++ leBytes 36 0),
      onQueue q fun k => { k with sqTail := (t + 1) % s.qDepth q, lastIdx := none },
      onSrv fun v => v.updBasin b fun x => { x with step := x.step.map fun r => { r with slot := t } } ]

/-- A step that has been composed, and whose requests and patch table have been read, is written and submitted: page lists, manifest,
patches, RUN_PROGRAM. -/
def launchStep (b : Nat) (c : SrvCfg) (host : HostBytes) (es : List EccEvent) (x : Build) (entry : Option (Nat × Nat)) : Eff := .read fun s =>
  let n := (s.srvBasin b).steps + 1
  let rows := (x.items.map (·.rows)).foldl (· + ·) 0
  let samples := (x.items.filter (·.sample)).length
  Eff.all
    [ onSrv fun _ => x.srv.updBasin b fun y => { y with steps := n, step := some { number := n, items := x.items, entry := entry } },
      bumpFld (rSrvPfx b) 0 32 x.looked, bumpFld (rSrvPfx b) 32 32 x.hits, metaTraffic b,
      Eff.each x.items fun i => writeList b i.slot ((x.lists.filter fun l => l.1 == i.slot).map (·.2)),
      writeStepManifest b c host n x.items,
      .read fun t => Eff.each (List.range c.patchCount) fun k => applyPatch b c es rows samples n (t.num (c.patchTable + 8 * k) 8),
      submitStep b c, putBit (rSrvState b) 2 true ]

/-- What a step reads of a request's prompt, as first token and number: the blocks that prefix resolution hashes, and the tokens of its
rows. -/
def Build.promptReads (x : Build) (i : StepItem) : List (Nat × Nat) :=
  let blocks := ((x.hashed.find? fun h => h.1 == i.slot).map (·.2)).getD 0
  [(0, 64 * blocks), (i.first, min (i.first + i.rows) (x.srv.req i.slot).plen - i.first)].filter fun p => p.2 != 0

/-- A step reads what it needs of a request: prompt tokens and page list. -/
def readItem (b : Nat) (x : Build) (es : List EccEvent) (i : StepItem) : Eff := .read fun s =>
  let r := x.srv.req i.slot
  .andThen (Eff.each (x.promptReads i) fun p => srvRead b (r.promptAddr + 4 * p.1) (4 * p.2) es)
    (srvRead b (s.listAt b i.slot) (4 * r.pages) es)

/-- What a step needs of a request cannot be read: poison, or a PCIe read that fails. -/
def State.itemBad (s : State) (host : HostBytes) (b : Nat) (x : Build) (i : StepItem) : Bool :=
  let r := x.srv.req i.slot
  (x.promptReads i).any (fun p => (s.srvBytes host (r.promptAddr + 4 * p.1) (4 * p.2)).isNone)
    || s.anyPoison (s.listAt b i.slot) (4 * r.pages)

/-- A step is composed and what it needs is read, each request once. A request of it that cannot be read ends POISON (R372, log entry 24), and
the step is composed anew without it; `k` goes on from there. -/
def settleBuild (b : Nat) (host : HostBytes) (es : List EccEvent) (make : State → Option Build) (k : Eff) : Nat → List Nat → Eff
  | 0, _ => .skip
  | n + 1, seen => .read fun s => match make s with
    | none => k
    | some x =>
      .andThen (Eff.each (x.items.filter fun i => !seen.contains i.slot) (readItem b x es)) (.read fun t =>
        let bad := x.items.filter (t.itemBad host b x)
        if bad.isEmpty then k
        else .andThen (Eff.each bad fun i => endReq b i.slot 4) (settleBuild b host es make k n (seen ++ x.items.map (·.slot))))

/-- The patch table is read, and a step is launched. Poison in the table ends the requests of the step POISON, and the STEP entry. -/
def patchAndLaunch (b : Nat) (c : SrvCfg) (host : HostBytes) (es : List EccEvent) (x : Build) (entry : Option (Nat × Nat)) : Eff :=
  .andThen (srvRead b c.patchTable (8 * c.patchCount) es) (.read fun s =>
    if c.patchCount != 0 && s.anyPoison c.patchTable (8 * c.patchCount) then
      .andThen (Eff.each x.items fun i => endReq b i.slot 4) (match entry with
        | some (q, i) => finish q i { status := 0x1B }
        | none => .skip)
    else launchStep b c host es x entry)

/-- The SLACK fields at a build's tick. -/
def stampSlack (b : Nat) : Eff := .read fun s => onSrv fun v =>
  (s.slots b).foldl (fun (w : Serve) e =>
    if [1, 2, 3, 5, 7].contains (w.req e).state then w.upd e fun r => { r with slack := slackField (slackOf r s.now) } else w) v

/-- What a build writes waits for no copy-on-write copy (R389). -/
def State.srvWait (s : State) (b : Nat) (c : SrvCfg) : Bool :=
  s.cowWait c.listArea (4096 * s.reqQuota b) || s.cowWait c.manifest (64 + 64 * c.rowBudget + 32 * c.stepReqs)
    || s.cowWait c.program c.programLen || s.cowWait c.poolMeta (8 * c.poolPages)
    || s.cowWait (s.fld (rQueSqBase c.stepQueue) 12 36 * 4096) (64 * s.qDepth c.stepQueue)
    || (s.slots b).any fun e => (s.req e).state != 0 && s.cowWait (s.req e).outAddr (32 + 16 * (s.req e).maxTok)

/-- A basin's engine is free to build: SERVING, no step running, no stoppage, its step queue ENABLED and its memory free to write. -/
def State.canBuild (s : State) (b : Nat) (c : SrvCfg) : Bool :=
  s.srvState b == 1 && s.isOpen b && (s.srvBasin b).step.isNone && !s.bit rStpStatus 2 && s.qEnabled c.stepQueue && !s.srvWait b c

/-- The read of the pool meta area before a build: poison there puts the basin in FAULT (R372). -/
def withMeta (b : Nat) (c : SrvCfg) (es : List EccEvent) (bad ok : Eff) : Eff :=
  .andThen (readSectors b (sectorsOf c.poolMeta (8 * c.poolPages)) es)
    (.read fun s => if s.anyPoison c.poolMeta (8 * c.poolPages) then .andThen (srvFault b) bad else ok)

/-- The composition of a basin's next step in TRACKED mode. -/
def State.composed (s : State) (host : HostBytes) (b : Nat) (c : SrvCfg) : Build :=
  compose (s.buildEnv host b c) s.dev.srv (s.slots b)

/-- STEP_BUILD (R341): in TRACKED mode the engine composes and submits the next step. Where nothing runs, nothing can be reclaimed or
moored and a request cannot obtain pages, the last such request ends NO_PAGES. -/
def effStepBuild (b : Nat) (host : HostBytes) (es : List EccEvent) : Eff := .read fun s =>
  match (s.srvBasin b).cfg with
  | none => .skip
  | some c =>
    if s.tended b || !s.canBuild b c then .skip
    else withMeta b c es .skip (Eff.all
      [ zeroWaiting b, stampSlack b,
        settleBuild b host es (fun t => some (t.composed host b c)) (.read fun t =>
          let x := t.composed host b c
          let busy := (t.slots b).any fun e => [4, 6].contains (x.srv.req e).state
          if !x.items.isEmpty then patchAndLaunch b c host es x none
          else .andThen (Eff.when (x.moored || x.resumed) (onSrv fun _ => x.srv))
            (match x.short with
              | some e => if busy then .skip else endReq b e 3
              | none => .skip)) ((s.slots b).length + 1) [] ])

/-! ### STEP (R342, R343) -/

/-- An entry of a plan. -/
structure PlanEntry where
  slot : Nat
  action : Nat
  gen : Nat
  rows : Nat

/-- The entries of a plan. -/
def planOf (bs : List Byte) (n : Nat) : List PlanEntry :=
  (List.range n).map fun i =>
    let w := leNat ((bs.drop (8 * i)).take 8)
    { slot := bitsOf w 0 12, action := bitsOf w 12 4, gen := bitsOf w 16 16, rows := bitsOf w 32 32 }

/-- A plan entry names a held slot of the basin in a state that allows its ACTION. -/
def State.planOk (s : State) (b : Nat) (p : PlanEntry) : Bool :=
  let r := s.req p.slot
  (s.slots b).contains p.slot && r.state != 0 && r.gen == p.gen
    && (if p.action = 0 then [1, 2, 3, 7].contains r.state
        else if p.action = 1 then (r.state == 2 || r.state == 3) && r.moor != 0
        else p.action == 2 && r.state == 5)

/-- The rows that the RUN entries will take, with each request's position after prefix resolution. -/
def planRows (env : BuildEnv) (v : Serve) : List PlanEntry → Nat
  | [] => 0
  | p :: ps =>
    let r := v.req p.slot
    let pos := if r.state = 1 then 64 * (resolve env v p.slot).shared.length else r.pos
    (if r.plen ≤ pos then 1 else min p.rows (r.plen - pos)) + planRows env v ps

/-- The RUN entries of a plan, composed; none where some pages cannot be taken. -/
def planRuns (env : BuildEnv) (x : Build) : List PlanEntry → Option Build
  | [] => some x
  | p :: ps => match addRun env x p.slot p.rows with
    | some y => planRuns env y ps
    | none => none

/-- The MOOR and RESUME entries of a plan. A resume whose pages are short waits for them in RESUMING (R355). -/
def planMoves (env : BuildEnv) (v : Serve) (p : PlanEntry) : Serve :=
  if p.action = 1 then v.upd p.slot fun r => { r with state := 4 }
  else if p.action = 2 then (beginResume env v p.slot).getD (v.upd p.slot fun r => { r with state := 6 })
  else v

/-- The MOOR and RESUME entries of a plan that takes no page. -/
def planHolds (v : Serve) (p : PlanEntry) : Serve :=
  if p.action = 1 then v.upd p.slot fun r => { r with state := 4 }
  else if p.action = 2 then v.upd p.slot fun r => { r with state := 6 }
  else v

/-- A request that is RESUMING and waits for its pages. -/
def Req.waitsPages (r : Req) : Bool := r.state == 6 && r.held.isEmpty && r.spilled != 0

/-- A plan carried out on the engine's state: the resumes that still wait take their pages where they can, in slot order, then the MOOR and
RESUME entries; and the step of the RUN entries. -/
structure Planned where
  srv : Serve
  build : Option Build
  rows : Nat

/-- What a plan comes to. Where the RUN entries cannot all obtain their pages no page is taken by any of it (R343): a RESUME then waits. -/
def State.planned (s : State) (host : HostBytes) (b : Nat) (c : SrvCfg) (plan : List PlanEntry) : Planned :=
  let env := s.buildEnv host b c
  let runs := plan.filter fun p => p.action == 0
  let v0 := ((s.slots b).filter fun k => (s.req k).waitsPages).foldl (fun v k => (beginResume env v k).getD v) s.dev.srv
  let v := plan.foldl (planMoves env) v0
  match planRuns env { srv := v } runs with
  | some x => { srv := v, build := some x, rows := x.rows }
  | none => { srv := plan.foldl planHolds s.dev.srv, build := none, rows := planRows env v runs }

/-- A plan's entries whose requests are still there. -/
def State.planLeft (s : State) (b : Nat) (plan : List PlanEntry) : List PlanEntry := plan.filter (s.planOk b)

/-- A STEP whose plan has been read. The whole plan is checked before any entry acts; the rows are those that its composition takes. -/
def runPlan (b : Nat) (c : SrvCfg) (host : HostBytes) (es : List EccEvent) (e : Entry) (q : Nat) (plan : List PlanEntry) : Eff := .read fun s =>
  let runs := plan.filter fun p => p.action == 0
  let n := (s.srvBasin b).steps + 1
  let stepEnds (v : Serve) : Eff :=
    .andThen (onSrv fun _ => v.updBasin b fun x => { x with steps := n }) (finish q e.idx { status := 0, detail := n % 2 ^ 32 })
  if !(plan.all (s.planOk b)) || !decide ((plan.map (·.slot)).Nodup) then finish q e.idx { status := 0x15 }
  else if c.rowBudget < (s.planned host b c plan).rows || c.stepReqs < runs.length then finish q e.idx { status := 0x18 }
  else .andThen (stampSlack b)
    (settleBuild b host es (fun t => (t.planned host b c (t.planLeft b plan)).build) (.read fun t =>
      let p := t.planned host b c (t.planLeft b plan)
      match p.build with
      | none => .andThen (onSrv fun _ => p.srv) (finish q e.idx { status := 0x2F })
      | some x =>
        if x.items.isEmpty then stepEnds x.srv
        else .andThen (setStage q e.idx .running) (patchAndLaunch b c host es x (some (q, e.idx)))) (plan.length + 1) [])

/-- STEP. -/
def effStep (q : Nat) (host : HostBytes) (es : List EccEvent) : Eff := takeUp q (· == 0x0103) fun e => .read fun s =>
  let b := s.qOwner q
  let a := e.get 16 6
  let n := e.get 24 2
  if e.get 22 2 != 0 || e.get 26 38 != 0 then finish q e.idx { status := 0x11 }
  else match (s.srvBasin b).cfg with
    | none => finish q e.idx { status := 0x2D }
    | some c =>
      if s.srvState b != 1 || !s.tended b then finish q e.idx { status := 0x2D }
      else if s.srvWait b c then .skip
      else if n = 0 || 512 < n then finish q e.idx { status := 0x15 }
      else checkUnits b (srvAsker q) [⟨a, a + 8 * n - 1, rightR⟩] (fun st => finish q e.idx { status := st })
        (.andThen (srvRead b a (8 * n) es) (.read fun t =>
          match t.srvBytes host a (8 * n) with
          | none => finish q e.idx { status := unreadStatus a }
          | some bs => withMeta b c es (finish q e.idx { status := 0x2D })
              (.andThen (zeroWaiting b) (runPlan b c host es e q (planOf bs n)))))

/-! ### The collect (R351 to R353, R359, R361, R365 to R367, R370) -/

/-- A SERVING basin's step is running somewhere. -/
def State.stepRunning (s : State) : Bool := (List.range 16).any fun b => s.srvState b == 1 && (s.srvBasin b).step.isSome

/-- A serving stoppage that is due starts where every SERVING basin lies between a collect and its next build (R595). -/
def startServeStoppage (bound : Bool) : Eff := .read fun s =>
  match s.dev.srv.stopDue with
  | some t =>
    if s.bit rStpStatus 2 then .skip
    else if bound || !s.stepRunning then
      Eff.all
        [ putBit rStpStatus 2 true, putFld rStpTaken 48 16 (s.fld rStpTaken 48 16 + 1),
          putReg rStpMaxDefer (max (s.reg rStpMaxDefer).toNat (s.now - t)), onSrv fun v => { v with stopDue := none },
          Eff.when bound (bumpFld rStpSkipped 32 32 1) ]
    else .skip
  | none => .skip

/-- A step is over: STEP_RUNNING, and the STEP entry that asked for it. -/
def stepOver (b : Nat) (r : StepRun) (status : Nat) : Eff :=
  Eff.all
    [ onSrv fun v => v.updBasin b fun x => { x with step := none }, putBit (rSrvState b) 2 false,
      match r.entry with
      | some (q, i) => finish q i { status := status, detail := r.number % 2 ^ 32 }
      | none => .skip,
      startServeStoppage false ]

/-- The deadline rules of a token (R353). -/
def missToken (b e stamp : Nat) : Eff := .read fun s =>
  let r := s.req e
  if r.gened = 0 then
    Eff.when (r.ttft != 0 && decide (r.submitTick + 1024 * r.ttft < stamp))
      (.andThen (onSrv fun v => v.upd e fun q => { q with misses := q.misses % 2 ^ 31 + 2 ^ 31 }) (bumpFld (rSrvMiss b) 0 32 1))
  else
    Eff.when (r.tbt != 0 && decide (1024 * r.tbt < stamp - r.lastTick))
      (.andThen (onSrv fun v => v.upd e fun q => { q with misses := q.misses - bitsOf q.misses 0 16 + satAdd 16 (bitsOf q.misses 0 16) 1 })
        (bumpFld (rSrvMiss b) 32 32 1))

/-- The 16 bytes of an output record (Table 10.9). -/
def recordBytes (tok ord : Nat) (last : Bool) (stamp : Nat) : List Byte :=
  leBytes 4 tok ++ leBytes 3 ord ++ leBytes 1 (1 + 2 * b2n last) ++ leBytes 8 stamp

/-- A token that a request has sampled (R351): its stamp, its record, its message. A record that poison keeps from being written (R154) ends
the request POISON. -/
def takeToken (b e rows tok stamp : Nat) (es : List EccEvent) : Eff := .read fun s =>
  let r := s.req e
  let a := r.outAddr + 32 + 16 * r.gened
  let last := (r.endTok != 0xFFFFFFFF && tok == r.endTok) || r.gened + 1 == r.maxTok
  let write := r.outEn && r.state != 7
  Eff.all
    [ missToken b e stamp, bumpReg (rSrvTokens b) 64 1,
      onSrv fun v => v.upd e fun q =>
        { q with
          lastTok := tok, gened := q.gened + 1, pos := q.pos + rows, lastTick := stamp,
          written := if write then q.written + 1 else q.written, state := if q.state = 2 then 3 else q.state },
      Eff.when write (.andThen (rmwErrors a 16 es) (.read fun t =>
        let bs := recordBytes tok (r.firstOrd + r.gened) last stamp
        .andThen (writeAny b (s.reqAsker e) a bs)
          (if inHbm a && t.partialPoison a bs then endReq b e 4
           else Eff.when (r.notify != 0 && (r.written + 1) % r.notify == 0) (queueMessage r.queue)))) ]

/-- PUBLISH and PIN take the pages of a prompt's full blocks (R359, R361). -/
def publishPages (b e : Nat) (host : HostBytes) : Eff := .read fun s =>
  let r := s.req e
  let n := r.plen / 64
  let ps := (List.range n).map fun j => s.listPage b e j
  let free := (s.handleNums b).find? fun h => ((mget {} s.dev.srv.handles h).pages).isNone
  Eff.all
    [ Eff.when r.publish (onSrv fun v => ((s.reqHashes host b r n).zip ps).foldl
        (fun (w : Serve) x => w.insertHash b (s.pfxRange b) x.1 x.2 (s.srvBasin b).steps) v),
      Eff.when r.pin (match free with
        | some h => onSrv fun v =>
            let g := ((mget {} v.handles h).gen + 1) % 65536
            let w := ps.foldl (fun (u : Serve) p => u.addRef b p) v
            { w.upd e fun q => { q with handle := g * 65536 + h } with handles := mput v.handles h { gen := g, pages := some ps } }
        | none => .skip) ]

/-- PUBLISH and PIN of a request whose last prompt row has run: the prompt and the page list are read first. Where they cannot be, the request
ends POISON (R372, log entry 24). -/
def publish (b e : Nat) (host : HostBytes) (es : List EccEvent) : Eff := .read fun s =>
  let r := s.req e
  let n := r.plen / 64
  if !r.publish && !r.pin then .skip
  else Eff.all
    [ Eff.when r.publish (srvRead b r.promptAddr (256 * n) es), srvRead b (s.listAt b e) (4 * n) es,
      .read fun t =>
        if (r.publish && n != 0 && (t.srvBytes host r.promptAddr (256 * n)).isNone) || t.anyPoison (t.listAt b e) (4 * n) then endReq b e 4
        else publishPages b e host ]

/-- One request of a step whose program ended OK, if it still holds its slot. A sample in a poisoned sector ends the request POISON. -/
def collectOne (b : Nat) (c : SrvCfg) (host : HostBytes) (es : List EccEvent) (stamp : Nat) (i : StepItem) (sample : Nat) : Eff := .read fun s =>
  let r := s.req i.slot
  let a := c.sampleAt sample
  if r.state = 0 || r.gen != i.gen then .skip
  else if !i.sample then onSrv fun v => v.upd i.slot fun q => { q with pos := q.pos + i.rows }
  else if s.anyPoison a 32 then endReq b i.slot 4
  else
    let tok := s.num (a + 24) 4
    Eff.all
      [ takeToken b i.slot i.rows tok stamp es,
        .read fun t => Eff.when (decide (r.pos < r.plen) && (t.req i.slot).state != 0) (publish b i.slot host es),
        if r.endTok != 0xFFFFFFFF && tok == r.endTok then endReq b i.slot 0
        else if r.gened + 1 = r.maxTok then endReq b i.slot 1 else .skip ]

/-- The requests of a step, in composition order, with the index of their sample. -/
def collectAll (b : Nat) (c : SrvCfg) (host : HostBytes) (es : List EccEvent) (stamp k : Nat) : List StepItem → Eff
  | [] => .skip
  | i :: is => .andThen (collectOne b c host es stamp i k) (collectAll b c host es stamp (if i.sample then k + 1 else k) is)

/-- How the step program of a step that runs has ended: by its own completion, or ABORTED where its entry is gone without one (R206, R207);
none while it has not ended. -/
def State.stepEnd (s : State) (c : SrvCfg) (r : StepRun) : Option Nat :=
  let k := s.queue c.stepQueue
  if k.lastIdx = some r.slot then some k.lastStatus
  else if s.qState c.stepQueue = 0 || (s.sqCount c.stepQueue = 0 && k.owed.isEmpty) then some 0x1C
  else none

/-- The engine consumes its step queue's CQ (R335). -/
def eatCq (q : Nat) : Eff := .read fun s => onQueue q fun k =>
  { k with posted := 0, cqHead := (k.cqHead + k.posted) % s.qDepth q, lastIdx := none }

/-- STEP_COLLECT: the step program has ended. -/
def effStepCollect (b : Nat) (host : HostBytes) (es : List EccEvent) : Eff := .read fun s =>
  match (s.srvBasin b).cfg, (s.srvBasin b).step with
  | some c, some r =>
    if s.srvState b != 1 || s.bit rStpStatus 2 || s.srvWait b c then .skip
    else match s.stepEnd c r with
    | none => .skip
    | some st => .andThen (.andThen (eatCq c.stepQueue) (zeroWaiting b))
      (if st = 0 then withMeta b c es (stepOver b r 0x2D)
        (Eff.all
          [ srvRead b (c.sampleAt 0) (32 * (r.items.filter (·.sample)).length) es,
            collectAll b c host es s.now 0 r.items, metaTraffic b, putReg (rSrvStep b) r.number, stepOver b r 0 ])
       else .andThen (countAt (0xD0 + b) 0)
        (if (st = 0x1A ∨ st = 0x1B ∨ st = 0x1C) ∧ r.rerun = false ∧ s.qEnabled c.stepQueue = true then
          .andThen (onSrv fun v => v.updBasin b fun x => { x with step := some { r with rerun := true } }) (submitStep b c)
         else .andThen (Eff.each (r.items.filter fun i => (s.req i.slot).gen == i.gen) fun i => endReq b i.slot (if st = 0x1B then 4 else 5))
          (withFree fun v => stepOver b r (if v % 2 = 0 then 0 else st))))
  | _, _ => .skip

end Sys2Proof.Machine
end

