-- ==== Sys2Proof/Machine/Serving.lean ====
section
/-!
DEFINITION. The serving commands (Table 10.2), mooring and resume (R354, R355), the index key (R362) and the serving stoppage
(R595).
-/
namespace Sys2Proof.Machine

/-! ### CONFIGURE (R333, R334) -/

/-- A field of a block of bytes. -/
def bget (bs : List Byte) (i n : Nat) : Nat := leNat ((bs.drop i).take n)

/-- The configuration block, but for the region bases (Table 10.3). -/
def parseCfg (bs : List Byte) : SrvCfg :=
  { bases := [], pageBytes := bget bs 8 4, poolPages := bget bs 12 4, poolMeta := bget bs 16 6, listArea := bget bs 24 6,
    manifest := bget bs 32 6, program := bget bs 44 6, programLen := bget bs 52 4, patchTable := bget bs 56 6,
    patchCount := bget bs 62 1, stepQueue := bget bs 63 1, rowBudget := bget bs 64 4, chunk := bget bs 68 2, stepReqs := bget bs 70 2 }

/-- The block's own fields (R334 step 2). -/
def cfgOk (bs : List Byte) : Bool :=
  let c := parseCfg bs
  let inAll := [bget bs 0 6, c.poolMeta, c.listArea, c.manifest, c.program, c.patchTable].all inHbm
  bget bs 7 1 == 0 && bget bs 22 2 == 0 && bget bs 30 2 == 0 && bget bs 38 2 == 0 && bget bs 50 2 == 0 && bget bs 72 56 == 0
    && c.pageBytes % 64 == 0 && decide (64 ≤ c.pageBytes ∧ c.pageBytes ≤ 2 ^ 26) && decide (1 ≤ c.poolPages ∧ c.poolPages ≤ 65536)
    && decide (64 + 64 * c.rowBudget + 32 * c.stepReqs ≤ bget bs 40 4) && c.programLen % 64 == 0
    && decide (64 ≤ c.programLen ∧ c.programLen ≤ 2 ^ 20) && decide (c.patchCount ≤ 64) && decide (1 ≤ c.rowBudget ∧ c.rowBudget ≤ 2 ^ 20)
    && decide (1 ≤ c.chunk) && decide (1 ≤ c.stepReqs ∧ c.stepReqs ≤ 512)
    && bget bs 0 6 % 8 == 0 && c.poolMeta % 8 == 0 && c.patchTable % 8 == 0 && c.manifest % 64 == 0 && c.program % 64 == 0
    && c.listArea % 4096 == 0 && inAll

/-- The last checks of CONFIGURE and its success. -/
def configured (b : Nat) (c : SrvCfg) (q : Nat) (e : Entry) (mlen : Nat) : Eff := .read fun s =>
  let rw := rightR + rightW
  let pools := c.bases.map fun x => (⟨x, x + c.poolPages * c.pageBytes - 1, rw⟩ : AccUnit)
  let areas : List AccUnit :=
    [⟨c.poolMeta, c.poolMeta + 8 * c.poolPages - 1, rw⟩, ⟨c.listArea, c.listArea + 4096 * s.reqQuota b - 1, rw⟩,
     ⟨c.manifest, c.manifest + mlen - 1, rw⟩]
    ++ (if c.patchCount = 0 then [] else [⟨c.patchTable, c.patchTable + 8 * c.patchCount - 1, rw⟩])
    ++ [⟨c.program, c.program + c.programLen - 1, rightR⟩]
  if s.cowWait c.poolMeta (8 * c.poolPages) then .skip
  else if !(c.bases.all fun x => x % 64 == 0 && inHbm x) then finish q e.idx { status := 0x15 }
  else checkUnits b (srvAsker q) (pools ++ areas) (fun st => finish q e.idx { status := st })
    (if s.qPresent c.stepQueue && s.qKind c.stepQueue == 0 && s.qOwner c.stepQueue == b && s.qEnabled c.stepQueue then
      Eff.all
        [ onSrv fun v => v.updBasin b fun x => { x with cfg := some c, refs := [] }, putFld (rSrvState b) 0 2 1, wakeNode 4, metaWrite b,
          finish q e.idx { status := 0 } ]
     else finish q e.idx { status := 0x2D })

/-- CONFIGURE (R334). Step 2 judges the block as it is stored, before step 3 checks the locks. -/
def effConfigure (q : Nat) (host : HostBytes) (es : List EccEvent) : Eff := takeUp q (· == 0x0100) fun e => .read fun s =>
  let b := s.qOwner q
  let a := e.get 16 6
  let raw := if inHbm a then some (s.bytes a 128) else hostBytes host a 128
  let stop (st : Nat) : Eff := finish q e.idx { status := st }
  if e.get 22 42 != 0 then stop 0x11
  else if s.srvState b != 0 || s.reqQuota b = 0 then stop 0x2D
  else match raw with
    | none => checkUnits b (srvAsker q) [⟨a, a + 127, rightR⟩] stop (stop (unreadStatus a))
    | some bs =>
      let n := bget bs 6 1 + 1
      let t := bget bs 0 6
      if !cfgOk bs then stop 0x15
      else checkUnits b (srvAsker q) [⟨a, a + 127, rightR⟩, ⟨t, t + 8 * n - 1, rightR⟩] stop (Eff.all
        [ srvRead b a 128 es, srvRead b t (8 * n) es,
          .read fun u =>
            if (inHbm a && u.anyPoison a 128) || u.anyPoison t (8 * n) then stop 0x1B
            else configured b { parseCfg bs with bases := (List.range n).map fun k => u.num (t + 8 * k) 8 } q e (bget bs 40 4) ])

/-! ### SUBMIT (R337) -/

/-- The request of a descriptor (Tables 10.4 and 10.5). -/
def parseReq (bs : List Byte) : Req :=
  { state := 1, prio := bget bs 56 1, flags := bget bs 57 1 % 16, plen := bget bs 8 4, maxTok := bget bs 12 4, promptAddr := bget bs 0 6,
    notify := bget bs 58 2, outAddr := bget bs 16 6, endTok := bget bs 28 4, draw := bget bs 32 6, temp := bget bs 40 2,
    topP := bget bs 42 2, topK := bget bs 44 4, ttft := bget bs 48 4, tbt := bget bs 52 4, moor := bget bs 72 6,
    hblocks := bget bs 64 4, firstOrd := bget bs 68 4, handle := bget bs 60 4 }

/-- R337 step 3. -/
def reqOk (bs : List Byte) : Bool :=
  let r := parseReq bs
  bget bs 6 2 == 0 && bget bs 22 2 == 0 && bget bs 38 2 == 0 && bget bs 78 50 == 0 && bget bs 57 1 < 16
    && decide (1 ≤ r.plen ∧ r.plen ≤ 65535) && decide (1 ≤ r.maxTok) && decide (r.plen + r.maxTok ≤ 65537) && decide (r.prio ≤ 7)
    && decide (r.maxTok ≤ bget bs 24 4) && decide (r.firstOrd + r.maxTok ≤ 2 ^ 24) && r.outAddr % 16 == 0
    && sampleRowOk (2 ^ 32) r.temp r.topP r.topK

/-- The bytes of a request's moor area. -/
def moorBytes (c : SrvCfg) (r : Req) : Nat := (r.plen + r.maxTok - 1 + 63) / 64 * c.bases.length * c.pageBytes

/-- A SUBMIT whose descriptor has been read. -/
def submitReq (b : Nat) (c : SrvCfg) (q : Nat) (e : Entry) (bs : List Byte) : Eff := .read fun s =>
  let r := parseReq bs
  let stop (st : Nat) : Eff := finish q e.idx { status := st }
  let units : List AccUnit :=
    [⟨r.promptAddr, r.promptAddr + 4 * r.plen - 1, rightR⟩, ⟨r.outAddr, r.outAddr + 32 + 16 * bget bs 24 4 - 1, rightW⟩]
    ++ (if r.moor = 0 then [] else [⟨r.moor, r.moor + moorBytes c r - 1, rightR + rightW⟩])
  if !reqOk bs then stop 0x15
  else checkUnits b (srvAsker q) units stop
    (if (r.handle != 0 && !((s.handlePages b r.handle).map fun ps => decide (r.hblocks ≤ ps.length)).getD false)
        || (r.plen - 1) / 64 < r.hblocks then stop 0x2C
     else match (s.slots b).find? fun k => (s.req k).state == 0 with
      | none => stop 0x2B
      | some k =>
        let gen := ((s.req k).gen + 1) % 65536
        .andThen (onSrv fun v =>
            let n := (v.basin b).admits + 1
            (v.updBasin b fun x => { x with admits := n }).upd k fun _ =>
              { r with basin := b, queue := q, tag := e.tag, gen := gen, submitTick := s.now, admitSeq := n % 2 ^ 32 })
          (finish q e.idx { status := 0, detail := k + gen * 2 ^ 16 }))

/-- SUBMIT. -/
def effSubmit (q : Nat) (host : HostBytes) (es : List EccEvent) : Eff := takeUp q (· == 0x0101) fun e => .read fun s =>
  let b := s.qOwner q
  let a := e.get 16 6
  let stop (st : Nat) : Eff := finish q e.idx { status := st }
  if e.get 22 42 != 0 then stop 0x11
  else match (s.srvBasin b).cfg with
    | none => stop 0x2D
    | some c =>
      if s.srvState b != 1 then stop 0x2D
      else checkUnits b (srvAsker q) [⟨a, a + 127, rightR⟩] stop
        (.andThen (srvRead b a 128 es) (.read fun t =>
          match t.srvBytes host a 128 with
          | none => stop (unreadStatus a)
          | some bs => submitReq b c q e bs))

/-! ### CANCEL and RELEASE (R361, R364) -/

/-- CANCEL. One that names a QUEUED request waits for its first step (log entry 25). -/
def effCancel (q : Nat) : Eff := takeUp q (· == 0x0102) fun e => .read fun s =>
  let b := s.qOwner q
  let k := e.get 16 2
  let r := s.req k
  let stop (st : Nat) : Eff := finish q e.idx { status := st }
  if e.get 20 44 != 0 then stop 0x11
  else if !(s.slots b).contains k || r.state = 0 || r.gen != e.get 18 2 then stop 0x2E
  else .andThen
    (onSrv fun v => v.upd k fun r =>
      if r.state = 2 ∨ r.state = 3 then { r with state := 7 }
      else if r.state = 1 ∨ r.state = 4 ∨ r.state = 5 ∨ r.state = 6 then { r with cancel := true } else r)
    (stop 0)

/-- RELEASE. -/
def effRelease (q : Nat) : Eff := takeUp q (· == 0x0104) fun e => .read fun s =>
  let b := s.qOwner q
  let h := e.get 16 4
  if e.get 20 44 != 0 then finish q e.idx { status := 0x11 }
  else match s.handlePages b h with
    | none => finish q e.idx { status := 0x2C }
    | some ps =>
      .andThen (onSrv fun v =>
          let w := ps.foldl (fun (u : Serve) g => u.dropRef b g) v
          { w with handles := mput w.handles (h % 65536) { gen := h / 65536, pages := none } })
        (finish q e.idx { status := 0 })

/-! ### Mooring and resume (R354, R355) -/

/-- MOORING_DONE: the last spill copy of a MOORING request is made, and it is MOORED. -/
def effMooringDone (e : Nat) : Eff := .read fun s =>
  Eff.when ((s.req e).state == 4 && (s.moveOf e).isNone) (onSrv fun v => v.upd e fun r => { r with state := 5 })

/-- RESUME_DONE: the last restore copy of a RESUMING request is made, and it goes on where it was, or to its end if its cancel waited for
this. -/
def effResumeDone (e : Nat) : Eff := .read fun s =>
  Eff.when ((s.req e).state == 6 && (s.req e).held.isEmpty && (s.req e).spilled == 0) (onSrv fun v => v.upd e fun r =>
    { r with cancel := false, state := if r.cancel then 7 else if r.pos < r.plen then 2 else 3 })

/-! ### The key and the stoppage -/

/-- A committed write of SRV_KEY_b_1 (R362). -/
def srvKeyWrite (b v : Nat) : Eff := .read fun s =>
  Eff.when (s.isOpen b) (.andThen (putReg (rSrvKey b 1) v) (installKey b (v % 2 ^ 64)))

/-- The ticks between serving stoppages (R595). -/
abbrev servePeriod : Nat := 480000000000

/-- SERVING_STOPPAGE_DUE (R595): a stoppage falls due, or one that is due starts at its deferral bound. -/
def effServingStoppageDue : Eff := .read fun s =>
  let v := s.dev.srv
  let j := s.now / servePeriod
  match v.stopDue with
  | some t => if t + 8000000000 ≤ s.now then startServeStoppage true else .skip
  | none =>
    if s.bit rStpCfg 14 && decide (v.stopSlot < j) then
      .andThen (onSrv fun v => { v with stopDue := some (j * servePeriod), stopSlot := j }) (startServeStoppage false)
    else .skip

/-- SERVING_STOPPAGE_END (R595). -/
def effServingStoppageEnd (pass : Bool) : Eff :=
  onlyIf (fun s => s.bit rStpStatus 2) (.andThen (Eff.when (!pass) (countAt 0x25 0)) (putBit rStpStatus 2 false))

/-! ### The meanings -/

/-- CONFIGURE. -/
def execConfigure (q : Nat) (host : HostBytes) (es : List EccEvent) (s : State) : Host.Outcome State Fault Refusal :=
  (effConfigure q host es).done s
/-- SUBMIT. -/
def execSubmit (q : Nat) (host : HostBytes) (es : List EccEvent) (s : State) : Host.Outcome State Fault Refusal :=
  (effSubmit q host es).done s
/-- CANCEL. -/
def execCancel (q : Nat) (s : State) : Host.Outcome State Fault Refusal := (effCancel q).done s
/-- STEP. -/
def execStep (q : Nat) (host : HostBytes) (es : List EccEvent) (s : State) : Host.Outcome State Fault Refusal := (effStep q host es).done s
/-- RELEASE. -/
def execRelease (q : Nat) (s : State) : Host.Outcome State Fault Refusal := (effRelease q).done s
/-- STEP_BUILD. -/
def execStepBuild (b : Nat) (host : HostBytes) (es : List EccEvent) (s : State) : Host.Outcome State Fault Refusal :=
  (effStepBuild b host es).done s
/-- STEP_COLLECT. -/
def execStepCollect (b : Nat) (host : HostBytes) (es : List EccEvent) (s : State) : Host.Outcome State Fault Refusal :=
  (effStepCollect b host es).done s
/-- MOORING_DONE. -/
def execMooringDone (e : Nat) (s : State) : Host.Outcome State Fault Refusal := (effMooringDone e).done s
/-- RESUME_DONE. -/
def execResumeDone (e : Nat) (s : State) : Host.Outcome State Fault Refusal := (effResumeDone e).done s
/-- SRV_KEY_WRITE. -/
def execSrvKeyWrite (rd b v : Nat) (s : State) : Host.Outcome State Fault Refusal :=
  (writeReg rd (rSrvKey b 1) (srvKeyWrite b v)).done s
/-- SERVING_STOPPAGE_DUE. -/
def execServingStoppageDue (s : State) : Host.Outcome State Fault Refusal := effServingStoppageDue.done s
/-- SERVING_STOPPAGE_END. -/
def execServingStoppageEnd (pass : Bool) (s : State) : Host.Outcome State Fault Refusal := (effServingStoppageEnd pass).done s

end Sys2Proof.Machine
end

