-- ==== Sys2Proof/Machine/Clocks.lean ====
section
/-!
DEFINITION. Clocks (chapter 12): the crystals, the root PLL, forced pins, IRO trimming, gating, and the keeper's supply.
-/
namespace Sys2Proof.Machine

/-- The clocks' hidden state changes. -/
def onClk (g : Clk → Clk) : Eff := onDev fun d => { d with clk := g d.clk }

/-- CLK_STATUS.XTAL: 0 JUDGING, 1 GOOD, 2 LOST, 3 REJUDGING. -/
def State.xtal (s : State) : Nat := s.fld rClkStatus 0 2
/-- CLK_STATUS.FORCED. -/
def State.forced (s : State) : Bool := s.bit rClkStatus 4
/-- IRO spans start anew (R425). A span that ended before the first such moment since the last own mark still counts. -/
def discardSpan : Eff := .read fun s => onClk fun c =>
  { c with spanFrom := s.now, spanPrev := c.spanPrev.or (some (c.spanFrom, s.now)) }

/-! ### Loss and return of XTAL and of lock (R417 to R420) -/

/-- MCLK_MTR, CF_OUT, SPI_CS_N and SPI_SCLK are forced; the PLL has lost lock. -/
def forcePins : Eff := .read fun s => Eff.all
  [ putBit rClkStatus 4 true, putBit rClkStatus 3 false, bumpFld rClkStatus 16 16 1, putReg rClkLossTick s.now, discardSpan, openMeterGap ]

/-- XTAL_MISSING_EDGE (R408, R417). -/
def effXtalMissingEdge : Eff := .read fun s =>
  if s.dev.board.poreset then .skip
  else if s.xtal = 1 then Eff.all [putFld rClkStatus 0 2 2, putBit rClkStatus 2 true, forcePins, countAt 0x40 0]
  else if s.xtal = 3 then putFld rClkStatus 0 2 2
  else .skip

/-- A run of 65,536 XTAL cycles over which `iro` cycles of the IRO were counted meets R408: 262,144 ± 2 %. -/
def xtalInTolerance (iro : Nat) : Bool := decide (256902 ≤ iro ∧ iro ≤ 267386)

/-- XTAL_GOOD (R408): a run of 65,536 cycles with no missing edge ends, with the IRO cycles counted across it. One that is out of tolerance
ends with no effect, and judging goes on. -/
def effXtalGood (iro : Nat) : Eff := .read fun s =>
  Eff.when (!s.dev.board.poreset && (s.xtal == 0 || s.xtal == 3) && xtalInTolerance iro && decide (1 ≤ s.phase)) (putFld rClkStatus 0 2 1)

/-- PLL_LOCK (R411, R412, R427): the first lock after a reset ends start step 2, with the timebase at 0. -/
def effPllLock : Eff := .read fun s =>
  if s.dev.board.poreset || s.bit rClkStatus 3 then .skip
  else if !s.dev.clk.started && (s.phase == 1 || s.phase == 7) then
    if s.xtal = 1 then Eff.all
      [ putBit rClkStatus 3 true, onClk fun c => { c with started := true, spanFrom := 0 },
        Eff.when (s.phase == 1) (putFld rImgStatus 0 4 2) ]
    else .skip
  else if s.dev.clk.started then Eff.all [putBit rClkStatus 3 true, Eff.when (s.bit rClkStatus 2) (putBit rTbsStatus 0 true)]
  else .skip

/-- PLL_LOCK_LOSS (R417). -/
def effPllLockLoss : Eff := .read fun s => Eff.when (s.bit rClkStatus 3) (.andThen forcePins (countAt 0x41 0))

/-- The forced pins are released (R420): the flash transaction in progress is repeated, and the meter's gap closes. -/
def releasePins : Eff := .read fun s => Eff.all
  [ putBit rClkStatus 4 false, putReg rClkReleaseTick s.now, putBit rTbsStatus 0 false, closeMeterGap,
    onFlash fun f => { f with op := f.op.map fun o => (o.1, s.now) }, pumpJournal ]

/-- What an own time mark does to XTAL, the reference and the forced pins. -/
def markXtal (runs : Bool) : Eff := .read fun s =>
  if s.xtal = 2 && runs then putFld rClkStatus 0 2 3
  else if s.xtal = 1 && s.bit rClkStatus 2 then Eff.all [putBit rClkStatus 2 false, putBit rClkStatus 3 false, discardSpan]
  else if s.xtal = 1 && s.forced && s.bit rClkStatus 3 then releasePins
  else .skip

/-! ### IRO trimming (R423 to R426, R568) -/

/-- The clock sensor's reading, or that of the one that stands in for it. -/
def withClockT (k : Int → Eff) : Eff := .read fun s => if s.excluded 97 then withStandIn 97 k else k (s.sfld (rCalTs 97) 44 12)

/-- TRIM_EFF is formed (R423). -/
def iroSum : Eff := .read fun s =>
  let z := s.sfld rClkIro 0 12 + s.sfld rClkIro 12 12 + s.sfld rClkIro 24 12
  .andThen (putSFld rClkIro 36 12 (max (-2048) (min 2047 z)))
    (Eff.when (decide (z < -2048 ∨ 2047 < z)) (countAt 0x43 0))

/-- The factory trim is computed from its set (R568). -/
def iroFactory : Eff := withClockT fun t => .read fun s =>
  let z := tempSet [(0, s.sfld rCalIroFact 0 12), (280, s.sfld rCalIroFact 12 12), (420, s.sfld rCalIroFact 24 12)] t
  .andThen (putSFld rClkIro 0 12 z) (putSFld rCalIroFact 36 12 z)

/-- The change of the adaptive trim for a span of `n8` eighths of a cycle (R424), before its limit: −round((N − 131,072) / 3.2768). -/
def iroChange (n8 : Nat) : Int := -(Int.fdiv (2 * 625 * ((n8 : Int) - 8 * 131072) + 16384) 32768)

/-- An adaptive change takes effect, with the factory part (R424, R425, R568). A change at the limit counts (Table 17.5). CLK_IRO_MEAS shows
whole cycles (log entry 67). -/
def iroApply (n8 : Nat) : Eff := .read fun s =>
  let c := iroChange n8
  let lim := max (-8) (min 8 c)
  Eff.all
    [ putSFld rClkIro 24 12 (max (-2048) (min 2047 (s.sfld rClkIro 24 12 + lim))), putFld rClkIroMeas 0 18 (n8 / 8), bumpFld rClkIroMeas 18 14 1,
      Eff.when (decide (c ≤ -8 ∨ 8 ≤ c)) (countAt 0x43 0), calAccept 2, iroFactory, iroSum, discardSpan ]

/-- A span is being measured (R424). -/
def State.spanRuns (s : State) : Bool := s.xtal == 1 || s.fld rIbnTime 0 2 == 1

/-- Nothing that discards a span fell between two ticks (R425). -/
def Clk.unbroken (c : Clk) (a b : Nat) : Bool :=
  decide (c.spanFrom ≤ a) || (match c.spanPrev with | some (f, l) => decide (f ≤ a ∧ b ≤ l) | none => false)

/-- N of a span that `n` IRO cycles filled and that ended at a tick, in eighths of a cycle (R424): between two own time marks 16 marks apart,
or between the arrivals of accepted marks m and m + 16, less the difference of their CORR values at 0.125 cycle per tick. None where the span
is no such one, or is discarded. -/
def Clk.spanN (c : Clk) (n t : Nat) : Option Nat :=
  match c.heard.find? fun h => h.tick == t with
  | some h => match c.heard.find? fun g => g.mark + 16 == h.mark with
    | some g => if c.unbroken g.tick t then some (8 * n + g.corr - h.corr) else none
    | none => none
  | none => if t % 65536 = 0 ∧ 1048576 ≤ t ∧ c.unbroken (t - 1048576) t then some (8 * n) else none

/-- The IRO at an own time mark: a change that is due takes effect unless the PLL is relocking; a span that ends at this mark takes effect at the next
one, an earlier one now (R425). -/
def markIro (span : Option (Nat × Nat)) : Eff := .read fun s =>
  let c := s.dev.clk
  let fresh : Option (Nat × Nat) := span.bind fun p =>
    if p.2 ≤ s.now ∧ (s.spanRuns ∨ c.spanPrev.isSome) then (c.spanN p.1 p.2).map fun n => (n, p.2) else none
  let due := c.due.or (fresh.bind fun p => if p.2 < s.now then some p.1 else none)
  let later := fresh.bind fun p => if p.2 = s.now then some p.1 else none
  .andThen
    (if s.bit rClkStatus 3 then
      match due with
      | some n => .andThen (onClk fun c => { c with due := none }) (iroApply n)
      | none => .andThen (onClk fun c => { c with due := later })
          (Eff.when (!s.spanRuns && decide (s.now / 65536 % 16 = 0)) (.andThen iroFactory iroSum))
    else onClk fun c => { c with due := due.or later })
    (onClk fun c => { c with spanPrev := none })

/-! ### The keeper's clock and supply (R418, R421, R430) -/

/-- TBS_KEEPER.KXTAL. -/
def State.kxtal (s : State) : Nat := s.fld rTbsKeeper 2 2
/-- LCD_STATUS.STATE: 0 DARK, 1 RISING, 2 BLANK, 3 SHOW, 4 FORCED. -/
def State.lcdState (s : State) : Nat := s.fld rLcdStatus 0 3

/-- KXTAL_MISSING_EDGE (R418, R434). -/
def effKxtalMissingEdge : Eff := .read fun s =>
  if !s.dev.keep.powered then .skip
  else if s.kxtal = 1 then Eff.all
    [ putFld rTbsKeeper 2 2 2, putBit rTbsKeeper 5 true,
      Eff.when (s.lcdState != 0) (Eff.all [putFld rLcdStatus 0 3 4, Eff.each (List.range 5) (fun w => putReg (rLcdSegRam w) 0),
        onDev fun d => { d with lcd := { d.lcd with lit := false } }]),
      Eff.when (decide (2 ≤ s.phase)) (countAt 0x42 0) ]
  else if s.kxtal = 3 then putFld rTbsKeeper 2 2 2
  else .skip

/-- KEEPER_SUPPLY_CHANGE (R430). -/
def effKeeperSupplyChange (onVbat aonOk : Bool) : Eff := .read fun s =>
  Eff.when s.dev.keep.powered (.andThen (putBit rTbsKeeper 0 onVbat) (putBit rTbsKeeper 1 aonOk))

/-! ### Gating (R414 to R416) -/

/-- A node's IN_USE condition (Table 12.4). -/
def State.nodeInUse (s : State) (n : Nat) : Bool :=
  match n with
  | 4 => (List.range 16).any fun b => s.srvState b == 1
  | 5 => ((List.range 16).any fun k => s.setState k != 0) || (List.range 8).any fun d => s.drvState d != 0
  | 7 => s.bit rPacCtrl 0 && !s.bit rPacStatus 4
  | 8 => s.isToll
  | _ => false

/-- The children of a node. -/
def nodeChildren : Nat → List Nat
  | 0 => [1, 2, 3]
  | 2 => [4, 5]
  | 3 => [6, 7, 8]
  | _ => []

/-- One node of a write: the nodes gated so far, and the refusal it gives, if any. -/
def gateNode (s : State) (v : Nat) (acc : List Nat × Option (Nat × Nat)) (n : Nat) : List Nat × Option (Nat × Nat) :=
  let held := n = 8 ∧ !s.isToll
  if !bitOf v n then (if held then (n :: acc.1, acc.2) else acc)
  else
    let code : Nat := if n < 3 then 2 else if (nodeChildren n).any fun c => !acc.1.contains c then 1 else if s.nodeInUse n then 3 else 0
    if code = 0 ∨ held then (n :: acc.1, acc.2) else (acc.1, some (code, n))

/-- A write to CLK_GATE is evaluated from node 8 down to node 0 (R414). -/
def effClkGate (v : Nat) : Eff := .read fun s =>
  let r := [8, 7, 6, 5, 4, 3, 2, 1, 0].foldl (gateNode s v) ([], none)
  .andThen (putReg rClkGate (v % 512))
    (putReg rClkGateStatus ((r.1.map fun n => 2 ^ n).sum + (match r.2 with
      | some (code, n) => code * 65536 + n * 2 ^ 24
      | none => 0)))

/-! ### The commands -/

/-- XTAL_MISSING_EDGE. -/
def execXtalMissingEdge (s : State) : Host.Outcome State Fault Refusal := effXtalMissingEdge.done s
/-- XTAL_GOOD. -/
def execXtalGood (iro : Nat) (s : State) : Host.Outcome State Fault Refusal := (effXtalGood iro).done s
/-- PLL_LOCK. -/
def execPllLock (s : State) : Host.Outcome State Fault Refusal := effPllLock.done s
/-- PLL_LOCK_LOSS. -/
def execPllLockLoss (s : State) : Host.Outcome State Fault Refusal := effPllLockLoss.done s
/-- KXTAL_MISSING_EDGE. -/
def execKxtalMissingEdge (s : State) : Host.Outcome State Fault Refusal := effKxtalMissingEdge.done s
/-- CLK_GATE, as a write to the register. -/
def execClkGate (rd v : Nat) (s : State) : Host.Outcome State Fault Refusal := (writeReg rd rClkGate (effClkGate v)).done s
/-- KEEPER_SUPPLY_CHANGE. -/
def execKeeperSupplyChange (onVbat aonOk : Bool) (s : State) : Host.Outcome State Fault Refusal :=
  (effKeeperSupplyChange onVbat aonOk).done s

end Sys2Proof.Machine
end

