-- ==== Sys2Proof/Machine/Panel.lean ====
section
/-!
DEFINITION. The front-panel display (chapter 15): drive levels, glyphs, pages, rotation and holds, and the controller's states.
-/
namespace Sys2Proof.Machine

/-- The LCD controller's hidden state changes. -/
def onLcd (g : Lcd → Lcd) : Eff := onDev fun d => { d with lcd := g d.lcd }

/-! ### Drive waveform (R512, Table 15.1), in thirds of VLCD -/

/-- The level of a common in a slot (0 to 3) and half-slot. -/
def comLevel (slot com : Nat) (second : Bool) : Nat :=
  if slot = com then (if second then 0 else 3) else (if second then 2 else 1)

/-- The level of a segment line whose segment at the slot's common is on or off. -/
def segLevel (on second : Bool) : Nat :=
  if on then (if second then 3 else 0) else (if second then 1 else 2)

/-! ### Segments (R520, R521, Tables 15.4 and 15.5) -/

/-- The annunciators, in the order of Table 15.4. -/
inductive Ann where
  | b1 | b2 | b3 | b4 | b5 | b6 | b7 | b8 | kWh | kvarh | kVAh | kW | kVA | imp | exp | q1 | q2 | q3 | q4 | all | tray | basin | md | clock
  | est | iLost | gap | tamper | fault | rtcBad | jrn | hold | cf | l1 | l2 | l3
deriving DecidableEq, Repr

/-- The place of an annunciator: 4 × (line − 28) + common. -/
def Ann.place : Ann → Nat
  | .b1 => 0 | .b2 => 1 | .b3 => 2 | .b4 => 3 | .b5 => 4 | .b6 => 5 | .b7 => 6 | .b8 => 7
  | .kWh => 8 | .kvarh => 9 | .kVAh => 10 | .kW => 11 | .kVA => 12 | .imp => 13 | .exp => 14 | .q1 => 15
  | .q2 => 16 | .q3 => 17 | .q4 => 18 | .all => 19 | .tray => 20 | .basin => 21 | .md => 22 | .clock => 23
  | .est => 24 | .iLost => 25 | .gap => 26 | .tamper => 27 | .fault => 28 | .rtcBad => 29 | .jrn => 30 | .hold => 31
  | .cf => 32 | .l1 => 33 | .l2 => 34 | .l3 => 35

/-- The annunciators lit, as segment bits: bit 4s + c is line s at LCD_COM_c. -/
def annBits (as : List Ann) : Nat := as.foldl (fun n a => n ||| 2 ^ (112 + a.place)) 0

/-- The segments of a digit's glyph: bit 0 a to bit 6 g. -/
def glyph (d : Nat) : Nat :=
  match d with
  | 0 => 0x3F | 1 => 0x06 | 2 => 0x5B | 3 => 0x4F | 4 => 0x66 | 5 => 0x6D | 6 => 0x7D | 7 => 0x07 | 8 => 0x7F | _ => 0x6F

/-- The dash. -/
abbrev dash : Nat := 0x40

/-- The segment bits of digit d with a glyph and its decimal point: line 2d carries a, f, e, d; line 2d + 1 carries b, g, c, dp. -/
def digitBits (d g : Nat) (dp : Bool) : Nat :=
  let b (i : Nat) : Nat := bitsOf g i 1
  (b 0 + 2 * b 5 + 4 * b 4 + 8 * b 3 + 16 * b 1 + 32 * b 6 + 64 * b 2 + 128 * b2n dp) * 2 ^ (8 * d)

/-- The label field. -/
def labelBits (n : Nat) : Nat := digitBits 0 (glyph (n / 10 % 10)) false ||| digitBits 1 (glyph (n % 10)) false

/-- The digits of the value field, digit 2 first. -/
def valueDigits (n : Nat) : List Nat := (List.range 12).map fun i => n / 10 ^ (11 - i) % 10

/-- A value right-justified in the value field; leading zeros are blank but for the last `keep` digits, and a minus sign is a dash left
of the first digit shown (R522). -/
def numberBits (n keep : Nat) (neg : Bool) (dp : Nat) : Nat :=
  let ds := valueDigits (n % 10 ^ 12)
  let lead := min ((ds.takeWhile fun d => d == 0).length) (12 - keep)
  (List.range 12).foldl (fun acc i =>
    let g := if lead ≤ i then glyph (ds.getD i 0) else if neg ∧ i + 1 = lead then dash else 0
    acc ||| digitBits (i + 2) g (i + 2 == dp)) 0

/-- A value with three decimals. -/
def milliBits (v : Nat) (neg : Bool) : Nat := numberBits (v / 1000) 4 neg 10

/-! ### Pages (Table 15.6) -/

/-- The main domain is powered: PORESET is not held. -/
def State.mainUp (s : State) : Bool := !s.dev.board.poreset

/-- A page descriptor's KIND, A, K and LABEL. -/
def State.page (s : State) (e : Nat) : Nat × Nat × Nat × Nat :=
  (s.fld (rLcdPage e) 0 8, s.fld (rLcdPage e) 8 8, s.fld (rLcdPage e) 16 8, s.fld (rLcdPage e) 24 8)

/-- The entries of the page list; a KIND of 0 ends it. -/
def State.pageList (s : State) : List Nat := (List.range 16).takeWhile fun e => (s.page e).1 != 0

/-- An entry can be shown now: kinds 4 and 8 come from the main domain (R524). -/
def State.pageOpen (s : State) (e : Nat) : Bool :=
  s.pageList.contains e && (s.mainUp || ((s.page e).1 != 4 && (s.page e).1 != 8))

/-- The band annunciator. -/
def bandAnn (k : Nat) : Ann := [Ann.all, .b1, .b2, .b3, .b4, .b5, .b6, .b7, .b8].getD k .all

/-- The annunciators of a tray quantity. -/
def quantityAnn (q : Nat) : List Ann :=
  [[Ann.kWh, .imp], [.kWh, .exp], [.kvarh, .q1], [.kvarh, .q2], [.kvarh, .q3], [.kvarh, .q4], [.kVAh]].getD q []

/-- The value and page annunciators of an entry, as segment bits. -/
def State.pageBits (s : State) (e : Nat) : Nat :=
  let (kind, a, k, lab) := s.page e
  let v (off : Nat) : Nat := (s.reg off).toNat
  let body : Nat :=
    match kind with
    | 1 => milliBits (v (rTolTray a k)) false ||| annBits (.tray :: bandAnn k :: quantityAnn a)
    | 2 => milliBits (v (rTolBasin a k)) false ||| annBits [.basin, .kWh, .imp, bandAnn k]
    | 3 => milliBits (v (rTolMd a (2 * k))) false ||| annBits [.md, if a = 0 then .kW else .kVA, bandAnn k]
    | 4 =>
      let p := signed 32 (v (rMtrTot 0))
      if a = 0 then milliBits p.natAbs (decide (p < 0)) ||| annBits [.kW] else milliBits (v (rMtrTot 2)) false ||| annBits [.kVA]
    | 5 =>
      let t := calLocal s.dev.keep.active s.seconds
      let (y, m, d) := civil (t / 86400)
      let n := ((((y % 100 * 100 + m) * 100 + d) * 100 + t / 3600 % 24) * 100 + t / 60 % 60) * 100 + t % 60
      numberBits n 12 false 7 ||| annBits [.clock, bandAnn s.dev.keep.band]
    | 6 => numberBits s.dev.keep.gapSeq 1 false 99 ||| annBits [.gap]
    | 7 => milliBits (v rMtrTamper) false ||| annBits [.tamper, .kWh]
    | 8 =>
      let trips := (List.range 256).filter fun i => s.bit (rFltTrip (i / 32)) (i % 32)
      let two (n at_ : Nat) : Nat := (List.range 3).foldl (fun acc i =>
        let x := n / 10 ^ (2 - i)
        acc ||| digitBits (at_ + i) (if x = 0 ∧ i < 2 then 0 else glyph (x % 10)) false) 0
      two trips.length 2 ||| two (trips.headD 0) 11 ||| annBits [.fault]
    | _ => 2 ^ 148 - 1
  body ||| (if kind = 9 then 0 else labelBits (lab % 100))

/-- Dashes in the label and value fields (R524). -/
def dashes : Nat := (List.range 14).foldl (fun acc d => acc ||| digitBits d dash false) 0

/-- The status annunciators; those of the main domain are lit only while it is powered (R524). -/
def State.statusBits (s : State) : Nat :=
  let k := s.dev.keep
  let phase (p : Nat) : Bool := match mget? s.dev.mtr.half p with
    | some ms => !s.belowThr ms (rMtrThr 2) 12
    | none => false
  let lit : List (Bool × Ann) :=
    [ (bitOf k.flags 0, .est), (bitOf k.flags 1, .iLost), (bitOf k.flags 2, .gap), (s.mainUp && s.bit rMtrTamperStatus 0, .tamper),
      (s.mainUp && s.faultN, .fault), (!s.rtcValid || s.bit rTbsKeeper 5, .rtcBad), (s.mainUp && s.bit rTolStatus 2, .jrn),
      (s.bit rLcdStatus 8, .hold), (s.mainUp && s.dev.mtr.high, .cf), (s.mainUp && phase 0, .l1), (s.mainUp && phase 1, .l2),
      (s.mainUp && phase 2, .l3) ]
  annBits ((lit.filter fun p => p.1).map fun p => p.2)

/-! ### Rotation and holds (R523 to R525) -/

/-- LCD_STATUS.ENTRY. -/
def State.entry (s : State) : Nat := s.fld rLcdStatus 4 4
/-- LCD_STATUS.HOLD. -/
def State.holding (s : State) : Bool := s.bit rLcdStatus 8

/-- The next entry after one, cyclically, that can be shown. -/
def State.nextPage (s : State) (e : Nat) : Option Nat := ((List.range 16).map fun i => (e + 1 + i) % 16).find? s.pageOpen

/-- The page is rendered: its sources are read. -/
def renderPage : Eff := .read fun s => onLcd fun l => { l with page := if s.pageOpen s.entry then s.pageBits s.entry else dashes }

/-- What a carry into SECONDS does to the rotation. -/
def lcdRotate : Eff := .read fun s =>
  let left := s.fld rLcdStatus 16 12
  Eff.all
    [ onLcd fun l => { l with shown := l.shown + 1 },
      Eff.when s.holding (.andThen (putFld rLcdStatus 16 12 (left - 1)) (Eff.when (decide (left ≤ 1)) (putBit rLcdStatus 8 false))),
      .read fun t => Eff.when (!t.pageOpen t.entry || (!t.holding && decide (t.fld rLcdCfg 16 6 ≤ t.dev.lcd.shown)))
        (match t.nextPage t.entry with
         | some e => Eff.all [putFld rLcdStatus 4 4 e, putBit rLcdStatus 8 false, putFld rLcdStatus 16 12 0, onLcd fun l => { l with shown := 0 }]
         | none => .skip),
      renderPage ]

/-- A write to LCD_HOLD (R525). -/
def effLcdHold (v : Nat) : Eff := .read fun s =>
  let idx := v % 16
  let secs := v / 16 % 4096
  if v / 65536 != 0xD15A then .skip
  else if secs = 0 then .andThen (putBit rLcdStatus 8 false) (putFld rLcdStatus 16 12 0)
  else if s.pageOpen idx && decide (secs ≤ 3600) then
    Eff.all
      [ putFld rLcdStatus 4 4 idx, putBit rLcdStatus 8 true, putFld rLcdStatus 16 12 secs, onLcd fun l => { l with shown := 0 } ]
  else .skip

/-! ### The controller's states (R517 to R519, R526, Table 15.8) -/

/-- LCD_CFG.VSRC is INTERNAL. -/
def State.lcdInternal (s : State) : Bool := s.bit rLcdCfg 1

/-- The conditions of R517 other than the level of VDD_AON and the keeper crystal. -/
def State.lcdWanted (s : State) : Bool := s.bit rLcdCfg 0 && !s.bit rLcdCtrl 0 && s.dev.keep.tollMaster

/-- The segment data driven in the frame. -/
def putSegments (n : Nat) : Eff := Eff.each (List.range 5) fun w => putReg (rLcdSegRam w) (bitsOf n (32 * w) 32)

/-- The controller goes DARK. -/
def lcdDark : Eff := Eff.all
  [ putFld rLcdStatus 0 3 0, putSegments 0,
    onLcd fun l => { l with blanks := 0, lit := false, rail := false } ]

/-- The controller begins to raise its rail. -/
def lcdRise : Eff := .read fun s => .andThen (putFld rLcdStatus 0 3 1) (onLcd fun l => { l with since := s.now })

/-- The state follows the conditions of R517. -/
def lcdEval : Eff := .read fun s =>
  if s.lcdState = 0 then
    Eff.when (s.lcdWanted && !s.bit rLcdStatus 9 && s.kxtal == 1 && !s.dev.lcd.retry) lcdRise
  else Eff.when (!s.lcdWanted) lcdDark

/-- The waveform is driven (Table 15.2). -/
def State.lcdDriven (s : State) : Bool := s.lcdState == 2 || s.lcdState == 3
/-- The level of LCD_COM_c in a slot and half-slot of the frame, in thirds of VLCD; 0 V in the other states. -/
def State.comPin (s : State) (slot c : Nat) (second : Bool) : Nat := if s.lcdDriven then comLevel slot c second else 0
/-- The level of LCD_SEG_l in a slot and half-slot of the frame. -/
def State.segPin (s : State) (slot l : Nat) (second : Bool) : Nat :=
  if s.lcdDriven then segLevel (s.bit (rLcdSegRam (l / 8)) (4 * (l % 8) + slot)) second else 0
/-- LCD_BL_EN in a KPR cycle of its period of 128 (R518). -/
def State.backlight (s : State) (cycle : Nat) : Bool := s.dev.lcd.lit && decide (cycle % 128 < s.fld rLcdCfg 8 8)

/-- VLCD's target in mV in INTERNAL mode, held at what the pump can give (R514, R515), and whether it is held. -/
def State.lcdTarget (s : State) (aon : Nat) : Nat × Bool :=
  let want := 2700 + 75 * s.fld rLcdCfg 3 5
  let top := (2 + s.fld rLcdCfg 2 1) * aon - 100
  (min want top, decide (top < want))

/-- LCD_RAIL_SETTLED: VLCD, in mV, with VDD_AON. -/
def effLcdRailSettled (vlcd aon : Nat) : Eff := .read fun s =>
  let (t, held) := s.lcdTarget aon
  let near := if s.lcdInternal then decide (20 * vlcd ≤ 21 * t ∧ 19 * t ≤ 20 * vlcd) else decide (2700 ≤ vlcd ∧ vlcd ≤ 5000)
  Eff.when (s.lcdState == 1 && !s.dev.lcd.rail && near)
    (.andThen (putBit rLcdStatus 3 (s.lcdInternal && held)) (onLcd fun l => { l with rail := true }))

/-- The rail has been rising for 20 ms (R526), 16,000,000 ticks. While the timebase does not run, or has been restarted since, the keeper's own
clock bounds it, and the command tells (log entry 67). -/
def State.railOverdue (s : State) : Bool :=
  !s.dev.clk.started || decide (s.now < s.dev.lcd.since ∨ s.dev.lcd.since + 16000000 ≤ s.now)

/-- A rail event counts while the main domain, in which the collector stands, is powered (log entry 97). -/
def railEvent : Eff := .read fun s => Eff.when s.mainUp (countAt 0x65 0)

/-- LCD_RAIL_TIMEOUT (R526). -/
def effLcdRailTimeout : Eff := .read fun s =>
  Eff.when (s.lcdState == 1 && !s.dev.lcd.rail && s.railOverdue) (Eff.all [lcdDark, onLcd fun l => { l with retry := true }, railEvent])

/-- VLCD_OUT_OF_RANGE (R526). -/
def effVlcdOutOfRange : Eff := .read fun s =>
  Eff.when (s.lcdState == 3 && !s.lcdInternal) (.andThen lcdDark railEvent)

/-- Content is shown from this frame on. -/
def showContent : Eff := .read fun s => Eff.all
  [ putFld rLcdStatus 0 3 3, putSegments (s.dev.lcd.page ||| s.statusBits), onLcd fun l => { l with blanks := 0, lit := true } ]

/-- LCD_FRAME: a frame starts (R513, R518, R421). -/
def effLcdFrame : Eff := .read fun s =>
  let blank (n : Nat) : Eff := Eff.all [putFld rLcdStatus 0 3 2, putSegments 0, onLcd fun l => { l with blanks := n, lit := false }]
  if !s.dev.keep.powered then .skip
  else match s.lcdState with
    | 1 => Eff.when s.dev.lcd.rail (blank 2)
    | 2 => if s.dev.lcd.blanks ≤ 1 then showContent else onLcd fun l => { l with blanks := l.blanks - 1 }
    | 3 => showContent
    | 4 => Eff.when (s.kxtal == 1) (if s.dev.lcd.rail then blank 1 else lcdRise)
    | _ => .skip

/-- AON_LOW: VDD_AON below 1.65 V (R519). -/
def effAonLow : Eff := .read fun s =>
  Eff.when s.dev.keep.powered (.andThen (putBit rLcdStatus 9 true) (Eff.when (s.lcdState != 0) lcdDark))

/-- AON_RISE: VDD_AON at or above 1.70 V (R517). -/
def effAonRise : Eff := .read fun s => Eff.when s.dev.keep.powered (.andThen (putBit rLcdStatus 9 false) lcdEval)

/-- A write to LCD_CTRL. -/
def effLcdCtrl (v : Nat) : Eff := .andThen (putReg rLcdCtrl (v % 2)) lcdEval

/-- A carry into SECONDS: a rail failure's retry, the rotation, and the conditions. -/
def lcdSecond (secs : Nat) : Eff := Eff.all
  [ Eff.when (secs % 10 == 0) (onLcd fun l => { l with retry := false }), lcdRotate, lcdEval ]

/-- KXTAL_GOOD (R409, R421): 4,096 cycles of KXTAL with no missing edge end, with the KRO cycles counted across them; a count outside 3,686 to
4,506 leaves KXTAL as it is, and judging goes on. -/
def effKxtalGood (kro : Nat) : Eff := .read fun s =>
  Eff.when (s.dev.keep.powered && (s.kxtal == 0 || s.kxtal == 3) && decide (3686 ≤ kro ∧ kro ≤ 4506)) (.andThen (putFld rTbsKeeper 2 2 1) lcdEval)

/-! ### The commands -/

/-- LCD_FRAME. -/
def execLcdFrame (s : State) : Host.Outcome State Fault Refusal := effLcdFrame.done s
/-- LCD_RAIL_SETTLED. -/
def execLcdRailSettled (vlcd aon : Nat) (s : State) : Host.Outcome State Fault Refusal := (effLcdRailSettled vlcd aon).done s
/-- LCD_RAIL_TIMEOUT. -/
def execLcdRailTimeout (s : State) : Host.Outcome State Fault Refusal := effLcdRailTimeout.done s
/-- VLCD_OUT_OF_RANGE. -/
def execVlcdOutOfRange (s : State) : Host.Outcome State Fault Refusal := effVlcdOutOfRange.done s
/-- AON_LOW. -/
def execAonLow (s : State) : Host.Outcome State Fault Refusal := effAonLow.done s
/-- AON_RISE. -/
def execAonRise (s : State) : Host.Outcome State Fault Refusal := effAonRise.done s
/-- LCD_CTRL_BLANK, as a write to the register. -/
def execLcdCtrlBlank (rd v : Nat) (s : State) : Host.Outcome State Fault Refusal := (writeReg rd rLcdCtrl (effLcdCtrl v)).done s
/-- LCD_HOLD, as a write to the register. -/
def execLcdHold (rd v : Nat) (s : State) : Host.Outcome State Fault Refusal := (writeReg rd rLcdHold (effLcdHold v)).done s
/-- KXTAL_GOOD. -/
def execKxtalGood (kro : Nat) (s : State) : Host.Outcome State Fault Refusal := (effKxtalGood kro).done s

end Sys2Proof.Machine
end

