-- ==== Sys2Proof/Machine/KeeperIsland.lean ====
section
/-!
DEFINITION. The keeper island (chapters 12 to 14, 18): keeper power-on, the real-time clock and its carries, time sets, the battery test, and the
keeper's current-only mode.
-/
namespace Sys2Proof.Machine

/-! ### Keeper power-on (R430, Table 16.3) -/

/-- The register resets at some of the resets named. -/
def resetsAt (ks : List ResetKind) (off : Nat) : Bool :=
  match locate off with
  | some l => ks.contains l.row.kind
  | none => false

/-- KEEPER_POWER_ON: the keeper island is reset; the supplies are as they are found. TRIM_EFF is the fused trim, held at −127 (R432). -/
def effKeeperPowerOn (onVbat aonOk aonHigh : Bool) : Eff := Eff.all
  [ .act (.resetRegs (resetsAt [.k])), onKeep fun _ => { powered := true }, onLcd fun _ => {},
    putBit rTbsKeeper 0 onVbat, putBit rTbsKeeper 1 aonOk, putBit rLcdStatus 9 (!aonHigh),
    putReg rTbsRtcTrim (Config.rtcTrim % 256 + (if Config.rtcTrim % 256 = 128 then 129 else Config.rtcTrim % 256) * 65536) ]

/-! ### Carries into SECONDS -/

/-- The capture of TBS_CORR (R435). -/
def captureCorr : Eff := .read fun s => Eff.when (s.mainUp && s.dev.clk.started) (Eff.all
  [ putReg rTbsCorrTb s.now, putReg rTbsCorrRtc s.rtc, putReg rTbsCorrSeq ((s.fld rTbsCorrSeq 0 32 + 1) % 2 ^ 32) ])

/-- The toll block's work at a carry: the minute boundary, to whose interval a window that has ended belongs (Table 14.11), the periodic record (R500), and the hour of the modulator-fault counts. -/
def tollSecond (secs : Nat) : Eff := .read fun s => Eff.when (s.mainUp && s.dev.tol.started) (Eff.all
  [ Eff.when (secs % 60 == 0) (.andThen measureDue (tolOp (.minute secs))), onTol fun t => { t with carries := t.carries + 1 },
    .read fun t => Eff.when (t.dev.tol.carries % 900 == 0) (journalTolls 0),
    Eff.when (secs % 3600 == 0) (Eff.each (List.range 7) fun c => putFld (rMtrCh c 0) 8 8 0) ])

/-- The battery test begins (R596): its enable and hour are those of the last image applied. -/
def startBattery (secs : Nat) : Eff := .read fun s =>
  Eff.when (s.rtcValid && bitOf s.dev.keep.stp 15 && secs % 86400 == bitsOf s.dev.keep.stp 16 5 * 3600 && !s.testing)
    (.andThen (onKeep fun k => { k with test := true }) (Eff.when s.mainUp (putBit rStpStatus 3 true)))

/-- The keeper's current-only mode (R480). -/
def State.currentOnly (s : State) : Bool :=
  let k := s.dev.keep
  k.powered && k.tollMaster && getLe k.mtrSec 80 1 == 1 && !s.mainUp

/-- SECONDS_CARRY; `kxtalRuns` tells that edges of a lost KXTAL have resumed, so that it is judged again. FRACTION goes on from 0 with what
the KPR cycles have counted past the carry. -/
def effSecondsCarry (kxtalRuns : Bool) : Eff := .read fun s =>
  let secs := (s.seconds + 1) % 2 ^ 49
  Eff.when s.dev.keep.powered (Eff.all
    [ putReg rTbsRtc (secs * 32768 + min 32767 (s.dev.keep.owed - 1)), onKeep fun k => { k with owed := 0 }, Eff.when (s.kxtal == 2 && kxtalRuns) (putFld rTbsKeeper 2 2 3), captureCorr, tollSecond secs,
      startBattery secs, Eff.when s.currentOnly (onKeep fun k => { k with burst := true }), lcdSecond secs ])

/-! ### Time sets (R433, R497, R507) -/

/-- Gaps that waited for a time set are completed (R507). -/
def closeOpenGaps (v : Nat) : Eff := .read fun s =>
  .andThen (onKeep fun k => { k with openGaps := [] })
    (Eff.each s.dev.keep.openGaps fun slot => finishGap slot (v - s.now * 32768 / 800000000) true)

/-- A committed write to TBS_RTC_SET. -/
def effRtcSet (v : Nat) : Eff := .read fun s =>
  let old := s.rtc
  let load : Eff := Eff.all [putReg rTbsRtc (v % 2 ^ 64), onKeep fun k => { k with owed := 0 }, putBit rTbsKeeper 4 true]
  Eff.when s.dev.keep.powered
    (if s.isToll && s.dev.tol.started then Eff.all
      [ measureDue, tolOp .close, spoilSub, load, onKeep fun k => { k with timeSets := k.timeSets + 1 },
        writeRecord { typ := 7, body := leBytes 8 old ++ leBytes 8 v }, closeOpenGaps v ]
     else load)

/-! ### The battery test (R596, R597) -/

/-- BATTERY_TEST_END: VBAT under load in mV, and whether it fell below 2.2 V and ended the test. -/
def effBatteryTestEnd (mv : Nat) (early : Bool) : Eff := .read fun s =>
  let fail := early || decide (mv < 2400)
  Eff.when s.testing (Eff.all
    [ putReg rStpBatt (min mv 4095 + 4096 * b2n (!fail) + 8192 * b2n early + 16384), putReg rStpBattRtc s.rtc,
      Eff.when fail (if s.mainUp then countAt 0x48 0 else onKeep fun k => { k with battFail := true }), applyHeld ])

/-! ### Tamper bursts (R480 to R483) -/

/-- The mean square of a burst's current, in mA²: 160 samples of its decimator (R444, R449). -/
def burstSquare (ifs : Nat) (xs : List Int) : Rat := meanSquare (xs.map fun x => ratOf (x * ifs) / ratOf (2 ^ 23 : Nat))

/-- The TAMPER entry closes with its duration and energy. -/
def closeTamper : Eff := .read fun s =>
  match s.dev.keep.tamperOpen with
  | some (slot, e0) => Eff.all
    [ putFld (rMtrEvt slot 0) 32 32 ((s.rtc - (s.reg (rMtrEvt slot 2)).toNat) * 1000 / 32768),
      putFld (rMtrEvt slot 3) 0 32 ((s.reg rMtrTamper).toNat - e0), putBit (rMtrEvt slot 0) 8 false, putBit rMtrTamperStatus 0 false,
      onKeep fun k => { k with tamperOpen := none } ]
  | none => .skip

/-- The TAMPER entry opens. -/
def openTamper : Eff := .read fun s =>
  logEvent 9 1 0 0 0 s.rtc 0 fun n => .andThen (putBit rMtrTamperStatus 0 true)
    (onKeep fun k => { k with tamperOpen := some (n % 64, (s.reg rMtrTamper).toNat) })

/-- The tamper register rises by the energy of one second (R482, R483). -/
def tamperEnergy (ms : Rat) : Eff := .read fun s =>
  let e := ((ratSqrt ms).scale (mkRat (getLe s.dev.keep.mtrSec 32 4 * 2 ^ 32) 3600000)).floor.toNat + s.dev.keep.tamperRes
  .andThen (bumpReg rMtrTamper 64 (e / 2 ^ 32)) (onKeep fun k => { k with tamperRes := e % 2 ^ 32 })

/-- TAMPER_BURST_END: the burst's samples. -/
def effTamperBurstEnd (xs : List Int) : Eff := .read fun s =>
  let k := s.dev.keep
  let ms := burstSquare (getLe k.mtrSec 84 4) (xs.take 160)
  let limit := mkRat (getLe k.mtrSec 82 2) 10
  let tooHigh := decide (limit * limit ≤ ms)
  let active := s.bit rMtrTamperStatus 0
  let run := if tooHigh == active then 0 else k.tamperRun + 1
  Eff.when (k.burst && s.currentOnly) (Eff.all
    [ putFld rMtrTamperStatus 8 24 ((ratSqrt ms).scale 10).round.toNat, onKeep fun k => { k with burst := false, tamperRun := run % 2 },
      Eff.when (run == 2) (if tooHigh then openTamper else closeTamper),
      .read fun t => Eff.when (t.bit rMtrTamperStatus 0) (tamperEnergy ms) ])

/-- The mode ends when the main domain starts: a burst in progress is abandoned, and an entry closes. -/
def endCurrentOnly : Eff := .andThen closeTamper (onKeep fun k => { k with burst := false, tamperRun := 0 })

/-! ### The commands -/

/-- KEEPER_POWER_ON. -/
def execKeeperPowerOn (onVbat aonOk aonHigh : Bool) (s : State) : Host.Outcome State Fault Refusal :=
  (effKeeperPowerOn onVbat aonOk aonHigh).done s
/-- SECONDS_CARRY. -/
def execSecondsCarry (kxtalRuns : Bool) (s : State) : Host.Outcome State Fault Refusal := (effSecondsCarry kxtalRuns).done s
/-- TBS_RTC_SET, as a committed write to the register. -/
def execTbsRtcSet (rd v : Nat) (s : State) : Host.Outcome State Fault Refusal := (writeReg rd rTbsRtcSet (effRtcSet v)).done s
/-- BATTERY_TEST_END. -/
def execBatteryTestEnd (mv : Nat) (early : Bool) (s : State) : Host.Outcome State Fault Refusal := (effBatteryTestEnd mv early).done s
/-- TAMPER_BURST_END. -/
def execTamperBurstEnd (xs : List Int) (s : State) : Host.Outcome State Fault Refusal := (effTamperBurstEnd xs).done s

end Sys2Proof.Machine
end

