-- ==== Sys2Proof/Machine/ImageFormat.lean ====
section
/-!
DEFINITION. The Uarad image (R536 to R550): header, sections, field ranges, cross-section rules, and the verification of a copy.
-/
namespace Sys2Proof.Machine

/-! ### Header (Table 16.7) -/

/-- "UARADIMG". -/
def imgMagic : List Byte := [0x55#8, 0x41#8, 0x52#8, 0x41#8, 0x44#8, 0x49#8, 0x4D#8, 0x47#8]

/-- The region of a copy (0 A, 1 B): its first byte and its length (R537). -/
def Flash.region (f : Flash) (c : Nat) : Nat × Nat :=
  let first := c * 0x1000000
  (first, min (first + 0x1000000) f.base - first)

/-- The header's MAGIC is correct. -/
def magicOk (h : List Byte) : Bool := h.take 8 == imgMagic

/-- A header is plausible (R538). -/
def plausible (h : List Byte) (room : Nat) : Bool :=
  magicOk h && getLe h 8 2 == 0x0100 && getLe h 10 2 == 64 && getLe h 12 4 % 8 == 0 && decide (getLe h 12 4 ≤ room)

/-- TOTAL_LEN. -/
def imgLen (h : List Byte) : Nat := getLe h 12 4
/-- SEQUENCE. -/
def imgSeq (h : List Byte) : Nat := getLe h 16 8
/-- SVN. -/
def imgSvn (h : List Byte) : Nat := getLe h 24 1

/-! ### Sections (R540, Table 16.8) -/

/-- A section: TYPE, INDEX, the offset of its header, and its value. -/
structure Sect where
  typ : Nat
  idx : Nat
  head : Nat
  val : List Byte
deriving DecidableEq, Repr

/-- Bytes of a section's value as a number. -/
def Sect.get (s : Sect) (i n : Nat) : Nat := getLe s.val i n
/-- A signed number of a section's value. -/
def Sect.sget (s : Sect) (i n : Nat) : Int := signed (8 * n) (getLe s.val i n)
/-- Bytes of the value are zero. -/
def Sect.zero (s : Sect) (i n : Nat) : Bool := allZero ((s.val.drop i).take n)

/-- TYPE is of Table 16.8. -/
def knownType (t : Nat) : Bool := decide (1 ≤ t ∧ t ≤ 0x12) || t == 0xFFFF

/-- INDEX is one that the TYPE allows. -/
def indexOk (t i : Nat) : Bool :=
  if t = 9 ∨ t = 0x0D ∨ t = 0x0F then decide (i < 16) else if t = 0x0A then decide (i < 256) else i == 0

/-- The number of ones in a number's low byte. -/
def popByte (n : Nat) : Nat := ((List.range 8).map fun i => b2n (bitOf n i)).sum

/-- The tables with PRELOAD of a CODEC section. -/
def Sect.preloads (s : Sect) : List Nat := (List.range 256).filter fun t => bitOf (s.get t 1) 5

/-- The section's LENGTH is exact. -/
def lengthOk (s : Sect) : Bool :=
  let n := s.val.length
  match s.typ with
  | 1 | 3 | 7 | 8 | 0x0A | 0x0D | 0x0E => n == 8
  | 2 => decide (8 ≤ n ∧ n ≤ 4194312)
  | 4 => n == 192
  | 5 => n == 24
  | 6 => n == 1040
  | 9 => decide (32 ≤ n) && n == 32 + 16 * (s.get 3 1 + s.get 4 1)
  | 0x0B => decide (256 ≤ n) && n == 256 + 256 * s.preloads.length
  | 0x0C => n == 8208
  | 0x0F => decide (8 ≤ n) && n == 8 + 16 * popByte (s.get 1 1)
  | 0x10 => n == 536
  | 0x11 => n == 48 || (decide (58 ≤ n) && n == 48 + s.get 56 2)
  | 0x12 => n == 68
  | _ => n == 96

/-- A failed check: TYPE, INDEX and the offset of the section involved, where there is one. -/
abbrev Fail := Option (Nat × Nat × Nat)

/-- The sections from an offset on, each after (TYPE, INDEX) `prev`; or the one that breaks the structure. -/
def parseFrom (b : List Byte) (total : Nat) : Nat → Nat → Nat → Except Fail (List Sect)
  | 0, p, _ => .error (some (0, 0, p))
  | fuel + 1, p, prev =>
    if total < p + 8 then .error (some (0, 0, p))
    else
      let t := getLe b p 2
      let i := getLe b (p + 2) 2
      let n := getLe b (p + 4) 4
      let pad := (n + 7) / 8 * 8
      let s : Sect := { typ := t, idx := i, head := p, val := (b.drop (p + 8)).take n }
      if !knownType t || !indexOk t i || decide (65536 * t + i < prev) || decide (total < p + 8 + pad) || !lengthOk s
          || !allZero ((b.drop (p + 8 + n)).take (pad - n)) then .error (some (t, i, p))
      else if t = 0xFFFF then (if p + 8 + n = total then .ok [s] else .error (some (t, i, p)))
      else match parseFrom b total fuel (p + 8 + pad) (65536 * t + i + 1) with
        | .ok rest => .ok (s :: rest)
        | .error e => .error e

/-- The sections of a copy. -/
def parseImage (b : List Byte) : Except Fail (List Sect) := parseFrom b (imgLen b) (imgLen b / 8 + 1) 64 0

/-- The section of a TYPE and INDEX. -/
def sectAt (ss : List Sect) (t i : Nat) : Option Sect := ss.find? fun s => s.typ == t && s.idx == i
/-- The sections of a TYPE. -/
def sectsOf (ss : List Sect) (t : Nat) : List Sect := ss.filter fun s => s.typ == t

/-! ### Field ranges (Table 16.9 and the tables it names) -/

/-- A number lies in a range. -/
def within (lo hi x : Nat) : Bool := decide (lo ≤ x ∧ x ≤ hi)
/-- An integer lies within a magnitude. -/
def small (m : Nat) (z : Int) : Bool := decide (z.natAbs ≤ m)

/-- The reactions allowed for a source (R580, R587). -/
def reactionsOk (src rx : Nat) : Bool :=
  decide (rx < 64) && (!srcReserved src || rx == 0) && (!bitOf rx 2 || (srcBlock src).isSome)
    && (!bitOf rx 5 || (decide (0x70 ≤ src) && decide (1 ≤ src % 16)))
    && (!bitOf rx 3 || !(src == 0x14 || src == 0x22 || src == 0x44 || src == 0x45 || src == 0x46))

/-- The temperature points of a channel in the MTR section: those marked VALID, in ascending T_k. -/
def Sect.pointsOk (s : Sect) (c : Nat) : Bool :=
  let pt (k : Nat) : Nat := s.get (88 + 64 * c + 8 * k) 8
  let ts := ((List.range 8).filter fun k => bitOf (pt k) 16).map fun k => signed 16 (pt k)
  ((List.range 8).all fun k => bitsOf (pt k) 17 7 == 0) && (ts.zip (ts.drop 1)).all fun p => decide (p.1 < p.2)

/-- The fields of a section lie in their ranges. -/
def fieldsOk (s : Sect) : Bool :=
  let g := s.get
  match s.typ with
  | 1 => decide (g 0 2 < 4096) && decide (g 2 1 < 8) && g 3 1 == 0 && decide (g 4 2 < 4096) && decide (g 6 2 < 4096)
  | 2 => g 4 4 == 0
  | 3 => decide (2 ≤ g 0 4 % 1024) && decide (2 ≤ g 0 4 / 1024 % 1024) && decide (1 ≤ g 0 4 / 2 ^ 20) && g 4 1 != 0 && s.zero 5 3
  | 4 =>
    decide (-2048 ≤ s.sget 0 2 ∧ s.sget 0 2 ≤ 2047) && small 127 (s.sget 2 1) && g 3 1 == 0
      && ((List.range 96).all fun t => small 4 (s.sget (4 + t) 1))
      && ((List.range 7).all fun c =>
        within (2 ^ 29) (2 ^ 31) (g (100 + 12 * c) 4) && small (2 ^ 20) (s.sget (104 + 12 * c) 4) && small 65535 (s.sget (108 + 12 * c) 4))
      && small 160 (s.sget 184 2) && small 160 (s.sget 186 2) && s.zero 188 4
  | 5 => decide (g 20 1 ≤ 1) && s.zero 21 3
  | 6 =>
    ((List.range 256).all fun i =>
      within 1 255 (g (4 * i) 1) && within 10 40 (g (4 * i + 1) 1) && decide (g (4 * i + 2) 1 < 64) && g (4 * i + 3) 1 == 0
        && (!srcReserved i || g (4 * i + 2) 1 == 0))
      && (List.range 16).all fun i => decide (g (1024 + i) 1 ≤ 1)
  | 7 => within 10 1440 (g 0 2) && decide (g 2 1 < 16) && decide (g 3 1 ≤ 23) && s.zero 4 4
  | 8 => decide (g 0 2 ≤ 256) && within 1 168 (g 2 1) && s.zero 3 5
  | 9 =>
    decide (g 0 1 ≤ 1) && decide (1 ≤ g 1 1) && decide (g 2 1 ≤ 1) && decide (g 3 1 ≤ 32) && decide (g 4 1 ≤ 8) && s.zero 5 3
      && decide (g 8 2 < 4096) && decide (g 8 2 + g 10 2 ≤ 4096) && decide (g 12 4 < 65536) && decide (g 12 4 + g 16 4 ≤ 65536)
      && decide (g 20 2 < 1024) && decide (g 20 2 + g 22 2 ≤ 1024) && s.zero 24 8
      && ((List.range (g 3 1)).all fun w => decide (g (38 + 16 * w) 1 < 8) && g (39 + 16 * w) 1 == 0 && s.zero (46 + 16 * w) 2)
      && (List.range (g 4 1)).all fun k =>
        let o := 32 + 16 * (g 3 1 + k)
        decide (g o 1 < 8) && s.zero (o + 1) 3
  | 0x0A =>
    decide (g 0 1 < 16) && decide (g 1 1 ≤ 3) && decide (g 2 1 ≤ 3) && within 4 12 (g 3 1) && decide (g 4 1 < 64) && s.zero 5 3
  | 0x0B => (List.range 256).all fun t => decide (g t 1 < 64)
  | 0x0C =>
    within 1 15 (g 4 1) && within 1 15 (g 5 1) && within 1 15 (g 6 1) && within 19 24 (g 7 1)
      && ((List.range 3).all fun i => decide (g (8 + i) 1 < 16) || g (8 + i) 1 == 0xFF) && g 11 1 == 0 && within 24 34 (g 12 1)
      && s.zero 13 3 && (List.range 4096).all fun d => decide (g (16 + 2 * d) 2 < 2 ^ 15)
  | 0x0D => decide (g 0 1 ≤ 1) && decide (g 1 1 < 16) && decide (g 2 2 < 4096) && (List.range 4).all fun l => decide (g (4 + l) 1 < 16)
  | 0x0E => within 1 5 (g 0 1) && within 24 32 (g 1 1) && s.zero 2 6
  | 0x0F => decide (g 0 1 < 16) && s.zero 2 6 && (List.range (popByte (g 1 1))).all fun i => within 64 (2 ^ 32) (g (16 + 16 * i) 8)
  | 0x10 =>
    decide (g 0 1 ≤ 1) && decide (g 1 1 ≤ 1) && decide (g 2 1 ≤ 1) && decide (g 3 1 < 128)
      && ((List.range 8).all fun c => decide (1 ≤ g (4 + 4 * c) 4)) && decide (g 38 1 < 7) && within 1 100 (g 39 1) && within 1 1000000 (g 40 4)
      && ((List.range 2).all fun n =>
        within 1 1000000 (g (44 + 8 * n) 4) && decide (g (48 + 8 * n) 1 < 7) && decide (g (49 + 8 * n) 1 ≤ 1) && s.zero (50 + 8 * n) 2)
      && within 1 1440 (g 60 2) && within 1 10000 (g 62 2) && decide (1 ≤ g 64 4)
      && ((List.range 6).all fun i => decide (g (68 + 2 * i) 2 < 4096)) && decide (g 80 1 ≤ 1) && decide (g 81 1 ≤ 3)
      && (g 80 1 == 0 || decide (1 ≤ g 84 4)) && (List.range 7).all s.pointsOk
  | 0x11 =>
    ((List.range 8).all fun i => decide (g (2 * i) 2 < 4096)) && decide (1 ≤ g 44 1) && within 1 15 (g 45 1) && decide (g 46 1 ≤ 1)
      && g 47 1 == 0
  | 0x12 =>
    decide (g 0 4 < 2 ^ 22) && bitsOf (g 0 4) 3 5 ≤ 30 && bitsOf (g 0 4) 8 8 ≤ 128 && within 1 60 (bitsOf (g 0 4) 16 6)
      && (List.range 16).all fun e =>
        let a := g (5 + 4 * e) 1
        decide (g (4 + 4 * e) 1 ≤ 9) && decide (g (6 + 4 * e) 1 ≤ 8) && decide (g (7 + 4 * e) 1 ≤ 99)
          && (match g (4 + 4 * e) 1 with
            | 1 => decide (a ≤ 6)
            | 2 => decide (a ≤ 15)
            | 3 | 4 => decide (a ≤ 1)
            | _ => true)
  | _ => true

/-! ### Cross-section rules (Table 16.11) -/

/-- A window of a BASIN section: basin, first byte, last byte, rights. -/
structure ImgWin where
  basin : Nat
  first : Nat
  last : Nat
  rights : Nat
deriving DecidableEq, Repr

/-- The windows of a BASIN section. -/
def Sect.windows (s : Sect) : List ImgWin := (List.range (s.get 3 1)).map fun w =>
  { basin := s.idx, first := s.get (32 + 16 * w) 6, last := s.get (40 + 16 * w) 6 + 4095, rights := s.get (38 + 16 * w) 1 }

/-- Two windows share a byte. -/
def ImgWin.meets (v w : ImgWin) : Bool := decide (v.first ≤ w.last ∧ w.first ≤ v.last)

/-- R139 and R142: a window's alignment and place. -/
def ImgWin.placeOk (w : ImgWin) (spares : Nat) : Bool :=
  w.first % 4096 == 0 && w.last % 4096 == 4095 && decide (w.first ≤ w.last)
    && (decide (w.last < hbmSize - 4096 * spares) || decide (2 ^ 47 ≤ w.first ∧ w.last < 2 ^ 48))

/-- R140 and R141 for two different windows. -/
def pairOk (v w : ImgWin) : Bool :=
  !v.meets w || (v.basin != w.basin && (!bitOf v.rights 1 || v.basin == 0) && (!bitOf w.rights 1 || w.basin == 0))

/-- All pairs of a list. -/
def allPairs {α : Type} (p : α → α → Bool) : List α → Bool
  | [] => true
  | x :: xs => xs.all (p x) && allPairs p xs

/-- Two ranges given by first number and count do not overlap. -/
def apart (a b : Nat × Nat) : Bool := decide (a.1 + a.2 ≤ b.1 ∨ b.1 + b.2 ≤ a.1 ∨ a.2 = 0 ∨ b.2 = 0)

/-- The drives of a mask, ascending. -/
def maskDrives (m : Nat) : List Nat := (List.range 8).filter (bitOf m)

/-- The archive areas of a WHF_SET section: drive, first LBA, LBAs. -/
def Sect.areas (s : Sect) : List (Nat × Nat × Nat) :=
  let ds := maskDrives (s.get 1 1)
  (ds.zip (List.range ds.length)).map fun p => (p.1, s.get (8 + 16 * p.2) 8, s.get (16 + 16 * p.2) 8)

/-- R94. -/
def paceOk (vmin vmax target floor ceil hyst throttle plim : Nat) : Bool :=
  decide (550 ≤ vmin ∧ vmin < vmax ∧ vmax ≤ 850) && vmin % 5 == 0 && vmax % 5 == 0 && decide (65536 ≤ floor ∧ floor + hyst ≤ target)
    && decide (target + hyst ≤ ceil ∧ ceil ≤ 131072) && within 256 4096 hyst && within 60 105 throttle && decide (plim ≤ 165)

/-- What a section breaks of the cross-section rules. -/
def crossOk (ss : List Sect) (s : Sect) : Bool :=
  let role := (sectAt ss 1 0).getD s
  let on (b : Nat) : Bool := (sectAt ss 9 b).any fun t => t.get 0 1 == 1
  let port (p : Nat) : Bool := (sectAt ss 0x0D p).any fun t => t.get 0 1 == 1
  let before := ss.takeWhile fun t => t != s
  match s.typ with
  | 5 => paceOk (s.get 0 2) (s.get 2 2) (s.get 4 4) (s.get 8 4) (s.get 12 4) (s.get 16 2) (s.get 18 1) (s.get 19 1)
  | 6 => (List.range 256).all fun i => reactionsOk i (s.get (4 * i + 2) 1)
  | 9 =>
    let spares := ((sectAt ss 8 0).map fun t => t.get 0 2).getD 0
    let earlier := before.filter fun t => t.typ == 9
    (s.idx != 0 || s.get 0 1 == 1) && s.windows.all (fun w => w.placeOk spares) && allPairs pairOk s.windows
      && (earlier.all fun t => t.windows.all fun v => s.windows.all (pairOk v))
      && s.get 12 4 % 8 == 0 && s.get 16 4 % 8 == 0
      && earlier.all fun t => apart (t.get 8 2, t.get 10 2) (s.get 8 2, s.get 10 2) && apart (t.get 12 4, t.get 16 4) (s.get 12 4, s.get 16 4)
        && apart (t.get 20 2, t.get 22 2) (s.get 20 2, s.get 22 2)
  | 0x0A => on (s.get 0 1)
  | 0x0B =>
    ((List.range 256).all fun t => !bitOf (s.get t 1) 4 || on (s.get t 1 % 16))
      && (List.range s.preloads.length).all fun i => lensValid (((s.val.drop (256 + 256 * i)).take 256).map fun b => b.toNat)
  | 0x0C =>
    let route (d : Nat) : Nat := s.get (16 + 2 * d) 2
    let named (d : Nat) : List Nat := ((List.range 3).filter fun k => bitOf (route d) (12 + k)).map fun k => bitsOf (route d) (4 * k) 4
    let ps := ((List.range 3).map fun i => s.get (8 + i) 1).filter fun p => p != 0xFF
    (named (role.get 0 2)).isEmpty && ((List.range 4096).all fun d => (named d).all port) && ps.all port
      && (ps.isEmpty || role.get 4 2 != role.get 0 2)
  | 0x0D => s.get 2 2 != role.get 0 2
  | 0x0F => on (s.get 0 1) && (before.filter fun t => t.typ == 0x0F).all fun t => t.areas.all fun a => s.areas.all fun c =>
      a.1 != c.1 || apart a.2 c.2
  | 0x10 =>
    decide (s.get 68 2 < s.get 70 2) && decide (s.get 74 2 < s.get 72 2) && decide (s.get 76 2 < s.get 78 2) && decide (s.get 78 2 ≤ s.get 68 2)
  | 0x11 =>
    let cs := (List.range 8).map fun i => s.get (2 * i) 2
    let c := s.val.drop 48
    allPairs (fun a b => a != b) cs && cs.contains (role.get 0 2) && 60 % s.get 44 1 == 0 && decide (s.get 44 1 * s.get 45 1 ≤ 60)
      && (c.isEmpty || (calFormatOk c && calCrcOk c))
  | _ => true

/-! ### Verification (R545, Table 16.10) -/

/-- What the verification of a copy finds: its cause, and for some causes the section involved. -/
structure Verdict where
  cause : Nat
  fail : Fail := none
deriving DecidableEq, Repr

/-- The section types every copy needs, and those a toll master's copy needs. -/
def missingType (ss : List Sect) : Option Nat :=
  let need := [1, 2, 3, 5, 6, 8, 9, 0x0C, 0xFFFF]
  let toll := (sectAt ss 1 0).any fun r => r.get 0 2 == r.get 6 2
  (if toll then [1, 2, 3, 5, 6, 8, 9, 0x0C, 0x10, 0x11, 0x12, 0xFFFF] else need).find? fun t => (sectAt ss t 0).isNone

/-- The header's bytes that Table 16.7 fixes at zero, and its SVN. -/
def headerOk (b : List Byte) : Bool := decide (imgSvn b ≤ 64) && allZero ((b.drop 25).take 7) && allZero ((b.drop 52).take 12)

/-- A whole copy is verified, for a chip with a SERIAL, OWNER_HASH and SVN_MIN. -/
def verifyImage (b : List Byte) (serial : Nat) (owner : List Byte) (svnMin : Nat) : Verdict :=
  let owned := owner.any fun x => x != 0#8
  if !magicOk b then { cause := 1 }
  else if !headerOk b then { cause := 2 }
  else match parseImage b with
    | .error e => { cause := 2, fail := e }
    | .ok ss =>
      match missingType ss with
      | some t => { cause := 3, fail := some (t, 0, 0) }
      | none =>
        let sig := (sectAt ss 0xFFFF 0).getD { typ := 0, idx := 0, head := 0, val := [] }
        let pub := sig.val.take 32
        if getLe b 32 8 != 0 && getLe b 32 8 != serial then { cause := 4 }
        else if owned && sha256 pub != owner then { cause := 5 }
        else if !edVerify pub (b.take (imgLen b - 64)) (sig.val.drop 32) then { cause := 6, fail := some (0xFFFF, 0, sig.head) }
        else if owned && decide (imgSvn b < svnMin) then { cause := 7 }
        else match ss.find? fun s => !(fieldsOk s && crossOk ss s) with
          | some s => { cause := 8, fail := some (s.typ, s.idx, s.head) }
          | none => { cause := 0 }

end Sys2Proof.Machine
end

