-- ==== Sys2Proof/Machine/Reach.lean ====
section
/-!
DEFINITION. The reach (R282 to R291, R428): time marks, alignment, holdover, the master's seed, and joining.
-/
namespace Sys2Proof.Machine

/-- IBN_TIME.MODE. -/
def State.timeMode (s : State) : Nat := s.fld rIbnTime 0 2

/-- The UP ports. -/
def State.upPorts (s : State) : List Nat := (List.range 16).filter fun p => s.pState p == 2

/-- The port that the chip follows (R283, R288): the one it has moved to while that is UP, otherwise the first UP parent. -/
def State.timeParent (s : State) : Option Nat :=
  let ps := s.dev.fab.parents
  match s.dev.fab.follows with
  | some p => if s.pState p == 2 && ps.contains p then some p else ps.find? fun q => s.pState q == 2
  | none => ps.find? fun q => s.pState q == 2

/-- TBS_STATUS counts a forward step. -/
def countStep : Eff := bumpFld rTbsStatus 16 16 1

/-- The error of the local timebase in whole ticks, from 1/16 ticks; how a fraction is rounded is left open (log entry 4). -/
def wholeError (v : Nat) (e16 : Int) : Int := e16 / 16 + (if e16 % 16 = 0 then 0 else (v % 2 : Nat))

/-- The timebase is corrected for an error (R285). -/
def correct (e16 e : Int) : Eff := .read fun s =>
  if e16 ≤ -524288 then
    Eff.all [.act (.raiseNow (s.now + (-e).toNat)), countStep, onFab fun f => { f with slew := 0, slewTick := 0 }]
  else onFab fun f => { f with slew := -e }

/-- ERR saturates at ±32,767. -/
def errField (e : Int) : Nat := unsigned 16 (max (-32767) (min 32767 e))

/-- While XTAL is not GOOD, IRO spans run between the arrivals of accepted marks (R424). -/
def hearMark (mark corr : Nat) : Eff := .read fun s => onDev fun d =>
  { d with clk := { d.clk with
      heard := if s.fld rClkStatus 0 2 = 1 then [] else { mark := mark, corr := corr, tick := s.now } :: d.clk.heard.take 16 } }

/-- An accepted mark (R283 to R287). -/
def acceptMark (p mark corr : Nat) : Eff := .read fun s =>
  let e16 : Int := 16 * ((s.now : Int) - (mark * 65536 + corr : Nat)) - (s.fld (rIbnPDelay p) 0 20 : Nat)
  withFree fun v =>
    let e := wholeError v e16
    let small : Nat := if -64 ≤ e16 ∧ e16 ≤ 64 then min 16 (s.dev.fab.smallErrs + 1) else 0
    Eff.all
      [ hearMark mark corr, correct e16 e,
        .read fun t => onFab fun f =>
          { f with
            follows := if f.follows.isSome then some p else none
            lastMark := t.now
            holdTick := t.now
            smallErrs := small },
        putFld rIbnTime 0 2 1, putFld rIbnTime 2 1 (b2n (small == 16)), putFld rIbnTime 3 4 p, putFld rIbnTime 8 16 (errField e),
        Eff.each (s.upPorts.filter fun q => q != p) fun q => withFree fun r =>
          sendControl q 0x14 (mark % 2 ^ 48 + min (2 ^ 32 - 1) (corr + r) * 2 ^ 48) ]

/-- TIME_MARK: a chip that is not the master accepts marks from the port it follows. -/
def effTimeMark (p : Nat) (frame : List Byte) : Eff := onFrame p 0x14 frame fun m => .read fun s =>
  if !s.isMaster && s.timeParent == some p then acceptMark p (bodyGet m 1 6) (bodyGet m 7 4) else .skip

/-- The next UP parent after a port, in the image's order. -/
def State.nextParent (s : State) (p : Nat) : Option Nat :=
  let ps := s.dev.fab.parents
  let i := (ps.findIdx? fun q => q == p).getD 0
  (ps.drop (i + 1) ++ ps.take i).find? fun q => s.pState q == 2

/-- HOLDOVER (R288): a chip that is not the master has accepted no mark for 4 mark intervals; it moves to its next parent, and in
HOLDOVER again after 4 more (log entry 61). -/
def effHoldover : Eff := .read fun s =>
  if !s.isMaster && (s.phase == 5 || s.phase == 6) && decide (s.dev.fab.holdTick + 4 * 65536 ≤ s.now) then
    Eff.all
      [ Eff.when (s.timeMode != 2) (countAt 0x37 0), putFld rIbnTime 0 2 2, putFld rIbnTime 2 1 0,
        onFab fun f => { f with holdTick := s.now }, onDev fun d => { d with clk := { d.clk with heard := [] } },
        match s.nextParent (s.fld rIbnTime 3 4) with
        | some q => .andThen (onFab fun f => { f with follows := some q }) (putFld rIbnTime 3 4 q)
        | none => .skip ]
  else .skip

/-- The larger of two PING values, each with its link delay; of equal ones the longer delay's. -/
def laterPing (a b : Nat × Nat) : Nat × Nat := if a.1 < b.1 ∨ (a.1 = b.1 ∧ a.2 < b.2) then b else a

/-- The largest PING value received on any port, with that port's link delay added, in 1/16 ticks (R428). -/
def State.seed16 (s : State) : Nat :=
  let top := ((List.range 16).map fun p => ((s.port p).ping, s.fld (rIbnPDelay p) 0 20)).foldl laterPing (0, 0)
  if top.1 = 0 then 0 else 16 * top.1 + top.2

/-- MASTER_SEED (R428). -/
def effMasterSeed : Eff := .read fun s =>
  match s.dev.fab.firstUp with
  | none => .skip
  | some t =>
    if s.isMaster && !s.bit rTbsStatus 2 && decide (t + 2 ^ 24 ≤ s.now) then
      Eff.all
        [ if 16 * s.now < s.seed16 then
            withFree fun v =>
              .andThen (.act (.raiseNow (s.seed16 / 16 + (if s.seed16 % 16 = 0 then 0 else v % 2) + 2 ^ 20))) countStep
          else .skip,
          putBit rTbsStatus 2 true, putFld rIbnTime 0 2 0 ]
    else .skip

/-! ### Joining (R290, R291) -/

/-- The 16-byte payload of JOIN, ADMIT and CONFLICT (Table 8.5). -/
def joinPayload (chip serial : Nat) : List Byte := leBytes 2 chip ++ leBytes 6 0 ++ leBytes 8 serial

/-- JOIN_RETRY (R290): once a port is UP the join agent sends its JOIN, and repeats it every 2^26 ticks until it has an answer. -/
def effJoinRetry : Eff := .read fun s =>
  let f := s.dev.fab
  let due := match f.joinTick with
    | some t => decide (t + 2 ^ 26 ≤ s.now)
    | none => true
  if (s.phase == 5 || s.phase == 6) && !s.isMaster && !f.joined && !s.upPorts.isEmpty && due then
    Eff.all
      [ onFab (fun f => { f with joinTick := some s.now }), sendManagement f.master 0x20 (joinPayload s.chipId s.serial), drainUsers [] ]
  else .skip

/-- The master's answer to a JOIN that came in on a port: ADMIT to its sender, or CONFLICT back along the hops it came by, since the
route of its chip id leads to the chip already admitted (log entry 20). -/
def answerJoin (w : Waiting) : Eff := .read fun s =>
  let m := leNat w.barge.payload
  let chip := bitsOf m 0 16
  let serial := bitsOf m 64 64
  if !s.isMaster then .skip
  else match mget? s.dev.fab.admitted chip with
    | some held =>
      if held = serial then sendManagement chip 0x21 w.barge.payload
      else toPort w.input 16
        { hdr := withFlow (bargeHdr 0x22 0 false s.chipId 0x1F0 16 chip 0 0 0 0) true w.barge.path 0 0, payload := joinPayload chip held }
    | none =>
      .andThen (onFab fun f => { f with admitted := mput f.admitted chip serial }) (sendManagement chip 0x21 w.barge.payload)

/-- JOIN at the master. -/
def effJoin : Eff :=
  Eff.all
    [ fromInbox 0x20 (fun _ _ => true) (fun w => takeBarge w.barge (.andThen (delivered w.barge) (answerJoin w))), drainUsers [], sweep ]

/-- ADMIT (R291). A chip whose id is in conflict stays out (R24, R41). -/
def effAdmit : Eff :=
  .andThen
    (fromInbox 0x21 (fun _ _ => true) fun w =>
      takeBarge w.barge (Eff.all
        [ delivered w.barge, .read fun s => Eff.when (!s.bit rGlbRole 19) (putBit rGlbRole 18 true), onFab fun f => { f with joined := true } ]))
    sweep

/-- A chip whose id another holds is out of the reach (R24, R41, R291). The conflict counts once at WIRING; which of that source's units it
counts at the spec does not say, and the model takes unit 0 (DESIGN CHOICE, log entry 61). -/
def idConflict : Eff :=
  Eff.all
    [ putBit rGlbRole 19 true, putBit rGlbRole 18 false, countAt 0x36 0, onFab fun f => { f with joined := true },
      Eff.each (List.range 16) fun p => .read fun s => if s.pState p = 5 then .skip else portDown p 5 ]

/-- CONFLICT (R291). -/
def effConflict : Eff :=
  .andThen (fromInbox 0x22 (fun _ _ => true) fun w => takeBarge w.barge (.andThen (delivered w.barge) idConflict)) sweep

/-! ### The meanings -/

/-- TIME_MARK. -/
def execTimeMark (p : Nat) (frame : List Byte) (s : State) : Host.Outcome State Fault Refusal := (effTimeMark p frame).done s
/-- HOLDOVER. -/
def execHoldover (s : State) : Host.Outcome State Fault Refusal := effHoldover.done s
/-- MASTER_SEED. -/
def execMasterSeed (s : State) : Host.Outcome State Fault Refusal := effMasterSeed.done s
/-- JOIN_RETRY. -/
def execJoinRetry (s : State) : Host.Outcome State Fault Refusal := effJoinRetry.done s
/-- JOIN. -/
def execJoin (s : State) : Host.Outcome State Fault Refusal := effJoin.done s
/-- ADMIT. -/
def execAdmit (s : State) : Host.Outcome State Fault Refusal := effAdmit.done s
/-- CONFLICT. -/
def execConflict (s : State) : Host.Outcome State Fault Refusal := effConflict.done s

end Sys2Proof.Machine
end

