-- ==== Sys2Proof/Machine/Start.lean ====
section
/-!
DEFINITION. Start (R534 to R562): fuses, the journal, the choice of a copy, its application with the journal-held state, the boot self-tests, the opening of
basins, dry-dock and its flash commands, and the fusing of the owner key and SVN.
-/
namespace Sys2Proof.Machine

/-- Start's hidden state changes. -/
def onImg (g : Img → Img) : Eff := onDev fun d => { d with img := g d.img }
/-- Calibration's hidden state changes. -/
def onCal (g : Cal → Cal) : Eff := onDev fun d => { d with cal := g d.cal }

/-- Numbers enter consecutive 32-bit registers, from bytes. -/
def putWords (off n : Nat) (bs : List Byte) : Eff := Eff.each (List.range n) fun i => putReg (off + 4 * i) (getLe bs (4 * i) 4)

/-! ### Dry-dock and halted (R555, R558 to R561) -/

/-- Dry-dock is entered with a STOP_CAUSE: CLEAN_STOP is cleared, and VF Enable; the start has consumed a request for it. -/
def enterDryDock (cause : Nat) : Eff := Eff.all
  [ putFld rImgStatus 0 4 7, putFld rImgStatus 24 8 cause, onKeep fun k => { k with cleanStop := false, dryReq := false },
    onDev fun d => { d with pci := { d.pci with vfEnable := false, pending := d.pci.pending.filter fun p => p / 64 == 0 } } ]

/-- The chip is HALTED with a STOP_CAUSE: every Ibern port is held DOWN. -/
def enterHalted (cause : Nat) : Eff := Eff.all
  [ putFld rImgStatus 0 4 8, putFld rImgStatus 24 8 cause,
    Eff.each (List.range 16) fun p => .read fun s => Eff.when (s.pState p == 1 || s.pState p == 2 || s.pState p == 3 || s.pState p == 4) (portDown p 0) ]

/-! ### Step 1: fuses (R534, R564 to R568) -/

/-- The clock sensor's first reading and the IRO's factory trim. -/
def firstTrim (clockRaw : Int) : Eff := Eff.all [showT 97 clockRaw, iroFactory, iroSum]

/-- The fuse-derived fields are loaded. -/
def loadFuses : Eff := .read fun s => Eff.all
  [ putReg rImgSerial (Config.serial % 2 ^ 64), putWords (rImgOwner 0) 8 s.dev.img.owner, putFld rImgSvn 8 7 s.dev.img.svnMin,
    putReg rCalBg (Config.bandGap % 2 ^ 18), putReg rCalIroFact (Config.iroSet % 2 ^ 36),
    Eff.each (List.range 98) fun k => putReg (rCalTs k) (Config.sensorSet k % 2 ^ 24),
    Eff.each (List.range 96) fun t =>
      let trim := 2 + Config.tileTrim t % 10
      .andThen (putReg (rCalTile t) (Config.tilePace t % 2 ^ 18 + trim * 2 ^ 18)) (putFld (rPacTile t) 22 4 trim),
    putFld rTbsRtcTrim 0 8 Config.rtcTrim,
    .read fun t => putSFld rTbsRtcTrim 16 8 (max (-127) (min 127 (t.sfld rTbsRtcTrim 0 8 + t.sfld rTbsRtcTrim 8 8))) ]

/-- Fuses whose copies disagree give no value: what is read through them is free (log entry 34). -/
def spoiltFuses : Eff := Eff.all
  [ withFree fun v => putReg rImgSerial v, withFree fun v => putWords (rImgOwner 0) 8 (leBytes 32 v), withFree fun v => putFld rImgSvn 8 7 v,
    withFree fun v => putFld rClkIro 0 12 v, withFree fun v => putReg rCalBg (v % 2 ^ 18), withFree fun v => putReg rCalIroFact (v % 2 ^ 48),
    Eff.each (List.range 98) fun k => withFree fun v => putReg (rCalTs k) (v % 2 ^ 24),
    Eff.each (List.range 96) fun t => withFree fun v => putReg (rCalTile t) (v % 2 ^ 22) ]

/-- FUSE_READ: the fuse read of step 1 ends; `agree` tells that the copies agree, `clockRaw` is the clock sensor's conversion code. -/
def effFuseRead (agree : Bool) (clockRaw : Int) : Eff := .read fun s =>
  if s.dev.board.poreset || s.phase != 0 then .skip
  else if agree then Eff.all
    [ loadFuses, firstTrim clockRaw, onCal fun c => { c with azRun := ((List.range 98).filter fun k => k != 96).map fun k => (k, s.now) },
      putFld rImgStatus 0 4 1 ]
  else Eff.all [spoiltFuses, countAt 0x44 0, enterDryDock 3]

/-! ### Step 3: SFDP and the journal (R502, R536 to R538) -/

/-- IMG_STATUS takes a copy's cause. -/
def putCause (c cause : Nat) : Eff := putFld rImgStatus (8 + 8 * c) 8 cause

/-- IMG_FAIL takes the section that failed; where no section is named, its value is free (log entry 35). -/
def putFail (c : Nat) (f : Fail) : Eff :=
  match f with
  | some (t, i, p) => putReg (if c = 0 then rImgFailA else rImgFailB) (t + i * 65536 + p * 2 ^ 32)
  | none => withFree fun v => putReg (if c = 0 then rImgFailA else rImgFailB) v

/-- The header of a copy. -/
def Flash.header (f : Flash) (c : Nat) : List Byte := f.read (f.region c).1 64

/-- A copy's header is read: its cause so far. -/
def headerCause (c : Nat) : Eff := .read fun s =>
  let f := s.dev.flash
  let h := f.header c
  if (f.region c).2 = 0 then putCause c 0x0A
  else if !magicOk h then putCause c 1
  else if plausible h (f.region c).2 then putCause c 9
  else .andThen (putCause c 2) (putFail c none)

/-- The plausible copies in the order in which they are tried. -/
def Flash.tries (f : Flash) : List Nat :=
  let ok := (List.range 2).filter fun c => plausible (f.header c) (f.region c).2
  if ok == [0, 1] && decide (imgSeq (f.header 0) < imgSeq (f.header 1)) then [1, 0] else ok

/-- The read that the device chooses, with its mode: 1-4-4, or else 1-1-4, both only where Quad Enable stands, or else 1-1-1 (R619). -/
def Sfdp.choice (p : Sfdp) : Nat × SpiRead :=
  match p.quadReady, p.read144, p.read114 with
  | true, some r, _ => (2, r)
  | true, none, some r => (1, r)
  | _, _, _ => (0, { instr := 0x0B, dummy := p.plainDummy, long := p.plainLong })

/-- The flash needs 4-byte addressing. -/
def Sfdp.fourByte (p : Sfdp) : Bool := decide (0x1000000 < p.density)

/-- SFDP passes: the density is in range, and a flash above 16 MiB has a way to 4-byte addressing (R536, R619). -/
def Sfdp.ok (p : Sfdp) : Bool :=
  within 0x1000000 0x4000000 p.density && (!p.fourByte || p.choice.2.long.isSome || p.entry)

/-- BRD_SPI shows how the flash is read. -/
def showSfdp (p : Sfdp) : Eff :=
  let r := p.choice.2
  putFld rBrdSpi 0 16 (p.choice.1 + 4 * b2n p.fourByte + r.dummy % 32 * 8 + (if p.fourByte then r.long.getD r.instr else r.instr) % 256 * 256)

/-- JOURNAL_READ: step 3 ends; `sfdp` is what SFDP gives, none where it is not valid. -/
def effJournalRead (sfdp : Option Sfdp) : Eff := .read fun s =>
  if s.phase != 2 || s.forced then .skip
  else match sfdp.filter Sfdp.ok with
    | none => enterDryDock 4
    | some p => Eff.all
      [ showSfdp p, onFlash fun f => { f with density := p.density }, onFlash Flash.locateEnd,
        if s.dev.keep.dryReq then enterDryDock 2
        else Eff.all
          [ putFld rImgStatus 0 4 3, headerCause 0, headerCause 1,
            .read fun t => .andThen (onImg fun g => { g with tries := t.dev.flash.tries })
              (Eff.when t.dev.flash.tries.isEmpty (enterDryDock 1)) ] ]

/-! ### Step 4: verification and ROLE (R545 to R548) -/

/-- The bytes of a copy. -/
def Flash.copy (f : Flash) (c : Nat) : List Byte := f.read (f.region c).1 (min (imgLen (f.header c)) (f.region c).2)

/-- ROLE is applied (R22 to R28, R548). -/
def applyRole (r : Sect) (owned : Bool) : Eff :=
  let chip := r.get 0 2
  Eff.all
    [ putReg rGlbRole (chip + r.get 2 1 * 4096 + 65536 * b2n (owned && r.get 6 2 == chip) + 131072 * b2n (r.get 4 2 == chip)),
      onFab fun f => { f with master := r.get 4 2, tollMaster := r.get 6 2 } ]

/-- The chip is owned: its OWNER_HASH is not all zero. -/
def State.owned (s : State) : Bool := !allZero s.dev.img.owner

/-- A valid copy is chosen. -/
def chooseCopy (c : Nat) (b : List Byte) : Eff := .read fun s =>
  let ss := match parseImage b with
    | .ok ss => ss
    | .error _ => []
  Eff.all
    [ putCause c 0, putFld rImgStatus 4 2 (c + 1), putBit rImgStatus 6 (!s.owned), putReg rImgSeq (imgSeq b), putFld rImgSvn 0 7 (imgSvn b),
      putWords (rImgDigest 0) 8 (sha256 b), Eff.each (sectsOf ss 1) (fun r => applyRole r s.owned), putFld rImgStatus 0 4 4 ]

/-- IMAGE_VERIFY: the first copy still to be tried has been read whole and is verified. -/
def effImageVerify : Eff := .read fun s =>
  if s.phase != 3 || s.forced then .skip
  else match s.dev.img.tries with
    | [] => .skip
    | c :: rest =>
      let b := s.dev.flash.copy c
      let v := verifyImage b s.serial s.dev.img.owner s.dev.img.svnMin
      .andThen (onImg fun g => { g with tries := rest })
        (if v.cause = 0 then chooseCopy c b
         else Eff.all
          [ putCause c v.cause, Eff.when (v.cause == 2 || v.cause == 3 || v.cause == 6 || v.cause == 8) (putFail c v.fail),
            countAt 0x45 c, Eff.when rest.isEmpty (enterDryDock 1) ])

/-! ### Step 5: application (R551, R552, Table 16.9) -/

/-- The sections of the copy applied. -/
def State.sections (s : State) : List Sect :=
  match parseImage (s.dev.flash.copy (s.fld rImgStatus 4 2 - 1)) with
  | .ok ss => ss
  | .error _ => []

/-- What the optional sections give where they are absent. -/
def absent (typ : Nat) (bs : List Byte) (ss : List Sect) : Sect := (sectAt ss typ 0).getD { typ := typ, idx := 0, head := 0, val := bs }

/-- CAL_USER without overrides: gains of 1, everything else zero. -/
def identityCal : List Byte := zeros 100 ++ (List.replicate 7 (leBytes 4 (2 ^ 30) ++ zeros 8)).flatten ++ zeros 8

/-- CLK. -/
def applyClk (c : Sect) : Eff := .andThen (putReg rClkDiv (c.get 0 4)) (putReg rClkHbm (c.get 4 1))

/-- A signed sum clamped to a range. -/
def clampSum (lo hi z : Int) : Int := max lo (min hi z)

/-- CAL_USER comes into force in one step (R566). -/
def applyCal (c : Sect) : Eff := .read fun s => Eff.all
  [ putSFld rClkIro 12 12 (c.sget 0 2), iroSum, discardSpan, putSFld rTbsRtcTrim 8 8 (c.sget 2 1),
    putSFld rTbsRtcTrim 16 8 (clampSum (-127) 127 (s.sfld rTbsRtcTrim 0 8 + c.sget 2 1)),
    Eff.each (List.range 96) fun t => .andThen (putSFld (rCalTile t) 22 4 (c.sget (4 + t) 1))
      (putFld (rPacTile t) 22 4 (clampSum 0 15 ((s.fld (rCalTile t) 18 4 : Nat) + c.sget (4 + t) 1 + (s.fld (rPacTile t) 20 2 : Nat))).toNat),
    Eff.when s.isToll (Eff.each (List.range 7) fun k => Eff.all
      [ putReg (rMtrChImg k 0) (c.get (100 + 12 * k) 4), putReg (rMtrChImg k 1) (c.get (104 + 12 * k) 4),
        putReg (rMtrChImg k 2) (c.get (108 + 12 * k) 4) ]),
    Eff.each (List.range 98) fun k => putSFld (rCalTs k) 24 12 (c.sget (if k = 96 then 186 else 184) 2) ]

/-- PAC. -/
def applyPac (c : Sect) : Eff := Eff.all
  [ putReg rPacCtrl (c.get 20 1), putReg rPacTarget (c.get 4 4 + c.get 16 2 * 2 ^ 19),
    putReg rPacBounds (c.get 8 4 + c.get 12 4 * 2 ^ 18 + c.get 0 2 * 2 ^ 36 + c.get 2 2 * 2 ^ 46),
    putReg rPacLimits (c.get 19 1 + c.get 18 1 * 256) ]

/-- A failed PMBus transaction (Table 3.7, BRD_PMB): three in a row lose the regulator. -/
def pmbFail : Eff := .read fun s =>
  let n := s.dev.pace.pmbFails + 1
  Eff.all
    [ onPace fun p => { p with pmbFails := n }, bumpFld rBrdPmb 16 16 1, countAt 0x08 0, Eff.when (decide (3 ≤ n)) (putBit rPacStatus 4 true) ]

/-- VOUT_MODE has been read (R623). -/
def takeVoutMode (m : Option Nat) : Eff :=
  match m with
  | none => pmbFail
  | some v => .andThen (onPace fun p => { p with pmbFails := 0 })
    <| if v / 32 % 8 = 0 then .andThen (putFld rBrdPmb 7 5 (v % 32)) (putBit rBrdPmb 12 true) else putBit rPacStatus 4 true

/-- FLT. -/
def applyFlt (c : Sect) : Eff := .andThen
  (Eff.each (List.range 256) fun i => putReg (rFltSrc i) (c.get (4 * i) 1 + c.get (4 * i + 1) 1 * 256 + c.get (4 * i + 2) 1 * 65536))
  (putReg rFltMode ((List.range 16).map fun g => c.get (1024 + g) 1 * 2 ^ g).sum)

/-- STP; the keeper keeps it for the battery test. -/
def applyStp (c : Sect) : Eff :=
  let v := c.get 0 2 + c.get 2 1 * 4096 + c.get 3 1 * 65536
  .andThen (putReg rStpCfg v) (onKeep fun k => { k with stp := v })

/-- MEM. -/
def applyMem (c : Sect) : Eff := .andThen (putFld rMemStatus 13 9 (c.get 0 2)) (putFld rMemStatus 22 8 (c.get 2 1))

/-- BASIN. -/
def applyBasin (c : Sect) : Eff :=
  let b := c.idx
  Eff.all
    [ putBit (rLckBasin b) 2 (c.get 0 1 == 1),
      Eff.each (List.range (c.get 3 1)) fun w => .andThen
        (putReg (rLckWin b (2 * w)) (1 + c.get (38 + 16 * w) 1 * 2 + c.get (32 + 16 * w) 6 / 4096 * 4096))
        (putReg (rLckWin b (2 * w + 1)) (c.get (40 + 16 * w) 6 / 4096 * 4096)),
      putReg (rSrvCfg b) (c.get 8 2 + c.get 10 2 * 2 ^ 12 + c.get 12 4 * 2 ^ 25 + c.get 16 4 * 2 ^ 41 + c.get 2 1 * 2 ^ 58),
      putFld (rSrvState b) 3 10 (c.get 20 2), putFld (rSrvState b) 13 11 (c.get 22 2),
      Eff.each (List.range (c.get 4 1)) fun k =>
        let o := 32 + 16 * (c.get 3 1 + k)
        .andThen (putReg (rWhfGrant b (2 * k)) (c.get o 1 + 128 + c.get (o + 8) 8 % 2 ^ 40 * 2 ^ 24)) (putReg (rWhfGrant b (2 * k + 1)) (c.get (o + 4) 4)) ]

/-- QUEUE, with the WEIGHT of its owner. -/
def applyQueue (ss : List Sect) (c : Sect) : Eff :=
  let weight := ((sectAt ss 9 (c.get 0 1)).map fun t => t.get 1 1).getD 0
  putReg (rQueCfg c.idx)
    (c.get 0 1 + c.get 1 1 * 16 + c.get 2 1 * 64 + c.get 3 1 * 256 + c.get 4 1 * 4096 + weight * 2 ^ 18 + 2 ^ 31)

/-- CODEC: owners and preloads. -/
def applyCodec (c : Sect) : Eff := .andThen
  (Eff.each (List.range 256) fun t => putReg (rCdcTbl t) (c.get t 1 % 32 + 32 * b2n (bitOf (c.get t 1) 5)))
  (Eff.each (c.preloads.zip (List.range 256)) fun p => loadLens p.1 (((c.val.drop (256 + 256 * p.2)).take 256).map fun b => b.toNat))

/-- IBN_COMMON. -/
def applyIbn (c : Sect) : Eff := .read fun s => Eff.all
  [ putReg rIbnReach (c.get 0 4), putReg rIbnCfg (c.get 4 1 + c.get 5 1 * 16 + c.get 6 1 * 256 + c.get 7 1 * 4096),
    onFab fun f => { f with parents := ((List.range 3).map fun i => c.get (8 + i) 1).filter fun p => p != 0xFF },
    onImg fun g => { g with joinLog := c.get 12 1 },
    Eff.each (List.range 4096) fun d => putReg (rIbnRoute d) (c.get (16 + 2 * d) 2 % 2 ^ 15 + 2 ^ 15 * b2n (d == s.chipId)) ]

/-- The ports: those enabled are configured, the others are DISABLED. -/
def applyPorts (ss : List Sect) : Eff := Eff.each (List.range 16) fun p =>
  match (sectAt ss 0x0D p).filter fun c => c.get 0 1 == 1 with
  | some c => .andThen (putFld (rIbnPNeigh p) 16 16 (c.get 2 2 + c.get 1 1 * 4096))
      (onPort p fun k => { k with enabled := true, presets := c.get 4 4 })
  | none => putFld (rIbnPState p) 16 8 1

/-- WHF_COMMON. -/
def applyWhf (c : Sect) : Eff := putReg rWhfCfg (c.get 0 1 + c.get 1 1 * 8)

/-- WHF_SET. -/
def applySet (c : Sect) : Eff := .andThen (putReg (rWhfSetCfg c.idx) (c.get 0 1 + 16 + c.get 1 1 * 256))
  (Eff.each c.areas fun a => .andThen (putReg (rWhfSetArea c.idx (2 * a.1)) a.2.1) (putReg (rWhfSetArea c.idx (2 * a.1 + 1)) a.2.2))

/-- MTR, on the toll master. -/
def applyMtr (c : Sect) : Eff :=
  let cfg := c.get 0 1 + c.get 1 1 * 2 + c.get 2 1 * 4 + c.get 38 1 * 8 + c.get 80 1 * 64 + c.get 81 1 * 128 + c.get 3 1 * 512
  Eff.all
    [ putReg rMtrCfg cfg, onMtr fun m => { m with sec := c.val }, onKeep fun k => { k with mtrSec := c.val },
      putReg rMtrCfCfg (c.get 40 4 + c.get 39 1 * 2 ^ 20),
      Eff.each (List.range 2) fun n => putReg (rMtrPinCfg n) (c.get (44 + 8 * n) 4 + c.get (48 + 8 * n) 1 * 2 ^ 20 + c.get (49 + 8 * n) 1 * 2 ^ 23),
      putReg (rMtrThr 0) (c.get 32 4), putReg (rMtrThr 1) (c.get 36 2),
      Eff.each (List.range 3) fun i => putReg (rMtrThr (2 + i)) (c.get (68 + 4 * i) 2 + c.get (70 + 4 * i) 2 * 4096),
      Eff.each (List.range 56) fun i => putReg (rMtrTtab (i / 8) (i % 8)) (c.get (88 + 8 * i) 8) ]

/-- TOL, on the toll master. -/
def applyTol (c : Sect) : Eff := Eff.all
  [ onTol fun t => { t with sec := c.val }, Eff.each (List.range 7) fun i => putReg (rTolW i) (c.get (16 + 4 * i) 4),
    putReg rTolMdCfg (c.get 44 1 + c.get 45 1 * 64 + c.get 46 1 * 1024) ]

/-- LCD, on the toll master. -/
def applyLcd (c : Sect) : Eff := Eff.all
  [ putReg rLcdCfg (c.get 0 4), Eff.each (List.range 16) fun e => putReg (rLcdPage e) (c.get (4 + 4 * e) 4) ]

/-- The image's sections, in ascending TYPE (R551, R543). -/
def applySections (ss : List Sect) (vout : Option Nat) : Eff := .read fun s =>
  let one (t : Nat) (e : Sect → Eff) : Eff := Eff.each (sectsOf ss t) e
  Eff.all
    [ one 3 applyClk, applyCal (absent 4 identityCal ss), one 5 applyPac, takeVoutMode vout, one 6 applyFlt,
      applyStp (absent 7 (leBytes 2 10 ++ leBytes 1 15 ++ leBytes 1 3 ++ zeros 4) ss), one 8 applyMem, one 9 applyBasin, one 0x0A (applyQueue ss),
      one 0x0B applyCodec, one 0x0C applyIbn, applyPorts ss, applyWhf (absent 0x0E (leBytes 1 3 ++ leBytes 1 30 ++ zeros 6) ss), one 0x0F applySet,
      Eff.when s.isToll (Eff.all [one 0x10 applyMtr, one 0x11 applyTol, one 0x12 applyLcd]),
      onKeep fun k => { k with tollMaster := s.isToll }, lcdEval ]

/-! ### Journal-held state (R159, R295, R473, R552) -/

/-- The bad pages of the journal, with their numbers in the list. -/
def badPageEntry (n : Nat) (e : UEntry) : Eff :=
  putReg (rMemBadpage n) (1 + e.get 1 1 % 4 * 2 + e.get 8 8 / 4096 * 4096 + e.get 2 1 * 2 ^ 56)

/-- A retirement that the journal holds takes effect again. -/
def applyUnit (e : UEntry) : Eff :=
  match e.kind with
  | 3 => putBit (rIbnPState (e.get 2 1)) (12 + e.get 3 1 % 4) true
  | 4 => .andThen (setPort (e.get 2 1) 5 (e.get 1 1) 0) (onPort (e.get 2 1) fun k => { k with retired := true })
  | 6 => putFld (rPacTile (e.get 2 1)) 18 2 2
  | _ => .skip

/-- The runtime layer of a meter channel: from its latest calibration record, or identity (R470, R473). -/
def runtimeLayer (es : List UEntry) (c : Nat) : Eff :=
  match es.find? fun e => e.kind == 10 && e.get 2 1 == c with
  | some e => Eff.all
    [ putReg (rMtrChRun c 0) (e.get 8 4), putReg (rMtrChRun c 1) (e.get 12 4), putReg (rMtrChRun c 2) (e.get 4 4) ]
  | none => putReg (rMtrChRun c 0) (2 ^ 30)

/-- A meter channel's factory layer is identity (R469). -/
def meterLayers (es : List UEntry) : Eff := .read fun s => Eff.each s.mtrUsed fun c => .andThen (putReg (rMtrChFact c 0) (2 ^ 30)) (runtimeLayer es c)

/-- The journal-held state is applied, at the end of step 5. -/
def applyJournal (es : List UEntry) : Eff := .read fun s => Eff.all
  [ Eff.each (((es.filter fun e => e.kind == 1).take 256).zip (List.range 256)) (fun p => badPageEntry p.2 p.1), showBadPages,
    Eff.each (es.filter fun e => (e.kind == 6 && decide (e.get 2 1 < 96)) || ((e.kind == 3 || e.kind == 4) && decide (e.get 2 1 < 16))) applyUnit,
    Eff.when s.isToll (meterLayers es) ]

/-- Step 6 on the toll master (R473, R479, R505). -/
def startToll (es : List UEntry) : Eff := .read fun s => Eff.when s.isToll (Eff.all
  [ meterStart ((es.filter fun e => e.kind == 8).map fun e => e.get 2 1), tollStart,
    onCal fun c => { c with azRun := mput c.azRun 96 s.now } ])

/-- The image and the journal-held state are applied: step 5 ends with IN_FORCE. -/
def applyImage (ss : List Sect) (es : List UEntry) (vout : Option Nat) : Eff := .read fun s => Eff.all
  [ applySections ss vout, applyJournal es, putBit rGlbRole 31 true, putFld rImgStatus 0 4 5, onImg fun g => { g with applyTick := s.now } ]

/-- What follows step 5 at once: the first tile stoppage slot, the tolls, the master's own admission, and the end of a chip that has had a reset storm
(R533). -/
def afterApply (es : List UEntry) : Eff := .read fun s => Eff.all
  [ Eff.when (s.bit rStpCfg 12) (putReg rStpNextTile ((s.now / s.tilePeriod + 1) * s.tilePeriod)),
    Eff.when s.dev.keep.battFail (.andThen (onKeep fun k => { k with battFail := false }) (countAt 0x48 0)),
    startToll es, .read fun t => Eff.when (!t.dev.fab.ports.any fun e => e.2.enabled) selfAdmit,
    Eff.when s.dev.keep.storm (Eff.all [onKeep fun k => { k with storm := false }, countAt 0x46 0, enterHalted 6]), pumpJournal ]

/-- SECTION_APPLY: step 5 ends, with the VOUT_MODE byte read over PMBus. -/
def effSectionApply (vout : Option Nat) : Eff := .read fun s =>
  let es := liveUnits (allUnits s.dev.flash.records)
  if s.phase != 4 then .skip else .andThen (applyImage s.sections es vout) (afterApply es)

/-! ### Steps 7 to 10 (R554 to R557) -/

/-- The chip is in phase TRAIN. -/
def State.training (s : State) : Bool := s.phase == 5

/-- TILE_SELFTEST_DONE: the boot tile and codec self-tests end. -/
def effTileSelftestDone (failed : List Nat) (codecFail : Bool) : Eff := .read fun s =>
  let bad := (List.range 96).filter fun t => failed.contains t && s.tileState t == 3
  if !s.training || s.dev.img.tested then .skip
  else Eff.all
    [ Eff.each bad fun t => .andThen (countWith 0x06 t 0 .skip) (.read fun u => Eff.when (u.tileState t != 2) (retireUnit 0x06 t)),
      Eff.each (List.range 96) fun t => .read fun u => Eff.when (u.tileState t == 3) (putFld (rPacTile t) 18 2 0),
      putFld rImgSelftest 0 7 bad.length, putBit rImgSelftest 7 codecFail, onImg fun g => { g with tested := true, codecFail := codecFail },
      Eff.when codecFail (.andThen (Eff.each (List.range 256) fun t => putFld (rCdcTbl t) 5 2 0) (countAt 0x22 0)), pumpJournal ]

/-- A repaired page returns to its original location (R160). -/
def repairPage (page : Nat) : Eff := .read fun s =>
  match s.badPages.find? fun n => (s.badPage n).1 == page, (liveUnits (allUnits s.dev.flash.records)).find? fun e => e.kind == 1 && e.get 8 8 == page with
  | some n, some e => .andThen (putReg (rMemBadpage n) 0) (journalUnits 2 (e.get 1 1) (e.get 2 1) (e.get 3 1) (e.get 4 4) page)
  | _, _ => .skip

/-- HBM_TRAINING_DONE: the pages every row of which has been repaired, and the delays of each pseudo-channel. -/
def effHbmTrainingDone (repaired : List Nat) (delays : List (List Int)) : Eff := .read fun s =>
  if !s.training || s.dev.img.trained || decide (s.dev.img.applyTick + 2 ^ 26 < s.now) then .skip
  else Eff.all
    [ Eff.each repaired repairPage, showBadPages, Eff.each (List.range 32) (fun k => calAccept (80 + k)),
      onCal fun c => { c with delays := (List.range 32).map fun k => (k, delays.getD k []) }, onImg fun g => { g with trained := true }, pumpJournal ]

/-- HBM_TRAIN_TIMEOUT (R555). -/
def effHbmTrainTimeout (chan : Nat) : Eff := .read fun s =>
  if !s.training || s.dev.img.trained || decide (s.now < s.dev.img.applyTick + 2 ^ 26) then .skip
  else .andThen (countAt 0x14 chan) (enterHalted 5)

/-- HBM_BIST_DONE: the failing sectors (R554). -/
def effHbmBistDone (fails : List EccEvent) : Eff := .read fun s =>
  let pages := fails.foldl (fun acc e => sins acc (e.sector / 4096)) ([] : List Nat)
  if !s.training || !s.dev.img.trained || s.dev.img.bist then .skip
  else Eff.all
    [ Eff.each pages fun p => match fails.find? fun e => e.sector / 4096 == p with
        | some e => retirePage { page := 4096 * p, cause := 0, ev := e }
        | none => .skip,
      putFld rImgSelftest 8 9 pages.length, onImg fun g => { g with bist := true }, pumpJournal ]

/-- HBM_ZEROING_DONE (R162). -/
def effHbmZeroingDone : Eff := .read fun s =>
  if !s.training || !s.dev.img.bist || s.bit rMemStatus 0 then .skip else .andThen (.act .zeroHbm) (putBit rMemStatus 0 true)

/-- JOIN_WAIT_END (R556). -/
def effJoinWaitEnd : Eff := .read fun s =>
  Eff.when (s.training && decide (s.dev.img.applyTick + 2 ^ s.dev.img.joinLog ≤ s.now)) (onImg fun g => { g with joined := true })

/-- Steps 6 to 9 have ended. -/
def State.readyToOpen (s : State) : Bool :=
  s.training && s.dev.img.tested && s.bit rMemStatus 0
    && (s.isMaster || s.dev.fab.joined || s.dev.img.joined || !s.dev.fab.ports.any fun e => e.2.enabled)

/-- BASINS_OPEN (R557): every enabled basin, or on an unowned chip basin 0 alone, opens. -/
def effBasinsOpen : Eff := .read fun s =>
  if !s.readyToOpen then .skip
  else Eff.all
    [ Eff.each (List.range 16) fun b => Eff.when (s.bit (rLckBasin b) 2 && (b == 0 || !s.bit rImgStatus 6)) (putFld (rLckBasin b) 0 2 1),
      putReg rImgOpenTick s.now, putFld rImgStatus 0 4 6 ]

/-! ### Owner key and SVN (R549, R550) -/

/-- PUBKEY of the running image. -/
def State.imagePub (s : State) : List Byte := ((sectAt s.sections 0xFFFF 0).map fun c => c.val.take 32).getD []

/-- A write to IMG_PROVISION. -/
def effProvision (v : Nat) : Eff := .read fun s =>
  let key := v / 65536 == 0x0A7E
  let svn := s.fld rImgSvn 0 7
  let result (n : Nat) : Eff := putReg rImgProvResult n
  if bitOf v 0 then
    if key && s.phase == 6 && s.bit rImgStatus 6 then .andThen (onImg fun g => { g with owner := sha256 s.imagePub }) (result 1) else result 2
  else if bitOf v 1 then
    if key && s.phase == 6 && !s.bit rImgStatus 6 then
      if s.dev.img.svnMin < svn then Eff.all [onImg fun g => { g with svnMin := svn }, putFld rImgSvn 8 7 svn, result 1]
      else withFree fun f => result (1 + f % 2)
    else result 2
  else .skip

/-! ### Flash commands in dry-dock (R562) -/

/-- 4 KiB from an address lie in a copy region. -/
def State.flashOk (s : State) (a : Nat) : Bool :=
  a % 4096 == 0 && (List.range 2).any fun c =>
    let r := s.dev.flash.region c
    decide (r.1 ≤ a ∧ a + 4096 ≤ r.1 + r.2)

/-- The page buffer's bytes. -/
def State.flashBuf (s : State) : List Byte := (List.range 1024).flatMap fun i => leBytes 4 (s.reg (rImgFlashBuf i)).toNat

/-- A write to IMG_FLASH_CMD: 1 ERASE, 2 PROGRAM, 3 READ. A command while one is BUSY changes nothing. -/
def effFlashCmd (v : Nat) : Eff := .read fun s =>
  let a := (s.reg rImgFlashAddr).toNat
  let status (n : Nat) : Eff := putReg rImgFlashStatus n
  if v / 65536 != 0xF1A5 || v % 4 = 0 || s.fld rImgFlashStatus 0 2 = 1 then .skip
  else if !s.flashOk a then status 3
  else match v % 4 with
    | 1 => .andThen (status 1) (issueOp (.erase a) [])
    | 2 =>
      let page (i : Nat) : FlashOp := .program (a + 256 * i) ((s.flashBuf.drop (256 * i)).take 256)
      .andThen (status 1) (issueOp (page 0) ((List.range 15).map fun i => page (i + 1)))
    | _ => .andThen (putWords (rImgFlashBuf 0) 1024 (s.dev.flash.read a 4096)) (status 2)

/-! ### The commands -/

/-- FUSE_READ. -/
def execFuseRead (agree : Bool) (clockRaw : Int) (s : State) : Host.Outcome State Fault Refusal := (effFuseRead agree clockRaw).done s
/-- JOURNAL_READ. -/
def execJournalRead (sfdp : Option Sfdp) (s : State) : Host.Outcome State Fault Refusal := (effJournalRead sfdp).done s
/-- IMAGE_VERIFY. -/
def execImageVerify (s : State) : Host.Outcome State Fault Refusal := effImageVerify.done s
/-- SECTION_APPLY. -/
def execSectionApply (vout : Option Nat) (s : State) : Host.Outcome State Fault Refusal := (effSectionApply vout).done s
/-- TILE_SELFTEST_DONE. -/
def execTileSelftestDone (failed : List Nat) (codecFail : Bool) (s : State) : Host.Outcome State Fault Refusal :=
  (effTileSelftestDone failed codecFail).done s
/-- HBM_TRAINING_DONE. -/
def execHbmTrainingDone (repaired : List Nat) (delays : List (List Int)) (s : State) : Host.Outcome State Fault Refusal :=
  (effHbmTrainingDone repaired delays).done s
/-- HBM_TRAIN_TIMEOUT. -/
def execHbmTrainTimeout (chan : Nat) (s : State) : Host.Outcome State Fault Refusal := (effHbmTrainTimeout chan).done s
/-- HBM_BIST_DONE. -/
def execHbmBistDone (fails : List EccEvent) (s : State) : Host.Outcome State Fault Refusal := (effHbmBistDone fails).done s
/-- HBM_ZEROING_DONE. -/
def execHbmZeroingDone (s : State) : Host.Outcome State Fault Refusal := effHbmZeroingDone.done s
/-- JOIN_WAIT_END. -/
def execJoinWaitEnd (s : State) : Host.Outcome State Fault Refusal := effJoinWaitEnd.done s
/-- BASINS_OPEN. -/
def execBasinsOpen (s : State) : Host.Outcome State Fault Refusal := effBasinsOpen.done s
/-- OWN, as a write to IMG_PROVISION. -/
def execOwn (rd v : Nat) (s : State) : Host.Outcome State Fault Refusal := (Eff.when (bitOf v 0) (writeReg rd rImgProvision (effProvision v))).done s
/-- SVN_COMMIT, as a write to IMG_PROVISION. -/
def execSvnCommit (rd v : Nat) (s : State) : Host.Outcome State Fault Refusal :=
  (Eff.when (bitOf v 1 && !bitOf v 0) (writeReg rd rImgProvision (effProvision v))).done s
/-- FLASH_ERASE, as a write to IMG_FLASH_CMD. -/
def execFlashErase (rd v : Nat) (s : State) : Host.Outcome State Fault Refusal := (Eff.when (v % 4 == 1) (writeReg rd rImgFlashCmd (effFlashCmd v))).done s
/-- FLASH_PROGRAM, as a write to IMG_FLASH_CMD. -/
def execFlashProgram (rd v : Nat) (s : State) : Host.Outcome State Fault Refusal := (Eff.when (v % 4 == 2) (writeReg rd rImgFlashCmd (effFlashCmd v))).done s
/-- FLASH_READ, as a write to IMG_FLASH_CMD. -/
def execFlashRead (rd v : Nat) (s : State) : Host.Outcome State Fault Refusal := (Eff.when (v % 4 == 3) (writeReg rd rImgFlashCmd (effFlashCmd v))).done s

end Sys2Proof.Machine
end

