-- ==== Sys2Proof/Machine/Calibration.lean ====
section
/-!
DEFINITION. The calibrations that the device runs (R569 to R574): sensor auto-zero and HBM re-centering.
-/
namespace Sys2Proof.Machine

/-! ### Sensor auto-zero -/

/-- The record that covers a sensor (Table 17.2). -/
def sensorRec (k : Nat) : Nat := if k = 96 then 1 else 0

/-- A bad auto-zero (R570, R572, R574): three in a row exclude the sensor. -/
def zeroBad (k cause : Nat) : Eff := .read fun s =>
  let n := mget 0 s.dev.cal.azBad k + 1
  Eff.all
    [ calFail (sensorRec k) cause, onCal fun c => { c with azBad := mput c.azBad k n },
      Eff.when (decide (3 ≤ n)) (putBit (rCalTs k) 56 true), countAt 0x09 k ]

/-- An accepted auto-zero waits for its boundary; it ends an exclusion. -/
def zeroGood (k : Nat) (az : Int) : Eff := .andThen
  (onCal fun c => { c with azDue := mput c.azDue k az, azBad := mdel c.azBad k }) (putBit (rCalTs k) 56 false)

/-- Two codes are judged. Where they agree but differ, which of them is the result is free (log entry 36). -/
def zeroJudge (k : Nat) (a b : Int) : Eff :=
  let judge (z : Int) : Eff := if -16 ≤ z ∧ z ≤ 16 then zeroGood k z else zeroBad k 3
  if a - b < -2 ∨ 2 < a - b then zeroBad k 2
  else if a = b then judge a
  else withFree fun v => judge (if bitOf v 0 then a else b)

/-- AUTO_ZERO: the conversions of a sensor end, or their timeout. -/
def effAutoZero (k : Nat) (run : ZeroRun) : Eff := .read fun s =>
  match mget? s.dev.cal.azRun k, run with
  | some t, .codes a b =>
    Eff.when (decide (s.now ≤ t + 2 ^ 20)) (.andThen (onCal fun c => { c with azRun := mdel c.azRun k }) (zeroJudge k a b))
  | some t, .timeout =>
    Eff.when (decide (t + 2 ^ 20 ≤ s.now)) (.andThen (onCal fun c => { c with azRun := mdel c.azRun k }) (zeroBad k 1))
  | none, _ => .skip

/-- The auto-zeroes of an own time mark (Table 17.2). The meter sensor's runs on a toll master alone (R573). -/
def startZeroes : Eff := .read fun s =>
  let ks := (List.range 98).filter fun k => k != 96 || (s.isToll && !s.bit rClkGateStatus 8)
  Eff.when (decide (1 ≤ s.phase) && !s.dryDock && decide (s.now / 65536 % 2 ^ 14 = 0))
    (onCal fun c => { c with azRun := ks.foldl (fun m k => mput m k s.now) c.azRun })

/-- Accepted auto-zeroes come into force at an own time mark. -/
def zeroesInForce : Eff := .read fun s =>
  Eff.each (s.dev.cal.azDue.filter fun e => e.1 != 96) fun e => zeroInForce e.1 0

/-! ### HBM re-centering -/

/-- HBM_RECENTER: a re-centering falls due on a pseudo-channel, every 2^34 ticks (R569), but for dry-dock (R573). -/
def effHbmRecenter (pc : Nat) : Eff := .read fun s =>
  let c := s.dev.cal
  if 32 ≤ pc || !s.dev.img.trained || s.dryDock || decide (s.now < mget 0 c.recAt pc + 2 ^ 34) || (mget? c.recentre pc).isSome
      || (mget? c.accepted pc).isSome then .skip
  else onCal fun c => { c with recAt := mput c.recAt pc s.now, recentre := mput c.recentre pc (s.now, none) }

/-- A bad re-centering. -/
def recenterBad (pc cause : Nat) : Eff := Eff.all
  [onCal fun c => { c with recentre := mdel c.recentre pc }, calFail (80 + pc) cause, countAt 0x13 pc]

/-- The two runs are judged, pin by pin. Of two values one step apart, which is the result is free (log entry 36). -/
def recenterJudge (pc : Nat) (a b : List Int) : Eff := withFree fun v => .read fun s =>
  let pairs := a.zip b
  let res := (pairs.zip (List.range pairs.length)).map fun p => if bitOf v p.2 then p.1.1 else p.1.2
  let held := mget [] s.dev.cal.delays pc
  let far (x y : Int) (d : Int) : Bool := decide (x - y < -d ∨ d < x - y)
  if a.length != b.length || pairs.any (fun p => far p.1 p.2 1) then recenterBad pc 2
  else if (res.zip (List.range res.length)).any (fun p => far p.1 (held.getD p.2 0) 4) then recenterBad pc 3
  else onCal fun c => { c with recentre := mdel c.recentre pc, accepted := mput c.accepted pc res }

/-- ALL_BANK_REFRESH_WINDOW of a pseudo-channel: an accepted result comes into force, or a due re-centering takes a run, which gives
`delays`; `consec` tells that the window follows the one before it without a postponement. -/
def effRefreshWindow (pc : Nat) (consec : Bool) (delays : List Int) : Eff := .read fun s =>
  let c := s.dev.cal
  match mget? c.accepted pc, mget? c.recentre pc with
  | some d, _ => .andThen (onCal fun c => { c with accepted := mdel c.accepted pc, delays := mput c.delays pc d }) (calAccept (80 + pc))
  | none, some (t, first) =>
    if t + 2 ^ 20 < s.now then .skip
    else match first with
      | some a => if consec then recenterJudge pc a delays else onCal fun c => { c with recentre := mput c.recentre pc (t, some delays) }
      | none => onCal fun c => { c with recentre := mput c.recentre pc (t, some delays) }
  | none, none => .skip

/-- HBM_RECENTER_TIMEOUT (R570). -/
def effHbmRecenterTimeout (pc : Nat) : Eff := .read fun s =>
  match mget? s.dev.cal.recentre pc with
  | some (t, _) => Eff.when (decide (t + 2 ^ 20 ≤ s.now)) (recenterBad pc 1)
  | none => .skip

/-! ### The commands -/

/-- AUTO_ZERO. -/
def execAutoZero (k : Nat) (run : ZeroRun) (s : State) : Host.Outcome State Fault Refusal := (effAutoZero k run).done s
/-- HBM_RECENTER. -/
def execHbmRecenter (pc : Nat) (s : State) : Host.Outcome State Fault Refusal := (effHbmRecenter pc).done s
/-- ALL_BANK_REFRESH_WINDOW. -/
def execAllBankRefreshWindow (pc : Nat) (consec : Bool) (delays : List Int) (s : State) : Host.Outcome State Fault Refusal :=
  (effRefreshWindow pc consec delays).done s
/-- HBM_RECENTER_TIMEOUT. -/
def execHbmRecenterTimeout (pc : Nat) (s : State) : Host.Outcome State Fault Refusal := (effHbmRecenterTimeout pc).done s

end Sys2Proof.Machine
end

