-- ==== Sys2Proof/Machine/Collect.lean ====
section
/-!
DEFINITION. Events that reach the fault collector by themselves, force bits, captures and releases (R575 to R590), and lane stoppages (R594).
-/
namespace Sys2Proof.Machine

/-! ### Events (R577, Table 18.3) -/

/-- The number of units of a source. -/
def srcUnits (src : Nat) : Nat :=
  if src ≤ 0x06 then 96
  else if src = 0x09 then 98
  else if src = 0x10 ∨ src = 0x11 ∨ src = 0x14 then 16
  else if src = 0x13 then 32
  else if src = 0x20 ∨ src = 0x21 ∨ src = 0x23 then 8
  else if src = 0x24 then 19
  else if src = 0x30 ∨ src = 0x31 ∨ src = 0x32 ∨ src = 0x34 ∨ src = 0x36 then 16
  else if src = 0x33 then 64
  else if src = 0x45 ∨ src = 0x52 then 2
  else if src = 0x47 then 256
  else if src = 0x50 then 7
  else if src = 0x64 then 8
  else 1

/-- What an event brings about beyond its count: a keeper RAM error that is uncorrectable restores the tolls at once (Table 14.12), a lane's
retirement leaves its port (R293, R294). -/
def eventAfter (src : Nat) : Eff := Eff.all
  [ .read fun s => Eff.when (src == 0x62 && s.isToll) restoreTolls, Eff.when (src == 0x33) processLanes, pumpJournal ]

/-- FAULT_EVENT: an event reaches the collector. No event arises at a reserved source (R576). A pound parity mismatch or an
uncorrectable error of a tile's SRAM reaches what runs on the tile (R76, Table 5.6). -/
def effFaultEvent (src unit : Nat) : Eff :=
  Eff.when (decide (src < 256) && !srcReserved src && decide (unit < srcUnits src))
    (Eff.all [ Eff.when (src == 0x00 || src == 0x05) (faultTile unit), countAt src unit, eventAfter src ])

/-! ### Force bits (R586) -/

/-- A write to FLT_FORCE_w. -/
def effFltForce (w v : Nat) : Eff := .read fun s =>
  Eff.when (s.bit rFltCtrl 0) (Eff.each (((List.range 32).filter (bitOf v)).map fun i => 32 * w + i) fun src =>
    Eff.when (!srcReserved src) (countForced src))

/-- A write to FLT_CTRL. -/
def effFltCtrl (v : Nat) : Eff := Eff.when (v / 65536 == 0xF0CE) (putReg rFltCtrl (v % 2))

/-! ### Trips and captures (R581, R583, R584, R668) -/

/-- A write to FLT_TRIP_w clears trips and their FLT_PIN bits. -/
def effFltTrip (w v : Nat) : Eff := pinChange (Eff.each ((List.range 32).filter (bitOf v)) fun i =>
  .andThen (putBit (rFltTrip w) i false) (putBit (rFltPin w) i false))

/-- A write to FLT_CAP_CMD_g: POP in HISTORY, CLEAR in FIRST. -/
def effFltCapCmd (g v : Nat) : Eff := .read fun s =>
  if !bitOf v 0 then .skip
  else if s.history g then onFlt fun f => { f with caps := mset [] f.caps g ((mget [] f.caps g).drop 1) }
  else .andThen (onFlt fun f => { f with caps := mdel f.caps g }) (putBit (rFltCapStat g) 5 false)

/-! ### Releases (R590) -/

/-- A write to FLT_RELEASE. -/
def effFltRelease (v : Nat) : Eff := .read fun s =>
  let t := v % 128
  Eff.when (v / 65536 == 0x7E1A && decide (t < 96) && s.tileState t == 2) (.andThen (journalUnits 7 0 t 0 0 0) pumpJournal)

/-! ### Lane stoppages (R594) -/

/-- The lane mask that a port has, or is about to have. -/
def State.laneMask (s : State) (p : Nat) : Nat :=
  match (s.port p).lanes with
  | some (m, _) => m
  | none => s.pActive p

/-- LANE_STOPPAGE_SLOT: a slot falls. -/
def effLaneStoppageSlot : Eff := .read fun s =>
  let j := s.now / 2 ^ 33
  let lane := j % 64
  let p := lane / 4
  let l := lane % 4
  if !s.bit rStpCfg 13 || decide (j ≤ s.dev.board.laneSlot) then .skip
  else .andThen (onDev fun d => { d with board := { d.board with laneSlot := j } })
    (if s.pState p == 2 && decide (2 ≤ s.pWidth p) && bitOf (s.pActive p) l && bitOf (s.laneMask p) l && !s.bit rStpStatus 1
        && decide (s.chipId < s.fld (rIbnPNeigh p) 0 12) then
      Eff.all
        [ putBit rStpStatus 1 true, putFld rStpStatus 16 6 lane, bumpFld rStpTaken 32 16 1, startLanes p (s.laneMask p - 2 ^ l) ]
     else bumpFld rStpSkipped 0 32 1)

/-- LANE_STOPPAGE_END: the PRBS test has found errors or not, and the lane has adapted again or not. It rejoins through a second exchange. -/
def effLaneStoppageEnd (errors adapted : Bool) : Eff := .read fun s =>
  let lane := s.fld rStpStatus 16 6
  let p := lane / 4
  let l := lane % 4
  if !s.bit rStpStatus 1 then .skip
  else Eff.all
    [ endLaneStoppage p, Eff.when (errors || !adapted) (countAt 0x33 lane),
      .read fun t => Eff.when (adapted && t.pState p == 2 && !bitOf (t.pRetired p) l) (startLanes p (t.laneMask p ||| 2 ^ l)),
      processLanes, pumpJournal ]

/-! ### The commands -/

/-- FAULT_EVENT. -/
def execFaultEvent (src unit : Nat) (s : State) : Host.Outcome State Fault Refusal := (effFaultEvent src unit).done s
/-- FLT_FORCE, as a write to FLT_FORCE_w. -/
def execFltForce (rd w v : Nat) (s : State) : Host.Outcome State Fault Refusal :=
  (Eff.when (decide (w < 8)) (writeReg rd (rFltForce w) (effFltForce w v))).done s
/-- FLT_TRIP_CLEAR, as a write to FLT_TRIP_w. -/
def execFltTripClear (rd w v : Nat) (s : State) : Host.Outcome State Fault Refusal :=
  (Eff.when (decide (w < 8)) (writeReg rd (rFltTrip w) (effFltTrip w v))).done s
/-- POP, as a write to the FLT_CAP_CMD_g of a group in HISTORY mode. -/
def execPop (rd g v : Nat) (s : State) : Host.Outcome State Fault Refusal :=
  (Eff.when (decide (g < 16) && s.history g) (writeReg rd (rFltCapCmd g) (effFltCapCmd g v))).done s
/-- CAP_CLEAR, as a write to the FLT_CAP_CMD_g of a group in FIRST mode. -/
def execCapClear (rd g v : Nat) (s : State) : Host.Outcome State Fault Refusal :=
  (Eff.when (decide (g < 16) && !s.history g) (writeReg rd (rFltCapCmd g) (effFltCapCmd g v))).done s
/-- TILE_RELEASE, as a write to FLT_RELEASE. -/
def execTileRelease (rd v : Nat) (s : State) : Host.Outcome State Fault Refusal := (writeReg rd rFltRelease (effFltRelease v)).done s
/-- LANE_STOPPAGE_SLOT. -/
def execLaneStoppageSlot (s : State) : Host.Outcome State Fault Refusal := effLaneStoppageSlot.done s
/-- LANE_STOPPAGE_END. -/
def execLaneStoppageEnd (errors adapted : Bool) (s : State) : Host.Outcome State Fault Refusal := (effLaneStoppageEnd errors adapted).done s

end Sys2Proof.Machine
end

