-- ==== Sys2Proof/Machine/Pace.lean ====
section
/-!
DEFINITION. The pace controller (chapter 03): its readings over PMBus, its decision, the pace floor, outliers, and writes to PAC_TARGET.
-/
namespace Sys2Proof.Machine

/-! ### PMBus (R622, R623, Table 3.7) -/

/-- A transaction has succeeded. -/
def pmbOk : Eff := onPace fun p => { p with pmbFails := 0 }

/-- AVS_LOST. -/
def State.avsLost (s : State) : Bool := s.bit rPacStatus 4
/-- VOUT_MODE has been read and is linear. -/
def State.modeOk (s : State) : Bool := s.bit rBrdPmb 12
/-- The exponent N. -/
def State.pmbExp (s : State) : Int := signed 5 (s.fld rBrdPmb 7 5)

/-- A mantissa and an exponent, times `k`, rounded to the nearest integer (log entry 37); never below 0. -/
def scaled (m e k : Int) : Nat :=
  if e < 0 then (Int.fdiv (2 * m * k + 2 ^ (-e).toNat) (2 ^ ((-e).toNat + 1))).toNat else (m * k * 2 ^ e.toNat).toNat

/-- The mantissa of a voltage in mV: round(V × 2^−N), halves up. -/
def State.mantissa (s : State) (mv : Nat) : Nat :=
  let n := s.pmbExp
  if n ≤ 0 then (2 * mv * 2 ^ (-n).toNat + 1000) / 2000 else (2 * mv + 1000 * 2 ^ n.toNat) / (2000 * 2 ^ n.toNat)

/-- READ_VOUT. -/
def takeVout (r : Option Nat) : Eff := .read fun s =>
  match r with
  | none => pmbFail
  | some w => .andThen pmbOk (putFld rPacVdd 10 10 (min 1023 (scaled (w % 65536) s.pmbExp 1000)))

/-- READ_IOUT, LINEAR11. -/
def takeIout (r : Option Nat) : Eff :=
  match r with
  | none => pmbFail
  | some w => .andThen pmbOk (putFld rPacVdd 20 16 (min 65535 (scaled (signed 11 (w % 2048)) (signed 5 (w / 2048 % 32)) 100)))

/-- The readings of a loop period; none while node PMB is gated. VOUT_MODE is not read once AVS_LOST is 1, so that VOUT_MV then stays where
no linear mode has been read (log entry 89). -/
def pmbReadings (r : PmbReads) : Eff := .read fun s =>
  if s.bit rClkGateStatus 7 then .skip
  else Eff.all
    [ Eff.when (!s.modeOk && !s.avsLost) (takeVoutMode r.mode),
      .read fun t => Eff.when t.modeOk (takeVout r.vout), takeIout r.iout,
      .read fun t => putFld rPacVdd 36 16 (min 65535 ((2 * t.fld rPacVdd 10 10 * t.fld rPacVdd 20 16 + 10000) / 20000)) ]

/-! ### The decision (R81, R82, R87, R95) -/

/-- The in-service tiles, with their counts (R81). -/
def State.paced (s : State) : List (Nat × Nat) :=
  ((List.range 96).filter fun t => s.tileState t == 0).map fun t => (t, s.fld (rPacTile t) 0 18)

/-- The first of the tiles whose count is least, or greatest. -/
def extreme (better : Nat → Nat → Bool) : List (Nat × Nat) → Option (Nat × Nat)
  | [] => none
  | x :: xs => match extreme better xs with
    | none => some x
    | some y => some (if better y.2 x.2 then y else x)

/-- A list with an element in its place. -/
def insertNat (x : Nat) : List Nat → List Nat
  | [] => [x]
  | y :: ys => if x ≤ y then x :: y :: ys else y :: insertNat x ys

/-- Twice the median of counts: the two middle counts of an even number are both taken (log entry 38). -/
def twiceMedian (xs : List Nat) : Nat :=
  let l := xs.foldr insertNat []
  l.getD ((l.length - 1) / 2) 0 + l.getD (l.length / 2) 0

/-- The voltage that a step starts from: the last command acknowledged, or before the first the voltage read (log entry 39). -/
def State.vdd (s : State) : Nat := if s.fld rPacVdd 0 10 = 0 then s.fld rPacVdd 10 10 else s.fld rPacVdd 0 10

/-- The hottest tile sensor is at THROTTLE_C or above. -/
def State.tooHot (s : State) : Bool := decide ((4 * s.fld rPacLimits 8 8 : Nat) ≤ s.sfld rPacTemp 0 12)

/-- Measured core power is at PLIM_W or above: VOUT in mV times IOUT in 10 mA. -/
def State.tooStrong (s : State) : Bool := decide (100000 * s.fld rPacLimits 0 8 ≤ s.fld rPacVdd 10 10 * s.fld rPacVdd 20 16)

/-- The row of Table 3.3 that holds. -/
def State.paceRow (s : State) : Nat :=
  let v := s.vdd
  let target := s.fld rPacTarget 0 18
  let hyst := s.fld rPacTarget 19 13
  let slow := extreme (fun a b => decide (a < b)) s.paced
  let fast := extreme (fun a b => decide (b < a)) s.paced
  if !s.bit rPacCtrl 0 || !s.dev.board.pfailHigh then 1
  else if v < s.fld rPacBounds 36 10 then 2
  else if s.fld rPacBounds 46 10 < v then 3
  else if s.tooHot || s.tooStrong || fast.any fun p => decide (s.fld rPacBounds 18 18 < p.2) then 4
  else match slow with
    | some p => if p.2 + hyst < target then 5 else if target + hyst < p.2 then 6 else 7
    | none => 7

/-- The step that a row calls for: the voltage to command. -/
def State.paceStep (s : State) (row : Nat) : Option Nat :=
  let v := s.vdd
  let up := some (v + 5)
  let down := some (v - 5)
  match row with
  | 2 => up
  | 3 => down
  | 4 | 6 => if v ≤ s.fld rPacBounds 36 10 then none else down
  | 5 => if s.fld rPacBounds 46 10 ≤ v then none else up
  | _ => none

/-- A voltage command, unless AVS_LOST, no mode, or no voltage known. -/
def command (ack : Bool) (mv : Option Nat) : Eff := .read fun s =>
  match mv with
  | some v =>
    if s.avsLost || !s.modeOk || s.vdd == 0 then .skip
    else .andThen (emit (.voltage (s.fld rBrdPmb 0 7) (s.mantissa v)))
      (if ack then .andThen pmbOk (putFld rPacVdd 0 10 v) else pmbFail)
  | none => .skip

/-- The pace floor (R87). A decision with no tile in service breaks the run of four and leaves the flag (log entry 55). -/
def paceFloor : Eff := .read fun s =>
  match extreme (fun a b => decide (a < b)) s.paced with
  | none => onPace fun p => { p with belowRuns := 0 }
  | some x =>
    if s.fld rPacBounds 0 18 ≤ x.2 then .andThen (onPace fun p => { p with belowRuns := 0 }) (putBit rPacStatus 0 false)
    else
      let n := s.dev.pace.belowRuns + 1
      .andThen (onPace fun p => { p with belowRuns := n })
        (Eff.when (decide (4 ≤ n) && !s.bit rPacStatus 0) (.andThen (putBit rPacStatus 0 true) (countAt 0x07 0)))

/-- Pace outliers (Table 3.7). -/
def paceOutliers : Eff := .read fun s =>
  let ts := s.paced
  let med := twiceMedian (ts.map fun p => p.2)
  Eff.each (List.range 96) fun t =>
    match ts.find? fun p => p.1 == t with
    | some p =>
      if 200 * p.2 < 85 * med then
        let n := (s.tile t).lowRuns + 1
        .andThen (onTile t fun k => { k with lowRuns := if n = 16 then 0 else n }) (Eff.when (n == 16) (countAt 0x03 t))
      else onTile t fun k => { k with lowRuns := 0 }
    | none => onTile t fun k => { k with lowRuns := 0 }

/-- PAC_PACE_SUM and the flags of PAC_STATUS. -/
def paceFlags (row : Nat) : Eff := .read fun s =>
  let slow := (extreme (fun a b => decide (a < b)) s.paced).getD (0, 0)
  let fast := (extreme (fun a b => decide (b < a)) s.paced).getD (0, 0)
  let spread := !s.paced.isEmpty && decide (slow.2 + s.fld rPacTarget 19 13 < s.fld rPacTarget 0 18 ∧ s.fld rPacBounds 18 18 < fast.2)
  Eff.all
    [ putReg rPacPaceSum (slow.2 + slow.1 * 2 ^ 18 + fast.2 * 2 ^ 25 + fast.1 * 2 ^ 43),
      putBit rPacStatus 1 spread, putBit rPacStatus 2 (row == 4 && s.tooHot), putBit rPacStatus 3 (row == 4 && s.tooStrong),
      putFld rPacStatus 6 3 row ]

/-- PACE_DECISION: the decision of a loop period, once the PAC section has been applied. -/
def effPaceDecision (r : PmbReads) : Eff := .read fun s =>
  if s.dev.pace.marks = 0 || !s.bit rGlbRole 31 then .skip
  else Eff.all
    [ onPace fun p => { p with marks := 0 }, pmbReadings r,
      .read fun t => .andThen (paceFlags t.paceRow) (command r.command (t.paceStep t.paceRow)), paceFloor, paceOutliers, pumpJournal ]

/-! ### Writes to PAC_TARGET (R86, R94) -/

/-- A write to PAC_TARGET: in force at the next decision, or refused whole. -/
def effPacTarget (v : Nat) : Eff := .read fun s =>
  let target := v % 2 ^ 18
  let hyst := v / 2 ^ 19 % 2 ^ 13
  if paceOk (s.fld rPacBounds 36 10) (s.fld rPacBounds 46 10) target (s.fld rPacBounds 0 18) (s.fld rPacBounds 18 18) hyst
      (s.fld rPacLimits 8 8) (s.fld rPacLimits 0 8) then putReg rPacTarget (target + hyst * 2 ^ 19)
  else putBit rPacStatus 5 true

/-! ### The commands -/

/-- PACE_DECISION. -/
def execPaceDecision (r : PmbReads) (s : State) : Host.Outcome State Fault Refusal := (effPaceDecision r).done s
/-- PAC_TARGET_WRITE, as a write to PAC_TARGET. -/
def execPacTargetWrite (rd v : Nat) (s : State) : Host.Outcome State Fault Refusal := (writeReg rd rPacTarget (effPacTarget v)).done s

end Sys2Proof.Machine
end

