-- ==== Sys2Proof/Machine/Marks.lean ====
section
/-!
DEFINITION. The chip's own time mark (R289): every block that acts at a time mark acts.
-/
namespace Sys2Proof.Machine

/-! ### Fabric (R259, R282, R284, R293) -/

/-- The master's TIME_MARK on a port (R282): CORR counts from the mark's tick to this one, and on to the moment the frame's first bit
leaves, which is a matter of timing (log entry 4). -/
def sendMark (n p : Nat) : Eff := withFree fun v => .read fun s =>
  sendControl p 0x14 (n % 2 ^ 48 + min (2 ^ 32 - 1) (s.now - 65536 * n + v) * 2 ^ 48)

/-- The seeded master marks, and every UP port pings (R282, R284, R428). -/
def markFabric (n : Nat) : Eff := .read fun s => Eff.all
  [ Eff.when (s.isMaster && s.bit rTbsStatus 2) (Eff.each s.upPorts (sendMark n)),
    Eff.each s.upPorts fun p => sendControl p 0x16 s.now,
    onFab fun f => { f with ports := f.ports.map fun e => (e.1, { e.2 with towSlots := 0 }) },
    Eff.each s.upPorts continuePort, drainManage ]

/-- Corrected symbols and lost locks of active lanes: a lane counts once in a mark interval (R293). -/
def markLanes (d : MarkData) : Eff := Eff.all
  [ Eff.each d.symbols fun e => Eff.when (decide (e.1 < 64)) (bumpReg (rIbnPCnt (e.1 / 4) 2) 64 e.2),
    Eff.each (List.range 64) fun i => .read fun s =>
      Eff.when (bitOf (s.pActive (i / 4)) (i % 4) && (d.unlocked.contains i || d.symbols.any fun e => e.1 == i && decide (4096 < e.2)))
        (countAt 0x33 i),
    processLanes ]

/-! ### Collector (R576) -/

/-- A wire fault: its bit, a count at WIRE, one trip, and the pair is ignored. -/
def wireFault (src : Nat) : Eff := Eff.all
  [ setBit8 rFltWire src, countAt 0x47 src, trip src 0xFFFF 2 .skip, onFlt fun f => { f with ignored := sins f.ignored src } ]

/-- The rail pairs are sampled. -/
def markRails (rails : List Nat) : Eff := .read fun s =>
  let now := rails.filter fun x => decide (x < 256) && !srcReserved x && x != 0x47
  .andThen (Eff.each ((List.range 256).filter fun x => now.contains x && s.dev.flt.railsEqual.contains x && !s.dev.flt.ignored.contains x) wireFault)
    (onFlt fun f => { f with railsEqual := now })

/-! ### Pace and temperature (R80, R574, R588) -/

/-- The tile sensors that take part, with their readings. -/
def State.tileTemps (s : State) : List (Nat × Int) :=
  ((List.range 96).filter fun k => !s.excluded k).map fun k => (k, s.sfld (rCalTs k) 44 12)

/-- The hottest, the lowest number first. -/
def hottest : List (Nat × Int) → Option (Nat × Int)
  | [] => none
  | x :: xs => match hottest xs with
    | none => some x
    | some y => some (if x.2 < y.2 then y else x)

/-- PACE_CNT of a tile whose replica would make `base` cycles in the interval at trim 0 (R80, R663): its cycle time is proportional to
16 + TRIM_EFF. The count is rounded down, and stays within its field (log entry 88). -/
def State.paceCount (s : State) (t base : Nat) : Nat := min (2 ^ 18 - 1) (base * 16 / (16 + s.fld (rPacTile t) 22 4))

/-- PACE_CNT, the sensors' readings, PAC_TEMP and JUNCTION_HOT. A loop period ends at the marks whose number is a multiple of 16
(log entry 88). -/
def markPace (d : MarkData) (n : Nat) : Eff := Eff.all
  [ Eff.each d.pace fun e => .read fun s => Eff.when (decide (e.1 < 96)) (putFld (rPacTile e.1) 0 18 (s.paceCount e.1 e.2)),
    Eff.each d.raw fun e => Eff.when (decide (e.1 < 98) && e.1 != 96) (showT e.1 e.2),
    .read fun s => match hottest s.tileTemps with
      | some (k, t) => Eff.all
        [ putReg rPacTemp (unsigned 12 t + k * 2 ^ 12), Eff.when (decide (440 ≤ t)) (countAt 0x0A 0) ]
      | none => .skip,
    Eff.when (n % 16 == 0) (onPace fun p => { p with marks := 1 }) ]

/-! ### Activity (R485) -/

/-- At every 16th own mark the chip's activity is captured, and reported to the toll master. -/
def markActivity (n : Nat) : Eff := .read fun s =>
  if n % 16 != 0 || !s.bit rGlbRole 31 || s.phase == 7 then .skip
  else if s.isToll then
    match s.trayChips.findIdx? fun c => c == s.chipId with
    | some slot => .andThen (acceptReport slot s.dev.tol.sent s.counters) (onTol fun t => { t with sent := t.sent + 1 })
    | none => .skip
  else if s.hasRoute s.dev.fab.tollMaster then
    .andThen (sendManagement s.dev.fab.tollMaster 0x28 s.reportBytes) (onTol fun t => { t with sent := t.sent + 1 })
  else .skip

/-! ### The mark -/

/-- OWN_TIME_MARK: the timebase has reached a multiple of 65,536 that has had no mark. -/
def effOwnTimeMark (d : MarkData) : Eff := .read fun s =>
  let n := s.now / 65536
  if !s.dev.clk.started || decide (n ≤ (s.reg rIbnMark).toNat) then .skip
  else Eff.all
    [ putReg rIbnMark n, markXtal d.xtalRuns, zeroesInForce, markPace d n, markIro d.span, markRails d.rails, markLanes d, markWaits, markRanks,
      markFabric n, markActivity n, drainUsers [], startZeroes, nextStoppage, pumpJournal ]

/-- OWN_TIME_MARK. -/
def execOwnTimeMark (d : MarkData) (s : State) : Host.Outcome State Fault Refusal := (effOwnTimeMark d).done s

end Sys2Proof.Machine
end

