-- ==== Sys2Proof/Machine/Lengthsman.lean ====
section
/-!
DEFINITION. The lengthsman (R164, R170 to R172, R237, R238, R330, R372): its paced reads of HBM and of the on-chip memories, and what follows
from the errors they find.
-/
namespace Sys2Proof.Machine

/-- What the bad-page record of a page says that an error of the form map retires: no sector of the page has failed, so that its place in the
stack is left open (R158, R237, log entry 12). -/
def mapEvent (page v : Nat) : EccEvent :=
  { sector := page, kind := .uncorrectable, chan := v % 16, pseudo := v / 16 % 2, bank := v / 32 % 64, row := v / 2048 % 2 ^ 18 }

/-- An uncorrectable error of the form map: the 64 pages that its word covers are poisoned and RAW, and each counts once toward
retirement (R237). -/
def formMapUe (word : Nat) : Eff := .andThen (countAt 0x1E 0) (Eff.each ((List.range 64).map fun i => 64 * word + i) fun pg => Eff.all
  [ poisonSectors ((List.range 128).map fun i => 4096 * pg + 32 * i), setForm pg false,
    .read fun s =>
      let t := trackCe s.now (4096 * pg) s.dev.hbm.ceTrack
      .andThen (onHbm fun h => { h with ceTrack := if 3 ≤ t.1 then t.2.drop 1 else t.2 })
        (Eff.when (decide (3 ≤ t.1)) (withFree fun v => retirePage { page := 4096 * pg, cause := 1, ev := mapEvent (4096 * pg) v })) ])

/-- An uncorrectable error of a codec table makes it INVALID (Table 7.7). -/
def codecTableUe (t : Nat) : Eff := Eff.all
  [ countAt 0x1C 0, setTable t 0, Eff.each (List.range 16) fun b => .read fun s => Eff.when (s.surveys b t) (endSurvey b) ]

/-- A staging buffer's uncorrectable error (R406): the page is read again from HBM, from where it was staged, or the extent again from its
drive, before anything is sent or written. The command's length stays (log entry 95). -/
def restage (off : Nat) (es : List EccEvent) : Eff := .read fun s =>
  let held (c : DrvCmd) : Bool := decide (c.buf ≤ off ∧ off < c.buf + 0x12000)
  match (s.dev.whf.drives.flatMap fun d => d.2.cmds).find? held with
  | some c => match c.role with
    | .extent k p _ _ _ a => match pageExtent p 0 (s.wset k).defn.tensors, (s.wset k).epoch with
      | some (ti, t, ext), some e => Eff.all
        [ readSectors (s.setOwner k) (sectorsOf a 65536) es, actRead (s.setOwner k) 2048,
          .read fun u =>
            if u.anyPoison a 65536 then .andThen (failRun k 0x1B) pumpWharf
            else sramPut c.buf (padTo (4096 * c.nlb)
              ((extentBytes t ti ext e.number (setUnits (s.wset k).defn (u.bytes a (4096 * t.units ext)))).take (4096 * c.nlb))) ]
      | _, _ => .skip
    | .readExtent _ _ => onWhf fun w => { w with drives := w.drives.map fun d =>
        (d.1, { d.2 with cmds := d.2.cmds.map fun x => if held x then { x with again := true } else x }) }
    | _ => .skip
  | none => .skip

/-- An error of an on-chip memory; what the reads that it leads to find. -/
def chipError (es : List EccEvent) : ChipMemory → Eff
  | .tileSram t ue => Eff.when (decide (t < 96)) (if ue then .andThen (faultTile t) (countAt 0x05 t) else countAt 0x04 t)
  | .requestTable ue e intact => Eff.when (decide (e < 4096)) (if ue then tableFault e intact else countAt 0x17 0)
  | .prefixIndex ue n => Eff.when (decide (n < 65536)) (if ue then indexFault n else countAt 0x19 0)
  | .codecTable ue t => Eff.when (decide (t < 256)) (if ue then codecTableUe t else countAt 0x1B 0)
  | .formMap ue w => Eff.when (decide (262144 * w < hbmSize)) (if ue then formMapUe w else countAt 0x1D 0)
  | .remapStore => .andThen (putBit rMemStatus 2 true) (countAt 0x1F 0)
  | .wharfSram ue off => if ue then .andThen (countAt 0x16 0) (restage off es) else countAt 0x15 0
  | .rankState ue hit => if ue then rankStateUe hit else countAt 0x26 0

/-- LENGTHSMAN_READ: the next 64 B of the pass, and on-chip memories, are read; at the end of HBM the next pass starts. -/
def effLengthsmanRead (es : List EccEvent) (chip : List ChipMemory) : Eff := .read fun s =>
  let a := s.fld rMemScrub 0 35
  if !s.bit rMemStatus 0 then .skip
  else Eff.all
    [ sectorErrors (fun p => decide (a ≤ p ∧ p < a + 64)) es, Eff.each chip (chipError es),
      if a + 64 < hbmSize then putFld rMemScrub 0 35 (a + 64)
      else Eff.all [putFld rMemScrub 0 35 0, bumpFld rMemScrub 48 16 1, putReg rMemScrubLast s.now],
      drainUsers [], pumpJournal ]

/-- LENGTHSMAN_READ. -/
def execLengthsmanRead (es : List EccEvent) (chip : List ChipMemory) (s : State) : Host.Outcome State Fault Refusal :=
  (effLengthsmanRead es chip).done s

end Sys2Proof.Machine
end

