-- ==== Sys2Proof/Machine/Resets.lean ====
section
/-!
DEFINITION. Resets (chapters 00, 05, 06, 16, 18): what ends with them, basin resets, BLOCK_RESETs, CHIP_RESET and PORESET, and queue disabling.
-/
namespace Sys2Proof.Machine

/-! ### Queues (R205 to R208) -/

/-- A queue's entry is being run behind the queue: by the program engine or by a copy engine. -/
def State.engineRuns (s : State) (q : Nat) : Bool :=
  (s.prog q).isSome || !(s.runsOf q).isEmpty

/-- What runs for a queue on the engines stops with ABORTED: its program, its copy, and the runs of its sets, whose entries have ended. -/
def stopRuns (q : Nat) : Eff := .read fun s => Eff.all
  [ Eff.each (List.range 16) fun k => match (s.wset k).epoch with
      | some r => Eff.when (r.q == q && s.setState k == 2) (endEpoch k { r with posted := true } 0x1C)
      | none => .skip,
    onWhf (fun w => { w with sets := w.sets.map fun e => (e.1, { e.2 with
      epoch := e.2.epoch.map fun r => if r.q = q then { r with posted := true, fail := r.fail.or (some 0x1C) } else r
      restore := e.2.restore.map fun r => if r.q = q then { r with posted := true, fail := r.fail.or (some 0x1C) } else r
      adopt := e.2.adopt.map fun r => if r.q = q then { r with posted := true, fail := r.fail.or (some 0x1C) } else r }) }),
    onSrv (fun v => { v with basins := v.basins.map fun e => (e.1, { e.2 with
      step := e.2.step.map fun r => if (r.entry.map fun x => x.1 == q).getD false then { r with entry := none } else r }) }),
    abortProg q,
    Eff.each (s.runsOf q) fun e => copyStop e 0x1C ]

/-- The entries already taken up end ABORTED; the one an engine runs is left to `stopRuns`. With `all`, those not started end so too; without,
they are discarded. -/
def endTaken (q : Nat) (all : Bool) : Eff := .read fun s =>
  let engine := if s.engineRuns q then (s.current q).map (·.idx) else none
  let kept := (s.queue q).owed.filter fun e => all || e.fin.isSome || e.stage != .fetched
  onQueue q fun k => { k with owed := kept.map fun e =>
    if e.fin.isSome || engine == some e.idx then e else { e with fin := some { status := 0x1C }, stage := .running } }

/-- The entries up to the accepted tail that have not been fetched end ABORTED and are fetched for their TAG alone (R205). -/
def endUnfetched (q : Nat) : Eff := .read fun s =>
  let d := s.qDepth q
  onQueue q fun k =>
    { k with
      owed := k.owed ++ (List.range (s.sqCount q)).map fun i =>
        { idx := (k.nextFetch + i) % d, stage := .abortTag, fin := some { status := 0x1C } }
      nextFetch := k.sqTail }

/-- Every entry of a queue up to the accepted tail ends ABORTED (R205). -/
def abortQueue (q : Nat) : Eff := Eff.all [endTaken q true, endUnfetched q, stopRuns q, pumpWharf, post q]

/-- A queue becomes DISABLED once it owes nothing. -/
def beginClosing (q : Nat) : Eff := onQueue q fun k => { k with closing := true }

/-- A queue of a basin that is reset (R206). -/
def resetQueue (q : Nat) : Eff := .andThen (beginClosing q) (abortQueue q)

/-- A write of DISABLE (R207). -/
def disableQueue (q : Nat) : Eff := .read fun s =>
  if s.qState q = 0 then .skip
  else Eff.all
    [ beginClosing q, endTaken q false, onQueue q (fun k => { k with nextFetch := k.sqTail }), dropRead (.sq q), stopRuns q, pumpWharf, post q ]

/-- A queue drops all it owes and becomes DISABLED at once (R208, R612 step 3). -/
def dropQueue (q : Nat) : Eff := .andThen (onQueue q fun k => { k with dead := true }) (disableQueue q)

/-- A write to QUE_CTRL_q: DISABLE takes precedence. -/
def queueCtrl (q v : Nat) : Eff := if bitOf v 1 then disableQueue q else if bitOf v 0 then enableQueue q else .skip

/-- The queues that satisfy a condition and are not DISABLED. -/
def State.liveQueues (s : State) (p : Nat → Bool) : List Nat :=
  (List.range 256).filter fun q => s.qPresent q && s.qState q != 0 && p q

/-! ### Sets -/

/-- What runs on a set ends ABORTED, and the set becomes UNDEFINED once its drive commands have completed (Table 11.9). -/
def undefineSet (k : Nat) : Eff := .read fun s =>
  Eff.when (s.setState k != 0 || (s.wset k).adopt.isSome) (Eff.all
    [ onSet k fun w => { w with undo := true, epoch := w.epoch.map fun r => { r with posted := true } },
      match (s.wset k).epoch with
      | some e => if s.setState k = 2 then endEpoch k { e with posted := true } 0x1C else failRun k 0x1C
      | none => failRun k 0x1C,
      pumpWharf ])

/-! ### Basin resets (R165 to R168, R233, R329, R373) -/

/-- Two windows share a byte. -/
def Window.meets (v w : Window) : Bool := decide (v.first ≤ w.last ∧ w.first ≤ v.last)

/-- The windows that a basin reset zeroes: those of HBM with W that share no byte with another basin's. -/
def State.zeroWindows (s : State) (b : Nat) : List Window :=
  (s.windows b).filter fun w => bitOf w.rights 1 && inHbm w.last
    && ((List.range 16).filter fun c => c != b).all fun c => (s.windows c).all fun v => !v.meets w

/-- The codec at a basin reset: the basin's tables INVALID, its survey ended, its staging zero. -/
def codecBasinReset (b : Nat) : Eff := .read fun s => Eff.all
  [ Eff.each ((List.range 256).filter fun t => s.tblOwned b t) fun t => setTable t 0, endSurvey b, clearHist b,
    Eff.each (List.range 64) fun w => putReg (rCdcStage b w) 0 ]

/-- The work of a basin ends and its zeroing begins (R166). -/
def basinReset (b : Nat) : Eff := .read fun s => Eff.all
  [ putFld (rLckBasin b) 0 2 2, Eff.each (s.liveQueues fun q => s.qOwner q == b) resetQueue,
    Eff.each ((List.range 16).filter fun k => s.setPresent k && s.setOwner k == b) undefineSet,
    serveReset b, rankBasinReset b, codecBasinReset b,
    putFld (rLckBasin b) 3 29 ((s.zeroWindows b).map fun w => (w.last + 1 - w.first) / 4096).sum ]

/-- BASIN_RESET: a basin reset that is due takes place. A CHIP_RESET that is due replaces it (R580). -/
def effBasinReset (b : Nat) : Eff := .read fun s =>
  Eff.when (s.dev.due.basins.contains b && s.dev.due.chip.isNone)
    (.andThen (onDue fun d => { d with basins := sdel d.basins b }) (Eff.when (s.isOpen b) (basinReset b)))

/-- BASIN_REOPEN: the zeroing ends, and the basin returns to OPEN. The zeroing waits for copies of armed pages and sets dirty bits as every
write does (R388, R389). -/
def effBasinReopen (b : Nat) : Eff := .read fun s =>
  Eff.when (s.fld (rLckBasin b) 0 2 == 2 && !(s.zeroWindows b).any fun w => s.cowWait w.first (w.last + 1 - w.first)) (Eff.all
    [ Eff.each (s.zeroWindows b) fun w => Eff.all
        [ .act (.zeroRange w.first (w.last + 1 - w.first)), markRaw w.first (w.last + 1 - w.first), markDirty w.first (w.last + 1 - w.first) ],
      putFld (rLckBasin b) 3 29 0, putFld (rLckBasin b) 0 2 1 ])

/-! ### BLOCK_RESETs (R205, R580, Table 16.3) -/

/-- The registers that a BLOCK_RESET of a block resets. -/
def ofBlock (k : Block) (off : Nat) : Bool :=
  match locate off with
  | some l => l.row.blk == some k
  | none => false

/-- Every queue of a kind loses its entries. -/
def abortKind (kind : Nat) : Eff := .read fun s => Eff.each (s.liveQueues fun q => s.qKind q == kind) abortQueue

/-- A tile stoppage in progress ends (PAC_TILE_t.STATE). -/
def endTileStoppage : Eff := .read fun s => Eff.all
  [ Eff.each ((List.range 96).filter fun t => s.tileState t == 1) (fun t => putFld (rPacTile t) 18 2 0), putBit rStpStatus 0 false,
    putFld rStpStatus 8 7 0 ]

/-- The tables being surveyed become INVALID (R233). -/
def endSurveys : Eff := .read fun s => Eff.all
  [ Eff.each ((List.range 256).filter fun t => s.tblState t == 2) fun t => setTable t 0, onCodec fun c => { c with hist := [] } ]

/-- The serving engine's BLOCK_RESET (R373). -/
def serveBlock : Eff := Eff.all
  [ Eff.each (List.range 16) (fun b => .andThen (serveReset b) (putFld (rSrvState b) 24 8 0)),
    onSrv fun v => { v with reqs := [], basins := [] }, bumpReg rSrvResets 32 1 ]

/-- The spill and restore copies under way are given up; they begin anew with the region that they were in. -/
def dropMoves : Eff := .read fun s => Eff.each (s.dev.work.engines.filter fun x => decide (256 ≤ x.2.q)) fun x => Eff.all
  [ onWork fun w => { w with engines := mdel w.engines x.1 }, dropRead (.copy x.1) ]

/-- The adaptive trim steps that tiles still owe stay owed across an effect, which makes none of them (R90). -/
def keepTrims (e : Eff) : Eff := .read fun s => Eff.all
  [ Eff.each (List.range 96) fun t => onTile t fun k => { k with pendingTrim := 0 }, e,
    Eff.each (List.range 96) fun t => onTile t fun k => { k with pendingTrim := (s.tile t).pendingTrim } ]

/-- The wharf's BLOCK_RESET: its entries end ABORTED, and what the block holds goes with it: epochs, restores, drive commands, buffers in use and
quarantined, so that its sets are UNDEFINED and its drive slots OFF. -/
def wharfBlockReset : Eff := Eff.all [abortKind 3, onWhf fun _ => {}, .act (.resetRegs (ofBlock .wharf))]

/-- A block's reset: the state and registers of the named block (Table 0.4). A register whose card lists its resets without BLOCK_RESET beside a
register of the block that lists it, or as unchanged by it, is kept: DMA_BLOCKS and WHF_SET_s.STALLS (DESIGN CHOICE, log entry 92). -/
def blockReset : Block → Eff
  | .compute => keepTrims (.andThen (abortKind 0) endTileStoppage)
  | .dma => Eff.all [abortKind 1, dropMoves, endSurveys, .act (.resetRegs (ofBlock .dma))]
  | .serve => Eff.all [abortKind 2, serveBlock, .act (.resetRegs (ofBlock .serve))]
  | .rank => .andThen (.act (.resetRegs (ofBlock .rank))) rankBlockReset
  | .wharf => wharfBlockReset

/-- BLOCK_RESET: one that is due takes place. A CHIP_RESET that is due replaces it (R580). -/
def effBlockReset (k : Block) : Eff := .read fun s =>
  Eff.when (s.dev.due.blocks.contains k && s.dev.due.chip.isNone)
    (.andThen (onDue fun d => { d with blocks := d.blocks.filter fun x => x != k }) (blockReset k))

/-! ### CHIP_RESET and PORESET (R529 to R533, R582, R666) -/

/-- The engines' state after a reset of the main domain: the keeper island, the flash's contents, the fuses and the board's inputs stay; the
captures and the PCIe link's state stay at CHIP_RESET. -/
def Dev.mainReset (d : Dev) (chip : Bool) : Dev :=
  { keep := d.keep
    lcd := d.lcd
    flash := { bytes := d.flash.bytes }
    img := { owner := d.img.owner, svnMin := d.img.svnMin }
    board := { d.board with ptr := 0, len := 4, laneSlot := 0 }
    flt := { caps := if chip then d.flt.caps else [] }
    pci := if chip then { d.pci with reads := [] } else {} }

/-- The I²C target's own address and the regulator's follow the straps (R615, R622). -/
def strapAddresses : Eff := .read fun s =>
  .andThen (putReg rBrdI2c (0x58 + s.fld rBrdStrap 0 2)) (putReg rBrdPmb (0x40 + s.fld rBrdStrap 2 2))

/-- What is under way at the boundary of a reset ends: the updates that a battery test holds are applied, and a flash transaction is
abandoned (R532). -/
def settleKeeper : Eff := .andThen (.read fun s => Eff.when s.testing applyHeld) abandonFlash

/-- The faults' resets of the last 600 s of the real-time clock (R533). -/
def State.recentResets (s : State) : List Nat := s.dev.keep.resets.filter fun t => decide (s.rtc < t + 600 * 32768)

/-- The keeper records a CHIP_RESET (GLB_RESET_CAUSE, R533). -/
def recordReset (last src : Nat) : Eff := .read fun s => Eff.all
  [ putFld rGlbResetCause 0 4 last, Eff.when (last == 3) (putFld rGlbResetCause 4 8 src), bumpFld rGlbResetCause 16 16 1,
    Eff.when (last == 3) (onKeep fun k =>
      { k with storm := k.storm || decide (8 ≤ s.recentResets.length), resets := s.rtc :: s.recentResets }) ]

/-- The main domain's reset: its registers, the gates, the timebase and the engines. Its kinds are CHIP_RESET, or PORESET with the registers that
CHIP_RESET keeps. -/
def State.mainReset (s : State) (chip : Bool) : State :=
  { s with
    now := 0
    regs := s.regs.filter fun e => !resetsAt (if chip then [.pc] else [.pc, .p]) e.1
    gates := []
    dev := s.dev.mainReset chip }

/-- What CHIP_RESET leaves: an XTAL that is GOOD stays so (R532), and the PCIe link stays up (R666). -/
def keepLink (xtal link : Nat) : Eff := Eff.all
  [ Eff.when (xtal == 1) (putFld rClkStatus 0 2 1), putFld rPciLink 0 9 link, strapAddresses ]

/-- CHIP_RESET: one that is due takes effect. -/
def State.chipReset (s : State) : State :=
  match s.dev.due.chip with
  | none => s
  | some (last, src) =>
    (keepLink s.xtal (s.fld rPciLink 0 9)).run (((Eff.andThen settleKeeper (recordReset last src)).run s).mainReset true)

/-- The level of a PWR_GOOD input. -/
def Board.lower (b : Board) (input : Nat) : Board :=
  { b with good := b.good - b.good % 2 ^ (input + 1) / 2 ^ input * 2 ^ input, poreset := true }

/-- PORESET is asserted: FAULT_N is released with FLT_PIN (R582). -/
def State.poreset (s : State) : State :=
  (((Eff.all [settleKeeper, putFld rGlbResetCause 0 4 2, Eff.when s.faultN (emit (.faultPin false))]).run s).mainReset false)

/-- PWR_GOOD_FALL: a PWR_GOOD input falls, and PORESET is asserted. -/
def State.powerFall (s : State) (input : Nat) : State :=
  if 4 ≤ input ∨ bitOf s.dev.board.good input = false then s
  else
    let t := if s.dev.board.poreset then s else s.poreset
    (onDev fun d => { d with board := d.board.lower input }).run t

/-- PWR_GOOD_RISE: a PWR_GOOD input rises. -/
def effPwrGoodRise (input : Nat) : Eff := .read fun s =>
  Eff.when (decide (input < 4) && !bitOf s.dev.board.good input)
    (onDev fun d => { d with board := { d.board with good := d.board.good + 2 ^ input } })

/-- PORESET_RELEASE: the straps are sampled and start step 1 begins. `fromOff` tells that the supplies have risen from off (Table 16.2). -/
def effPoresetRelease (straps : Nat) (fromOff : Bool) : Eff := .read fun s =>
  Eff.when (s.dev.board.poreset && s.dev.board.good == 15) (Eff.all
    [ onDev (fun d => { d with board := { d.board with poreset := false } }), putReg rBrdStrap (straps % 16), strapAddresses,
      putFld rGlbResetCause 0 4 (if fromOff then 1 else 2), endCurrentOnly ])

/-- A keyed write to GLB_CHIP_RESET (Table 16.2, R559). -/
def chipResetWrite (v : Nat) : Eff :=
  if bitsOf v 16 16 != 0xC41F then .skip
  else if bitOf v 1 then .andThen (onKeep fun k => { k with dryReq := true }) (causeChipReset 6 0)
  else if bitOf v 0 then causeChipReset 4 0
  else .skip

/-! ### The commands -/

/-- PWR_GOOD_RISE. -/
def execPwrGoodRise (input : Nat) (s : State) : Host.Outcome State Fault Refusal := (effPwrGoodRise input).done s
/-- PWR_GOOD_FALL. -/
def execPwrGoodFall (input : Nat) (s : State) : Host.Outcome State Fault Refusal := .next (s.powerFall input)
/-- PORESET_RELEASE. -/
def execPoresetRelease (straps : Nat) (fromOff : Bool) (s : State) : Host.Outcome State Fault Refusal :=
  (effPoresetRelease straps fromOff).done s
/-- GO, as a write to GLB_CHIP_RESET without DRYDOCK. -/
def execGo (rd v : Nat) (s : State) : Host.Outcome State Fault Refusal :=
  (Eff.when (!bitOf v 1) (writeReg rd rGlbChipReset (chipResetWrite v))).done s
/-- DRYDOCK, as a write to GLB_CHIP_RESET with DRYDOCK. -/
def execDrydock (rd v : Nat) (s : State) : Host.Outcome State Fault Refusal :=
  (Eff.when (bitOf v 1) (writeReg rd rGlbChipReset (chipResetWrite v))).done s
/-- CHIP_RESET. -/
def execChipReset (s : State) : Host.Outcome State Fault Refusal := .next s.chipReset
/-- BLOCK_RESET. -/
def execBlockReset (k : Block) (s : State) : Host.Outcome State Fault Refusal := (effBlockReset k).done s
/-- LCK_BASIN_RESET, as a write to the register. -/
def execLckBasinReset (rd v : Nat) (s : State) : Host.Outcome State Fault Refusal :=
  (writeReg rd rLckBasinReset (effLckBasinReset v)).done s
/-- BASIN_RESET. -/
def execBasinReset (b : Nat) (s : State) : Host.Outcome State Fault Refusal := (effBasinReset b).done s
/-- BASIN_REOPEN. -/
def execBasinReopen (b : Nat) (s : State) : Host.Outcome State Fault Refusal := (effBasinReopen b).done s
/-- QUEUE_DISABLE, as a write to QUE_CTRL_q with DISABLE. -/
def execQueueDisable (rd q v : Nat) (s : State) : Host.Outcome State Fault Refusal :=
  (Eff.when (bitOf v 1) (writeReg rd (rQueCtrl q) (queueCtrl q v))).done s

end Sys2Proof.Machine
end

