-- ==== Sys2Proof/Machine/Views.lean ====
section
/-!
DEFINITION. What registers show (chapters 00 and 20): values that the device forms when they are read, and the place that an offset names for a
reader.
-/
namespace Sys2Proof.Machine

/-! ### Formed values -/

/-- GLB_RESET_CAUSE, with STORM. -/
def State.showCause (s : State) : Nat := (setFld (s.reg rGlbResetCause) 12 4 (min 15 s.recentResets.length)).toNat

/-- CLK_GATE_STATUS: SPI and PERI run while a flash operation is outstanding, and MTR is gated on a chip that is not toll master (R28, R416). -/
def State.showGates (s : State) : Nat :=
  let v := (s.reg rClkGateStatus).toNat
  let v := if s.dev.flash.op.isSome then v - v % 128 / 64 * 64 - v % 16 / 8 * 8 else v
  if decide (4 ≤ s.phase) && !s.isToll then v ||| 256 else v

/-- CLK_IRO, with REF (R424). -/
def State.showIro (s : State) : Nat :=
  (setFld (s.reg rClkIro) 48 2 (if s.xtal ≤ 1 then 0 else if s.timeMode = 1 then 1 else 2)).toNat

/-- IBN_FLOWS. -/
def State.showFlows (s : State) : Nat :=
  let f := s.dev.fab
  f.src.length % 65536 + (f.src.filter fun e => e.2.state == 2).length % 65536 * 65536 + f.dst.length % 131072 * 2 ^ 32

/-- The sources whose FLT_TRIP bit is set. -/
def State.tripped (s : State) : List Nat := (List.range 256).filter fun i => s.bit (rFltTrip (i / 32)) (i % 32)

/-- FLT_STATUS. -/
def State.showFltStatus (s : State) : Nat :=
  b2n s.faultN + s.tripped.length * 2 + s.tripped.headD 0 * 1024
    + b2n ((List.range 8).any fun w => (s.reg (rFltWire w)).toNat != 0) * 262144

/-- FLT_CAP_g: the head record. -/
def State.showCap (s : State) (g j : Nat) : Nat :=
  match s.caps g with
  | [] => 0
  | c :: _ => if j = 0 then c.tick else c.source + c.flags * 2 ^ 8 + c.unit * 2 ^ 16 + c.count * 2 ^ 32 + c.reactions * 2 ^ 40

/-- BRD_PWR. -/
def State.showPower (s : State) : Nat :=
  let b := s.dev.board
  (s.reg rBrdPwr).toNat + b.good % 16 + b2n b.pfailHigh * 16 + b2n b.perstHigh * 32

/-- A word of the request table (Table 10.5). -/
def State.showReq (s : State) (e j : Nat) : Nat := leNat ((s.req e).bytes.drop (8 * j) |>.take 8)

/-- Who a snapshot buffer belongs to: 1 the I²C target's, 0 that of PF0. -/
def snapWho (rd : Nat) : Nat := if rd = i2cReader then 1 else 0

/-- TOL_JRN, once the journal has been read. -/
def State.showJournal (s : State) : Nat :=
  if s.dev.flash.density = 0 then 0 else s.dev.flash.sector % 256 + s.dev.flash.nextSeq * 256

/-- A register of the MTR or TOL block. -/
def meterBlock (off : Nat) : Bool := decide (0xB0000 ≤ off ∧ off < 0xD0000)

/-- A register of the LCD block. -/
def lcdBlock (off : Nat) : Bool := decide (0xD0000 ≤ off ∧ off < 0xE0000)

/-- A register lies in a block that R28 keeps idle: the meter's and the tolls' on a chip that is not toll master, the panel's on one that the last image
applied did not make toll master. -/
def State.idleBlock (s : State) (off : Nat) : Bool := (meterBlock off && !s.isToll) || (lcdBlock off && !s.dev.keep.tollMaster)

/-- A register of a meter channel, or of a phase, that wiring 1P2W does not use (R439). -/
def State.unusedMeter (s : State) (l : Loc) : Bool :=
  s.bit rMtrCfg 0 &&
    (([rMtrCh 0 0, rMtrChFact 0 0, rMtrChImg 0 0, rMtrChRun 0 0, rMtrChEff 0 0, rMtrChCalcnt 0, rMtrChCaltick 0 0, rMtrHarm 0 0,
        rMtrTtab 0 0].contains l.row.base && !([0, 3, 6].contains l.i))
      || (l.row.base == rMtrPh 0 0 && l.i != 0))

/-- What a register of a block that does not answer in dry-dock reads as: its reset value, which for the fuse-derived fields of CAL is the fuses'
(R560). -/
def State.dockValue (s : State) (l : Loc) : Nat :=
  let v := (s.reg l.reg).toNat
  if [rCalBg, rCalIroFact].contains l.reg then v
  else if l.row.base = rCalTs 0 then v % 2 ^ 24
  else if l.row.base = rCalTile 0 then v % 2 ^ 22
  else (regReset l.reg).toNat

/-- The value that a register shows to a reader (R8). Outside the blocks that answer in dry-dock (R560), and in a block that R28 keeps idle, it is the
reset value. -/
def State.shown (s : State) (rd : Nat) (l : Loc) : Nat :=
  let o := l.reg
  let b := l.row.base
  if s.dryDock && !dryDockBlock o then s.dockValue l
  else if s.idleBlock o then (regReset o).toNat
  else if l.row.acc = .wo then 0
  else if b = rGlbStatus then b2n (s.dev.readers.unpaired.contains rd)
  else if b = rGlbGate 0 0 then s.gate l.i l.j
  else if b = rGlbResetCause then s.showCause
  else if b = rClkGateStatus then s.showGates
  else if b = rClkIro then s.showIro
  else if b = rTbsCount then (if s.dev.clk.started then s.now else 0)
  else if b = rIbnFlows then s.showFlows
  else if b = rFltStatus then s.showFltStatus
  else if b = rFltCap 0 0 then s.showCap l.i l.j
  else if b = rFltCapStat 0 then (s.reg o).toNat + (s.caps l.i).length
  else if b = rBrdPwr then s.showPower
  else if s.unusedMeter l then 0
  else if b = rReqTable 0 0 then s.showReq l.i l.j
  else if b = rTolStatus then (setFld (s.reg o) 3 1 (s.fld rMtrTamperStatus 0 1)).toNat
  else if b = rTolSnapStatus then mget 0 s.dev.tol.status (snapWho rd)
  else if b = rTolSnap 0 then getLe (mget [] s.dev.tol.bufs (snapWho rd)) (4 * l.i) 4
  else if b = rTolJrn then s.showJournal
  else (s.reg o).toNat

/-- A register's value is formed for a reader. The levels of BRD_GPIO's pins are outside the device: a free value. -/
def showing (rd : Nat) (l : Loc) (k : Nat → Eff) : Eff := .read fun s =>
  if l.reg = rBrdGpio ∧ s.dryDock = false then withFree fun v => k (s.shown rd l + v % 16 * 256) else k (s.shown rd l)

/-! ### Places (R629, R633, R635, R636, R670) -/

/-- What a 4-byte aligned offset names for a reader: a hole, a word of the MSI-X table or of the pending-bit array of a function, a register, or
a word of the request-table view beyond the basin's entries, a register of its own with its own identity (R636). -/
inductive Place where
  | hole
  | vector (f word : Nat)
  | pendingBits (f word : Nat)
  | reg (l : Loc)
  | beyond (reg : Nat) (high : Bool)
deriving DecidableEq, Repr

/-- The size of the window through which a reader reaches the control space. -/
def windowSize (rd : Nat) : Nat := if isVf rd then 0x100000 else 0x1000000

/-- An MSI-X table and pending-bit array from offset `t` on. -/
def msixPlace (f t off : Nat) : Option Place :=
  if t ≤ off ∧ off < t + 0x400 then some (.vector f ((off - t) / 4))
  else if t + 0x8000 ≤ off ∧ off < t + 0x8008 then some (.pendingBits f ((off - t - 0x8000) / 4))
  else none

/-- The place in VF b's request-table view, `d` bytes from its start (R636). -/
def State.viewPlace (s : State) (b d : Nat) : Place :=
  let i := 1024 * s.fld (rSrvView (b - 1)) 0 2 + d / 128
  if s.reqQuota b ≤ i then .beyond (0x1000000 + i * 128 + d % 128 / 8 * 8) (d % 8 == 4)
  else match locate (rReqTable (s.slotBase b + i) 0 + d % 128) with
    | some l => .reg l
    | none => .hole

/-- The place that an offset names. -/
def State.place (s : State) (rd off : Nat) : Place :=
  let msix := if rd = 0 then msixPlace 0 0xFF0000 off else if isVf rd then msixPlace rd 0xF0000 off else none
  match msix with
  | some p => p
  | none =>
    if isVf rd && decide (0xD0000 ≤ off ∧ off < 0xF0000) then s.viewPlace rd (off - 0xD0000)
    else match s.visible rd off with
      | some l => .reg l
      | none => .hole

/-- The place is the low word of a 64-bit register. -/
def Place.isWide : Place → Bool
  | .reg l => l.row.wide && !l.high
  | .beyond _ high => !high
  | _ => false

/-- The place is the high word of a 64-bit register. -/
def Place.isHigh : Place → Bool
  | .reg l => l.high
  | .beyond _ high => high
  | _ => false

/-! ### Identity in configuration space (Tables 19.1 and 19.2) -/

/-- What a function shows of itself in configuration space. -/
structure PciIdentity where
  vendor : Nat
  device : Nat
  revision : Nat
  classCode : Nat
  /-- The Device Serial Number. -/
  serial : Nat
  deriving DecidableEq, Repr

/-- PF0's identity for f = 0, and that of the VFs for the others. -/
def State.pciIdentity (s : State) (f : Nat) : PciIdentity :=
  { vendor := 0x1E2F, device := if f = 0 then 0x5F01 else 0x5F02, revision := 0xA1, classCode := 0x120000, serial := (s.reg rImgSerial).toNat }

/-! ### MSI-X tables (R604, R667) -/

/-- The MSI-X entry of a function's vector. -/
def State.vec (s : State) (f v : Nat) : Vec := mget {} s.dev.pci.vecs (64 * f + v)

/-- A word of an MSI-X table: address low and high, data, and the mask bit. -/
def State.vectorWord (s : State) (f word : Nat) : Nat :=
  let x := s.vec f (word / 4)
  match word % 4 with
  | 0 => bitsOf x.addr 0 32
  | 1 => bitsOf x.addr 32 32
  | 2 => x.data
  | _ => b2n x.masked

/-- A write to a word of an MSI-X table. -/
def putVector (f word v : Nat) : Eff := onDev fun d =>
  let x := mget {} d.pci.vecs (64 * f + word / 4)
  let y : Vec :=
    match word % 4 with
    | 0 => { x with addr := bitsOf x.addr 32 32 * 2 ^ 32 + v % 2 ^ 32 / 4 * 4 }
    | 1 => { x with addr := bitsOf x.addr 0 32 + v % 2 ^ 32 * 2 ^ 32 }
    | 2 => { x with data := v % 2 ^ 32 }
    | _ => { x with masked := bitOf v 0 }
  { d with pci := { d.pci with vecs := mset {} d.pci.vecs (64 * f + word / 4) y } }

/-- A word of a pending-bit array. -/
def State.pendingWord (s : State) (f word : Nat) : Nat :=
  ((List.range 32).filter fun i => s.dev.pci.pending.contains (64 * f + 32 * word + i)).foldl (fun a i => a + 2 ^ i) 0

end Sys2Proof.Machine
end

