-- ==== Sys2Proof/Machine/Registers.lean ====
section
/-!
DEFINITION. Register access (chapters 00 and 20): what a write to each register does, 32-bit and 64-bit reads and writes under the two-word rule,
holes and unsupported accesses.
-/
namespace Sys2Proof.Machine

/-! ### What a committed write does -/

/-- The value of an RW register after a write: reserved and read-only bits keep theirs. -/
def masked (old mask v : Nat) : Nat := (old &&& (2 ^ 64 - 1 - mask % 2 ^ 64)) ||| (v &&& mask)

/-- A write under the access code alone (R8). -/
def codeWrite (l : Loc) (v : Nat) : Eff := .read fun s =>
  match l.row.acc with
  | .rw => putReg l.reg (masked (s.reg l.reg).toNat l.row.wmask v)
  | .w1c => putReg l.reg ((s.reg l.reg).toNat &&& (2 ^ 64 - 1 - (v &&& l.row.wmask)))
  | .w1s => putReg l.reg ((s.reg l.reg).toNat ||| (v &&& l.row.wmask))
  | _ => .skip

/-- A write to CLK_DIV: a field that would take a value it does not accept stays. -/
def clkDivWrite (v : Nat) : Eff := Eff.all
  [ Eff.when (decide (2 ≤ bitsOf v 0 10)) (putFld rClkDiv 0 10 (bitsOf v 0 10)), Eff.when (decide (2 ≤ bitsOf v 10 10)) (putFld rClkDiv 10 10 (bitsOf v 10 10)),
    Eff.when (decide (1 ≤ bitsOf v 20 12)) (putFld rClkDiv 20 12 (bitsOf v 20 12)) ]

/-- A write to a drive slot's ring and identity registers, or to its RID: while the slot is OFF. -/
def whileOff (d : Nat) (e : Eff) : Eff := onlyIf (fun s => s.drvState d == 0) e

/-- A write to PCI_OUT_HI (R605). -/
def outHiWrite (v : Nat) : Eff := .read fun s =>
  Eff.when (!s.dev.pci.vfEnable && (s.liveQueues fun q => s.qOwner q == 0 && s.qState q == 1).isEmpty
      && (List.range 8).all fun d => s.drvState d == 0)
    (putReg rPciOutHi (v &&& 0xFFFF800000000000))

/-- A write to GLB_STATUS by a reader clears its own bank's bit (R15). -/
def glbStatusWrite (rd v : Nat) : Eff := Eff.when (bitOf v 0) (onReaders fun r => { r with unpaired := sdel r.unpaired rd })

/-- A write to TBS_KEEPER clears RTC_DEGRADED only while KXTAL is GOOD (R434). -/
def keeperWrite (v : Nat) : Eff := .read fun s =>
  .andThen (Eff.when (bitOf v 5 && s.kxtal == 1) (putBit rTbsKeeper 5 false)) (Eff.when (bitOf v 6) (putBit rTbsKeeper 6 false))

/-- The registers whose committed write does more than its access code says: by the base offset of their row, what a write of `v` does. -/
def writeTable (rd : Nat) (l : Loc) (v : Nat) : List (Nat × Eff) :=
  let i := l.i
  let j := l.j
  [ (rGlbStatus, glbStatusWrite rd v), (rGlbChipReset, chipResetWrite v), (rGlbGateAdd 0, gateAddWrite i v), (rGlbGate 0 0, raiseTo i j v),
    (rClkDiv, clkDivWrite v), (rClkGate, effClkGate v), (rTbsRtcSet, effRtcSet v), (rTbsKeeper, keeperWrite v), (rPacTarget, effPacTarget v),
    (rLckBasinReset, effLckBasinReset v), (rQueCtrl 0, queueCtrl i v), (rQueSqBase 0, onlyIf (fun s => s.qState i == 0) (setBase l.reg v)),
    (rQueCqBase 0, onlyIf (fun s => s.qState i == 0) (setBase l.reg v)), (rCdcCmd 0, tableCmd i v), (rIbnPCtrl 0, portCtrl i v),
    (rIbnFlowReset 0, onlyIf (fun s => s.isOpen i) (flowReset i v)), (rRnkCmd 0, rankCmd i v []), (rRnkSubmit 0, rankSubmit i v),
    (rSrvKey 0 0, if j = 0 then onlyIf (fun s => s.isOpen i) (putReg l.reg v) else srvKeyWrite i v),
    (rWhfDrvSqdb 0, whileOff i (codeWrite l v)), (rWhfDrvCqdb 0, whileOff i (codeWrite l v)), (rWhfDrvCtrl 0, whileOff i (codeWrite l v)),
    (rWhfDrvNsid 0, whileOff i (codeWrite l v)), (rWhfDrvCmd 0, driveCmd i v), (rWhfSetCtrl 0, setCtrl i v), (rMtrCalCmd, effMtrCalCmd v),
    (rMtrChCtrl, effMtrChCtrl v), (rTolCmd, effTolCmd rd v), (rTolCalCmd, effTolCalCmd v), (rLcdCtrl, effLcdCtrl v), (rLcdHold, effLcdHold v),
    (rFltCtrl, effFltCtrl v), (rFltRelease, effFltRelease v), (rFltTrip 0, effFltTrip i v), (rFltForce 0, effFltForce i v),
    (rFltCapCmd 0, effFltCapCmd i v), (rPciOutHi, outHiWrite v), (rPciP2pRid 0, whileOff i (codeWrite l v)), (rImgProvision, effProvision v),
    (rImgFlashCmd, effFlashCmd v) ]

/-- A committed write of a whole register. -/
def commit (rd : Nat) (l : Loc) (v : Nat) : Eff :=
  match (writeTable rd l v).find? fun e => e.1 == l.row.base with
  | some e => e.2
  | none => codeWrite l v

/-- A write by a reader to a register that it sees takes effect where the reader may write it, within the limits of dry-dock (R560, R634). -/
def tryCommit (rd : Nat) (l : Loc) (v : Nat) : Eff := .read fun s =>
  Eff.when (s.mayWrite rd l && (!s.dryDock || dryDockBlock l.reg)) (commit rd l v)

/-! ### 32-bit and 64-bit accesses (R12 to R21) -/

/-- A shadow is loaded. -/
def loadShadow (rd reg high : Nat) : Eff := onReaders fun r => { r with shadow := mput r.shadow rd { reg := reg, high := high } }

/-- A register with access RC is cleared by a read of its low word or of both words (R18). -/
def clearRc (l : Loc) : Eff := Eff.when (l.row.acc == .rc) (setReg l.reg (regReset l.reg))

/-- A 32-bit read of a high word: the shadow where it pairs, and otherwise the live high word with UNPAIRED_HIGH set (R13, R14). -/
def readHigh (rd reg live : Nat) (k : Nat → Eff) : Eff := .read fun s =>
  match mget? s.dev.readers.shadow rd with
  | some h => if h.reg = reg then k h.high else .andThen (onReaders fun r => { r with unpaired := sins r.unpaired rd }) (k live)
  | none => .andThen (onReaders fun r => { r with unpaired := sins r.unpaired rd }) (k live)

/-- A 32-bit read. -/
def read32 (rd off : Nat) (k : Nat → Eff) : Eff := .read fun s =>
  match s.place rd off with
  | .hole => .andThen (csrCount rd) (k 0)
  | .vector f w => k (s.vectorWord f w)
  | .pendingBits f w => k (s.pendingWord f w)
  | .beyond reg high => if high then readHigh rd reg 0 k else .andThen (loadShadow rd reg 0) (k 0)
  | .reg l => showing rd l fun v =>
    if l.high then readHigh rd l.reg (v / 2 ^ 32) k
    else Eff.all [Eff.when l.row.wide (loadShadow rd l.reg (v / 2 ^ 32)), clearRc l, k (v % 2 ^ 32)]

/-- The high word that a low-word write commits: the reader's stage where it holds this register's, and otherwise the live one (R19). -/
def State.highFor (s : State) (rd : Nat) (l : Loc) : Nat :=
  match mget? s.dev.readers.stage rd with
  | some h => if h.reg = l.reg then h.high else (s.reg l.reg).toNat / 2 ^ 32
  | none => (s.reg l.reg).toNat / 2 ^ 32

/-- The live high word of a gate counter stands in its counter. -/
def State.liveHigh (s : State) (rd : Nat) (l : Loc) : Nat :=
  if l.row.base = rGlbGate 0 0 then
    match mget? s.dev.readers.stage rd with
    | some h => if h.reg = l.reg then h.high else s.gate l.i l.j / 2 ^ 32
    | none => s.gate l.i l.j / 2 ^ 32
  else s.highFor rd l

/-- A 32-bit write. A high-word write fills the reader's stage; a low-word write commits both words. A write that the access code ignores or
that R634 discards, of either word, only invalidates the shadow (R8, R16). One that the reader may make counts as its commit and empties the
stage also where the register does not take it: a ring base of a queue that is not DISABLED, a drive slot that is not OFF, a block silent in
dry-dock (DESIGN CHOICE, log entry 94). -/
def write32 (rd off v : Nat) : Eff := .read fun s =>
  match s.place rd off with
  | .hole => csrCount rd
  | .vector f w => putVector f w v
  | .pendingBits _ _ => .skip
  | .beyond reg _ => invalidate rd reg
  | .reg l =>
    .andThen (invalidate rd l.reg)
      (if !s.mayWrite rd l then .skip
       else if l.high then onReaders fun r => { r with stage := mput r.stage rd { reg := l.reg, high := v % 2 ^ 32 } }
       else if l.row.wide then
         .andThen (dropStage rd) (tryCommit rd l (v % 2 ^ 32 + s.liveHigh rd l * 2 ^ 32))
       else tryCommit rd l (v % 2 ^ 32))

/-- An aligned 64-bit read: both words of one 64-bit register from one instant (R17), or two 32-bit reads (R632). -/
def read64 (rd off : Nat) (k : Nat → Eff) : Eff := .read fun s =>
  match s.place rd off with
  | .beyond _ false => k 0
  | .reg l =>
    if l.row.wide && !l.high then showing rd l fun v => .andThen (clearRc l) (k v)
    else read32 rd off fun lo => read32 rd (off + 4) fun hi => k (lo + hi * 2 ^ 32)
  | _ => read32 rd off fun lo => read32 rd (off + 4) fun hi => k (lo + hi * 2 ^ 32)

/-- An aligned 64-bit write: both words of one 64-bit register in one step (R21), or two 32-bit writes (R632). -/
def write64 (rd off v : Nat) : Eff := .read fun s =>
  match s.place rd off with
  | .reg l =>
    if l.row.wide && !l.high then Eff.all [invalidate rd l.reg, Eff.when (s.mayWrite rd l) (dropStage rd), tryCommit rd l (v % 2 ^ 64)]
    else .andThen (write32 rd off (v % 2 ^ 32)) (write32 rd (off + 4) (v / 2 ^ 32))
  | _ => .andThen (write32 rd off (v % 2 ^ 32)) (write32 rd (off + 4) (v / 2 ^ 32))

/-! ### Accesses by a reader -/

/-- A read by a reader that arrives: before start step 1 has ended a BAR reads all ones (R666). -/
def readAccess (rd off size : Nat) (e : Eff) : Eff := .read fun s =>
  if !s.arrives rd then .skip
  else if isPcie rd && !(s.fn rd).mse then refuseUr rd
  else if isPcie rd && s.asleep then emit (.readData rd off (2 ^ (8 * size) - 1))
  else e

/-- An aligned 32-bit access within the reader's window to a place of a kind. -/
def at32 (rd off : Nat) (kind : Place → Bool) (e : Eff) : Eff :=
  onlyIf (fun s => off % 4 == 0 && decide (off < windowSize rd) && kind (s.place rd off)) e

/-- An aligned 64-bit access within the reader's window to a place of a kind. -/
def at64 (rd off : Nat) (kind : Place → Bool) (e : Eff) : Eff :=
  onlyIf (fun s => off % 8 == 0 && decide (off < windowSize rd) && kind (s.place rd off)) e

/-- A 32-bit read that answers its reader. -/
def answer32 (rd off : Nat) : Eff := readAccess rd off 4 (read32 rd off fun v => emit (.readData rd off v))

/-- A 64-bit read that answers its reader. -/
def answer64 (rd off : Nat) : Eff := readAccess rd off 8 (read64 rd off fun v => emit (.readData rd off v))

/-- The access has a size and alignment that the control space accepts (R7, R670). -/
def supported (rd off size : Nat) : Bool :=
  (size == 4 || size == 8) && off % size == 0 && decide (off + size ≤ windowSize rd)

/-- An access of an unsupported size or alignment (R7, R670). -/
def unsupported (rd : Nat) (write : Bool) (off size : Nat) : Eff :=
  if write then access rd (csrCount rd)
  else readAccess rd off size (.andThen (csrCount rd) (if isPcie rd then refuseUr rd else emit (.readData rd off (2 ^ (8 * size) - 1))))

/-! ### The commands -/

/-- UNSUPPORTED_ACCESS. -/
def execUnsupportedAccess (rd : Nat) (write : Bool) (off size : Nat) (s : State) : Host.Outcome State Fault Refusal :=
  (Eff.when (!supported rd off size && decide (off < windowSize rd)) (unsupported rd write off size)).done s
/-- HOLE_ACCESS: an aligned 32-bit access. -/
def execHoleAccess (rd : Nat) (write : Bool) (off : Nat) (s : State) : Host.Outcome State Fault Refusal :=
  (at32 rd off (fun p => p == .hole) (if write then access rd (write32 rd off 0) else answer32 rd off)).done s
/-- SPLIT_64_ACCESS. -/
def execSplit64Access (rd : Nat) (write : Bool) (off v : Nat) (s : State) : Host.Outcome State Fault Refusal :=
  (at64 rd off (fun p => !p.isWide) (if write then access rd (write64 rd off v) else answer64 rd off)).done s
/-- LOW_WORD_READ: a 32-bit read of a low word, or of a 32-bit register. -/
def execLowWordRead (rd off : Nat) (s : State) : Host.Outcome State Fault Refusal :=
  (at32 rd off (fun p => p != .hole && !p.isHigh) (answer32 rd off)).done s
/-- HIGH_WORD_READ. -/
def execHighWordRead (rd off : Nat) (s : State) : Host.Outcome State Fault Refusal :=
  (at32 rd off Place.isHigh (answer32 rd off)).done s
/-- RC_READ: a read of the low word or, with `wide`, of both words of a 64-bit register, which clears one with access RC. -/
def execRcRead (rd off : Nat) (wide : Bool) (s : State) : Host.Outcome State Fault Refusal :=
  (if wide then at64 rd off Place.isWide (answer64 rd off) else at32 rd off Place.isWide (answer32 rd off)).done s
/-- LOW_WORD_WRITE. -/
def execLowWordWrite (rd off v : Nat) (s : State) : Host.Outcome State Fault Refusal :=
  (at32 rd off Place.isWide (access rd (write32 rd off v))).done s
/-- HIGH_WORD_WRITE. -/
def execHighWordWrite (rd off v : Nat) (s : State) : Host.Outcome State Fault Refusal :=
  (at32 rd off Place.isHigh (access rd (write32 rd off v))).done s
/-- ALIGNED_64_WRITE. -/
def execAligned64Write (rd off v : Nat) (s : State) : Host.Outcome State Fault Refusal :=
  (at64 rd off Place.isWide (access rd (write64 rd off v))).done s
/-- REGISTER_WRITE: a 32-bit write to a 32-bit register or to a word of an MSI-X table. -/
def execRegisterWrite (rd off v : Nat) (s : State) : Host.Outcome State Fault Refusal :=
  (at32 rd off (fun p => p != .hole && !p.isWide && !p.isHigh) (access rd (write32 rd off v))).done s
/-- PCI_OUT_HI_WRITE, as a committed write to the register. -/
def execPciOutHiWrite (rd v : Nat) (s : State) : Host.Outcome State Fault Refusal := (writeReg rd rPciOutHi (outHiWrite v)).done s

end Sys2Proof.Machine
end

