-- ==== Sys2Proof/Machine/Board.lean ====
section
/-!
DEFINITION. The PCIe endpoint's resets and links, power-fail warning, and the I²C/SMBus target (chapter 19).
-/
namespace Sys2Proof.Machine

/-- The endpoint's state changes. -/
def onPci (g : Pci → Pci) : Eff := onDev fun d => { d with pci := g d.pci }

/-- The board's state changes. -/
def onBoard (g : Board → Board) : Eff := onDev fun d => { d with board := g d.board }

/-! ### Resets of the PCIe block (R603, R612, R613) -/

/-- VF Enable goes from 1 to 0: the VFs cease to exist, and every OPEN tenant basin is reset (R602, R603). -/
def clearVfEnable : Eff := .read fun s =>
  Eff.when s.dev.pci.vfEnable (.andThen
    (onPci fun p =>
      { p with
        vfEnable := false
        fns := p.fns.filter fun e => e.1 == 0
        vecs := p.vecs.filter fun e => decide (e.1 < 64)
        pending := p.pending.filter fun k => decide (k < 64) })
    (Eff.each ((List.range 16).filter fun b => b != 0) causeBasinReset))

/-- A function's MSI-X state and the bits of its configuration space return to their reset state. -/
def resetFn (f : Nat) : Eff := onPci fun p =>
  { p with
    fns := mdel p.fns f
    vecs := p.vecs.filter fun e => e.1 / 64 != f
    pending := p.pending.filter fun k => k / 64 != f }

/-- Configuration space of every function returns to its reset state (R612 step 1). -/
def configReset : Eff := .andThen clearVfEnable (onPci fun p => { reads := p.reads })

/-- The basin whose outbound read a user's is. -/
def State.readBasin (s : State) : ReadUser → Nat
  | .sq q => s.qOwner q
  | .copy e => ((s.copyOn e).map fun c => s.userBasin c.q).getD 0
  | .barge k => ((mget? s.dev.fab.reading k).map (·.basin)).getD 0

/-- Outbound reads in flight end as for a completion timeout (R612 step 2). -/
def endReads (p : Nat → Bool) : Eff := .read fun s => onReads fun l => l.map fun r =>
  if r.got.isNone && p (s.readBasin r.user) then { r with got := some .error } else r

/-- A ring of the queue lies in the PCIe outbound range. -/
def State.ringsOutside (s : State) (q : Nat) : Bool :=
  outbound (s.fld (rQueSqBase q) 12 36 * 4096) || outbound (s.fld (rQueCqBase q) 12 36 * 4096)

/-- The queues of basin 0 with rings over PCIe are dropped (R612 step 3). -/
def dropRings : Eff := .read fun s => Eff.each (s.liveQueues fun q => s.qOwner q == 0 && s.ringsOutside q) dropQueue

/-- Every drive slot becomes OFF (R612 step 4). -/
def drivesOff : Eff := .read fun s => Eff.each ((List.range 8).filter fun d => s.drvState d != 0) driveDisable

/-- A PCIe reset (R612); PCI_LINK counts it, and the link is down. -/
def pcieReset : Eff := Eff.all
  [ configReset, endReads fun _ => true, dropRings, drivesOff, putFld rPciLink 0 9 0, bumpFld rPciLink 16 16 1 ]

/-- PERST_N falls. -/
def effPerstNLow : Eff := .read fun s =>
  Eff.when s.dev.board.perstHigh (.andThen (onBoard fun b => { b with perstHigh := false }) (Eff.when (!s.dev.board.poreset) pcieReset))

/-- A Hot Reset is received, or the link leaves DL_Active. -/
def effLinkLost : Eff := .read fun s => Eff.when s.dlActive pcieReset

/-- What host software may write to configuration space: the values that Table 19.1 and R602 allow. -/
def PciConfig.ok (c : PciConfig) : Bool :=
  decide (c.numVfs ≤ 15) && (!c.vfEnable || decide (1 ≤ c.numVfs)) && [128, 256, 512].contains c.mps
    && [128, 256, 512, 1024, 2048, 4096].contains c.mrrs && (ctoTicks (c.cto % 16)).isSome && decide (c.cto < 32) && c.fns.all fun e => decide (e.1 ≤ c.numVfs) && (e.1 == 0 || c.vfEnable)

/-- LINK_UP: PERST_N is high, the link is DL_Active at a width and rate, and host software has configured the functions. In dry-dock no VF can be
enabled (R560). -/
def effLinkUp (width rate : Nat) (c : PciConfig) : Eff := .read fun s =>
  Eff.when (!s.dev.board.poreset && !s.dlActive && [1, 2, 4, 8, 16].contains width && decide (1 ≤ rate ∧ rate ≤ 5) && c.ok) (Eff.all
    [ onBoard fun b => { b with perstHigh := true }, putFld rPciLink 0 9 (width + rate * 32 + 256),
      onPci fun p =>
        { reads := p.reads
          fns := if s.dryDock then c.fns.filter fun e => e.1 == 0 else c.fns
          vfEnable := c.vfEnable && !s.dryDock
          numVfs := c.numVfs
          mps := c.mps
          mrrs := c.mrrs
          tag10 := c.tag10
          bar4 := c.bar4
          cto := c.cto } ])

/-- FLR of VF b (R613). -/
def effFlr (b : Nat) : Eff := .read fun s =>
  Eff.when (decide (1 ≤ b ∧ b ≤ 15) && s.dlActive && s.fnExists b)
    (Eff.all [bumpFld rPciFlr 16 16 1, resetFn b, causeBasinReset b])

/-- FLR of PF0 (R613): steps 1 to 4 of R612 for PF0 alone. -/
def effPf0Flr : Eff := .read fun s =>
  Eff.when s.dlActive (Eff.all [bumpFld rPciFlr 0 16 1, configReset, endReads fun b => b == 0, dropRings, drivesOff])

/-- A configuration write clears VF Enable. -/
def effVfEnableClear : Eff := .read fun s => Eff.when s.dlActive clearVfEnable

/-- A pending message is sent once its function, vector and link allow it (R667). -/
def effMsixPendingSend (f v : Nat) : Eff := .read fun s =>
  Eff.when (decide (v < 64) && s.fnExists f && s.dev.pci.pending.contains (64 * f + v) && s.msixOpen f v)
    (.andThen (onPending fun p => sdel p (64 * f + v)) (emit (.msix f v)))

/-! ### Power-fail warning (R503, R628) -/

/-- PFAIL_N falls. -/
def effPfailFall : Eff := .read fun s =>
  Eff.when s.dev.board.pfailHigh (.andThen (onBoard fun b => { b with pfailHigh := false })
    (Eff.when (!s.dev.board.poreset) (.andThen (bumpFld rBrdPwr 16 16 1) (.andThen (.read fun t => Eff.when t.isToll measureDue) pfailTolls))))

/-- PFAIL_N rises: with every PWR_GOOD input high CLEAN_STOP is cleared. -/
def effPfailRise : Eff := .read fun s =>
  Eff.when (!s.dev.board.pfailHigh) (.andThen (onBoard fun b => { b with pfailHigh := true })
    (Eff.when (s.dev.board.good == 15) (onKeep fun k => { k with cleanStop := false })))

/-! ### The I²C/SMBus target (R615 to R618) -/

/-- The PEC of a Block Write, the SMBus CRC-8 over the address byte, the command, the count and the data. -/
def State.writePec (s : State) (cmd : Nat) (bs : List Byte) : Nat :=
  crc8 (leBytes 1 (2 * s.fld rBrdI2c 0 7) ++ leBytes 1 cmd ++ leBytes 1 bs.length ++ bs)

/-- A Block Write by the master: its byte count and, where one was sent, its PEC are checked before it is performed. -/
def blockWrite (cmd : Nat) (bs : List Byte) (pec : Option Nat) (fits : Bool) (e : Eff) : Eff := .read fun s =>
  let bad := match pec with
    | some p => p != s.writePec cmd bs
    | none => false
  if !s.arrives i2cReader then .skip
  else if !fits || bad then .andThen (Eff.when (fits && bad) (bumpFld rBrdI2c 8 8 1)) (csrCount i2cReader)
  else e

/-- SET_ADDR. -/
def effSetAddr (bs : List Byte) (pec : Option Nat) : Eff :=
  let off := getLe bs 0 4
  let len := getLe bs 4 1
  blockWrite 1 bs pec (bs.length == 5 && off % 4 == 0 && decide (off < 0x1000000) && len % 4 == 0 && decide (4 ≤ len ∧ len ≤ 32))
    (onBoard fun b => { b with ptr := off, len := len })

/-- A 32-bit access by the target, past the end of the control space one of an unsupported kind (R7). -/
def i2cRead (off : Nat) : Eff :=
  if off < 0x1000000 then answer32 i2cReader off else unsupported i2cReader false off 4

/-- A 32-bit write by the target. -/
def i2cWrite (off v : Nat) : Eff :=
  if off < 0x1000000 then access i2cReader (write32 i2cReader off v) else unsupported i2cReader true off 4

/-- The PEC of a Block Read: the SMBus CRC-8 over both address bytes, the command, the count and the data. -/
def State.readPec (s : State) (cmd : Nat) (bs : List Byte) : Nat :=
  crc8 (leBytes 1 (2 * s.fld rBrdI2c 0 7) ++ leBytes 1 cmd ++ leBytes 1 (2 * s.fld rBrdI2c 0 7 + 1) ++ leBytes 1 bs.length ++ bs)

/-- The bytes that an answer to the target puts on the bus. -/
def Output.i2cBytes : Output → List Byte
  | .readData rd _ v => if rd = i2cReader then leBytes 4 v else []
  | _ => []

/-- A Block Read: the reads, and the PEC of their data (R618). -/
def blockRead (cmd : Nat) (e : Eff) : Eff := .read fun s => Eff.when (s.arrives i2cReader) (.andThen e (.read fun t =>
  emit (.smbusPec (s.readPec cmd ((t.out.take (t.out.length - s.out.length)).reverse.flatMap Output.i2cBytes)))))

/-- READ: LEN/4 reads from the pointer, which advances by LEN. -/
def effSmbusRead : Eff := .read fun s =>
  let b := s.dev.board
  blockRead 2 (.andThen
    (Eff.each (List.range (b.len / 4)) fun i => i2cRead (b.ptr + 4 * i)) (onBoard fun b => { b with ptr := b.ptr + b.len }))

/-- WRITE: writes from the pointer, which advances by the count. -/
def effSmbusWrite (bs : List Byte) (pec : Option Nat) : Eff := .read fun s =>
  let b := s.dev.board
  blockWrite 3 bs pec (bs.length % 4 == 0 && decide (4 ≤ bs.length ∧ bs.length ≤ 32)) (.andThen
    (Eff.each (List.range (bs.length / 4)) fun i => i2cWrite (b.ptr + 4 * i) (getLe bs (4 * i) 4))
    (onBoard fun b => { b with ptr := b.ptr + bs.length }))

/-- SUMMARY: GLB_ID, GLB_ROLE, IMG_STATUS and FLT_STATUS. -/
def effSummary : Eff := blockRead 0x10 <| Eff.each [rGlbId, rGlbRole, rImgStatus, rFltStatus] fun off => answer32 i2cReader off

/-- RESET: a CHIP_RESET, with or without a dry-dock request. -/
def effReset (bs : List Byte) (pec : Option Nat) : Eff :=
  blockWrite 0x20 bs pec (bs.length == 3)
    (if getLe bs 0 2 != 0xC41F then .skip
     else if getLe bs 2 1 = 1 then causeChipReset 5 0
     else if getLe bs 2 1 = 2 then .andThen (onKeep fun k => { k with dryReq := true }) (causeChipReset 6 0)
     else .skip)

/-- SMBUS_TIMEOUT: SCL, low since tick `since`, has been so for 25 ms (R618): the transaction is discarded. -/
def effSmbusTimeout (since : Nat) : Eff := .read fun s =>
  Eff.when (s.arrives i2cReader && decide (since + 20000000 ≤ s.now)) (bumpFld rBrdI2c 16 8 1)

/-! ### The commands -/

/-- PFAIL_FALL. -/
def execPfailFall (s : State) : Host.Outcome State Fault Refusal := effPfailFall.done s
/-- PFAIL_RISE. -/
def execPfailRise (s : State) : Host.Outcome State Fault Refusal := effPfailRise.done s
/-- PERST_N_LOW. -/
def execPerstNLow (s : State) : Host.Outcome State Fault Refusal := effPerstNLow.done s
/-- HOT_RESET. -/
def execHotReset (s : State) : Host.Outcome State Fault Refusal := effLinkLost.done s
/-- LINK_DOWN. -/
def execLinkDown (s : State) : Host.Outcome State Fault Refusal := effLinkLost.done s
/-- LINK_UP. -/
def execLinkUp (width rate : Nat) (c : PciConfig) (s : State) : Host.Outcome State Fault Refusal := (effLinkUp width rate c).done s
/-- FLR. -/
def execFlr (b : Nat) (s : State) : Host.Outcome State Fault Refusal := (effFlr b).done s
/-- PF0_FLR. -/
def execPf0Flr (s : State) : Host.Outcome State Fault Refusal := effPf0Flr.done s
/-- VF_ENABLE_CLEAR. -/
def execVfEnableClear (s : State) : Host.Outcome State Fault Refusal := effVfEnableClear.done s
/-- MSIX_PENDING_SEND. -/
def execMsixPendingSend (f v : Nat) (s : State) : Host.Outcome State Fault Refusal := (effMsixPendingSend f v).done s
/-- SET_ADDR. -/
def execSetAddr (bs : List Byte) (pec : Option Nat) (s : State) : Host.Outcome State Fault Refusal := (effSetAddr bs pec).done s
/-- SMBUS_READ. -/
def execSmbusRead (s : State) : Host.Outcome State Fault Refusal := effSmbusRead.done s
/-- SMBUS_WRITE. -/
def execSmbusWrite (bs : List Byte) (pec : Option Nat) (s : State) : Host.Outcome State Fault Refusal := (effSmbusWrite bs pec).done s
/-- SUMMARY. -/
def execSummary (s : State) : Host.Outcome State Fault Refusal := effSummary.done s
/-- RESET. -/
def execReset (bs : List Byte) (pec : Option Nat) (s : State) : Host.Outcome State Fault Refusal := (effReset bs pec).done s
/-- SMBUS_TIMEOUT. -/
def execSmbusTimeout (since : Nat) (s : State) : Host.Outcome State Fault Refusal := (effSmbusTimeout since).done s

end Sys2Proof.Machine
end

