-- ==== Sys2Proof/Machine/Dispatch.lean ====
section
/-!
DEFINITION. The dispatch of a command to its meaning.
-/
namespace Sys2Proof.Machine
open Sys2Proof

/-- The effect of a command on everything but the queue of waiting commands. -/
def exec (i : Instr) (s : State) : Host.Outcome State Fault Refusal :=
  match i with
  | .unsupportedAccess rd write off size => Sys2Proof.Machine.execUnsupportedAccess rd write off size s
  | .holeAccess rd write off => Sys2Proof.Machine.execHoleAccess rd write off s
  | .split64Access rd write off v => Sys2Proof.Machine.execSplit64Access rd write off v s
  | .lowWordRead rd off => Sys2Proof.Machine.execLowWordRead rd off s
  | .highWordRead rd off => Sys2Proof.Machine.execHighWordRead rd off s
  | .rcRead rd off wide => Sys2Proof.Machine.execRcRead rd off wide s
  | .lowWordWrite rd off v => Sys2Proof.Machine.execLowWordWrite rd off v s
  | .highWordWrite rd off v => Sys2Proof.Machine.execHighWordWrite rd off v s
  | .aligned64Write rd off v => Sys2Proof.Machine.execAligned64Write rd off v s
  | .registerWrite rd off v => Sys2Proof.Machine.execRegisterWrite rd off v s
  | .keeperPowerOn onVbat aonOk aonHigh => Sys2Proof.Machine.execKeeperPowerOn onVbat aonOk aonHigh s
  | .keeperSupplyChange onVbat aonOk => Sys2Proof.Machine.execKeeperSupplyChange onVbat aonOk s
  | .pwrGoodRise input => Sys2Proof.Machine.execPwrGoodRise input s
  | .pwrGoodFall input => Sys2Proof.Machine.execPwrGoodFall input s
  | .poresetRelease straps fromOff => Sys2Proof.Machine.execPoresetRelease straps fromOff s
  | .fuseRead agree clockRaw => Sys2Proof.Machine.execFuseRead agree clockRaw s
  | .journalRead sfdp => Sys2Proof.Machine.execJournalRead sfdp s
  | .imageVerify => Sys2Proof.Machine.execImageVerify s
  | .sectionApply vout => Sys2Proof.Machine.execSectionApply vout s
  | .tileSelftestDone failed codecFail => Sys2Proof.Machine.execTileSelftestDone failed codecFail s
  | .hbmTrainingDone repaired delays => Sys2Proof.Machine.execHbmTrainingDone repaired delays s
  | .hbmTrainTimeout chan => Sys2Proof.Machine.execHbmTrainTimeout chan s
  | .hbmBistDone fails => Sys2Proof.Machine.execHbmBistDone fails s
  | .hbmZeroingDone => Sys2Proof.Machine.execHbmZeroingDone s
  | .joinWaitEnd => Sys2Proof.Machine.execJoinWaitEnd s
  | .basinsOpen => Sys2Proof.Machine.execBasinsOpen s
  | .go rd v => Sys2Proof.Machine.execGo rd v s
  | .drydock rd v => Sys2Proof.Machine.execDrydock rd v s
  | .chipReset => Sys2Proof.Machine.execChipReset s
  | .blockReset blk => Sys2Proof.Machine.execBlockReset blk s
  | .own rd v => Sys2Proof.Machine.execOwn rd v s
  | .svnCommit rd v => Sys2Proof.Machine.execSvnCommit rd v s
  | .flashErase rd v => Sys2Proof.Machine.execFlashErase rd v s
  | .flashProgram rd v => Sys2Proof.Machine.execFlashProgram rd v s
  | .flashRead rd v => Sys2Proof.Machine.execFlashRead rd v s
  | .flashOperationDone => Sys2Proof.Machine.execFlashOperationDone s
  | .flashTimeout => Sys2Proof.Machine.execFlashTimeout s
  | .joinRetry => Sys2Proof.Machine.execJoinRetry s
  | .ownTimeMark d => Sys2Proof.Machine.execOwnTimeMark d s
  | .paceDecision r => Sys2Proof.Machine.execPaceDecision r s
  | .pacTargetWrite rd v => Sys2Proof.Machine.execPacTargetWrite rd v s
  | .marginEvent tile => Sys2Proof.Machine.execMarginEvent tile s
  | .lateTransition tile => Sys2Proof.Machine.execLateTransition tile s
  | .endProgram q es => Sys2Proof.Machine.execEndProgram q es s
  | .nop q es => Sys2Proof.Machine.execNop q es s
  | .gateRinc q es => Sys2Proof.Machine.execGateRinc q es s
  | .matmul q es => Sys2Proof.Machine.execMatmul q es s
  | .ewUnary q es => Sys2Proof.Machine.execEwUnary q es s
  | .ewBinary q es => Sys2Proof.Machine.execEwBinary q es s
  | .ewGlu q es => Sys2Proof.Machine.execEwGlu q es s
  | .rmsnorm q es => Sys2Proof.Machine.execRmsnorm q es s
  | .layernorm q es => Sys2Proof.Machine.execLayernorm q es s
  | .softmax q es => Sys2Proof.Machine.execSoftmax q es s
  | .rope q es => Sys2Proof.Machine.execRope q es s
  | .attnPaged q es => Sys2Proof.Machine.execAttnPaged q es s
  | .gather q es => Sys2Proof.Machine.execGather q es s
  | .scatter q es => Sys2Proof.Machine.execScatter q es s
  | .embed q es => Sys2Proof.Machine.execEmbed q es s
  | .transpose q es => Sys2Proof.Machine.execTranspose q es s
  | .idxToBf16 q es => Sys2Proof.Machine.execIdxToBf16 q es s
  | .topk q es => Sys2Proof.Machine.execTopk q es s
  | .sample q es => Sys2Proof.Machine.execSample q es s
  | .optStep q es => Sys2Proof.Machine.execOptStep q es s
  | .operatorAccept q tiles es => Sys2Proof.Machine.execOperatorAccept q tiles es s
  | .operatorComplete q rep => Sys2Proof.Machine.execOperatorComplete q rep s
  | .gateTimeout q => Sys2Proof.Machine.execGateTimeout q s
  | .glbGateAdd rd b v => Sys2Proof.Machine.execGlbGateAdd rd b v s
  | .glbGateWrite rd b g v => Sys2Proof.Machine.execGlbGateWrite rd b g v s
  | .lengthsmanRead es chip => Sys2Proof.Machine.execLengthsmanRead es chip s
  | .pageRemapDone es => Sys2Proof.Machine.execPageRemapDone es s
  | .lckBasinReset rd v => Sys2Proof.Machine.execLckBasinReset rd v s
  | .basinReset b => Sys2Proof.Machine.execBasinReset b s
  | .basinReopen b => Sys2Proof.Machine.execBasinReopen b s
  | .queueEnable rd q => Sys2Proof.Machine.execQueueEnable rd q s
  | .queueDisable rd q v => Sys2Proof.Machine.execQueueDisable rd q v s
  | .queBaseWrite rd q cq v => Sys2Proof.Machine.execQueBaseWrite rd q cq v s
  | .doorbell f write off size v => Sys2Proof.Machine.execDoorbell f write off size v s
  | .sqFetch q es => Sys2Proof.Machine.execSqFetch q es s
  | .cmdNop q => Sys2Proof.Machine.execCmdNop q s
  | .runProgram q es => Sys2Proof.Machine.execRunProgram q es s
  | .copy q e => Sys2Proof.Machine.execCopy q e s
  | .waitGate q => Sys2Proof.Machine.execWaitGate q s
  | .incGate q => Sys2Proof.Machine.execIncGate q s
  | .copyBlock e ce ue es => Sys2Proof.Machine.execCopyBlock e ce ue es s
  | .deferredCompletion q => Sys2Proof.Machine.execDeferredCompletion q s
  | .coalesceAge q => Sys2Proof.Machine.execCoalesceAge q s
  | .load rd b t => Sys2Proof.Machine.execLoad rd b t s
  | .surveyStart rd b t => Sys2Proof.Machine.execSurveyStart rd b t s
  | .surveyFinish rd b t => Sys2Proof.Machine.execSurveyFinish rd b t s
  | .invalidate rd b t => Sys2Proof.Machine.execInvalidate rd b t s
  | .fetch rd b t => Sys2Proof.Machine.execFetch rd b t s
  | .training p lanes => Sys2Proof.Machine.execTraining p lanes s
  | .laneAdaptTimeout p l => Sys2Proof.Machine.execLaneAdaptTimeout p l s
  | .trainTimeout p => Sys2Proof.Machine.execTrainTimeout p s
  | .trainRetry p => Sys2Proof.Machine.execTrainRetry p s
  | .hello p lanes frame => Sys2Proof.Machine.execHello p lanes frame s
  | .lanes p frame => Sys2Proof.Machine.execLanes p frame s
  | .laneSwitch p => Sys2Proof.Machine.execLaneSwitch p s
  | .credit p frame => Sys2Proof.Machine.execCredit p frame s
  | .lack p frame => Sys2Proof.Machine.execLack p frame s
  | .lnak p frame => Sys2Proof.Machine.execLnak p frame s
  | .timeMark p frame => Sys2Proof.Machine.execTimeMark p frame s
  | .ping p frame => Sys2Proof.Machine.execPing p frame s
  | .pong p frame => Sys2Proof.Machine.execPong p frame s
  | .codewordUncorrectable p word hit => Sys2Proof.Machine.execCodewordUncorrectable p word hit s
  | .replayTimeout p => Sys2Proof.Machine.execReplayTimeout p s
  | .retrainDone p lanes => Sys2Proof.Machine.execRetrainDone p lanes s
  | .retrainTimeout p => Sys2Proof.Machine.execRetrainTimeout p s
  | .bargeReceive p bs spoilt => Sys2Proof.Machine.execBargeReceive p bs spoilt s
  | .write es => Sys2Proof.Machine.execWrite es s
  | .readReq es => Sys2Proof.Machine.execReadReq es s
  | .gateInc => Sys2Proof.Machine.execGateInc s
  | .reducePart => Sys2Proof.Machine.execReducePart s
  | .test p got => Sys2Proof.Machine.execTest p got s
  | .ack es => Sys2Proof.Machine.execAck es s
  | .readData es => Sys2Proof.Machine.execReadData es s
  | .join => Sys2Proof.Machine.execJoin s
  | .admitted => Sys2Proof.Machine.execAdmit s
  | .conflict => Sys2Proof.Machine.execConflict s
  | .activity => Sys2Proof.Machine.execActivity s
  | .firmware => Sys2Proof.Machine.execFirmware s
  | .ackTimeout queue dest cls => Sys2Proof.Machine.execAckTimeout queue dest cls s
  | .flowReset rd b v => Sys2Proof.Machine.execFlowReset rd b v s
  | .windInternal rd p => Sys2Proof.Machine.execWindInternal rd p s
  | .windExternal rd p => Sys2Proof.Machine.execWindExternal rd p s
  | .windStop rd p => Sys2Proof.Machine.execWindStop rd p s
  | .linkRelease rd p => Sys2Proof.Machine.execLinkRelease rd p s
  | .holdover => Sys2Proof.Machine.execHoldover s
  | .masterSeed => Sys2Proof.Machine.execMasterSeed s
  | .openGroup rd b g es => Sys2Proof.Machine.execOpenGroup rd b g es s
  | .close rd b g => Sys2Proof.Machine.execClose rd b g s
  | .rnkSubmit rd b v => Sys2Proof.Machine.execRnkSubmit rd b v s
  | .barrier b es => Sys2Proof.Machine.execBarrier b es s
  | .allReduce b es => Sys2Proof.Machine.execAllReduce b es s
  | .reduce b es => Sys2Proof.Machine.execReduce b es s
  | .reduceScatter b es => Sys2Proof.Machine.execReduceScatter b es s
  | .allGather b es => Sys2Proof.Machine.execAllGather b es s
  | .broadcast b es => Sys2Proof.Machine.execBroadcast b es s
  | .rankTimeout b g q => Sys2Proof.Machine.execRankTimeout b g q s
  | .configure q host es => Sys2Proof.Machine.execConfigure q host es s
  | .submit q host es => Sys2Proof.Machine.execSubmit q host es s
  | .cancel q => Sys2Proof.Machine.execCancel q s
  | .step q host es => Sys2Proof.Machine.execStep q host es s
  | .release q => Sys2Proof.Machine.execRelease q s
  | .stepBuild b host es => Sys2Proof.Machine.execStepBuild b host es s
  | .stepCollect b host es => Sys2Proof.Machine.execStepCollect b host es s
  | .mooringDone e => Sys2Proof.Machine.execMooringDone e s
  | .resumeDone e => Sys2Proof.Machine.execResumeDone e s
  | .srvKeyWrite rd b v => Sys2Proof.Machine.execSrvKeyWrite rd b v s
  | .defineSet q es => Sys2Proof.Machine.execDefineSet q es s
  | .epoch q => Sys2Proof.Machine.execEpoch q s
  | .restore q es => Sys2Proof.Machine.execRestore q es s
  | .epochWaitTimeout k => Sys2Proof.Machine.execEpochWaitTimeout k s
  | .cowCopy k page es => Sys2Proof.Machine.execCowCopy k page es s
  | .nvmeCompletion d es => Sys2Proof.Machine.execNvmeCompletion d es s
  | .nvmeTimeout d => Sys2Proof.Machine.execNvmeTimeout d s
  | .driveEnable rd d => Sys2Proof.Machine.execDriveEnable rd d s
  | .driveDisable rd d => Sys2Proof.Machine.execDriveDisable rd d s
  | .abandon rd k => Sys2Proof.Machine.execAbandon rd k s
  | .xtalMissingEdge => Sys2Proof.Machine.execXtalMissingEdge s
  | .xtalGood iro => Sys2Proof.Machine.execXtalGood iro s
  | .pllLock => Sys2Proof.Machine.execPllLock s
  | .pllLockLoss => Sys2Proof.Machine.execPllLockLoss s
  | .kxtalMissingEdge => Sys2Proof.Machine.execKxtalMissingEdge s
  | .kxtalGood kro => Sys2Proof.Machine.execKxtalGood kro s
  | .clkGate rd v => Sys2Proof.Machine.execClkGate rd v s
  | .tbsRtcSet rd v => Sys2Proof.Machine.execTbsRtcSet rd v s
  | .secondsCarry kxtalRuns => Sys2Proof.Machine.execSecondsCarry kxtalRuns s
  | .batteryTestEnd mv early => Sys2Proof.Machine.execBatteryTestEnd mv early s
  | .tamperBurstEnd xs => Sys2Proof.Machine.execTamperBurstEnd xs s
  | .meterSample blocks wrong => Sys2Proof.Machine.execMeterSample blocks wrong s
  | .windowEnd raw => Sys2Proof.Machine.execWindowEnd raw s
  | .cfPulseStart => Sys2Proof.Machine.execCfPulseStart s
  | .cfPulseEnd => Sys2Proof.Machine.execCfPulseEnd s
  | .pulseInAccept n level => Sys2Proof.Machine.execPulseInAccept n level s
  | .measure rd v => Sys2Proof.Machine.execMeasure rd v s
  | .apply rd v => Sys2Proof.Machine.execApply rd v s
  | .clear rd v => Sys2Proof.Machine.execClear rd v s
  | .measureTimeout => Sys2Proof.Machine.execMeasureTimeout s
  | .applyTimeout => Sys2Proof.Machine.execApplyTimeout s
  | .meterRelease rd v => Sys2Proof.Machine.execMeterRelease rd v s
  | .snapshot rd v => Sys2Proof.Machine.execSnapshot rd v s
  | .snapshotSealed who => Sys2Proof.Machine.execSnapshotSealed who s
  | .billingClose rd v => Sys2Proof.Machine.execBillingClose rd v s
  | .calendarCommit rd v => Sys2Proof.Machine.execCalendarCommit rd v s
  | .calendarCancel rd v => Sys2Proof.Machine.execCalendarCancel rd v s
  | .pfailFall => Sys2Proof.Machine.execPfailFall s
  | .pfailRise => Sys2Proof.Machine.execPfailRise s
  | .activitySilent slot => Sys2Proof.Machine.execActivitySilent slot s
  | .lcdFrame => Sys2Proof.Machine.execLcdFrame s
  | .lcdRailSettled vlcd aon => Sys2Proof.Machine.execLcdRailSettled vlcd aon s
  | .lcdRailTimeout => Sys2Proof.Machine.execLcdRailTimeout s
  | .aonLow => Sys2Proof.Machine.execAonLow s
  | .aonRise => Sys2Proof.Machine.execAonRise s
  | .lcdCtrlBlank rd v => Sys2Proof.Machine.execLcdCtrlBlank rd v s
  | .lcdHold rd v => Sys2Proof.Machine.execLcdHold rd v s
  | .autoZero k run => Sys2Proof.Machine.execAutoZero k run s
  | .hbmRecenter pc => Sys2Proof.Machine.execHbmRecenter pc s
  | .faultEvent src unit => Sys2Proof.Machine.execFaultEvent src unit s
  | .fltForce rd w v => Sys2Proof.Machine.execFltForce rd w v s
  | .fltTripClear rd w v => Sys2Proof.Machine.execFltTripClear rd w v s
  | .pop rd g v => Sys2Proof.Machine.execPop rd g v s
  | .capClear rd g v => Sys2Proof.Machine.execCapClear rd g v s
  | .tileRelease rd v => Sys2Proof.Machine.execTileRelease rd v s
  | .tileStoppageSlot => Sys2Proof.Machine.execTileStoppageSlot s
  | .stoppageDeferralBound => Sys2Proof.Machine.execStoppageDeferralBound s
  | .tileStoppageEnd pass => Sys2Proof.Machine.execTileStoppageEnd pass s
  | .laneStoppageSlot => Sys2Proof.Machine.execLaneStoppageSlot s
  | .laneStoppageEnd errors adapted => Sys2Proof.Machine.execLaneStoppageEnd errors adapted s
  | .servingStoppageDue => Sys2Proof.Machine.execServingStoppageDue s
  | .servingStoppageEnd pass => Sys2Proof.Machine.execServingStoppageEnd pass s
  | .perstNLow => Sys2Proof.Machine.execPerstNLow s
  | .hotReset => Sys2Proof.Machine.execHotReset s
  | .linkDown => Sys2Proof.Machine.execLinkDown s
  | .linkUp width rate c => Sys2Proof.Machine.execLinkUp width rate c s
  | .flr b => Sys2Proof.Machine.execFlr b s
  | .pf0Flr => Sys2Proof.Machine.execPf0Flr s
  | .vfEnableClear => Sys2Proof.Machine.execVfEnableClear s
  | .msixPendingSend f v => Sys2Proof.Machine.execMsixPendingSend f v s
  | .readCompletion u r => Sys2Proof.Machine.execReadCompletion u r s
  | .completionTimeout u => Sys2Proof.Machine.execCompletionTimeout u s
  | .bar4Tlp rid write off bs n => Sys2Proof.Machine.execBar4Tlp rid write off bs n s
  | .pciOutHiWrite rd v => Sys2Proof.Machine.execPciOutHiWrite rd v s
  | .setAddr bs pec => Sys2Proof.Machine.execSetAddr bs pec s
  | .smbusRead => Sys2Proof.Machine.execSmbusRead s
  | .smbusWrite bs pec => Sys2Proof.Machine.execSmbusWrite bs pec s
  | .summary => Sys2Proof.Machine.execSummary s
  | .reset bs pec => Sys2Proof.Machine.execReset bs pec s
  | .smbusTimeout since => Sys2Proof.Machine.execSmbusTimeout since s
  | .calendarCommitTimeout => Sys2Proof.Machine.execCalendarCommitTimeout s
  | .vlcdOutOfRange => Sys2Proof.Machine.execVlcdOutOfRange s
  | .allBankRefreshWindow pc consec delays => Sys2Proof.Machine.execAllBankRefreshWindow pc consec delays s
  | .hbmRecenterTimeout pc => Sys2Proof.Machine.execHbmRecenterTimeout pc s
  | .extentStaged k es => Sys2Proof.Machine.execExtentStaged k es s

end Sys2Proof.Machine
end

