-- ==== Sys2Proof/Machine/Idle.lean ====
section
/-!
DEFINITION. What a step does while no command waits: the timebase counts (R427), with the slew of R285, the real-time clock counts KPR cycles
(R431, R432), and edges of a lost crystal begin its judgement anew (R408, R409).
-/
namespace Sys2Proof.Machine

/-- The counts that a KPR cycle adds to FRACTION under TRIM_EFF, given the cycle's place in its run of 2^20: a trim of +k adds one in each of the
run's first k cycles, a trim of −k withholds it there (R432; their places are the model's choice, log entry 67). -/
def kprCounts (trim place : Nat) : Nat :=
  if trim % 256 < 128 then (if place < trim % 256 then 2 else 1) else if place < 256 - trim % 256 then 0 else 1

/-- A KPR cycle (R431). A carry into SECONDS is SECONDS_CARRY's: until then FRACTION stays at its last value, and what it counts is owed. -/
def kprCycle : Eff := .read fun s =>
  let rtc := (s.reg rTbsRtc).toNat
  let f := rtc % 32768 + kprCounts (s.fld rTbsRtcTrim 16 8) s.dev.keep.kpr
  .andThen (putReg rTbsRtc (rtc - rtc % 32768 + min f 32767))
    (onDev fun d => { d with keep := { d.keep with kpr := (d.keep.kpr + 1) % 2 ^ 20, owed := d.keep.owed + (f - 32767) } })

/-- The crystals and the keeper's clock in a tick. -/
def idleClocks : Eff := .read fun s =>
  Eff.when (s.dev.keep.powered || s.fld rClkStatus 0 2 == 2) (Eff.all
    [ .act .free, Eff.when (s.fld rClkStatus 0 2 == 2 && Config.xtalEdge s.freeCount) (putFld rClkStatus 0 2 3),
      Eff.when (s.dev.keep.powered && s.fld rTbsKeeper 2 2 == 2 && Config.kxtalEdge s.freeCount) (putFld rTbsKeeper 2 2 3),
      Eff.when (s.dev.keep.powered && Config.kprCycle s.freeCount) kprCycle ])

/-- One tick of the timebase, once it has started. While a slew is to be made good, one tick in 256 is added or withheld (R285). -/
def idleTick (s : State) : State :=
  if !s.dev.clk.started then s else
  let f := s.dev.fab
  let due := f.slew != 0 && f.slewTick % 256 == 255
  let step : Nat := if due then (if 0 < f.slew then 2 else 0) else 1
  let slew : Int := if due then (if 0 < f.slew then f.slew - 1 else f.slew + 1) else f.slew
  let tick : Nat := if f.slew = 0 then 0 else f.slewTick + 1
  { s with
    now := (s.now + step) % 2 ^ 64
    dev := { s.dev with fab := { f with slew := slew, slewTick := if slew = 0 then 0 else tick } } }

/-- One idle step. -/
def idle (s : State) : State := idleTick (idleClocks.run s)

end Sys2Proof.Machine
end

