-- ==== Sys2Proof/Safety.lean ====
section
/-!
DEFINITION. What counts as a safe run, and the terms that claims are made in: the machine's data forms, what a command
leaves alone, and what it is for a command to complete.
-/
namespace Sys2Proof.Machine
open Sys2Proof

/-- The machine's data are in canonical form: registers, gates and memory list no value that an unlisted key has anyway,
keys rise, poisoned sectors rise, memory lists HBM addresses alone (R135), gate counters have 64 bits (chapter 04), and
the timebase has 64 bits (R427). -/
def State.sound (s : State) : Bool :=
  mwf regReset s.regs && mwf (fun _ => 0) s.gates && Memory.wf s.mem && decide (s.poison.Pairwise (· < ·))
    && s.mem.all (fun e => decide (e.1 < hbmSize)) && s.gates.all (fun e => decide (e.2 < 2 ^ 64)) && decide (s.now < 2 ^ 64)

/-- A command completes in a state that has a property. -/
def Completes (c : Instr) (s : State) (P : State → Prop) : Prop := ∃ t, exec c s = .next t ∧ P t

/-- The bytes of HBM and their poison are as before. -/
def SameHbm (s t : State) : Prop := (∀ a, t.byte a = s.byte a) ∧ t.poison = s.poison

/-- Every register outside a set is as before. -/
def RegsBut (r : Nat → Bool) (s t : State) : Prop := ∀ off, r off = false → t.reg off = s.reg off

/-- The gate counters, the timebase and the queue of waiting commands are as before. -/
def SameGates (s t : State) : Prop := (∀ b g, t.gate b g = s.gate b g) ∧ t.now = s.now ∧ t.pending = s.pending

/-- HBM, gates, timebase and waiting commands are as before, and every register outside a set. -/
def Frame (r : Nat → Bool) (s t : State) : Prop := SameHbm s t ∧ SameGates s t ∧ RegsBut r s t

/-- An access by a reader reaches the control space: its source can make it (R602, R615), a PCIe function has Memory Space Enable, and
start step 1 has ended (R666). -/
abbrev Reaches (s : State) (rd : Nat) : Prop :=
  s.arrives rd = true ∧ (isPcie rd = true → (s.fn rd).mse = true ∧ s.asleep = false)

/-- A write by a reader to the register at an offset takes effect: it reaches the register `l`, which the reader sees and may write, within
the limits of dry-dock (R634, R560). -/
abbrev Writes (s : State) (rd off : Nat) (l : Loc) : Prop :=
  Reaches s rd ∧ s.visible rd off = some l ∧ s.mayWrite rd l = true ∧ (s.dryDock = false ∨ dryDockBlock l.reg = true)

/-- A run of steps from a state never faults and is never refused. -/
def Safe (s : State) : Prop := ∀ n, ∃ t, Host.Core.run ⟨State, Fault, Refusal, step, State.reset⟩ n s = .next t

end Sys2Proof.Machine
end

