-- ==== Sys2Proof/Certificates/Slice0/Obligations.lean ====
section
/-!
DEFINITION. The statements for the provers. Each is a proposition about every state and every operand that meets its hypotheses.
-/
open Sys2Proof Sys2Proof.Machine

/-! ### The whole machine -/

/-- With a command at the front of the queue, a step is that command's effect on the machine with the queue's rest. -/
def Obligations.StepRunsFrontCommand : Prop :=
  ∀ (c : Instr) (s : State), step { s with pending := c :: s.pending } = exec c s

/-- At reset the machine's data are in canonical form. -/
def Stated.SoundAtReset : Prop := State.reset.sound = true ∧ State.reset.pending = []

/-- Every step keeps the machine's data in canonical form: registers, gates and memory list no value that an unlisted key has anyway, keys and
poisoned sectors rise, memory lists HBM addresses alone, and gate counters and the timebase have 64 bits. -/
def Obligations.StepKeepsSound : Prop :=
  ∀ s t : State, s.sound = true → step s = .next t → t.sound = true

/-- Every command completes, and it leaves the commands that wait behind it as they are. -/
def Obligations.QueueKeepsOrder : Prop :=
  ∀ (c : Instr) (s : State), ∃ t, step { s with pending := c :: s.pending } = .next t ∧ t.pending = s.pending

/-- R10, R113: no step lowers a gate counter, but a CHIP_RESET and a PWR_GOOD_FALL, which assert a reset of the main domain. -/
def Obligations.GateNeverFalls : Prop :=
  ∀ (s t : State) (b g : Nat), step s = .next t → s.pending.head? ≠ some .chipReset →
    (∀ i, s.pending.head? ≠ some (.pwrGoodFall i)) → s.gate b g ≤ t.gate b g

/-- R427: the timebase never runs backwards: no step but a reset of the main domain lowers it, and no step lowers it by wrapping below 2^64 - 2. -/
def Obligations.TimebaseNeverFalls : Prop :=
  ∀ s t : State, step s = .next t → s.now < 2 ^ 64 - 2 → s.pending.head? ≠ some .chipReset →
    (∀ i, s.pending.head? ≠ some (.pwrGoodFall i)) → s.now ≤ t.now

/-- The step of an empty queue (the model's choice, log entries 1 and 67): the timebase counts one tick once it has started, two or none where the
slew under way adds or withholds one, and stands still before that. No register changes but the real-time clock, the XTAL state and the KXTAL
state; HBM, gates and outputs stay. While the keeper has no power and XTAL is not LOST no register changes at all. -/
def Obligations.IdleCountsOneTick : Prop :=
  ∀ s : State, s.pending = [] → ∃ t, step s = .next t ∧ t.pending = [] ∧ t.gates = s.gates ∧ t.mem = s.mem ∧ t.poison = s.poison ∧ t.out = s.out
    ∧ RegsBut (fun o => o == rTbsRtc || o == rClkStatus || o == rTbsKeeper) s t
    ∧ (s.dev.keep.powered = false → s.xtal ≠ 2 → t.regs = s.regs)
    ∧ (s.dev.clk.started = false → t.now = s.now)
    ∧ (s.dev.clk.started = true → s.dev.fab.slew = 0 → t.now = (s.now + 1) % 2 ^ 64)
    ∧ (s.dev.clk.started = true → s.dev.fab.slew ≠ 0 →
        t.now = (s.now + (if s.dev.fab.slewTick % 256 ≠ 255 then 1 else if 0 < s.dev.fab.slew then 2 else 0)) % 2 ^ 64)

/-- R4, R2: right after reset a register holds the reset value of its card: GLB_ID identifies stepping A1, and the registers named hold their
nonzero reset values; every other register holds zero. -/
def Stated.RegistersAtReset : Prop :=
  State.reset.reg rGlbId = 0x5F01A100#64 ∧ State.reset.reg rClkDiv = 0x0FA10080#64 ∧ State.reset.reg rTbsKeeper = 0x40#64 ∧
  (∀ t, t < 96 → State.reset.reg (rPacTile t) = 0xC0000#64) ∧
  (∀ off, regReset off = 0#64 → State.reset.reg off = 0#64) ∧
  (∀ b g, State.reset.gate b g = 0) ∧ (∀ a, State.reset.byte a = 0#8) ∧ State.reset.now = 0

/-! ### Register access (chapters 00 and 20) -/

/-- A 32-bit read by a reader at an offset reaches the place `p`. -/
abbrev ReadsPlace (s : State) (rd off : Nat) (p : Place) : Prop :=
  Reaches s rd ∧ off % 4 = 0 ∧ off < windowSize rd ∧ s.place rd off = p

/-- R12: a 32-bit read of a low word answers with the live low word and loads the reader's shadow with the live high word and the register's
identity; it changes no register. -/
def Stated.LowWordRead : Prop :=
  ∀ (s : State) (rd off : Nat) (l : Loc), ReadsPlace s rd off (.reg l) → l.high = false → l.reg ≠ rBrdGpio → l.row.acc ≠ .rc →
    Completes (.lowWordRead rd off) s fun t =>
      t.out = .readData rd off (s.shown rd l % 2 ^ 32) :: s.out ∧
      (l.row.wide = true → mget? t.dev.readers.shadow rd = some ⟨l.reg, s.shown rd l / 2 ^ 32⟩) ∧ Frame (fun _ => false) s t

/-- R13, R14: a 32-bit read of a high word answers with the reader's shadow where it holds the register's identity, and otherwise with the live
high word, setting UNPAIRED_HIGH for that reader; it changes no register and no shadow. -/
def Stated.HighWordRead : Prop :=
  ∀ (s : State) (rd off : Nat) (l : Loc), ReadsPlace s rd off (.reg l) → l.high = true → l.reg ≠ rBrdGpio →
    Completes (.highWordRead rd off) s fun t =>
      t.dev.readers.shadow = s.dev.readers.shadow ∧ Frame (fun _ => false) s t ∧
      (∀ h, mget? s.dev.readers.shadow rd = some h → h.reg = l.reg →
        t.out = .readData rd off h.high :: s.out ∧ t.dev.readers.unpaired = s.dev.readers.unpaired) ∧
      ((∀ h, mget? s.dev.readers.shadow rd = some h → h.reg ≠ l.reg) →
        t.out = .readData rd off (s.shown rd l / 2 ^ 32) :: s.out ∧ rd ∈ t.dev.readers.unpaired)

/-- R17, R18: an aligned 64-bit read of a 64-bit register answers with both words from one instant and leaves the shadow; a low-word read or a 64-bit read
of a register with access RC also clears it, the shadow receiving the high word as it stood before. -/
def Stated.RcRead : Prop :=
  (∀ (s : State) (rd off : Nat) (l : Loc), Reaches s rd → off % 8 = 0 → off < windowSize rd → s.place rd off = .reg l →
    l.row.wide = true → l.high = false → l.reg ≠ rBrdGpio →
    Completes (.rcRead rd off true) s fun t =>
      t.out = .readData rd off (s.shown rd l) :: s.out ∧ t.dev.readers.shadow = s.dev.readers.shadow ∧
      (l.row.acc = .rc → t.reg l.reg = regReset l.reg) ∧ Frame (fun o => l.row.acc == .rc && o == l.reg) s t) ∧
  (∀ (s : State) (rd off : Nat) (l : Loc), ReadsPlace s rd off (.reg l) → l.row.wide = true → l.high = false → l.reg ≠ rBrdGpio →
    Completes (.rcRead rd off false) s fun t =>
      t.out = .readData rd off (s.shown rd l % 2 ^ 32) :: s.out ∧
      mget? t.dev.readers.shadow rd = some ⟨l.reg, s.shown rd l / 2 ^ 32⟩ ∧
      (l.row.acc = .rc → t.reg l.reg = regReset l.reg) ∧ Frame (fun o => l.row.acc == .rc && o == l.reg) s t)

/-- The value that a register of access code RW, W1C or W1S takes when `v` is written (R8, Table 0.3). -/
def codeValue (l : Loc) (old v : Nat) : Nat :=
  match l.row.acc with
  | .rw => masked old l.row.wmask v
  | .w1c => old &&& (2 ^ 64 - 1 - (v &&& l.row.wmask))
  | _ => old ||| (v &&& l.row.wmask)

/-- The register has no write behaviour but its access code's, and that is RW, W1C or W1S. -/
abbrev PlainWrite (rd : Nat) (l : Loc) (v : Nat) : Prop :=
  (writeTable rd l v).find? (fun e => e.1 == l.row.base) = none ∧ (l.row.acc = .rw ∨ l.row.acc = .w1c ∨ l.row.acc = .w1s)

/-- A write by a reader at an offset of its window reaches the register `l`, which it may write. -/
abbrev WritesPlace (s : State) (rd off : Nat) (l : Loc) : Prop :=
  Reaches s rd ∧ off < windowSize rd ∧ s.place rd off = .reg l ∧ s.mayWrite rd l = true ∧ (s.dryDock = false ∨ dryDockBlock l.reg = true)

/-- The high word that a low-word write commits (R19): the reader's write stage where it holds this register's, otherwise the live one. -/
def committedHigh (s : State) (rd : Nat) (l : Loc) : Nat :=
  match mget? s.dev.readers.stage rd with
  | some h => if h.reg = l.reg then h.high else (s.reg l.reg).toNat / 2 ^ 32
  | none => (s.reg l.reg).toNat / 2 ^ 32

/-- The readers' state once a write by a reader has reached both words of a register that it may write (R16, R19, R21): its shadow of the register
is invalid, and its write stage is empty. -/
def afterCommit (s : State) (rd reg : Nat) : State := (dropStage rd).run ((invalidate rd reg).run s)

/-- A write that its reader may not make (R8, R634, R16): no register, gate or byte changes, the write stage stays, and the reader's shadow of the
register is invalid. -/
def Ignored (s : State) (rd reg : Nat) (t : State) : Prop :=
  t.dev.readers.stage = s.dev.readers.stage ∧ (∀ h, mget? t.dev.readers.shadow rd = some h → h.reg ≠ reg) ∧ Frame (fun _ => false) s t ∧ t.out = s.out

/-- R19, R8: a low-word write commits both words, the high word from the reader's stage where that holds this register's and otherwise the live one;
the stage is emptied. A register of access code RW, W1C or W1S and no other write behaviour takes the value under its code, and no other register
changes; every other register's own write behaviour acts on the value. A 32-bit write to a 32-bit register acts in the same way. A write that the
reader may not make changes no register and leaves the stage. -/
def Obligations.LowWordWrite : Prop :=
  (∀ (s : State) (rd off v : Nat) (l : Loc), off % 4 = 0 → WritesPlace s rd off l → l.row.wide = true → l.high = false →
    Completes (.lowWordWrite rd off v) s fun t =>
      t = (commit rd l (v % 2 ^ 32 + s.liveHigh rd l * 2 ^ 32)).run (afterCommit s rd l.reg) ∧
      ((∀ x, PlainWrite rd l x) →
        t.reg l.reg = w64 (codeValue l (s.reg l.reg).toNat (v % 2 ^ 32 + committedHigh s rd l * 2 ^ 32)) ∧
        mget? t.dev.readers.stage rd = none ∧ Frame (fun o => o == l.reg) s t ∧ t.out = s.out)) ∧
  (∀ (s : State) (rd off v : Nat) (l : Loc), off % 4 = 0 → WritesPlace s rd off l → l.row.wide = false → l.high = false →
    Completes (.registerWrite rd off v) s fun t =>
      t = (commit rd l (v % 2 ^ 32)).run ((invalidate rd l.reg).run s) ∧
      ((∀ x, PlainWrite rd l x) →
        t.reg l.reg = w64 (codeValue l (s.reg l.reg).toNat (v % 2 ^ 32)) ∧ Frame (fun o => o == l.reg) s t ∧ t.out = s.out)) ∧
  (∀ (s : State) (rd off v : Nat) (l : Loc), ReadsPlace s rd off (.reg l) → l.high = false → s.mayWrite rd l = false →
    (l.row.wide = true → Completes (.lowWordWrite rd off v) s (Ignored s rd l.reg)) ∧
    (l.row.wide = false → Completes (.registerWrite rd off v) s (Ignored s rd l.reg)))

/-- R20, R16: a high-word write changes no register; it fills the reader's write stage, replacing what the stage held, and invalidates the reader's
shadow of that register. R21: an aligned 64-bit write commits both words in one step and empties the reader's write stage. A write of either
kind that the reader may not make changes no register and leaves the stage. -/
def Obligations.HighWordAnd64BitWrite : Prop :=
  (∀ (s : State) (rd off v : Nat) (l : Loc), ReadsPlace s rd off (.reg l) → l.high = true → s.mayWrite rd l = true →
    Completes (.highWordWrite rd off v) s fun t =>
      mget? t.dev.readers.stage rd = some ⟨l.reg, v % 2 ^ 32⟩ ∧ (∀ h, mget? t.dev.readers.shadow rd = some h → h.reg ≠ l.reg) ∧
      Frame (fun _ => false) s t ∧ t.out = s.out) ∧
  (∀ (s : State) (rd off v : Nat) (l : Loc), off % 8 = 0 → WritesPlace s rd off l → l.row.wide = true → l.high = false →
    Completes (.aligned64Write rd off v) s fun t =>
      t = (commit rd l (v % 2 ^ 64)).run (afterCommit s rd l.reg) ∧
      ((∀ x, PlainWrite rd l x) →
        t.reg l.reg = w64 (codeValue l (s.reg l.reg).toNat (v % 2 ^ 64)) ∧ mget? t.dev.readers.stage rd = none ∧
        Frame (fun o => o == l.reg) s t ∧ t.out = s.out)) ∧
  (∀ (s : State) (rd off v : Nat) (l : Loc), ReadsPlace s rd off (.reg l) → s.mayWrite rd l = false →
    (l.high = true → Completes (.highWordWrite rd off v) s (Ignored s rd l.reg)) ∧
    (off % 8 = 0 → l.row.wide = true → l.high = false → Completes (.aligned64Write rd off v) s (Ignored s rd l.reg)))

/-- R630: an access to a hole reads zero, discards its write and counts once at CSR_ACCESS. R7: an access of an unsupported size or alignment
counts once there; its write is discarded, and its read answers all ones to an on-chip or I²C reader and Unsupported Request on PCIe. -/
def Stated.HoleAndUnsupportedAccess : Prop :=
  (∀ (s : State) (rd off : Nat), s.dev.flt.ignored.contains 0x24 = false → ReadsPlace s rd off .hole →
    Completes (.holeAccess rd false off) s (fun t =>
      t.out.head? = some (.readData rd off 0) ∧ t.reg (rFltEvents 0x24) = w64 (satAdd 32 (s.reg (rFltEvents 0x24)).toNat 1) ∧
      Frame (fun o => decide (0xF0000 ≤ o ∧ o < 0x100000)) s t) ∧
    Completes (.holeAccess rd true off) s (fun t =>
      t.reg (rFltEvents 0x24) = w64 (satAdd 32 (s.reg (rFltEvents 0x24)).toNat 1) ∧ Frame (fun o => decide (0xF0000 ≤ o ∧ o < 0x100000)) s t)) ∧
  (∀ (s : State) (rd off size : Nat), s.dev.flt.ignored.contains 0x24 = false → Reaches s rd → supported rd off size = false →
    off < windowSize rd →
    Completes (.unsupportedAccess rd true off size) s (fun t =>
      t.reg (rFltEvents 0x24) = w64 (satAdd 32 (s.reg (rFltEvents 0x24)).toNat 1) ∧ Frame (fun o => decide (0xF0000 ≤ o ∧ o < 0x100000)) s t) ∧
    Completes (.unsupportedAccess rd false off size) s (fun t =>
      t.reg (rFltEvents 0x24) = w64 (satAdd 32 (s.reg (rFltEvents 0x24)).toNat 1) ∧ Frame (fun o => decide (0xF0000 ≤ o ∧ o < 0x100000) || o == rPciErr) s t ∧
      t.out.head? = some (if isPcie rd then .unsupportedRequest rd else .readData rd off (2 ^ (8 * size) - 1))))

/-- R632: an aligned 64-bit access that does not address one 64-bit register is carried out as two 32-bit accesses, at +0 and then +4. -/
def Stated.Split64Access : Prop :=
  (∀ (s : State) (rd off v : Nat) (l m : Loc), Reaches s rd → off % 8 = 0 → off < windowSize rd → s.place rd off = .reg l →
    s.place rd (off + 4) = .reg m → l.row.wide = false → l.high = false → m.row.wide = false → m.high = false → l.row.acc ≠ .rc → m.row.acc ≠ .rc →
    l.reg ≠ rBrdGpio → m.reg ≠ rBrdGpio →
    Completes (.split64Access rd false off v) s fun t =>
      t.out = .readData rd off (s.shown rd l % 2 ^ 32 + s.shown rd m % 2 ^ 32 * 2 ^ 32) :: s.out ∧ Frame (fun _ => false) s t) ∧
  (∀ (s : State) (rd off v : Nat) (l : Loc), Reaches s rd → off % 8 = 0 → off < windowSize rd → s.place rd off = .reg l →
    (l.row.wide = false ∨ l.high = true) →
    Completes (.split64Access rd true off v) s fun t =>
      t = (write32 rd (off + 4) (v / 2 ^ 32)).run ((write32 rd off (v % 2 ^ 32)).run s))

/-- R605: a write to PCI_OUT_HI takes effect while no outbound user is active, and otherwise changes no register. -/
def Stated.PciOutHiWrite : Prop :=
  ∀ (s : State) (rd v : Nat) (l : Loc), Writes s rd rPciOutHi l →
    Completes (.pciOutHiWrite rd v) s fun t =>
      Frame (fun o => o == rPciOutHi) s t ∧ t.out = s.out ∧
      t.reg rPciOutHi = (if s.dev.pci.vfEnable = false ∧ (∀ q < 256, s.qPresent q = true → s.qOwner q = 0 → s.qState q ≠ 1) ∧ (∀ d < 8, s.drvState d = 0)
        then w64 (v &&& 0xFFFF800000000000) else s.reg rPciOutHi)

/-! ### Fault collector (chapter 18) -/

/-- The count of a source and unit once an event of this moment has joined it (R577): a window that is not open, or has ended, opens now. -/
def countNext (s : State) (src u : Nat) : Count :=
  let c := mget { n := 0, start := 0 } s.dev.flt.counts (65536 * src + u)
  if c.n = 0 ∨ c.start + 2 ^ s.fld (rFltSrc src) 8 6 ≤ s.now then ⟨1, s.now⟩ else ⟨c.n + 1, c.start⟩

/-- R577: an event at a source and unit raises FLT_EVENTS of the source. Where the threshold is 0 or the unit is retired it does no more; below the
threshold the count of its window rises; at the threshold the count returns to 0 and the source's bit of FLT_TRIP is set. This for the sources that
retire no unit and restore no tolls. -/
def Stated.FaultEventCounts : Prop :=
  ∀ (s : State) (src u : Nat), src < 256 → srcReserved src = false → u < srcUnits src → s.dev.flt.ignored.contains src = false →
    retires src = false → src ≠ 0x60 → src ≠ 0x62 →
    Completes (.faultEvent src u) s fun t =>
      t.reg (rFltEvents src) = w64 (satAdd 32 (s.reg (rFltEvents src)).toNat 1) ∧ Frame (fun o => decide (0xF0000 ≤ o ∧ o < 0x100000)) s t ∧
      ((s.fld (rFltSrc src) 0 8 = 0 ∨ s.unitRetired src u = true) →
        t.dev.flt.counts = s.dev.flt.counts ∧ ∀ w, w < 8 → t.reg (rFltTrip w) = s.reg (rFltTrip w)) ∧
      (s.fld (rFltSrc src) 0 8 ≠ 0 → s.unitRetired src u = false →
        ((countNext s src u).n < s.fld (rFltSrc src) 0 8 →
          t.dev.flt.counts = mput s.dev.flt.counts (65536 * src + u) (countNext s src u) ∧ ∀ w, w < 8 → t.reg (rFltTrip w) = s.reg (rFltTrip w)) ∧
        (s.fld (rFltSrc src) 0 8 ≤ (countNext s src u).n →
          t.dev.flt.counts = mput s.dev.flt.counts (65536 * src + u) ⟨0, (countNext s src u).start⟩ ∧ t.bit (rFltTrip (src / 32)) (src % 32) = true))

/-- R578, R588: an event that reaches the threshold of a tile source retires the tile: PAC_TILE_t.STATE becomes RETIRED, and its bit of FLT_TRIP is
set. -/
def Stated.TileRetiresAtThreshold : Prop :=
  ∀ (s : State) (src u : Nat), src ≤ 6 → u < 96 → s.dev.flt.ignored.contains src = false →
    s.fld (rFltSrc src) 0 8 = 1 → s.tileState u ≠ 2 →
    Completes (.faultEvent src u) s fun t => t.tileState u = 2 ∧ t.bit (rFltTrip 0) src = true ∧ SameHbm s t ∧ SameGates s t

/-- R586: with FORCE_EN set, a 1 written to a bit of FLT_FORCE injects one event at that source, a reserved source excepted; with FORCE_EN clear
nothing changes. -/
def Stated.ForcedEvents : Prop :=
  ∀ (s : State) (rd w v : Nat) (l : Loc), w < 8 → Writes s rd (rFltForce w) l →
    Completes (.fltForce rd w v) s fun t =>
      SameHbm s t ∧ SameGates s t ∧ RegsBut (fun o => decide (0xF0000 ≤ o ∧ o < 0x100000)) s t ∧
      (s.bit rFltCtrl 0 = false → ∀ o, t.reg o = s.reg o) ∧
      (s.bit rFltCtrl 0 = true → ∀ i, i < 32 → bitOf v i = true → srcReserved (32 * w + i) = false →
        s.dev.flt.ignored.contains (32 * w + i) = false →
        t.reg (rFltEvents (32 * w + i)) = w64 (satAdd 32 (s.reg (rFltEvents (32 * w + i))).toNat 1))

/-- R581: a write of 1s to FLT_TRIP clears those trips and the same bits of FLT_PIN; the other bits and every other register stay. -/
def Stated.TripClear : Prop :=
  ∀ (s : State) (rd w v : Nat) (l : Loc), w < 8 → Writes s rd (rFltTrip w) l →
    Completes (.fltTripClear rd w v) s fun t =>
      (∀ i, i < 32 → t.bit (rFltTrip w) i = (s.bit (rFltTrip w) i && !bitOf v i) ∧ t.bit (rFltPin w) i = (s.bit (rFltPin w) i && !bitOf v i)) ∧
      Frame (fun o => o == rFltTrip w || o == rFltPin w) s t ∧
      t.out = (if s.faultN = t.faultN then s.out else .faultPin t.faultN :: s.out)

/-- R583, R584: POP removes the head of a HISTORY capture queue; CLEAR returns a FIRST record to its reset state, clearing OVERFLOW. -/
def Stated.CaptureCommands : Prop :=
  (∀ (s : State) (rd g v : Nat) (l : Loc), g < 16 → Writes s rd (rFltCapCmd g) l → s.history g = true → bitOf v 0 = true →
    Completes (.pop rd g v) s fun t => t.caps g = (s.caps g).drop 1 ∧ (∀ h, h ≠ g → t.caps h = s.caps h) ∧ Frame (fun _ => false) s t) ∧
  (∀ (s : State) (rd g v : Nat) (l : Loc), g < 16 → Writes s rd (rFltCapCmd g) l → s.history g = false → bitOf v 0 = true →
    Completes (.capClear rd g v) s fun t => t.caps g = [] ∧ t.bit (rFltCapStat g) 5 = false ∧ (∀ h, h ≠ g → t.caps h = s.caps h) ∧
      Frame (fun o => o == rFltCapStat g) s t)

/-- R590: a keyed write to FLT_RELEASE for a tile that is RETIRED asks the journal for a TILE_RELEASE entry of that tile and changes no register;
for a tile that is not retired, or without the key, nothing changes. -/
def Stated.TileRelease : Prop :=
  ∀ (s : State) (rd v : Nat) (l : Loc), Writes s rd rFltRelease l →
    Completes (.tileRelease rd v) s fun t =>
      Frame (fun _ => false) s t ∧
      (v / 65536 = 0x7E1A → v % 128 < 96 → s.tileState (v % 128) = 2 → s.dev.flash.op.isSome = true →
        t.dev.jrn = s.dev.jrn ++ [{ typ := 5, body := unitsBody (unitsEntry 7 0 (v % 128) 0 0 0 s.now s.rtc) }]) ∧
      ((v / 65536 ≠ 0x7E1A ∨ 96 ≤ v % 128 ∨ s.tileState (v % 128) ≠ 2) → t.dev.jrn = s.dev.jrn ∧ t.out = s.out)

/-! ### Lane stoppages (R594) -/

/-- R594: at the slot of a lane, in the order of port and lane, an UP port of two or more active lanes whose neighbour has the higher chip id starts the lane's
stoppage: STP_STATUS names it, STP_TAKEN rises, and a LANES frame without the lane goes out; a slot that finds a stoppage under way, or such a port
not there, is skipped and STP_SKIPPED rises. -/
def Stated.LaneStoppage : Prop :=
  (∀ (s : State), s.bit rStpCfg 13 = true → s.dev.board.laneSlot < s.now / 2 ^ 33 →
    s.pState (s.now / 2 ^ 33 % 64 / 4) = 2 → 2 ≤ s.pWidth (s.now / 2 ^ 33 % 64 / 4) →
    bitOf (s.pActive (s.now / 2 ^ 33 % 64 / 4)) (s.now / 2 ^ 33 % 64 % 4) = true → bitOf (s.laneMask (s.now / 2 ^ 33 % 64 / 4)) (s.now / 2 ^ 33 % 64 % 4) = true →
    s.bit rStpStatus 1 = false → s.chipId < s.fld (rIbnPNeigh (s.now / 2 ^ 33 % 64 / 4)) 0 12 →
    Completes .laneStoppageSlot s fun t =>
      t.bit rStpStatus 1 = true ∧ t.fld rStpStatus 16 6 = s.now / 2 ^ 33 % 64 ∧ t.fld rStpTaken 32 16 = satAdd 16 (s.fld rStpTaken 32 16) 1 ∧
      (∃ f, t.out = .frame (s.now / 2 ^ 33 % 64 / 4) f :: s.out ∧ (f.headD 0#8) = 0x18#8) ∧ Frame (fun o => o == rStpStatus || o == rStpTaken) s t) ∧
  (∀ (s : State), s.bit rStpCfg 13 = true → s.dev.board.laneSlot < s.now / 2 ^ 33 → s.bit rStpStatus 1 = true →
    Completes .laneStoppageSlot s fun t => t.fld rStpSkipped 0 32 = satAdd 32 (s.fld rStpSkipped 0 32) 1 ∧ Frame (fun o => o == rStpSkipped) s t ∧ t.out = s.out)

/-! ### Calibration (chapter 17) -/

/-- R570, R574: an auto-zero whose two codes agree and lie within 16 is accepted and waits for its boundary, ending an exclusion; one that times out is bad:
LAST_STATUS is TIMEOUT and FAILS rises, and the third in a row excludes the sensor. -/
def Stated.AutoZero : Prop :=
  (∀ (s : State) (k t0 : Nat) (a : Int), k < 98 → mget? s.dev.cal.azRun k = some t0 → s.now ≤ t0 + 2 ^ 20 → -16 ≤ a → a ≤ 16 →
    Completes (.autoZero k (.codes a a)) s fun t => mget? t.dev.cal.azDue k = some a ∧ t.bit (rCalTs k) 56 = false ∧ Frame (fun o => o == rCalTs k) s t) ∧
  (∀ (s : State) (k t0 : Nat), k < 98 → mget? s.dev.cal.azRun k = some t0 → t0 + 2 ^ 20 ≤ s.now →
    Completes (.autoZero k .timeout) s fun t =>
      t.fld (rCalRec (sensorRec k) 1) 0 8 = 1 ∧ t.fld (rCalRec (sensorRec k) 1) 8 24 = satAdd 24 (s.fld (rCalRec (sensorRec k) 1) 8 24) 1 ∧
      mget? t.dev.cal.azBad k = some (mget 0 s.dev.cal.azBad k + 1) ∧ (2 ≤ mget 0 s.dev.cal.azBad k → t.bit (rCalTs k) 56 = true) ∧ SameHbm s t ∧ SameGates s t)

/-- R569, R570: a re-centering falls due on a trained pseudo-channel 2^34 ticks after it last did; a refresh window brings an accepted result into force, counting it in
the channel's record; one that has not finished within 2^20 ticks is discarded, LAST_STATUS being TIMEOUT. -/
def Stated.HbmRecentering : Prop :=
  (∀ (s : State) (pc : Nat), pc < 32 → s.dev.img.trained = true → s.dryDock = false → mget 0 s.dev.cal.recAt pc + 2 ^ 34 ≤ s.now →
    mget? s.dev.cal.recentre pc = none → mget? s.dev.cal.accepted pc = none →
    Completes (.hbmRecenter pc) s fun t => mget? t.dev.cal.recentre pc = some (s.now, none) ∧ mget? t.dev.cal.recAt pc = some s.now ∧
      Frame (fun _ => false) s t ∧ t.out = s.out) ∧
  (∀ (s : State) (pc : Nat) (c : Bool) (ds d : List Int), pc < 32 → mget? s.dev.cal.accepted pc = some d →
    Completes (.allBankRefreshWindow pc c ds) s fun t => mget? t.dev.cal.delays pc = some d ∧
      t.reg (rCalRec (80 + pc) 0) = w64 (satAdd 32 (s.reg (rCalRec (80 + pc) 0)).toNat 1) ∧ t.fld (rCalRec (80 + pc) 1) 0 8 = 0 ∧ t.out = s.out ∧
      Frame (fun o => decide (rCalRec (80 + pc) 0 ≤ o ∧ o < rCalRec (81 + pc) 0)) s t) ∧
  (∀ (s : State) (pc t0 : Nat) (f : Option (List Int)), pc < 32 →
    mget? s.dev.cal.recentre pc = some (t0, f) → t0 + 2 ^ 20 ≤ s.now →
    Completes (.hbmRecenterTimeout pc) s fun t => mget? t.dev.cal.recentre pc = none ∧ t.fld (rCalRec (80 + pc) 1) 0 8 = 1 ∧
      t.fld (rCalRec (80 + pc) 1) 8 24 = satAdd 24 (s.fld (rCalRec (80 + pc) 1) 8 24) 1 ∧ SameHbm s t ∧ SameGates s t)

/-! ### Pace (chapter 03) -/

/-- R94: a write to PAC_TARGET within the bounds of the image takes effect; one that breaks them changes nothing but the REFUSED flag of PAC_STATUS. -/
def Stated.PacTargetWrite : Prop :=
  ∀ (s : State) (rd v : Nat) (l : Loc), Writes s rd rPacTarget l →
    Completes (.pacTargetWrite rd v) s fun t =>
      t.out = s.out ∧
      (paceOk (s.fld rPacBounds 36 10) (s.fld rPacBounds 46 10) (v % 2 ^ 18) (s.fld rPacBounds 0 18) (s.fld rPacBounds 18 18) (v / 2 ^ 19 % 2 ^ 13)
          (s.fld rPacLimits 8 8) (s.fld rPacLimits 0 8) = true →
        t.fld rPacTarget 0 18 = v % 2 ^ 18 ∧ t.fld rPacTarget 19 13 = v / 2 ^ 19 % 2 ^ 13 ∧ Frame (fun o => o == rPacTarget) s t) ∧
      (paceOk (s.fld rPacBounds 36 10) (s.fld rPacBounds 46 10) (v % 2 ^ 18) (s.fld rPacBounds 0 18) (s.fld rPacBounds 18 18) (v / 2 ^ 19 % 2 ^ 13)
          (s.fld rPacLimits 8 8) (s.fld rPacLimits 0 8) = false →
        t.bit rPacStatus 5 = true ∧ Frame (fun o => o == rPacStatus) s t)

/-! ### Tiles (chapters 03 and 18) -/

/-- R88, R89: a margin detector event counts at its source, and the tile's MARGIN_CNT rises; a late transition counts at its source, and the operator
that runs on the tile is marked to end TILE_FAULT. -/
def Stated.TileEvents : Prop :=
  (∀ (s : State) (t0 : Nat), t0 < 96 → s.dev.flt.ignored.contains 0x01 = false →
    Completes (.marginEvent t0) s fun t =>
      t.reg (rFltEvents 0x01) = w64 (satAdd 32 (s.reg (rFltEvents 0x01)).toNat 1) ∧ t.fld (rPacTile t0) 26 6 = satAdd 6 (s.fld (rPacTile t0) 26 6) 1 ∧
      SameHbm s t ∧ SameGates s t) ∧
  (∀ (s : State) (t0 : Nat), t0 < 96 → s.dev.flt.ignored.contains 0x02 = false →
    Completes (.lateTransition t0) s fun t =>
      t.reg (rFltEvents 0x02) = w64 (satAdd 32 (s.reg (rFltEvents 0x02)).toNat 1) ∧ SameHbm s t ∧ SameGates s t ∧
      (t.dev.work.queues = (s.dev.work.queues.map fun e => if e.2.tiles.contains t0 then (e.1, e.2.faultRun) else e) ∨
        (t.tileState t0 = 2 ∧ t.dev.work.queues = s.dev.work.queues.map fun e =>
          if e.2.tiles.contains t0 then (e.1, e.2.faultRun.dropTile t0) else (e.1, e.2.dropTile t0))))

/-- R592, R593: a tile stoppage slot moves STP_NEXT_TILE to the next slot; the slot of a tile that is not in service is skipped, and that of an idle tile in
service starts its stoppage when no tile is in stoppage. A stoppage that has waited 8,000,000,000 ticks is taken at once. When the tests end the
tile returns to service, and its trim steps that were due take effect and are recorded. -/
def Stated.TileStoppages : Prop :=
  (∀ (s : State), s.bit rStpCfg 12 = true → s.tilePeriod ≠ 0 → (s.reg rStpNextTile).toNat ≤ s.now →
    s.tileState ((s.reg rStpNextTile).toNat / s.tilePeriod % 96) ≠ 0 →
    Completes .tileStoppageSlot s fun t =>
      t.reg rStpNextTile = w64 (((s.reg rStpNextTile).toNat / s.tilePeriod + 1) * s.tilePeriod) ∧
      t.fld rStpSkipped 0 32 = satAdd 32 (s.fld rStpSkipped 0 32) 1 ∧ Frame (fun o => o == rStpNextTile || o == rStpSkipped) s t ∧ t.out = s.out) ∧
  (∀ (s : State), s.bit rStpCfg 12 = true → s.tilePeriod ≠ 0 → (s.reg rStpNextTile).toNat ≤ s.now → s.dev.pace.stopDue = [] → s.inStoppage = false →
    s.tileState ((s.reg rStpNextTile).toNat / s.tilePeriod % 96) = 0 → s.tileBusy ((s.reg rStpNextTile).toNat / s.tilePeriod % 96) = false →
    Completes .tileStoppageSlot s fun t =>
      t.tileState ((s.reg rStpNextTile).toNat / s.tilePeriod % 96) = 1 ∧ t.inStoppage = true ∧
      t.fld rStpStatus 8 7 = (s.reg rStpNextTile).toNat / s.tilePeriod % 96 ∧ SameHbm s t ∧ SameGates s t ∧ t.out = s.out) ∧
  (∀ (s : State) (e : Nat × Nat), s.inStoppage = false → e.1 < 96 →
    s.dev.pace.stopDue.find? (fun e => s.tileState e.1 == 0 && decide (e.2 + 8000000000 ≤ s.now)) = some e →
    Completes .stoppageDeferralBound s fun t =>
      t.tileState e.1 = 1 ∧ t.inStoppage = true ∧ t.fld rStpStatus 8 7 = e.1 ∧ t.fld rStpSkipped 32 32 = satAdd 32 (s.fld rStpSkipped 32 32) 1 ∧
      SameHbm s t ∧ SameGates s t) ∧
  (∀ (s : State), s.inStoppage = true → s.fld rStpStatus 8 7 < 96 → s.tileState (s.fld rStpStatus 8 7) = 1 → s.dev.pace.stopDue = [] →
    Completes (.tileStoppageEnd true) s fun t =>
      t.tileState (s.fld rStpStatus 8 7) = 0 ∧ t.inStoppage = false ∧ t.fld rStpStatus 8 7 = 0 ∧
      Frame (fun o => o == rStpStatus || o == rPacTile (s.fld rStpStatus 8 7) || [rCalRec 3 0, rCalRec 3 1, rCalRecTime 3 0, rCalRecTime 3 1].contains o) s t ∧
      ((s.tile (s.fld rStpStatus 8 7)).pendingTrim = 0 → Frame (fun o => o == rStpStatus || o == rPacTile (s.fld rStpStatus 8 7)) s t) ∧ t.out = s.out)

/-! ### Gate counters and operators (chapter 04) -/

/-- R113, R134: a write to GLB_GATE_ADD_b adds AMOUNT to gate GATE in one step, saturating, and a committed write to GLB_GATE_b_g raises the counter to the
larger of its value and the value written; no register, byte of HBM or other gate changes before the epochs that wait on the gate go on. -/
def Obligations.GateWrites : Prop :=
  (∀ (s : State) (rd b v : Nat) (l : Loc), s.sound = true → b < 16 → Writes s rd (rGlbGateAdd b) l → bitsOf v 8 24 ≠ 0 →
    Completes (.glbGateAdd rd b v) s fun t => ∃ u,
      u.gate b (bitsOf v 0 8) = min (s.gate b (bitsOf v 0 8) + bitsOf v 8 24) (2 ^ 64 - 1) ∧
      (∀ c g, 256 * c + g ≠ 256 * b + bitsOf v 0 8 → u.gate c g = s.gate c g) ∧ SameHbm s u ∧ RegsBut (fun _ => false) s u ∧ u.out = s.out ∧
      t = (Eff.all [armOnGate b (bitsOf v 0 8), pumpWharf]).run u ∧ u.gate b (bitsOf v 0 8) ≤ t.gate b (bitsOf v 0 8)) ∧
  (∀ (s : State) (rd b g v : Nat) (l : Loc), s.sound = true → b < 16 → g < 256 → v < 2 ^ 64 → Writes s rd (rGlbGate b g) l →
    Completes (.glbGateWrite rd b g v) s fun t => ∃ u,
      u.gate b g = max (s.gate b g) v ∧ (∀ c h, 256 * c + h ≠ 256 * b + g → u.gate c h = s.gate c h) ∧ SameHbm s u ∧ RegsBut (fun _ => false) s u ∧
      u.out = s.out ∧ t = (Eff.all [armOnGate b g, pumpWharf]).run u ∧ u.gate b g ≤ t.gate b g)

/-- The command of each operator opcode (Table 4.3). -/
def operatorRows (q : Nat) (es : List EccEvent) : List (Nat × Instr) :=
  [ (0x0000, .endProgram q es), (0x0001, .nop q es), (0x0002, .gateRinc q es), (0x0010, .matmul q es), (0x0020, .ewUnary q es),
    (0x0021, .ewBinary q es), (0x0022, .ewGlu q es), (0x0030, .rmsnorm q es), (0x0031, .layernorm q es), (0x0040, .softmax q es),
    (0x0050, .rope q es), (0x0060, .attnPaged q es), (0x0070, .gather q es), (0x0071, .scatter q es), (0x0072, .embed q es),
    (0x0073, .transpose q es), (0x0074, .idxToBf16 q es), (0x0080, .topk q es), (0x0081, .sample q es), (0x0090, .optStep q es) ]

/-- R105 stages 2 and 3: an operator whose descriptor has been read and passes its static check begins its wait, at no mark counted; END and NOP, which run
nothing, do so where their wait is not yet satisfied. No register, gate or byte of HBM changes. -/
def Stated.OperatorBeginsItsWait : Prop :=
  ∀ (s : State) (q op : Nat) (es : List EccEvent) (c : Instr) (p : Prog), (op, c) ∈ operatorRows q es →
    s.prog q = some p → p.stage = .read → dOpcode p.desc = op → staticCheck s.chipId s.hasRoute (wholeAt p p.desc) p.desc = none →
    (2 ≤ op ∨ s.opWaitMet (s.qOwner q) p.desc 0 = false) →
    Completes c s fun t => t.prog q = some { p with stage := .gateWait 0 s.now } ∧ Frame (fun _ => false) s t ∧ t.out = s.out

/-- R105, R664: an operator that fails its static check ends its program with the status of the first check that fails. -/
def Stated.OperatorFailsItsCheck : Prop :=
  ∀ (s : State) (q op st : Nat) (es : List EccEvent) (c : Instr) (p : Prog), (op, c) ∈ operatorRows q es →
    s.prog q = some p → p.stage = .read → dOpcode p.desc = op → staticCheck s.chipId s.hasRoute (wholeAt p p.desc) p.desc = some st →
    Completes c s fun t => t = (finishCurrent q { status := st, flags := p.flags % 32, detail := p.pos }).run
      ((onQueue q fun k => { k with prog := none }).run s)

/-- R110, R112: END and NOP whose wait is satisfied complete: the operator's increment raises its gate of the owner basin, saturating. -/
def Stated.EndAndNopIncrement : Prop :=
  ∀ (s : State) (q op : Nat) (es : List EccEvent) (c : Instr) (p : Prog), s.sound = true → (op, c) ∈ operatorRows q es → op ≤ 1 →
    s.prog q = some p → p.stage = .read → dOpcode p.desc = op → staticCheck s.chipId s.hasRoute (wholeAt p p.desc) p.desc = none →
    s.opWaitMet (s.qOwner q) p.desc 0 = true → dIncs p.desc = true →
    Completes c s fun t =>
      min (s.gate (s.qOwner q) (dIncGate p.desc) + dIncAmount p.desc) (2 ^ 64 - 1) ≤ t.gate (s.qOwner q) (dIncGate p.desc)

/-- R105 stages 4 and 5, R59, R163: an operator that waits with its wait satisfied, is granted tiles that are in service and idle, and passes its locks,
starts executing on those tiles with its basin's GLB_SEED captured. This for the operators that read no index elements or parameters at their data check
and whose tensors are all RAW. -/
def Obligations.OperatorStarts : Prop :=
  ∀ (s : State) (q m since : Nat) (tiles : List Nat) (es : List EccEvent) (p : Prog) (turn : Turn),
    s.prog q = some p → p.stage = .gateWait m since → s.opWaitMet (s.qOwner q) p.desc m = true → 3 ≤ dOpcode p.desc →
    ¬ dOpcode p.desc ∈ [0x0060, 0x0070, 0x0071, 0x0072, 0x0081, 0x0090] → s.tilesFree tiles = true →
    s.grant 0 s.tileQueues = some (q, turn) →
    s.firstRefusal (s.qOwner q) ((dTensors p.desc).map fun x => AccUnit.mk x.2.2.extent.1 x.2.2.extent.2 x.2.1.role.rights) = none →
    ((dTensors p.desc).filter fun x => x.2.2.compressed) = [] →
    Completes (.operatorAccept q tiles es) s fun t =>
      t.prog q = some { p with stage := .running { seed := (s.reg (rGlbSeed (s.qOwner q))).toNat, tiles := tiles } } ∧
      (∀ k, k ∈ tiles → (t.tile k).lastBasin = some (s.qOwner q)) ∧ Frame (fun _ => false) s t ∧ t.out = s.out

/-- R105 stages 6 to 8: an operator that completes with no fault, no error and no poison among what it reads counts its reads, writes its outputs as the
opcode's arithmetic gives them, raises its flags, leaves its tiles, and then makes its increment and completes, in that order; its increment
raises the gate. -/
def Obligations.OperatorCompletes : Prop :=
  ∀ (s : State) (q : Nat) (rep : OpReport) (p : Prog) (r : RunOp), s.prog q = some p → p.stage = .running r → r.faulted = false →
    s.opCow p.desc = false → rep.faults = [] → rep.es = [] → s.poison = [] →
    Completes (.operatorComplete q rep) s fun t => ∃ u v,
      u.mem = s.mem ∧ u.gates = s.gates ∧ u.out = s.out ∧ RegsBut (fun o => o == rPacActMx (s.qOwner q) || o == rPacActVx (s.qOwner q)) s u ∧
      v = (Eff.all
        [ actRead (s.qOwner q) ((dTensors p.desc).flatMap fun x => s.readSectorsOf (s.opIn p.desc r) x.1 x.2.1.role).length,
          writeOutputs (s.qOwner q) (u.opIn p.desc r) r (opOuts (u.opIn p.desc r)) (opOuts (u.opIn p.desc r)) false (fun _ => false),
          opFlags q (s.qOwner q) ((opOuts (u.opIn p.desc r)).foldl (fun f o => f ||| fullFlags (u.opIn p.desc r) o) 0), leaveTiles q r.tiles ]).run u ∧
      t = (opDone q []).run v

/-- R109: a wait of an operator, or of a WAIT_GATE entry, that has counted WAIT_LIMIT time marks unsatisfied ends GATE_TIMEOUT. -/
def Stated.GateTimeout : Prop :=
  (∀ (s : State) (q m since : Nat) (p : Prog), s.prog q = some p → p.stage = .gateWait m since → dWaits p.desc = true →
    dWaitLimit p.desc ≠ 0 → dWaitLimit p.desc ≤ m →
    Completes (.gateTimeout q) s fun t => t = (finishCurrent q { status := 0x19, flags := p.flags % 32, detail := p.pos }).run
      ((onQueue q fun k => { k with prog := none }).run s)) ∧
  (∀ (s : State) (q m since : Nat) (e : Entry), s.prog q = none → s.current q = some e → e.stage = .gateWait m since → e.get 20 4 ≠ 0 →
    e.get 20 4 ≤ m → Completes (.gateTimeout q) s fun t => t = (finish q e.idx { status := 0x19 }).run s)

/-! ### Queues (chapter 06) -/

/-- R177: a write of ENABLE to a DISABLED queue of an OPEN basin whose rings lie within the basin's windows makes the queue ENABLED with phase 1, both ring
positions 0 and nothing owed. Where a ring is refused the queue stays DISABLED and CAUSE holds the refusal's status. -/
def Stated.QueueEnable : Prop :=
  (∀ (s : State) (rd q : Nat) (l : Loc), q < 256 → Writes s rd (rQueCtrl q) l → s.isOpen (s.qOwner q) = true → s.qState q = 0 →
    s.firstRefusal (s.qOwner q)
      [⟨s.fld (rQueSqBase q) 12 36 * 4096, s.fld (rQueSqBase q) 12 36 * 4096 + 64 * s.qDepth q - 1, rightR⟩,
       ⟨s.fld (rQueCqBase q) 12 36 * 4096, s.fld (rQueCqBase q) 12 36 * 4096 + 16 * s.qDepth q - 1, rightW⟩] = none →
    Completes (.queueEnable rd q) s fun t =>
      t.qState q = 1 ∧ t.fld (rQueStatus q) 2 1 = 1 ∧ t.qCause q = 0 ∧ t.reg (rQuePtr q) = 0 ∧ t.queue q = {} ∧
      Frame (fun o => o == rQueStatus q || o == rQuePtr q) s t ∧ t.out = s.out) ∧
  (∀ (s : State) (rd q st : Nat) (l : Loc) (a : AccUnit) (w : Option Nat), q < 256 → Writes s rd (rQueCtrl q) l → s.isOpen (s.qOwner q) = true →
    s.qState q = 0 →
    s.firstRefusal (s.qOwner q)
      [⟨s.fld (rQueSqBase q) 12 36 * 4096, s.fld (rQueSqBase q) 12 36 * 4096 + 64 * s.qDepth q - 1, rightR⟩,
       ⟨s.fld (rQueCqBase q) 12 36 * 4096, s.fld (rQueCqBase q) 12 36 * 4096 + 16 * s.qDepth q - 1, rightW⟩] = some (a, st, w) →
    Completes (.queueEnable rd q) s fun t => t.qState q = 0 ∧ t.qCause q = st % 256 ∧ SameHbm s t ∧ SameGates s t)

/-- R179: a committed write to a ring base takes effect while the queue is DISABLED, and changes no register at any other time. -/
def Stated.QueBaseWrite : Prop :=
  ∀ (s : State) (rd q v : Nat) (cq : Bool) (l : Loc), Writes s rd (if cq then rQueCqBase q else rQueSqBase q) l →
    Completes (.queBaseWrite rd q cq v) s fun t => t.out = s.out ∧
      (s.qState q = 0 → t.reg (if cq then rQueCqBase q else rQueSqBase q) = w64 (v &&& 0xFFFFFFFFF000) ∧
        Frame (fun o => o == (if cq then rQueCqBase q else rQueSqBase q)) s t) ∧
      (s.qState q ≠ 0 → Frame (fun _ => false) s t)

/-- A doorbell write by the owner's function reaches an ENABLED queue of an OPEN basin (R180 to R182). -/
abbrev DoorbellReaches (s : State) (f q : Nat) : Prop :=
  isPcie f = true ∧ s.fnExists f = true ∧ s.dlActive = true ∧ (s.fn f).mse = true ∧ s.asleep = false ∧ s.dryDock = false ∧ q < 256 ∧
  s.qPresent q = true ∧ s.qOwner q = f ∧ s.qState q = 1 ∧ s.isOpen f = true ∧ s.isStepQueue q = false

/-- R182: an accepted doorbell takes the valid ones of SQ_TAIL and CQ_HEAD, freeing the completion slots consumed; an SQ_TAIL at or beyond the depth sends the
queue into ERROR with CAUSE 1. A foreign function's doorbell changes no queue and counts at the doorbell source of that function. -/
def Obligations.Doorbell : Prop :=
  (∀ (s : State) (f q v : Nat), DoorbellReaches s f q → (bitOf v 15 = true → bitsOf v 0 13 < s.qDepth q) →
    (bitOf v 31 = true → bitsOf v 16 13 < s.qDepth q ∧ (bitsOf v 16 13 + s.qDepth q - (s.queue q).cqHead) % s.qDepth q ≤ (s.queue q).posted) →
    Completes (.doorbell f true (4096 * q) 4 v) s fun t =>
      t.queue q = { s.queue q with
        sqTail := if bitOf v 15 then bitsOf v 0 13 else (s.queue q).sqTail
        cqHead := if bitOf v 31 then bitsOf v 16 13 else (s.queue q).cqHead
        posted := if bitOf v 31 then (s.queue q).posted - (bitsOf v 16 13 + s.qDepth q - (s.queue q).cqHead) % s.qDepth q else (s.queue q).posted } ∧
      (∀ r, r ≠ q → t.queue r = s.queue r) ∧ Frame (fun _ => false) s t ∧ t.out = s.out) ∧
  (∀ (s : State) (f q v : Nat), DoorbellReaches s f q → bitOf v 15 = true → s.qDepth q ≤ bitsOf v 0 13 →
    Completes (.doorbell f true (4096 * q) 4 v) s fun t => t.qState q = 2 ∧ t.qCause q = 1 ∧ SameHbm s t ∧ SameGates s t) ∧
  (∀ (s : State) (f q v : Nat), isPcie f = true → s.fnExists f = true → s.dlActive = true → (s.fn f).mse = true → s.asleep = false →
    s.dryDock = false → q < 256 → s.qPresent q = true → s.qOwner q ≠ f → s.dev.flt.ignored.contains (0xA0 + f) = false →
    Completes (.doorbell f true (4096 * q) 4 v) s fun t =>
      t.reg (rFltEvents (0xA0 + f)) = w64 (satAdd 32 (s.reg (rFltEvents (0xA0 + f))).toNat 1) ∧ t.dev.work = s.dev.work ∧ SameHbm s t ∧ SameGates s t)

/-- R183, R189: a queue that may take up its next entry reads 64 bytes of its ring in HBM, counts the read as its owner's activity, moves its fetch position on, and
holds the entry as the last it owes. -/
def Stated.SqFetch : Prop :=
  ∀ (s : State) (q : Nat), q < 256 → s.tagFetch q = none → s.mayFetch q = true → s.poison = [] →
    inHbm (s.fld (rQueSqBase q) 12 36 * 4096 + 64 * ((s.queue q).nextFetch % s.qDepth q)) = true →
    (let e : Entry := { idx := (s.queue q).nextFetch % s.qDepth q,
                        bytes := leNat (s.bytes (s.fld (rQueSqBase q) 12 36 * 4096 + 64 * ((s.queue q).nextFetch % s.qDepth q)) 64) }
     cmdListed (s.qKind q) e.cmd = true → e.headerOk = true → e.requireOk = false →
     Completes (.sqFetch q []) s fun t =>
       (t.queue q).owed = (s.queue q).owed ++ [e] ∧ (t.queue q).nextFetch = ((s.queue q).nextFetch % s.qDepth q + 1) % s.qDepth q ∧
       t.reg (rMemActRd (s.qOwner q)) = w64 (satAdd 64 (s.reg (rMemActRd (s.qOwner q))).toNat 64) ∧
       Frame (fun o => o == rMemActRd (s.qOwner q)) s t ∧ t.out = s.out)

/-- A COMPUTE or COPY queue may start entry `e`, which passes what is judged of every entry (R185, R188). -/
abbrev Starts (s : State) (q : Nat) (e : Entry) : Prop :=
  s.startable q = some e ∧ s.judge q e = none ∧ s.qKind q ≠ 2 ∧ s.qKind q ≠ 3

/-- R185, R186, R187: the queue command NOP ends OK; RUN_PROGRAM of an extent of HBM that the owner may read starts its program at offset 0; WAIT_GATE on a gate that has
reached VALUE ends OK, and otherwise begins its wait; INC_GATE raises its gate by AMOUNT, saturating, and ends OK. -/
def Stated.QueueCommands : Prop :=
  (∀ (s : State) (q : Nat) (e : Entry), Starts s q e → e.cmd = 0 → e.get 16 48 = 0 →
    Completes (.cmdNop q) s fun t => t = (finish q e.idx { status := 0 }).run s) ∧
  (∀ (s : State) (q : Nat) (e : Entry) (es : List EccEvent), Starts s q e → e.cmd = 1 → e.get 22 2 = 0 → e.get 28 36 = 0 → e.get 24 4 % 64 = 0 →
    e.get 24 4 ≠ 0 → e.get 24 4 ≤ 2 ^ 20 → e.get 16 6 + e.get 24 4 ≤ hbmSize →
    s.firstRefusal (s.qOwner q) [⟨e.get 16 6, e.get 16 6 + e.get 24 4 - 1, rightR⟩] = none →
    Completes (.runProgram q es) s fun t => ∃ u, u.prog q = some { addr := e.get 16 6, len := e.get 24 4 } ∧ Frame (fun _ => false) s u ∧ u.out = s.out ∧
      t = (readDesc q es).run u) ∧
  (∀ (s : State) (q : Nat) (e : Entry), Starts s q e → s.current q = some e → e.cmd = 0x20 → e.get 17 3 = 0 → e.get 32 32 = 0 →
    (s.gateMet (s.qOwner q) (e.get 16 1) (e.get 24 8) = true → Completes (.waitGate q) s fun t => t = (finish q e.idx { status := 0 }).run s) ∧
    (s.gateMet (s.qOwner q) (e.get 16 1) (e.get 24 8) = false → Completes (.waitGate q) s fun t =>
      (t.queue q).owed = (s.queue q).owed.map (fun x => if x.idx = e.idx then { x with stage := .gateWait 0 s.now } else x) ∧
      Frame (fun _ => false) s t ∧ t.out = s.out)) ∧
  (∀ (s : State) (q : Nat) (e : Entry), s.sound = true → Starts s q e → e.cmd = 0x21 → e.get 17 3 = 0 → e.get 24 40 = 0 → e.get 20 4 ≠ 0 →
    Completes (.incGate q) s fun t =>
      min (s.gate (s.qOwner q) (e.get 16 1) + e.get 20 4) (2 ^ 64 - 1) ≤ t.gate (s.qOwner q) (e.get 16 1) ∧
      t = (finish q e.idx { status := 0 }).run ((addGate (s.qOwner q) (e.get 16 1) (e.get 20 4)).run s))

/-- R190, R208: a completion whose entry has ended is posted once a CQ slot is free: its 16 bytes stand in HBM at the ring's tail, QUE_DONE counts it, and the
entry is no longer owed. -/
def Stated.CompletionPosted : Prop :=
  ∀ (s : State) (q : Nat) (e : Entry) (f : Fin), q < 256 → (s.queue q).owed = [e] → e.fin = some f → e.stage ≠ .abortTag → s.drops q = false →
    s.canPost q = true → (s.queue q).closing = false → s.cqSlot q + 16 ≤ hbmSize → s.poison = [] →
    Completes (.deferredCompletion q) s fun t =>
      (∀ i, i < 16 → t.byte (s.cqSlot q + i) =
        (completionBytes e.idx ((e.idx + 1) % s.qDepth q) e.tag (s.fld (rQueStatus q) 2 1) f).getD i 0#8) ∧
      (∀ a, (a < s.cqSlot q ∨ s.cqSlot q + 16 ≤ a) → t.byte a = s.byte a) ∧
      t.reg (rQueDone q) = w64 (satAdd 64 (s.reg (rQueDone q)).toNat 1) ∧ (t.queue q).owed = [] ∧ (t.queue q).posted = (s.queue q).posted + 1 ∧
      SameGates s t

/-- R195: when the oldest completion since the last message is AGE × 1,024 ticks old, the queue sends its MSI-X message: at once where the owner's vector is
open. R608: an outbound read's completion reaches its user, and one that does not arrive within the
timeout is an error to it, counted but where it was for the TAG of an aborted entry alone (R205; the timeouts are log entry 87's). -/
def Stated.MessagesAndReads : Prop :=
  (∀ (s : State) (q t0 : Nat), (s.queue q).oldest = some t0 → s.fld (rQueCoal q) 8 16 ≠ 0 → t0 + s.fld (rQueCoal q) 8 16 * 1024 ≤ s.now →
    Completes (.coalesceAge q) s fun t =>
      (t.queue q).sinceMsg = 0 ∧ (t.queue q).oldest = none ∧ Frame (fun _ => false) s t ∧
      (s.fnExists (s.qOwner q) = true → s.msixOpen (s.qOwner q) (s.qVector q) = true → t.out = .msix (s.qOwner q) (s.qVector q) :: s.out) ∧
      (s.fnExists (s.qOwner q) = true → s.dlActive = true → s.msixOpen (s.qOwner q) (s.qVector q) = false →
        t.out = s.out ∧ 64 * s.qOwner q + s.qVector q ∈ t.dev.pci.pending)) ∧
  (∀ (s : State) (u : ReadUser) (r : HostRead) (x : OutRead), s.outRead u = some x → x.got = none → r ≠ .poisoned →
    Completes (.readCompletion u r) s fun t =>
      t.dev.pci.reads = s.dev.pci.reads.map (fun y => if y.user = u then { y with got := some r } else y) ∧ Frame (fun _ => false) s t ∧ t.out = s.out) ∧
  (∀ (s : State) (u : ReadUser) (x : OutRead), s.outRead u = some x → x.got = none → s.mayTimeOut x.tick = true →
    Completes (.completionTimeout u) s fun t =>
      t.dev.pci.reads = s.dev.pci.reads.map (fun y => if y.user = u then { y with got := some .error } else y) ∧
      t.fld rPciErr 32 16 = (if s.quietRead u then s.fld rPciErr 32 16 else satAdd 16 (s.fld rPciErr 32 16) 1) ∧
      Frame (fun o => o == rPciErr) s t ∧ t.out = s.out)

/-! ### Ibern ports (chapter 08) -/

/-- A command reaches a state that has a property, and what is left to do is an effect. -/
def Reaching (P : State → Prop) (e : Eff) (t : State) : Prop := ∃ u, P u ∧ t = e.run u

/-- A control frame of a type with a body `m` and a correct CHECK arrives on a port that is in use (R243). -/
abbrev FrameArrives (s : State) (p ftype : Nat) (frame : List Byte) (m : Nat) : Prop :=
  p < 16 ∧ s.pState p ≠ 0 ∧ s.pState p ≠ 5 ∧ frame.length = 16 ∧ (frame.headD 0#8).toNat = ftype ∧ frameBody ftype frame = some m

/-- The port trains from cold: TRAINING, with no lane active, since now. -/
def TrainsFromCold (s : State) (p : Nat) (t : State) : Prop :=
  t.pState p = 1 ∧ t.pCause p = 0 ∧ t.pActive p = 0 ∧ (t.port p).since = s.now ∧ Frame (fun o => o == rIbnPState p) s t ∧ t.out = s.out

/-- R245, R293: an enabled port begins training from cold, and again 2^27 ticks after a training that timed out; a training that has not ended within 2^24 ticks
leaves the port DOWN with CAUSE 2; a port whose lanes have found codeword lock sends its HELLO, once; a lane that has not adapted within 2^22 ticks is left out, and its record says TIMEOUT. -/
def Stated.PortTraining : Prop :=
  (∀ (s : State) (p lanes : Nat), p < 16 → (s.port p).enabled = true → (s.port p).retired = false → s.pState p = 0 → s.pCause p = 0 →
    s.bit rGlbRole 19 = false → (s.phase = 5 ∨ s.phase = 6) → s.pRetired p ≠ 15 → Completes (.training p lanes) s (TrainsFromCold s p)) ∧
  (∀ (s : State) (p lanes : Nat), p < 16 → s.pState p = 1 → s.trainLanes p lanes ≠ 0 → (s.port p).helloSent = false →
    Completes (.training p lanes) s fun t => t.out = .frame p (control 0x15 (s.helloBody p (s.trainLanes p lanes))) :: s.out ∧
      (t.port p).helloSent = true ∧ Frame (fun _ => false) s t) ∧
  (∀ (s : State) (p : Nat), p < 16 → s.pState p = 0 → s.pCause p = 2 → (s.port p).since + 2 ^ 27 ≤ s.now → s.pRetired p ≠ 15 →
    Completes (.trainRetry p) s (TrainsFromCold s p)) ∧
  (∀ (s : State) (p : Nat), p < 16 → s.pState p = 1 → (s.port p).since + 2 ^ 24 ≤ s.now →
    Completes (.trainTimeout p) s (Reaching (fun u => u.pState p = 0 ∧ u.pCause p = 2 ∧ u.pActive p = 0 ∧ (u.port p).since = s.now ∧
      Frame (fun o => o == rIbnPState p) s u ∧ u.out = s.out) (closePort p))) ∧
  (∀ (s : State) (p l : Nat), p < 16 → l < 4 → s.pState p = 1 → (s.port p).since + 2 ^ 22 ≤ s.now → bitOf (s.pRetired p) l = false →
    bitOf (s.port p).leftOut l = false →
    Completes (.laneAdaptTimeout p l) s (Reaching (fun u => (u.port p).leftOut = (s.port p).leftOut + 2 ^ l ∧ u.fld (rCalRec (16 + 4 * p + l) 1) 0 8 = 1 ∧
      u.fld (rCalRec (16 + 4 * p + l) 1) 8 24 = satAdd 24 (s.fld (rCalRec (16 + 4 * p + l) 1) 8 24) 1 ∧ Frame (fun o => o == rCalRec (16 + 4 * p + l) 1) s u)
      (.andThen (Eff.when (bitOf (s.port p).badAdapt l) (countAt 0x33 (4 * p + l))) processLanes)))

/-- R245 to R247: the HELLO of the neighbour that the image names, with a common lane, brings the training port UP on the common lanes; that of another neighbour
counts at WIRING and leaves it DOWN with CAUSE 3: both within 2^24 ticks of the training's start. R249: in an external winding hole a HELLO tells whether the port has met itself. -/
def Stated.HelloExchange : Prop :=
  (∀ (s : State) (p lanes m : Nat) (frame : List Byte), FrameArrives s p 0x15 frame m → s.pState p = 1 → s.now ≤ (s.port p).since + 2 ^ 24 →
    bodyGet m 5 4 = s.fld rIbnReach 0 32 → bodyGet m 1 2 = s.fld (rIbnPNeigh p) 16 12 → bodyGet m 3 1 = s.fld (rIbnPNeigh p) 28 4 →
    s.trainLanes p lanes &&& bodyGet m 4 1 ≠ 0 →
    Completes (.hello p lanes frame) s (Reaching (fun u =>
        u.pState p = 2 ∧ u.pActive p = s.trainLanes p lanes &&& bodyGet m 4 1 ∧ u.fld (rIbnPNeigh p) 0 12 = bodyGet m 1 2 % 4096 ∧
        u.fld (rIbnPNeigh p) 12 4 = bodyGet m 3 1 % 16 ∧ u.out = (if (s.port p).helloSent then s.out else .frame p (control 0x15 (s.helloBody p (s.trainLanes p lanes))) :: s.out) ∧
        (u.port p).txSeq = 0 ∧ (u.port p).rxSeq = 0 ∧ (u.port p).credits = [8, 8, 8, 8] ∧ SameHbm s u ∧ SameGates s u)
      (.andThen selfAdmit (pumpPort p)))) ∧
  (∀ (s : State) (p lanes m : Nat) (frame : List Byte), FrameArrives s p 0x15 frame m → s.pState p = 1 → s.now ≤ (s.port p).since + 2 ^ 24 →
    (bodyGet m 5 4 ≠ s.fld rIbnReach 0 32 ∨ bodyGet m 1 2 ≠ s.fld (rIbnPNeigh p) 16 12 ∨ bodyGet m 3 1 ≠ s.fld (rIbnPNeigh p) 28 4) →
    s.dev.flt.ignored.contains 0x36 = false →
    Completes (.hello p lanes frame) s (Reaching (fun u =>
        u.pState p = 0 ∧ u.pCause p = 3 ∧ u.reg (rFltEvents 0x36) = w64 (satAdd 32 (s.reg (rFltEvents 0x36)).toNat 1) ∧ SameHbm s u ∧ SameGates s u)
      (closePort p))) ∧
  (∀ (s : State) (p lanes m : Nat) (frame : List Byte), FrameArrives s p 0x15 frame m → s.pState p = 4 → (s.port p).wind = 2 →
    Completes (.hello p lanes frame) s fun t =>
      (t.port p).windOk = (bodyGet m 1 2 == s.chipId && bodyGet m 3 1 == p) ∧ Frame (fun o => o == rIbnPNeigh p) s t)

/-- The barges of a replay buffer from position `i` on are sent again, as `resendFrom` does it: where none before them waits to be sent again, the first
goes out, unless it is a TOWPATH barge beyond its cap (R259, R263). -/
def Resent (s : State) (p i : Nat) (u : State) : Prop :=
  u = (resendFrom p i).run s ∧ SameHbm s u ∧ SameGates s u ∧
  ∀ r, (s.port p).replay[i]? = some r → (∀ x ∈ (s.port p).replay.take i, x.again = false) →
    (r.barge.cls ≠ 0 ∨ (s.port p).towSlots + r.barge.slots ≤ s.towCap p) → .frame p (bargeFrame (r.barge.bytes r.lseq)) ∈ u.out

/-- R262, R263: an LNAK on an UP port that no LANES exchange holds has its replay buffer sent again from the LSEQ it names, and a barge that has waited 8,192 ticks for
its LACK has it sent again from the oldest; a port that has sent a barge 8 times enters RETRAIN, and otherwise goes on. R261: a LACK frees the barges up to its LSEQ.
R257: a CREDIT frame tells the neighbour's free buffers, at most 8 of a class being held; the barges on their way to them take theirs (the model's reading, log entry 81). -/
def Stated.LinkRetry : Prop :=
  (∀ (s : State) (p m i : Nat) (frame : List Byte), FrameArrives s p 0x13 frame m → s.pState p = 2 → (s.port p).lanes = none →
    (s.port p).replay.findIdx? (fun r => r.lseq == bodyGet m 1 2 % 4096) = some i →
    Completes (.lnak p frame) s (Reaching (Resent s p i) (afterResend p))) ∧
  (∀ (s : State) (p : Nat) (r : Replay) (rs : List Replay), (s.port p).replay = r :: rs → s.pState p = 2 → (s.port p).lanes = none → r.tick + 8192 ≤ s.now →
    Completes (.replayTimeout p) s (Reaching (Resent s p 0) (afterResend p))) ∧
  (∀ (s : State) (p m i : Nat) (frame : List Byte), FrameArrives s p 0x12 frame m →
    (s.port p).replay.findIdx? (fun r => r.lseq == bodyGet m 1 2 % 4096) = some i →
    Completes (.lack p frame) s (Reaching (fun u => (u.port p).replay = (s.port p).replay.drop (i + 1) ∧ Frame (fun _ => false) s u ∧ u.out = s.out) (pumpPort p))) ∧
  (∀ (s : State) (p m : Nat) (frame : List Byte), FrameArrives s p 0x11 frame m →
    Completes (.credit p frame) s (Reaching (fun u =>
      (u.port p).credits = (List.range 4).map (fun c => min 8 (bodyGet m (1 + c) 1) - (s.port p).unacked c) ∧
      Frame (fun _ => false) s u ∧ u.out = s.out) (pumpPort p)))

/-- R248: a LANES frame on an UP port announces the lanes on which both ends will switch, the retired ones left out; at the switch the port goes on, on those lanes,
from the oldest barge that no LACK covers. R240: a codeword has 544 symbols. R242, R262: one that the code cannot correct counts at its port and at its source, and one that a barge overlaps is answered by
an LNAK; one that it corrects counts nowhere.
R264, R294: a retrain that ends in time brings the port UP on the lanes locked at both ends; one that does not retires it. -/
def Stated.WidthAndRetrain : Prop :=
  (∀ (s : State) (p m : Nat) (frame : List Byte), FrameArrives s p 0x18 frame m → s.pState p = 2 →
    Completes (.lanes p frame) s fun t =>
      (t.port p).lanes = some (bodyGet m 1 1 &&& (match (s.port p).lanes with | some (a, _) => a | none => 15) &&& (15 - s.pRetired p), bodyGet m 2 1 % 16) ∧
      Frame (fun _ => false) s t ∧ t.out = s.out) ∧
  (∀ (s : State) (p mask cw : Nat), p < 16 → (s.port p).lanes = some (mask, cw) → s.pState p = 2 → mask ≠ 0 → mask < 16 →
    Completes (.laneSwitch p) s (Reaching (fun u => u.pState p = 2 ∧ u.pActive p = mask ∧ (u.port p).lanes = none ∧ Frame (fun o => o == rIbnPState p) s u)
      (Eff.all [resendFrom p 0, afterResend p, processLanes]))) ∧
  (∀ (frames : List (List Byte)) (w : List Nat), w ∈ codewords frames → w.length = 544) ∧
  (∀ (s : State) (p : Nat) (w word : List Nat) (hit : Bool), rsDecode word = some w → Completes (.codewordUncorrectable p word hit) s fun t => t = s) ∧
  (∀ (s : State) (p : Nat) (word : List Nat) (hit : Bool), p < 16 → s.pState p ≠ 0 → s.pState p ≠ 5 → s.dev.flt.ignored.contains 0x30 = false →
    rsDecode word = none →
    Completes (.codewordUncorrectable p word hit) s fun t =>
      t.reg (rIbnPCnt p 3) = w64 (satAdd 64 (s.reg (rIbnPCnt p 3)).toNat 1) ∧ t.reg (rFltEvents 0x30) = w64 (satAdd 32 (s.reg (rFltEvents 0x30)).toNat 1) ∧
      (hit = true → s.pState p = 2 → t.out.head? = some (.frame p (control 0x13 (s.port p).rxSeq))) ∧ SameHbm s t ∧ SameGates s t) ∧
  (∀ (s : State) (p lanes : Nat), p < 16 → s.pState p = 3 → s.now ≤ (s.port p).since + 2 ^ 18 → (lanes % 16) &&& (15 - s.pRetired p) ≠ 0 →
    Completes (.retrainDone p lanes) s (Reaching (fun u => u.pState p = 2 ∧ u.pActive p = (lanes % 16) &&& (15 - s.pRetired p) ∧ SameHbm s u ∧ SameGates s u)
      (Eff.all [resendFrom p 0, pumpPort p, processLanes]))) ∧
  (∀ (s : State) (p : Nat), p < 16 → s.pState p = 3 → (s.port p).since + 2 ^ 18 < s.now →
    Completes (.retrainTimeout p) s (Reaching (fun u => u.pState p = 5 ∧ u.pCause p = 6 ∧ (u.port p).retired = true ∧
      u.dev.jrn = s.dev.jrn ++ [{ typ := 5, body := unitsBody (unitsEntry 4 6 p 0xFF 0 0 s.now s.rtc) }] ∧ Frame (fun o => o == rIbnPState p) s u) (closePort p)))

/-- R249, R295: the keyed commands of IBN_P_p_CTRL: a winding hole starts on a port that is DOWN or RETIRED, internal or external, and stops; a release asks the journal
for a record of each retired lane, and of the port where it is retired. R249: an external winding hole sends a HELLO; the bits of a TEST barge that come back
through a winding hole are compared with those sent, and they count, and their errors. R291: an id conflict stays the port's cause. -/
def Obligations.WindingAndRelease : Prop :=
  (∀ (s : State) (rd p : Nat) (l : Loc), p < 16 → Writes s rd (rIbnPCtrl p) l → (s.pState p = 0 ∨ s.pState p = 5) →
    Completes (.windInternal rd p) s (fun t => t.pState p = 4 ∧ (t.port p).wind = 1 ∧ (t.port p).windOk = false ∧ Frame (fun o => o == rIbnPState p) s t ∧ t.out = s.out) ∧
    Completes (.windExternal rd p) s (fun t => t.pState p = 4 ∧ (t.port p).wind = 2 ∧ (t.port p).windOk = false ∧ Frame (fun o => o == rIbnPState p) s t ∧
      t.out = .frame p (control 0x15 (s.helloBody p (15 - s.pRetired p))) :: s.out)) ∧
  (∀ (s : State) (rd p : Nat) (l : Loc), p < 16 → Writes s rd (rIbnPCtrl p) l → s.pState p = 4 →
    Completes (.windStop rd p) s fun t => t.pState p = 0 ∧ t.pCause p = (if s.bit rGlbRole 19 then 5 else if (s.port p).enabled then 0 else 1) ∧ (t.port p).wind = 0 ∧
      Frame (fun o => o == rIbnPState p) s t ∧ t.out = s.out) ∧
  (∀ (s : State) (rd p : Nat) (l : Loc), p < 16 → Writes s rd (rIbnPCtrl p) l →
    Completes (.linkRelease rd p) s fun t =>
      t.dev.jrn = s.dev.jrn ++ ((List.range 4).filter (bitOf (s.pRetired p))).map (fun k => { typ := 5, body := unitsBody (unitsEntry 5 0 p k 0 0 s.now s.rtc) })
        ++ (if (s.port p).retired then [{ typ := 5, body := unitsBody (unitsEntry 5 0 p 0xFF 0 0 s.now s.rtc) }] else []) ∧
      Frame (fun _ => false) s t ∧ t.out = s.out) ∧
  (∀ (s : State) (p : Nat) (got : List Byte), p < 16 → s.pState p = 4 → ((s.port p).wind = 1 ∨ (s.port p).windOk = true) →
    Completes (.test p got) s fun t =>
      t.reg (rIbnPCnt p 6) = w64 (satAdd 64 (s.reg (rIbnPCnt p 6)).toNat (((s.port p).windSent.zip got).map fun x => bitErrors x.1 x.2).sum) ∧
      t.reg (rIbnPCnt p 7) = w64 (satAdd 64 (s.reg (rIbnPCnt p 7)).toNat (8 * min (s.port p).windSent.length got.length)) ∧
      Frame (fun o => o == rIbnPCnt p 6 || o == rIbnPCnt p 7) s t ∧ ((s.port p).wind = 1 → t.out = s.out))

/-! ### Barges and flows (chapter 08) -/

/-- A barge of the inbox is the next of a flow that this chip knows and that is not BROKEN (R271). -/
abbrev NextOfFlow (s : State) (b : Barge) : Prop :=
  ∃ e : DstFlow, mget? s.dev.fab.dst b.dstKey = some e ∧ e.broken = false ∧ e.gen = b.gen ∧ e.expect = b.seq ∧ b.seq + 1 < 2 ^ 32

/-- The first barge of a kind waits in the inbox, is next in its flow, and passes the checks of R271. -/
abbrev Arrived (s : State) (kind : Nat) (w : Waiting) : Prop :=
  firstFit (fun b => b.kind == kind && true) [] s.dev.fab.inbox = some w ∧ NextOfFlow s w.barge ∧ s.bargeCheck w.barge = none

/-- R260, R261, R266: a barge that arrives whole on an UP port in its LSEQ's order moves the port's expected LSEQ on and counts; its LACK goes out; one for this chip waits
to be performed. One out of order, or spoilt in its first check, is not taken. -/
def Obligations.BargeReception : Prop :=
  (∀ (s : State) (p l : Nat) (b : Barge) (bs : List Byte), p < 16 → s.pState p = 2 → parseBarge bs = (some l, some b) → l = (s.port p).rxSeq → b.dest = s.chipId →
    Completes (.bargeReceive p bs false) s (Reaching (fun u =>
        (u.port p).rxSeq = (l + 1) % 4096 ∧ u.reg (rIbnPCnt p 5) = w64 (satAdd 64 (s.reg (rIbnPCnt p 5)).toNat 1) ∧
        u.dev.fab.inbox = s.dev.fab.inbox ++ [{ input := p, barge := b }] ∧ u.out = .frame p (control 0x12 l) :: s.out ∧ Frame (fun o => o == rIbnPCnt p 5) s u)
      sweep)) ∧
  (∀ (s : State) (p l : Nat) (b : Barge) (bs : List Byte), p < 16 → s.pState p = 2 → parseBarge bs = (some l, some b) → l = (s.port p).rxSeq → b.dest ≠ s.chipId →
    Completes (.bargeReceive p bs false) s (Reaching (fun u =>
        (u.port p).rxSeq = (l + 1) % 4096 ∧ u.out = .frame p (control 0x12 l) :: s.out ∧ Frame (fun o => o == rIbnPCnt p 5) s u) (forward p b))) ∧
  (∀ (s : State) (p : Nat) (bs : List Byte) (b : Option Barge), p < 16 → s.pState p = 2 → parseBarge bs = (none, b) →
    Completes (.bargeReceive p bs false) s fun t => t.out = .frame p (control 0x13 (s.port p).rxSeq) :: s.out ∧ Frame (fun _ => false) s t ∧ t.dev = s.dev) ∧
  (∀ (s : State) (p l : Nat) (b : Barge) (bs : List Byte) (x : Bool), p < 16 → s.pState p = 2 → parseBarge bs = (some l, some b) → l ≠ (s.port p).rxSeq →
    Completes (.bargeReceive p bs x) s fun t => t = s)

/-- R254, R272, R256: a WRITE whose bytes may be written and meet no poison writes them to HBM; a GATE_INC raises its gate by AMOUNT; a FIRMWARE message is handed to the
control cores; a READ_REQ of HBM reads its bytes for the READ_DATA; and a REDUCE_PART is given to the rank engine: each is then answered OK. -/
def Obligations.BargesPerformed : Prop :=
  (∀ (s : State) (w : Waiting) (es : List EccEvent),
    firstFit (fun b => b.kind == 1 && !(inHbm b.addr && s.cowWait b.addr b.payload.length)) [] s.dev.fab.inbox = some w → NextOfFlow s w.barge →
    s.bargeCheck w.barge = none → w.barge.coded = false → w.barge.pmap = 0 → w.barge.addr + w.barge.payload.length ≤ hbmSize → w.barge.payload ≠ [] →
    (∀ p ∈ sectorsOf w.barge.addr w.barge.payload.length, s.poisoned p = false) → es = [] →
    Completes (.write es) s fun t =>
      (∀ i, i < w.barge.payload.length → t.byte (w.barge.addr + i) = w.barge.payload.getD i 0#8) ∧
      (∀ a, (a < w.barge.addr ∨ w.barge.addr + w.barge.payload.length ≤ a) → t.byte a = s.byte a) ∧ SameGates s t) ∧
  (∀ (s : State) (w : Waiting), s.sound = true → Arrived s 3 w →
    Completes .gateInc s fun t =>
      min (s.gate w.barge.basin (bitsOf w.barge.arg 0 8) + bitsOf w.barge.arg 32 32) (2 ^ 64 - 1) ≤ t.gate w.barge.basin (bitsOf w.barge.arg 0 8)) ∧
  (∀ (s : State) (w : Waiting), Arrived s 0x2F w →
    Completes .firmware s fun t => .firmware w.barge.srcChip w.barge.payload ∈ t.out ∧ SameHbm s t ∧ SameGates s t) ∧
  (∀ (s : State) (w : Waiting), s.readReady = none → Arrived s 2 w → inHbm w.barge.addr = true → s.poison = [] →
    Completes (.readReq []) s (Reaching (fun u => SameHbm s u ∧ SameGates s u ∧
        u.reg (rMemActRd w.barge.basin) = w64 (satAdd 64 (s.reg (rMemActRd w.barge.basin)).toNat (32 * (sectorsOf w.barge.addr (bitsOf w.barge.arg 48 16)).length)))
      (.andThen (sendReadData w.barge (s.bytes w.barge.addr (bitsOf w.barge.arg 48 16)) []) sweep))) ∧
  (∀ (s : State) (w : Waiting), Arrived s 4 w →
    Completes .reducePart s (Reaching (fun u => u.dev.fab.inbox = dropWaiting w s.dev.fab.inbox ∧ Frame (fun _ => false) s u)
      (Eff.all [rankPart w.barge, delivered w.barge, rankFlush w.barge.basin, sweep])))

/-- R276, R270, R277: an ACK with OK ends the outstanding barge of an open flow that it answers, and its user is told; a transit hop's PATH_DOWN is held until
its flow is known (the model's reading, log entry 82); a READ_DATA of an outstanding READ_REQ is written and
ends it so; an oldest barge that has waited ACK_TIMEOUT breaks its open flow, every outstanding barge's user being told FLOW_BROKEN. R278: FLOW_RESET of a flow with nothing
outstanding gives it its next generation. -/
def Obligations.SourceFlows : Prop :=
  (∀ (s : State) (w : Waiting) (f : Nat) (x : SrcFlow) (o : OutBarge), firstFit (fun b => b.kind == 0x10 && true) [] s.dev.fab.inbox = some w →
    bitOf w.barge.arg 8 = false → s.answerFlow w.barge = some f → s.flow? f = some x → x.state = 0 → bitsOf w.barge.arg 0 8 = 0 →
    x.outs.find? (fun o => o.seq == w.barge.seq && o.sent && o.answer.isNone) = some o →
    Completes (.ack []) s (Reaching (fun u =>
        u.flow? f = some { x with outs := x.outs.filter fun z => z.seq != w.barge.seq } ∧
        u.dev.fab.events = s.dev.fab.events ++ [{ flow := f, gen := x.gen, seq := w.barge.seq, status := 0 }] ∧ Frame (fun _ => false) s u)
      (Eff.all [settleTransit, drainUsers [], drainManage, sweep]))) ∧
  (∀ (s : State) (w : Waiting), firstFit (fun b => b.kind == 0x10 && true) [] s.dev.fab.inbox = some w → bitOf w.barge.arg 8 = true →
    Completes (.ack []) s (Reaching (fun u =>
        u.dev.fab.transit = s.dev.fab.transit ++ [⟨w.barge.srcQueue, w.barge.cls, w.barge.gen, w.barge.seq⟩] ∧ u.dev.fab.src = s.dev.fab.src ∧
        Frame (fun _ => false) s u)
      (Eff.all [settleTransit, drainUsers [], drainManage, sweep]))) ∧
  (∀ (s : State) (w : Waiting) (f : Nat) (es : List EccEvent),
    firstFit (fun b => b.kind == 0x11 && !(inHbm b.addr && s.cowWait b.addr b.payload.length)) [] s.dev.fab.inbox = some w → s.answerFlow w.barge = some f →
    Completes (.readData es) s (Reaching (fun u => u.dev.fab.inbox = dropWaiting w s.dev.fab.inbox ∧ u.dev.fab.src = s.dev.fab.src ∧ Frame (fun _ => false) s u)
      (Eff.all [readDataWrite f w.barge es, settleTransit, drainUsers es, drainManage, sweep]))) ∧
  (∀ (s : State) (queue dest cls : Nat) (x : SrcFlow) (o : OutBarge), s.flow? (flowKey queue dest cls) = some x → x.state = 0 →
    x.outs.find? (fun o => o.sent && o.answer.isNone && decide (o.tick + s.ackTimeout ≤ s.now)) = some o →
    Completes (.ackTimeout queue dest cls) s (Reaching (fun u =>
        u.flow? (flowKey queue dest cls) = some { x with state := 2, outs := [] } ∧
        u.dev.fab.events = s.dev.fab.events ++ x.outs.map (fun z => { flow := flowKey queue dest cls, gen := x.gen, seq := z.seq, status := 0x1E }) ∧
        SameHbm s u ∧ SameGates s u) (Eff.all [settleTransit, drainUsers [], drainManage]))) ∧
  (∀ (s : State) (rd b v : Nat) (l : Loc) (x : SrcFlow), b < 16 → Writes s rd (rIbnFlowReset b) l → s.isOpen b = true → s.qPresent (bitsOf v 0 8) = true →
    s.qOwner (bitsOf v 0 8) = b → s.flow? (flowKey (bitsOf v 0 8) (bitsOf v 16 12) (bitsOf v 12 2)) = some x → (x.state = 2 ∨ x.outs = []) →
    Completes (.flowReset rd b v) s fun t =>
      t.flow? (flowKey (bitsOf v 0 8) (bitsOf v 16 12) (bitsOf v 12 2)) =
        some { gen := (x.gen + 1) % 65536, path := (s.choosePath (flowDest (flowKey (bitsOf v 0 8) (bitsOf v 16 12) (bitsOf v 12 2)))).getD 0 } ∧
      t.fld (rIbnFlowResult b) 0 8 = 0 ∧ t.fld (rIbnFlowResult b) 16 16 = (x.gen + 1) % 65536 ∧ Frame (fun o => o == rIbnFlowResult b) s t ∧ t.out = s.out)

/-! ### The reach (chapters 08 and 12) -/

/-- R283, R285, R287: a time mark on the port that a chip follows that is behind by 32,768 ticks or more steps the timebase forward; any other error is made good by a slew.
IBN_TIME shows FOLLOWING and the port. R284: a PING is answered by a PONG with its value, and a PONG makes an exchange of the port's link delay. -/
def Stated.TimeMarks : Prop :=
  (∀ (s : State) (p m : Nat) (frame : List Byte), FrameArrives s p 0x14 frame m → s.isMaster = false → s.timeParent = some p →
    Completes (.timeMark p frame) s fun t =>
      t.fld rIbnTime 0 2 = 1 ∧ t.fld rIbnTime 3 4 = p ∧ s.now ≤ t.now ∧ t.dev.fab.lastMark = t.now ∧
      (16 * ((s.now : Int) - (bodyGet m 1 6 * 65536 + bodyGet m 7 4 : Nat)) - (s.fld (rIbnPDelay p) 0 20 : Nat) ≤ -524288 →
        t.fld rTbsStatus 16 16 = satAdd 16 (s.fld rTbsStatus 16 16) 1 ∧ t.dev.fab.slew = 0) ∧
      (-524288 < 16 * ((s.now : Int) - (bodyGet m 1 6 * 65536 + bodyGet m 7 4 : Nat)) - (s.fld (rIbnPDelay p) 0 20 : Nat) → t.now = s.now) ∧
      SameHbm s t ∧ RegsBut (fun o => o == rIbnTime || o == rTbsStatus) s t) ∧
  (∀ (s : State) (p m : Nat) (frame : List Byte), FrameArrives s p 0x16 frame m →
    Completes (.ping p frame) s fun t => (∃ v, t.out = .frame p (control 0x17 (bodyGet m 1 8 + v % 2 ^ 32 * 2 ^ 64)) :: s.out) ∧
      (t.port p).ping = max (s.port p).ping (bodyGet m 1 8) ∧ Frame (fun _ => false) s t) ∧
  (∀ (s : State) (p m : Nat) (frame : List Byte), FrameArrives s p 0x17 frame m →
    Completes (.pong p frame) s fun t =>
      (t.port p).delays = ((s.now - bodyGet m 1 8 - bodyGet m 9 4) :: (s.port p).delays).take 16 ∧
      (∃ v, t.fld (rIbnPDelay p) 0 20 = min (meanDelay v (t.port p).delays) (2 ^ 20 - 1)) ∧ Frame (fun o => o == rIbnPDelay p) s t ∧ t.out = s.out)

/-- R288: a chip that is not the master and has accepted no mark for four mark intervals goes to HOLDOVER, which counts as it enters it. R428: the master seeds its timebase once its first port has
been UP for 2^24 ticks: never below its own value. -/
def Stated.HoldoverAndSeed : Prop :=
  (∀ (s : State), s.isMaster = false → (s.phase = 5 ∨ s.phase = 6) → s.dev.fab.holdTick + 4 * 65536 ≤ s.now → s.dev.flt.ignored.contains 0x37 = false →
    Completes .holdover s fun t => t.timeMode = 2 ∧ t.bit rIbnTime 2 = false ∧
      t.reg (rFltEvents 0x37) = (if s.timeMode = 2 then s.reg (rFltEvents 0x37) else w64 (satAdd 32 (s.reg (rFltEvents 0x37)).toNat 1)) ∧
      (∀ q, s.nextParent (s.fld rIbnTime 3 4) = some q → q < 16 → t.dev.fab.follows = some q ∧ t.fld rIbnTime 3 4 = q) ∧ SameHbm s t ∧ SameGates s t) ∧
  (∀ (s : State) (t0 : Nat), s.dev.fab.firstUp = some t0 → s.isMaster = true → s.bit rTbsStatus 2 = false → t0 + 2 ^ 24 ≤ s.now → s.seed16 < 2 ^ 66 →
    Completes .masterSeed s fun t => t.bit rTbsStatus 2 = true ∧ t.timeMode = 0 ∧ s.now ≤ t.now ∧ (s.seed16 ≤ 16 * s.now → t.now = s.now) ∧
      (16 * s.now < s.seed16 → s.seed16 / 16 + 2 ^ 20 ≤ t.now) ∧ SameHbm s t ∧ RegsBut (fun o => o == rTbsStatus || o == rIbnTime) s t ∧ t.out = s.out)

/-- R290, R291: a chip that has not joined sends its JOIN once a port is UP, and again after 2^26 ticks; the master admits a chip id that nobody holds and answers; ADMIT makes the
chip one of the reach unless its id is in conflict (R24, R41); CONFLICT has it leave, every port in use going DOWN. -/
def Obligations.Joining : Prop :=
  (∀ (s : State), (s.phase = 5 ∨ s.phase = 6) → s.isMaster = false → s.dev.fab.joined = false → s.upPorts ≠ [] →
    (∀ t0, s.dev.fab.joinTick = some t0 → t0 + 2 ^ 26 ≤ s.now) →
    Completes .joinRetry s (Reaching (fun u => u.dev.fab.joinTick = some s.now ∧ Frame (fun _ => false) s u ∧ u.out = s.out)
      (.andThen (sendManagement s.dev.fab.master 0x20 (joinPayload s.chipId s.serial)) (drainUsers [])))) ∧
  (∀ (s : State) (w : Waiting), Arrived s 0x20 w → s.isMaster = true → mget? s.dev.fab.admitted (bitsOf (leNat w.barge.payload) 0 16) = none →
    Completes .join s (Reaching (fun u => mget? u.dev.fab.admitted (bitsOf (leNat w.barge.payload) 0 16) = some (bitsOf (leNat w.barge.payload) 64 64) ∧
        SameHbm s u ∧ SameGates s u)
      (Eff.all [sendManagement (bitsOf (leNat w.barge.payload) 0 16) 0x21 w.barge.payload, drainUsers [], sweep]))) ∧
  (∀ (s : State) (w : Waiting), Arrived s 0x21 w →
    Completes .admitted s fun t => (s.bit rGlbRole 19 = false → t.inReach = true) ∧ (s.bit rGlbRole 19 = true → t.inReach = s.inReach) ∧ t.dev.fab.joined = true ∧ SameHbm s t ∧ SameGates s t) ∧
  (∀ (s : State) (w : Waiting), Arrived s 0x22 w →
    Completes .conflict s (Reaching (fun u => u.bit rGlbRole 19 = true ∧ u.inReach = false ∧ u.dev.fab.joined = true ∧ SameHbm s u ∧ SameGates s u)
      (.andThen (Eff.each (List.range 16) fun p => .read fun s => if s.pState p = 5 then .skip else portDown p 5) sweep)))

/-! ### Clocks and the keeper (chapter 12) -/

/-- The clock of the meter and of SPI is forced, with the PLL out of lock (R417, R419). -/
def PinsForced (s u : State) : Prop :=
  u.bit rClkStatus 4 = true ∧ u.bit rClkStatus 3 = false ∧ u.fld rClkStatus 16 16 = satAdd 16 (s.fld rClkStatus 16 16) 1 ∧
  u.reg rClkLossTick = w64 s.now ∧ u.dev.clk.spanFrom = s.now ∧ SameHbm s u ∧ SameGates s u ∧ u.out = s.out

/-- R408, R417: a GOOD XTAL that misses an edge is LOST: the reference becomes the IRO, and the pins are forced; one that is REJUDGING is LOST again. A loss of lock forces the pins.
R408: a crystal that is judged becomes GOOD where 65,536 of its cycles filled 262,144 IRO cycles within 2 %, and no other way. R411, R427: the first lock after a reset starts the timebase. -/
def Obligations.RootClock : Prop :=
  (∀ (s : State), s.dev.board.poreset = false → s.xtal = 1 →
    Completes .xtalMissingEdge s (Reaching (fun u => u.xtal = 2 ∧ u.bit rClkStatus 2 = true ∧ PinsForced s u) (.andThen openMeterGap (countAt 0x40 0)))) ∧
  (∀ (s : State), s.dev.board.poreset = false → s.xtal = 3 →
    Completes .xtalMissingEdge s fun t => t.xtal = 2 ∧ Frame (fun o => o == rClkStatus) s t ∧ t.out = s.out) ∧
  (∀ (s : State), s.bit rClkStatus 3 = true →
    Completes .pllLockLoss s (Reaching (fun u => u.xtal = s.xtal ∧ PinsForced s u) (.andThen openMeterGap (countAt 0x41 0)))) ∧
  (∀ (s : State) (iro : Nat), s.dev.board.poreset = false → (s.xtal = 0 ∨ s.xtal = 3) → 1 ≤ s.phase → 256902 ≤ iro → iro ≤ 267386 →
    Completes (.xtalGood iro) s fun t => t.xtal = 1 ∧ Frame (fun o => o == rClkStatus) s t ∧ t.out = s.out) ∧
  (∀ (s : State) (iro : Nat), (iro < 256902 ∨ 267386 < iro ∨ s.xtal = 2) → Completes (.xtalGood iro) s fun t => t = s) ∧
  (∀ (s : State), s.dev.board.poreset = false → s.bit rClkStatus 3 = false → s.dev.clk.started = false → s.phase = 1 → s.xtal = 1 →
    Completes .pllLock s fun t => t.bit rClkStatus 3 = true ∧ t.dev.clk.started = true ∧ t.phase = 2 ∧
      Frame (fun o => o == rClkStatus || o == rImgStatus) s t ∧ t.out = s.out) ∧
  (∀ (s : State), s.dev.board.poreset = false → s.bit rClkStatus 3 = false → s.dev.clk.started = true →
    Completes .pllLock s fun t => t.bit rClkStatus 3 = true ∧ (s.bit rClkStatus 2 = true → t.bit rTbsStatus 0 = true) ∧
      Frame (fun o => o == rClkStatus || o == rTbsStatus) s t ∧ t.out = s.out)

/-- R418, R421, R430: a KXTAL that misses an edge is LOST: the real-time clock is marked as wrong, and a panel that is not DARK is FORCED with every segment off; it is GOOD where
4,096 of its cycles gave a KRO count within tolerance (R409), and then the panel's conditions are looked at. A change of the keeper's supply shows in TBS_KEEPER. R430: at keeper power-on every register of the keeper island takes its reset value
but those that show its supplies and the trim that the fuses give. R414: CLK_GATE takes the value written, and CLK_GATE_STATUS a gated node for no node in use. -/
def Obligations.KeeperClock : Prop :=
  (∀ (s : State), s.dev.keep.powered = true → s.kxtal = 1 → s.lcdState ≠ 0 → s.phase < 2 →
    Completes .kxtalMissingEdge s fun t => t.kxtal = 2 ∧ t.bit rTbsKeeper 5 = true ∧ t.lcdState = 4 ∧ (∀ w, w < 5 → t.reg (rLcdSegRam w) = 0#64) ∧
      t.dev.lcd.lit = false ∧ SameHbm s t ∧ SameGates s t ∧ t.out = s.out) ∧
  (∀ (s : State), s.dev.keep.powered = true → s.kxtal = 1 → s.lcdState = 0 → 2 ≤ s.phase → s.dev.flt.ignored.contains 0x42 = false →
    Completes .kxtalMissingEdge s fun t => t.kxtal = 2 ∧ t.bit rTbsKeeper 5 = true ∧
      t.reg (rFltEvents 0x42) = w64 (satAdd 32 (s.reg (rFltEvents 0x42)).toNat 1) ∧ SameHbm s t ∧ SameGates s t) ∧
  (∀ (s : State) (kro : Nat), s.dev.keep.powered = true → (s.kxtal = 0 ∨ s.kxtal = 3) → 3686 ≤ kro → kro ≤ 4506 →
    Completes (.kxtalGood kro) s (Reaching (fun u => u.kxtal = 1 ∧ Frame (fun o => o == rTbsKeeper) s u ∧ u.out = s.out) lcdEval)) ∧
  (∀ (s : State) (kro : Nat), (kro < 3686 ∨ 4506 < kro ∨ s.kxtal = 2) → Completes (.kxtalGood kro) s fun t => t = s) ∧
  (∀ (s : State) (v a : Bool), s.dev.keep.powered = true →
    Completes (.keeperSupplyChange v a) s fun t => t.bit rTbsKeeper 0 = v ∧ t.bit rTbsKeeper 1 = a ∧ Frame (fun o => o == rTbsKeeper) s t ∧ t.out = s.out) ∧
  (∀ (s : State) (v a h : Bool),
    Completes (.keeperPowerOn v a h) s fun t => t.dev.keep = { powered := true } ∧ t.bit rTbsKeeper 0 = v ∧ t.bit rTbsKeeper 1 = a ∧
      t.rtcValid = false ∧ t.bit rLcdStatus 9 = !h ∧
      (∀ o, resetsAt [.k] o = true → o ≠ rTbsKeeper → o ≠ rLcdStatus → o ≠ rTbsRtcTrim → t.reg o = regReset o) ∧
      Frame (fun o => resetsAt [.k] o || o == rTbsKeeper || o == rLcdStatus || o == rTbsRtcTrim) s t ∧ t.out = s.out) ∧
  (∀ (s : State) (rd v : Nat) (l : Loc), Writes s rd rClkGate l →
    Completes (.clkGate rd v) s fun t => t.reg rClkGate = w64 (v % 512) ∧ (∀ n, n < 3 → t.bit rClkGateStatus n = false) ∧
      (∀ n, n < 9 → t.bit rClkGateStatus n = true → (bitOf v n = true ∧ s.nodeInUse n = false) ∨ (n = 8 ∧ s.isToll = false)) ∧
      Frame (fun o => o == rClkGate || o == rClkGateStatus) s t ∧ t.out = s.out)

/-- R431, R433: a carry into SECONDS moves the real-time clock on to the next second, with what FRACTION has counted past it (log entry 67), and on a chip whose timebase
has started TBS_CORR takes both clocks. A KXTAL that was
LOST and runs again is being judged. A time set on a chip that keeps no tolls loads the clock and makes it valid. -/
def Stated.RealTimeClock : Prop :=
  (∀ (s : State) (r : Bool), s.dev.keep.powered = true →
    Completes (.secondsCarry r) s (Reaching (fun u =>
        u.kxtal = (if s.kxtal = 2 ∧ r = true then 3 else s.kxtal) ∧
        u.rtc = (s.rtc / 32768 + 1) % 2 ^ 49 * 32768 + min 32767 (s.dev.keep.owed - 1) ∧ u.dev.keep.owed = 0 ∧ SameHbm s u ∧ SameGates s u ∧ u.out = s.out ∧
        (s.mainUp = true → s.dev.clk.started = true →
          u.reg rTbsCorrTb = w64 s.now ∧ u.reg rTbsCorrRtc = u.reg rTbsRtc ∧ u.fld rTbsCorrSeq 0 32 = (s.fld rTbsCorrSeq 0 32 + 1) % 2 ^ 32))
      (Eff.all [tollSecond ((s.rtc / 32768 + 1) % 2 ^ 49), startBattery ((s.rtc / 32768 + 1) % 2 ^ 49),
        Eff.when s.currentOnly (onKeep fun k => { k with burst := true }), lcdSecond ((s.rtc / 32768 + 1) % 2 ^ 49)]))) ∧
  (∀ (s : State) (rd v : Nat) (l : Loc), Writes s rd rTbsRtcSet l → s.dev.keep.powered = true → s.isToll = false →
    Completes (.tbsRtcSet rd v) s fun t => t.rtc = v % 2 ^ 64 ∧ t.rtcValid = true ∧ Frame (fun o => o == rTbsRtc || o == rTbsKeeper) s t ∧ t.out = s.out)

/-- R596, R597: a battery test ends with the voltage found and its verdict, 2,400 mV passing; then the updates it held are applied. R480: a burst of the current-only mode that
confirms neither a start nor an end of tampering, outside a tamper event, only shows its current and counts. -/
def Stated.BatteryAndTamper : Prop :=
  (∀ (s : State) (mv : Nat) (early : Bool), s.testing = true → early = false → 2400 ≤ mv → mv < 4096 →
    Completes (.batteryTestEnd mv early) s (Reaching (fun u => u.fld rStpBatt 0 12 = mv ∧ u.bit rStpBatt 12 = true ∧ u.bit rStpBatt 13 = false ∧
      u.reg rStpBattRtc = s.reg rTbsRtc ∧ Frame (fun o => o == rStpBatt || o == rStpBattRtc) s u ∧ u.out = s.out) applyHeld)) ∧
  (∀ (s : State) (mv : Nat), s.testing = true → mv < 2400 → s.mainUp = true → s.dev.flt.ignored.contains 0x48 = false →
    Completes (.batteryTestEnd mv false) s (Reaching (fun u => u.bit rStpBatt 12 = false ∧ u.fld rStpBatt 0 12 = mv ∧
      u.reg (rFltEvents 0x48) = w64 (satAdd 32 (s.reg (rFltEvents 0x48)).toNat 1) ∧ SameHbm s u ∧ SameGates s u) applyHeld)) ∧
  (∀ (s : State) (xs : List Int), s.dev.keep.burst = true → s.currentOnly = true → s.bit rMtrTamperStatus 0 = false → s.dev.keep.tamperRun = 0 →
    Completes (.tamperBurstEnd xs) s fun t => t.dev.keep.burst = false ∧ t.bit rMtrTamperStatus 0 = false ∧ t.reg rMtrTamper = s.reg rMtrTamper ∧
      Frame (fun o => o == rMtrTamperStatus) s t ∧ t.out = s.out)

/-! ### The front panel (chapter 15) -/

/-- R513, R517, R518, R526: the panel's states. A rail that settles near its target is up; the next frame is BLANK, and two blank frames later content is shown, with the page and status
annunciators; a rail that does not settle in time, or a VLCD out of range, leaves the panel DARK and counts; so does VDD_AON below 1.65 V, uncounted. -/
def Stated.PanelStates : Prop :=
  (∀ (s : State) (vlcd aon : Nat), s.lcdState = 1 → s.dev.lcd.rail = false → s.lcdInternal = false → 2700 ≤ vlcd → vlcd ≤ 5000 →
    Completes (.lcdRailSettled vlcd aon) s fun t => t.dev.lcd.rail = true ∧ t.bit rLcdStatus 3 = false ∧ Frame (fun o => o == rLcdStatus) s t ∧ t.out = s.out) ∧
  (∀ (s : State) (vlcd aon : Nat), s.lcdState = 1 → s.dev.lcd.rail = false → s.lcdInternal = true → 20 * vlcd ≤ 21 * (s.lcdTarget aon).1 →
    19 * (s.lcdTarget aon).1 ≤ 20 * vlcd →
    Completes (.lcdRailSettled vlcd aon) s fun t => t.dev.lcd.rail = true ∧ t.bit rLcdStatus 3 = (s.lcdTarget aon).2 ∧ Frame (fun o => o == rLcdStatus) s t ∧ t.out = s.out) ∧
  (∀ (s : State), s.dev.keep.powered = true → s.lcdState = 1 → s.dev.lcd.rail = true →
    Completes .lcdFrame s fun t => t.lcdState = 2 ∧ (∀ w, w < 5 → t.reg (rLcdSegRam w) = 0#64) ∧ t.dev.lcd.blanks = 2 ∧ SameHbm s t ∧ SameGates s t ∧ t.out = s.out) ∧
  (∀ (s : State), s.dev.keep.powered = true → s.lcdState = 2 → 1 < s.dev.lcd.blanks →
    Completes .lcdFrame s fun t => t.lcdState = 2 ∧ t.dev.lcd.blanks = s.dev.lcd.blanks - 1 ∧ Frame (fun _ => false) s t ∧ t.out = s.out) ∧
  (∀ (s : State), s.dev.keep.powered = true → ((s.lcdState = 2 ∧ s.dev.lcd.blanks ≤ 1) ∨ s.lcdState = 3) →
    Completes .lcdFrame s fun t => t.lcdState = 3 ∧ t.dev.lcd.lit = true ∧ SameHbm s t ∧ SameGates s t ∧ t.out = s.out ∧
      ∀ w, w < 5 → t.reg (rLcdSegRam w) = w64 (bitsOf (s.dev.lcd.page ||| s.statusBits) (32 * w) 32)) ∧
  (∀ (s : State), s.lcdState = 1 → s.dev.lcd.rail = false → s.railOverdue = true →
    Completes .lcdRailTimeout s (Reaching (fun u => u.lcdState = 0 ∧ u.dev.lcd.retry = true ∧ (∀ w, w < 5 → u.reg (rLcdSegRam w) = 0#64) ∧ SameHbm s u ∧ SameGates s u)
      railEvent)) ∧
  (∀ (s : State), s.lcdState = 3 → s.lcdInternal = false →
    Completes .vlcdOutOfRange s (Reaching (fun u => u.lcdState = 0 ∧ (∀ w, w < 5 → u.reg (rLcdSegRam w) = 0#64) ∧ SameHbm s u ∧ SameGates s u) railEvent)) ∧
  (∀ (s : State), s.dev.keep.powered = true → s.lcdState ≠ 0 →
    Completes .aonLow s fun t => t.lcdState = 0 ∧ t.bit rLcdStatus 9 = true ∧ (∀ w, w < 5 → t.reg (rLcdSegRam w) = 0#64) ∧ SameHbm s t ∧ SameGates s t ∧ t.out = s.out) ∧
  (∀ (s : State), s.dev.keep.powered = true → s.lcdState = 0 → s.lcdWanted = true → s.kxtal = 1 → s.dev.lcd.retry = false →
    Completes .aonRise s fun t => t.lcdState = 1 ∧ t.bit rLcdStatus 9 = false ∧ Frame (fun o => o == rLcdStatus) s t ∧ t.out = s.out)

/-- R517, R525: a write of BLANK makes a panel that is not DARK go DARK; a hold on an entry that can be shown, of 1 to 3,600 seconds, shows it and holds it; one of 0 seconds ends
the hold. -/
def Stated.PanelCommands : Prop :=
  (∀ (s : State) (rd v : Nat) (l : Loc), Writes s rd rLcdCtrl l → v % 2 = 1 → s.lcdState ≠ 0 →
    Completes (.lcdCtrlBlank rd v) s fun t => t.reg rLcdCtrl = 1#64 ∧ t.lcdState = 0 ∧ (∀ w, w < 5 → t.reg (rLcdSegRam w) = 0#64) ∧ SameHbm s t ∧ SameGates s t ∧ t.out = s.out) ∧
  (∀ (s : State) (rd v : Nat) (l : Loc), Writes s rd rLcdHold l → v / 65536 = 0xD15A → 1 ≤ v / 16 % 4096 → v / 16 % 4096 ≤ 3600 → s.pageOpen (v % 16) = true →
    Completes (.lcdHold rd v) s fun t => t.entry = v % 16 ∧ t.holding = true ∧ t.fld rLcdStatus 16 12 = v / 16 % 4096 ∧ t.dev.lcd.shown = 0 ∧
      Frame (fun o => o == rLcdStatus) s t ∧ t.out = s.out) ∧
  (∀ (s : State) (rd v : Nat) (l : Loc), Writes s rd rLcdHold l → v / 65536 = 0xD15A → v / 16 % 4096 = 0 →
    Completes (.lcdHold rd v) s fun t => t.holding = false ∧ t.fld rLcdStatus 16 12 = 0 ∧ Frame (fun o => o == rLcdStatus) s t ∧ t.out = s.out)

/-! ### The meter (chapter 13) -/

/-- R440, R441: a sample of a meter that runs, where no window has ended, is taken by every channel in service, with the ones of its block (R477), and the first of the
discarded samples counts the discarding down. R447: a window whose end has been found is measured. -/
def Stated.MeterSamples : Prop :=
  (∀ (s : State) (blocks : List Nat), s.metering = true → s.windowEnd = none → s.dev.mtr.skip = 3 → s.dev.mtr.measure = none →
    (∀ c, (mget {} s.dev.mtr.chans c).recent = []) →
    Completes (.meterSample blocks []) s fun t => t.dev.mtr.skip = 2 ∧ t.dev.mtr.n = s.dev.mtr.n ∧
      (∀ c ∈ s.mtrUsed, s.inService c = true → (mget {} t.dev.mtr.chans c).newer = blocks.getD c 0 ∧
        (mget {} t.dev.mtr.chans c).older = (mget {} s.dev.mtr.chans c).newer ∧ (mget {} t.dev.mtr.chans c).marks.head?.map Prod.fst = some ((List.range 512).filter (bitOf (blocks.getD c 0))).length) ∧
      Frame (fun _ => false) s t ∧ t.out = s.out) ∧
  (∀ (s : State) (raw w : Nat) (x : Option Rat), s.metering = true → s.windowEnd = some (w, x) →
    (∀ a, s.dev.mtr.applying = some a → a.ch < 7) →
    Completes (.windowEnd raw) s fun t => t.fld rMtrWin 0 32 = (s.fld rMtrWin 0 32 + 1) % 2 ^ 32 ∧ t.fld rMtrWin 32 11 = w % 2 ^ 11 ∧ SameHbm s t ∧ SameGates s t ∧
      t = (endWindow w x (some raw) false).run s) ∧
  (∀ (s : State) (raw : Nat), s.metering = true → s.windowEnd = none → Completes (.windowEnd raw) s fun t => t = s)

/-- R462, R464: a pulse of CF_OUT starts where one is queued, none is high and the spacing has passed: the queue falls and the count rises; after its width it ends. A pulse input's
accepted active level counts once. -/
def Stated.Pulses : Prop :=
  (∀ (s : State), s.metering = true → s.dev.mtr.high = false → s.reg rMtrCfQueue ≠ 0#64 → (∀ t0, s.dev.mtr.lastPulse = some t0 → (t0 : Rat) + s.dev.mtr.spacing ≤ s.now) →
    Completes .cfPulseStart s fun t => t.reg rMtrCfQueue = w64 ((s.reg rMtrCfQueue).toNat - 1) ∧ t.reg rMtrCfCount = w64 (satAdd 64 (s.reg rMtrCfCount).toNat 1) ∧
      t.dev.mtr.high = true ∧ t.dev.mtr.lastPulse = some s.now ∧ Frame (fun o => o == rMtrCfQueue || o == rMtrCfCount) s t ∧ t.out = s.out) ∧
  (∀ (s : State), s.dev.mtr.high = true → s.dev.mtr.lastPulse.getD 0 + s.fld rMtrCfCfg 20 7 * 800000 ≤ s.now →
    Completes .cfPulseEnd s fun t => t.dev.mtr.high = false ∧ Frame (fun _ => false) s t ∧ t.out = s.out) ∧
  (∀ (s : State) (n : Nat) (level : Bool), n < 2 → s.dev.mtr.on = true → level ≠ s.bit (rMtrPinCfg n) 23 →
    Completes (.pulseInAccept n level) s fun t => t.reg (rMtrPinCount n) = w64 (satAdd 64 (s.reg (rMtrPinCount n)).toNat 1) ∧
      Frame (fun o => o == rMtrPinCount n) s t ∧ t.out = s.out)

/-- A calibration command of MTR_CAL_CMD is taken: the chip is the toll master, the key is given, and no other runs (R470, R472). -/
abbrev CalTaken (s : State) (rd v : Nat) : Prop :=
  (∃ l, Writes s rd rMtrCalCmd l) ∧ s.isToll = true ∧ v / 65536 = 0xCA1B ∧ s.calBusy = false

/-- R470 to R472, R479: MEASURE of a channel in use over 1 to 64 windows begins; APPLY and CLEAR ask the journal for a METER_CAL record of what they are to bring into force;
a command that has not ended in time ends TIMEOUT; and the release of a channel asks the journal for its record. -/
def Obligations.MeterCalibration : Prop :=
  (∀ (s : State) (rd v : Nat), CalTaken s rd v → v % 4 = 1 → s.mtrUsed.contains s.stageCh = true → 1 ≤ s.fld (rMtrCalStage 0) 8 8 → s.fld (rMtrCalStage 0) 8 8 ≤ 64 →
    Completes (.measure rd v) s fun t => t.fld rMtrCalResult 0 4 = 1 ∧ t.fld rMtrCalResult 4 4 = 0 ∧
      (∃ m, t.dev.mtr.measure = some m ∧ m.ch = s.stageCh ∧ m.n = s.fld (rMtrCalStage 0) 8 8 ∧ m.start = s.now ∧ m.done = 0) ∧
      Frame (fun o => o == rMtrCalResult) s t ∧ t.out = s.out) ∧
  (∀ (s : State) (rd v : Nat), CalTaken s rd v → v % 4 = 3 → s.mtrUsed.contains s.stageCh = true → s.tempPoints s.stageCh = [] →
    -65536 < s.sfld (rMtrChFact s.stageCh 2) 0 32 + s.sfld (rMtrChImg s.stageCh 2) 0 32 →
    s.sfld (rMtrChFact s.stageCh 2) 0 32 + s.sfld (rMtrChImg s.stageCh 2) 0 32 < 65536 →
    Completes (.clear rd v) s (Reaching (fun u =>
        (∃ a, u.dev.mtr.applying = some a ∧ a.op = 3 ∧ a.ch = s.stageCh ∧ a.g = 2 ^ 30 ∧ a.off = 0 ∧ a.ph = 0 ∧ a.start = s.now ∧ a.committed = false) ∧
        (∃ r, u.dev.jrn = s.dev.jrn ++ [r] ∧ r.typ = 5 ∧ r.tag = .meterCal) ∧ u.fld rMtrCalResult 0 4 = 3 ∧ u.fld rMtrCalResult 4 4 = 0 ∧
        Frame (fun o => o == rMtrCalResult) s u ∧ u.out = s.out) pumpJournal)) ∧
  (∀ (s : State) (rd v : Nat), CalTaken s rd v → v % 4 = 2 → s.mtrUsed.contains s.stageCh = true → s.tempPoints s.stageCh = [] →
    2 ^ 29 ≤ (s.reg (rMtrCalStage 1)).toNat → (s.reg (rMtrCalStage 1)).toNat ≤ 2 ^ 31 → -1048576 ≤ s.sfld (rMtrCalStage 2) 0 32 → s.sfld (rMtrCalStage 2) 0 32 ≤ 1048576 →
    -65536 < s.sfld (rMtrChFact s.stageCh 2) 0 32 + s.sfld (rMtrChImg s.stageCh 2) 0 32 + s.sfld (rMtrCalStage 3) 0 32 →
    s.sfld (rMtrChFact s.stageCh 2) 0 32 + s.sfld (rMtrChImg s.stageCh 2) 0 32 + s.sfld (rMtrCalStage 3) 0 32 < 65536 →
    Completes (.apply rd v) s (Reaching (fun u =>
        (∃ a, u.dev.mtr.applying = some a ∧ a.op = 2 ∧ a.ch = s.stageCh ∧ a.g = (s.reg (rMtrCalStage 1)).toNat ∧ a.off = s.sfld (rMtrCalStage 2) 0 32 ∧
          a.ph = s.sfld (rMtrCalStage 3) 0 32 ∧ a.start = s.now ∧ a.committed = false) ∧
        (∃ r, u.dev.jrn = s.dev.jrn ++ [r] ∧ r.typ = 5 ∧ r.tag = .meterCal) ∧ u.fld rMtrCalResult 0 4 = 2 ∧ u.fld rMtrCalResult 4 4 = 0 ∧
        Frame (fun o => o == rMtrCalResult) s u ∧ u.out = s.out) pumpJournal)) ∧
  (∀ (s : State) (m : Measure), s.dev.mtr.measure = some m → m.start + 2 ^ 34 ≤ s.now →
    Completes .measureTimeout s fun t => t.fld rMtrCalResult 4 4 = 3 ∧ t.dev.mtr.measure = none ∧ Frame (fun o => o == rMtrCalResult) s t ∧ t.out = s.out) ∧
  (∀ (s : State) (a : Applying), s.dev.mtr.applying = some a → a.committed = false → a.start + 2 ^ 30 ≤ s.now →
    Completes .applyTimeout s fun t => t.fld rMtrCalResult 4 4 = 3 ∧ t.dev.mtr.applying = none ∧ t.dev.jrn = s.dev.jrn.filter (fun r => r.tag != .meterCal) ∧
      Frame (fun o => o == rMtrCalResult) s t ∧ t.out = s.out) ∧
  (∀ (s : State) (rd v : Nat) (l : Loc), Writes s rd rMtrChCtrl l → s.isToll = true → v / 65536 = 0x7E1A → bitOf v 3 = true → v % 8 < 7 →
    Completes (.meterRelease rd v) s (Reaching (fun u =>
      u.dev.jrn = s.dev.jrn ++ [{ typ := 5, body := unitsBody (unitsEntry 9 0 (v % 8) 0 0 0 s.now s.rtc) }] ∧ Frame (fun _ => false) s u ∧ u.out = s.out) pumpJournal))

/-! ### Tolls (chapter 14) -/

/-- R509, R510: SNAPSHOT by a reader takes the tolls into that reader's buffer, BUSY, and SNAP_SEQ rises; once sealed the buffer holds the same 2,584 bytes with their seal. R499: CLOSE
closes the interval, archives a sealed snapshot and begins the next period; a window whose end has been found by then is measured first and so belongs to the interval
that closes. These while no battery test holds updates; during one they wait in order (R596). -/
def Obligations.Snapshots : Prop :=
  (∀ (s : State) (rd v : Nat) (l : Loc), Writes s rd rTolCmd l → s.isToll = true → v % 4 = 1 → s.testing = false →
    Completes (.snapshot rd v) s fun t => t.dev.keep.snapSeq = s.dev.keep.snapSeq + 1 ∧ mget? t.dev.tol.status (if rd = i2cReader then 1 else 0) = some 1 ∧
      mget? t.dev.tol.sealing (if rd = i2cReader then 1 else 0) = some s.now ∧
      mget? t.dev.tol.bufs (if rd = i2cReader then 1 else 0) =
        some (({ s with dev := { s.dev with keep := { s.dev.keep with snapSeq := s.dev.keep.snapSeq + 1 } } } : State).snapshot 0 (s.dev.keep.snapSeq + 1) ++ zeros 64) ∧
      Frame (fun _ => false) s t ∧ t.out = s.out) ∧
  (∀ (s : State) (rd v : Nat) (l : Loc), Writes s rd rTolCmd l → s.isToll = true → v % 4 = 1 → s.testing = true →
    Completes (.snapshot rd v) s fun t => t.dev.keep.held = s.dev.keep.held ++ [.snap (if rd = i2cReader then 1 else 0)] ∧ Frame (fun _ => false) s t ∧ t.out = s.out) ∧
  (∀ (s : State) (who t0 : Nat), mget? s.dev.tol.sealing who = some t0 →
    Completes (.snapshotSealed who) s fun t =>
      mget? t.dev.tol.bufs who = some ((mget [] s.dev.tol.bufs who).take 2584 ++ sealOf ((mget [] s.dev.tol.bufs who).take 2584)) ∧
      mget? t.dev.tol.status who = some 2 ∧ mget? t.dev.tol.sealing who = none ∧ Frame (fun _ => false) s t ∧ t.out = s.out) ∧
  (∀ (s : State) (rd v : Nat) (l : Loc), Writes s rd rTolCmd l → s.isToll = true → v % 4 = 2 → v / 65536 = 0x5EA1 → s.testing = false → (s.metering = false ∨ s.windowEnd = none) →
    Completes (.billingClose rd v) s fun t => t = (Eff.all [closeInterval, billTail, onKeep fun k => { k with lastBill := some s.seconds }]).run
        ((writeReg rd rTolCmd .skip).run s) ∧
      t.dev.keep.closeSeq = s.dev.keep.closeSeq + 1 ∧ t.dev.keep.lastBill = some s.seconds ∧ SameHbm s t ∧ SameGates s t) ∧
  (∀ (s : State) (rd v : Nat) (l : Loc), Writes s rd rTolCmd l → s.isToll = true → v % 4 = 2 → v / 65536 = 0x5EA1 →
    Completes (.billingClose rd v) s fun t => t = (Eff.andThen measureDue (tolOp (.bill s.seconds))).run ((writeReg rd rTolCmd .skip).run s))

/-- R493, R494: COMMIT of a calendar in order, whose time is a minute or more ahead, is BUSY and asks the journal for its record; one whose format is wrong ends FORMAT; one that is not
committed in time ends JOURNAL. CANCEL asks for a record that cancels the pending calendar, which is gone. -/
def Stated.Calendars : Prop :=
  (∀ (s : State) (rd v : Nat) (l : Loc), Writes s rd rTolCalCmd l → s.isToll = true → v / 65536 = 0x7A11 → v % 4 = 1 → s.dev.tol.commit = none →
    calFormatOk s.stagedCalendar = true → calCrcOk s.stagedCalendar = true → s.rtcValid = true → s.seconds + 60 ≤ (s.reg rTolCalAct).toNat →
    Completes (.calendarCommit rd v) s (Reaching (fun u => u.fld rTolCalStatus 0 3 = 7 ∧
        u.dev.tol.commit = some (s.stagedCalendar.take (calLen s.stagedCalendar), (s.reg rTolCalAct).toNat, s.now) ∧
        u.dev.jrn = s.dev.jrn ++ [calendarRecord 1 (s.reg rTolCalAct).toNat (s.stagedCalendar.take (calLen s.stagedCalendar)) .calendar] ∧
        Frame (fun o => o == rTolCalStatus) s u ∧ u.out = s.out) pumpJournal)) ∧
  (∀ (s : State) (rd v : Nat) (l : Loc), Writes s rd rTolCalCmd l → s.isToll = true → v / 65536 = 0x7A11 → v % 4 = 1 → s.dev.tol.commit = none →
    calFormatOk s.stagedCalendar = false →
    Completes (.calendarCommit rd v) s fun t => t.fld rTolCalStatus 0 3 = 1 ∧ Frame (fun o => o == rTolCalStatus) s t ∧ t.out = s.out) ∧
  (∀ (s : State) (c : List Byte) (a t0 : Nat), s.dev.tol.commit = some (c, a, t0) → t0 + 2 ^ 30 ≤ s.now →
    Completes .calendarCommitTimeout s fun t => t.fld rTolCalStatus 0 3 = 4 ∧ t.dev.tol.commit = none ∧ t.dev.jrn = s.dev.jrn.filter (fun r => r.tag != .calendar) ∧
      Frame (fun o => o == rTolCalStatus) s t ∧ t.out = s.out) ∧
  (∀ (s : State) (rd v : Nat) (l : Loc), Writes s rd rTolCalCmd l → s.isToll = true → v / 65536 = 0x7A11 → v % 4 = 2 → s.dev.keep.pending ≠ [] →
    Completes (.calendarCancel rd v) s fun t => t.dev.keep.pending = [] ∧ t.reg (rTolCalActive 1) = 0#64 ∧ Frame (fun o => o == rTolCalActive 1) s t)

/-- R486, R484: an ACTIVITY report of a chip of the tray rises its slot's counters and count at the toll master; a tray chip that has sent none for 2^24 ticks counts at its slot. -/
def Stated.ActivityReports : Prop :=
  (∀ (s : State) (w : Waiting) (slot : Nat), Arrived s 0x28 w → s.isToll = true → s.trayChips.findIdx? (fun c => c == w.barge.srcChip) = some slot →
    Completes .activity s fun t =>
      (∃ r, mget? t.dev.tol.reports slot = some r ∧ r.seq = some (getLe w.barge.payload 4 4) ∧ r.tick = s.now ∧
        r.counters = (List.range 96).map fun i => getLe w.barge.payload (16 + 8 * i) 8) ∧
      t.fld (rTolRpt slot) 0 32 = satAdd 32 (s.fld (rTolRpt slot) 0 32) 1 ∧ SameHbm s t ∧ SameGates s t) ∧
  (∀ (s : State) (slot : Nat), s.isToll = true → slot < 8 → s.dev.tol.started = true → (mget {} s.dev.tol.reports slot).tick + 2 ^ 24 ≤ s.now → s.dev.flt.ignored.contains 0x64 = false →
    Completes (.activitySilent slot) s fun t => mget? t.dev.tol.reports slot = some { mget {} s.dev.tol.reports slot with tick := s.now } ∧
      t.reg (rFltEvents 0x64) = w64 (satAdd 32 (s.reg (rFltEvents 0x64)).toNat 1) ∧ SameHbm s t ∧ SameGates s t)

/-! ### Resets (chapters 00, 05, 06, 16 and 18) -/

/-- The word names the tail of a basin reset after its state has become RESETTING. -/
def basinResetTail (s : State) (b : Nat) : Eff := Eff.all
  [ Eff.each (s.liveQueues fun q => s.qOwner q == b) resetQueue, Eff.each ((List.range 16).filter fun k => s.setPresent k && s.setOwner k == b) undefineSet,
    serveReset b, rankBasinReset b, codecBasinReset b ]

/-- R165, R173: a keyed write of LCK_BASIN_RESET that names an OPEN tenant basin makes its reset due; the reset that is due makes the basin RESETTING, its work ends, and ZERO_LEFT
counts the pages to be zeroed. R166: at the end of the zeroing the basin's own windows with W read zero, and the basin is OPEN; the
zeroing waits while an armed page of theirs is still to be copied (R389). -/
def Obligations.BasinResets : Prop :=
  (∀ (s : State) (rd v : Nat) (l : Loc), Writes s rd rLckBasinReset l → bitsOf v 16 16 = 0xB45E → 1 ≤ bitsOf v 0 4 → s.isOpen (bitsOf v 0 4) = true →
    Completes (.lckBasinReset rd v) s fun t => bitsOf v 0 4 ∈ t.dev.due.basins ∧ Frame (fun _ => false) s t ∧ t.out = s.out) ∧
  (∀ (s : State) (b : Nat), b < 16 → s.dev.due.basins.contains b = true → s.dev.due.chip = none → s.isOpen b = true →
    Completes (.basinReset b) s (fun t => ∃ u, u.fld (rLckBasin b) 0 2 = 2 ∧ u.dev.due.basins = sdel s.dev.due.basins b ∧ Frame (fun o => o == rLckBasin b) s u ∧
      u.out = s.out ∧ t = (putFld (rLckBasin b) 3 29 ((s.zeroWindows b).map fun w => (w.last + 1 - w.first) / 4096).sum).run ((basinResetTail u b).run u))) ∧
  (∀ (s : State) (b : Nat), b < 16 → s.fld (rLckBasin b) 0 2 = 2 → (∃ w ∈ s.zeroWindows b, s.cowWait w.first (w.last + 1 - w.first) = true) →
    Completes (.basinReopen b) s fun t => t = s) ∧
  (∀ (s : State) (b : Nat), b < 16 → s.fld (rLckBasin b) 0 2 = 2 → (∀ w ∈ s.zeroWindows b, s.cowWait w.first (w.last + 1 - w.first) = false) →
    Completes (.basinReopen b) s fun t => t.isOpen b = true ∧ t.fld (rLckBasin b) 3 29 = 0 ∧
      (∀ w ∈ s.zeroWindows b, ∀ a, w.first ≤ a → a ≤ w.last → t.byte a = 0#8 ∧ a ∉ t.poison) ∧
      (∀ a, (∀ w ∈ s.zeroWindows b, a < w.first ∨ w.last < a) → t.byte a = s.byte a) ∧
      SameGates s t ∧ RegsBut (fun o => o == rLckBasin b) s t ∧ t.out = s.out)

/-- R10, R529 to R532: a CHIP_RESET that is due, and a PWR_GOOD input's fall, reset the main domain: gates and timebase are 0, every register that the reset reaches holds its reset value
(but those that CHIP_RESET leaves for the link and the straps), HBM keeps its bytes, and GLB_RESET_CAUSE tells which reset it was. -/
def Obligations.MainResets : Prop :=
  (∀ (s : State) (last src : Nat), s.dev.due.chip = some (last, src) →
    Completes .chipReset s fun t => (∀ b g, t.gate b g = 0) ∧ t.now = 0 ∧
      (∀ o, resetsAt [.pc] o = true → o ≠ rClkStatus → o ≠ rPciLink → o ≠ rBrdI2c → o ≠ rBrdPmb → t.reg o = regReset o) ∧
      t.fld rGlbResetCause 0 4 = last % 16 ∧ (last = 3 → t.fld rGlbResetCause 4 8 = src % 256) ∧
      t.fld rGlbResetCause 16 16 = satAdd 16 (s.fld rGlbResetCause 16 16) 1 ∧ t.fld rPciLink 0 9 = s.fld rPciLink 0 9 ∧
      t.dev.due.chip = none ∧ t.dev.work.queues = [] ∧ SameHbm s t ∧ t.pending = s.pending) ∧
  (∀ (s : State) (i : Nat), i < 4 → bitOf s.dev.board.good i = true → s.dev.board.poreset = false →
    Completes (.pwrGoodFall i) s fun t => (∀ b g, t.gate b g = 0) ∧ t.now = 0 ∧ (∀ o, resetsAt [.pc, .p] o = true → t.reg o = regReset o) ∧
      t.fld rGlbResetCause 0 4 = 2 ∧ t.dev.board.poreset = true ∧ bitOf t.dev.board.good i = false ∧ t.dev.work.queues = [] ∧ SameHbm s t ∧
      t.pending = s.pending ∧ (s.faultN = true → .faultPin false ∈ t.out)) ∧
  (∀ (s : State) (i : Nat), i < 4 → bitOf s.dev.board.good i = false → s.dev.board.good < 16 →
    Completes (.pwrGoodRise i) s fun t => t.dev.board.good = s.dev.board.good + 2 ^ i ∧ Frame (fun _ => false) s t ∧ t.out = s.out) ∧
  (∀ (s : State) (straps : Nat) (off : Bool), s.dev.board.poreset = true → s.dev.board.good = 15 → s.dev.keep.tamperOpen = none →
    Completes (.poresetRelease straps off) s fun t => t.dev.board.poreset = false ∧ t.reg rBrdStrap = w64 (straps % 16) ∧
      t.fld rGlbResetCause 0 4 = (if off then 1 else 2) ∧ t.fld rBrdI2c 0 7 = 0x58 + straps % 4 ∧
      Frame (fun o => o == rBrdStrap || o == rGlbResetCause || o == rBrdI2c || o == rBrdPmb) s t ∧ t.out = s.out)

/-- R531, R559: a keyed write of GO makes a CHIP_RESET due, by software; of DRYDOCK one into dry-dock. R205, R579: a BLOCK_RESET that is due ends the work of its block: of the copy engines, the
serving engine and the wharf the registers take their reset values. R207: DISABLE of a queue discards what it has not started and ends what it has; one
that owes nothing is DISABLED at once, and its doorbell goes on to show the SQ_TAIL and CQ_HEAD last accepted (R181). -/
def Obligations.ResetCommands : Prop :=
  (∀ (s : State) (rd v : Nat) (l : Loc), Writes s rd rGlbChipReset l → bitsOf v 16 16 = 0xC41F → bitOf v 0 = true → bitOf v 1 = false → s.dev.due.chip = none →
    Completes (.go rd v) s fun t => t.dev.due.chip = some (4, 0) ∧ t.dev.keep.dryReq = s.dev.keep.dryReq ∧ Frame (fun _ => false) s t ∧ t.out = s.out) ∧
  (∀ (s : State) (rd v : Nat) (l : Loc), Writes s rd rGlbChipReset l → bitsOf v 16 16 = 0xC41F → bitOf v 1 = true → s.dev.due.chip = none →
    Completes (.drydock rd v) s fun t => t.dev.due.chip = some (6, 0) ∧ t.dev.keep.dryReq = true ∧ Frame (fun _ => false) s t ∧ t.out = s.out) ∧
  (∀ (s : State) (k : Block), s.dev.due.blocks.contains k = true → s.dev.due.chip = none →
    Completes (.blockReset k) s fun t => ∃ u, u.dev.due.blocks = s.dev.due.blocks.filter (fun x => x != k) ∧ Frame (fun _ => false) s u ∧ u.out = s.out ∧
      t = (blockReset k).run u ∧ ((k = .dma ∨ k = .serve ∨ k = .wharf) → ∀ o, ofBlock k o = true → t.reg o = regReset o)) ∧
  (∀ (s : State) (rd q v : Nat) (l : Loc), q < 256 → Writes s rd (rQueCtrl q) l → bitOf v 1 = true → s.qState q ≠ 0 →
    Completes (.queueDisable rd q v) s (Reaching (fun u => (u.queue q).closing = true ∧ (u.queue q).nextFetch = (s.queue q).sqTail ∧
        (∀ e ∈ (u.queue q).owed, e.fin.isSome = true ∨ (s.engineRuns q = true ∧ s.current q ≠ none)) ∧ Frame (fun _ => false) s u ∧ u.out = s.out)
      (Eff.all [dropRead (.sq q), stopRuns q, pumpWharf, post q]))) ∧
  (∀ (s : State) (rd q v : Nat) (l : Loc), q < 256 → Writes s rd (rQueCtrl q) l → bitOf v 1 = true → s.qState q ≠ 0 → (s.queue q).owed = [] → s.engineRuns q = false →
    s.dev.whf = {} → s.dev.srv.basins = [] →
    Completes (.queueDisable rd q v) s fun t => t.qState q = 0 ∧ t.queue q = (s.queue q).parked ∧ SameHbm s t ∧ SameGates s t)

/-! ### Start (chapter 16) -/

/-- R534, R536, R554 to R557: the steps of start. The fuses are read and agree; the journal is read, and a copy is to be tried; a copy that verifies is chosen, and one
that does not leaves its cause, the last of them ending in dry-dock; its sections are applied and
IN_FORCE is shown; HBM is trained, tested and written zero; the wait for ADMIT ends; and the enabled basins open. -/
def Obligations.StartSteps : Prop :=
  (∀ (s : State) (clockRaw : Int), s.dev.board.poreset = false → s.phase = 0 →
    Completes (.fuseRead true clockRaw) s fun t => t.phase = 1 ∧ t.reg rImgSerial = w64 (Config.serial % 2 ^ 64) ∧ SameHbm s t ∧ SameGates s t) ∧
  (∀ (s : State) (p : Sfdp), s.phase = 2 → s.forced = false → within 0x1000000 0x4000000 p.density = true →
    (p.density = 0x1000000 ∨ p.choice.2.long.isSome = true ∨ p.entry = true) →
    s.dev.keep.dryReq = true →
    Completes (.journalRead (some p)) s fun t => t.phase = 7 ∧ t.fld rImgStatus 24 8 = 2 ∧ t.dev.keep.dryReq = false ∧ t.dev.flash.density = p.density ∧
      SameHbm s t ∧ SameGates s t) ∧
  (∀ (s : State) (p : Sfdp), s.phase = 2 → s.forced = false → within 0x1000000 0x4000000 p.density = true →
    (p.density = 0x1000000 ∨ p.choice.2.long.isSome = true ∨ p.entry = true) →
    s.dev.keep.dryReq = false →
    Completes (.journalRead (some p)) s fun t => t.dev.flash.density = p.density ∧ t.dev.img.tries = t.dev.flash.tries ∧
      t.fld rBrdSpi 0 2 = p.choice.1 ∧
      (t.dev.flash.tries ≠ [] → t.phase = 3) ∧ (t.dev.flash.tries = [] → t.phase = 7 ∧ t.fld rImgStatus 24 8 = 1) ∧ SameHbm s t ∧ SameGates s t) ∧
  (∀ (s : State) (c : Nat) (rest : List Nat), s.phase = 3 → s.forced = false → s.dev.img.tries = c :: rest → c < 2 →
    Completes .imageVerify s fun t => t.dev.img.tries = rest ∧ SameHbm s t ∧ SameGates s t ∧
      ((verifyImage (s.dev.flash.copy c) s.serial s.dev.img.owner s.dev.img.svnMin).cause = 0 →
        t.phase = 4 ∧ t.fld rImgStatus 4 2 = c + 1 ∧ t.fld rImgStatus (8 + 8 * c) 8 = 0 ∧ t.reg rImgSeq = w64 (imgSeq (s.dev.flash.copy c)) ∧ t.out = s.out) ∧
      ((verifyImage (s.dev.flash.copy c) s.serial s.dev.img.owner s.dev.img.svnMin).cause ≠ 0 →
        t.fld rImgStatus (8 + 8 * c) 8 = (verifyImage (s.dev.flash.copy c) s.serial s.dev.img.owner s.dev.img.svnMin).cause % 256 ∧
        (rest = [] → t.phase = 7) ∧ (rest ≠ [] → t.phase = 3))) ∧
  (∀ (s : State) (vout : Option Nat), s.phase = 4 →
    Completes (.sectionApply vout) s (Reaching (fun u => u = (applyImage s.sections (liveUnits (allUnits s.dev.flash.records)) vout).run s ∧
      u.phase = 5 ∧ u.bit rGlbRole 31 = true ∧ u.dev.img.applyTick = s.now ∧ SameHbm s u ∧ SameGates s u) (afterApply (liveUnits (allUnits s.dev.flash.records))))) ∧
  (∀ (s : State), s.phase = 5 → s.dev.img.tested = false →
    Completes (.tileSelftestDone [] false) s fun t => t.dev.img.tested = true ∧ t.fld rImgSelftest 0 7 = 0 ∧ t.bit rImgSelftest 7 = false ∧
      (∀ k, k < 96 → s.tileState k = 3 → t.tileState k = 0) ∧ SameHbm s t ∧ SameGates s t) ∧
  (∀ (s : State) (ds : List (List Int)), s.phase = 5 → s.dev.img.trained = false → s.now ≤ s.dev.img.applyTick + 2 ^ 26 →
    Completes (.hbmTrainingDone [] ds) s fun t => t.dev.img.trained = true ∧ t.dev.cal.delays = (List.range 32).map (fun k => (k, ds.getD k [])) ∧
      SameHbm s t ∧ SameGates s t) ∧
  (∀ (s : State), s.phase = 5 → s.dev.img.trained = true → s.dev.img.bist = false →
    Completes (.hbmBistDone []) s fun t => t.dev.img.bist = true ∧ t.fld rImgSelftest 8 9 = 0 ∧ SameHbm s t ∧ SameGates s t) ∧
  (∀ (s : State), s.phase = 5 → s.dev.img.bist = true → s.bit rMemStatus 0 = false →
    Completes .hbmZeroingDone s fun t => (∀ a, t.byte a = 0#8) ∧ t.poison = [] ∧ t.bit rMemStatus 0 = true ∧ SameGates s t ∧
      RegsBut (fun o => o == rMemStatus) s t ∧ t.out = s.out) ∧
  (∀ (s : State), s.phase = 5 → s.dev.img.applyTick + 2 ^ s.dev.img.joinLog ≤ s.now →
    Completes .joinWaitEnd s fun t => t.dev.img.joined = true ∧ Frame (fun _ => false) s t ∧ t.out = s.out) ∧
  (∀ (s : State), s.readyToOpen = true →
    Completes .basinsOpen s fun t => t.phase = 6 ∧ t.reg rImgOpenTick = w64 s.now ∧
      (∀ b, b < 16 → s.bit (rLckBasin b) 2 = true → (b = 0 ∨ s.bit rImgStatus 6 = false) → t.isOpen b = true) ∧
      (∀ b, b < 16 → s.bit (rLckBasin b) 2 = false → t.reg (rLckBasin b) = s.reg (rLckBasin b)) ∧ SameHbm s t ∧ SameGates s t ∧ t.out = s.out)

/-- R549, R550, R555, R562, R619, R620: OWN fuses the hash of the running image's key on an unowned chip; SVN_COMMIT raises SVN_MIN to the running image's SVN; an HBM
channel that does not train in time
halts the chip; in dry-dock the flash commands begin an erase or a program of 4 KiB, or read 4 KiB into the buffer; an operation that ends has its effect; one that does not in time
is an error. -/
def Obligations.StartCommands : Prop :=
  (∀ (s : State) (rd v : Nat) (l : Loc), Writes s rd rImgProvision l → bitOf v 0 = true → v / 65536 = 0x0A7E → s.phase = 6 → s.bit rImgStatus 6 = true →
    Completes (.own rd v) s fun t => t.dev.img.owner = sha256 s.imagePub ∧ t.reg rImgProvResult = 1#64 ∧ Frame (fun o => o == rImgProvResult) s t ∧ t.out = s.out) ∧
  (∀ (s : State) (rd v : Nat) (l : Loc), Writes s rd rImgProvision l → bitOf v 0 = false → bitOf v 1 = true → v / 65536 = 0x0A7E → s.phase = 6 →
    s.bit rImgStatus 6 = false → s.dev.img.svnMin < s.fld rImgSvn 0 7 →
    Completes (.svnCommit rd v) s fun t => t.dev.img.svnMin = s.fld rImgSvn 0 7 ∧ t.fld rImgSvn 8 7 = s.fld rImgSvn 0 7 ∧ t.reg rImgProvResult = 1#64 ∧
      Frame (fun o => o == rImgSvn || o == rImgProvResult) s t ∧ t.out = s.out) ∧
  (∀ (s : State) (chan : Nat), chan < 16 → s.phase = 5 → s.dev.img.trained = false → s.dev.img.applyTick + 2 ^ 26 ≤ s.now → s.dev.flt.ignored.contains 0x14 = false →
    Completes (.hbmTrainTimeout chan) s (Reaching (fun u => u.reg (rFltEvents 0x14) = w64 (satAdd 32 (s.reg (rFltEvents 0x14)).toNat 1) ∧ SameHbm s u ∧ SameGates s u)
      (enterHalted 5))) ∧
  (∀ (s : State) (rd v : Nat) (l : Loc), Writes s rd rImgFlashCmd l → v / 65536 = 0xF1A5 → s.fld rImgFlashStatus 0 2 ≠ 1 → s.flashOk (s.reg rImgFlashAddr).toNat = true →
    (v % 4 = 1 → Completes (.flashErase rd v) s fun t => t.reg rImgFlashStatus = 1#64 ∧ t.dev.flash.op = some (.erase (s.reg rImgFlashAddr).toNat, s.now) ∧ t.dev.flash.todo = [] ∧
      Frame (fun o => o == rImgFlashStatus) s t ∧ t.out = s.out) ∧
    (v % 4 = 2 → Completes (.flashProgram rd v) s fun t => t.reg rImgFlashStatus = 1#64 ∧ t.dev.flash.todo.length = 15 ∧
      t.dev.flash.op = some (.program (s.reg rImgFlashAddr).toNat (s.flashBuf.take 256), s.now) ∧ Frame (fun o => o == rImgFlashStatus) s t ∧ t.out = s.out) ∧
    (v % 4 = 3 → Completes (.flashRead rd v) s fun t => t.reg rImgFlashStatus = 2#64 ∧
      (∀ i, i < 1024 → t.reg (rImgFlashBuf i) = w64 (getLe (s.dev.flash.read (s.reg rImgFlashAddr).toNat 4096) (4 * i) 4)) ∧ SameHbm s t ∧ SameGates s t ∧ t.out = s.out)) ∧
  (∀ (s : State) (o n : FlashOp) (t0 : Nat) (rest : List FlashOp), s.dev.flash.op = some (o, t0) → s.bit rClkStatus 4 = false → s.dev.flash.todo = n :: rest →
    Completes .flashOperationDone s fun t => t.dev.flash.bytes = (s.dev.flash.perform o).bytes ∧ t.dev.flash.op = some (n, s.now) ∧ t.dev.flash.todo = rest ∧
      Frame (fun _ => false) s t ∧ t.out = s.out) ∧
  (∀ (s : State) (o : FlashOp) (t0 : Nat), s.dev.flash.op = some (o, t0) → s.bit rClkStatus 4 = false → s.dev.flash.todo = [] → s.dryDock = true →
    Completes .flashOperationDone s fun t => t.dev.flash.bytes = (s.dev.flash.perform o).bytes ∧ t.dev.flash.op = none ∧ t.fld rImgFlashStatus 0 2 = 2 ∧
      Frame (fun o => o == rImgFlashStatus) s t ∧ t.out = s.out) ∧
  (∀ (s : State) (a t0 : Nat) (bs : List Byte), s.dev.flash.op = some (.program a bs, t0) → t0 + 2 ^ 22 ≤ s.now → s.dryDock = true → s.bit rClkStatus 4 = false →
    Completes .flashTimeout s fun t => t.dev.flash.op = none ∧ t.dev.flash.todo = [] ∧ t.fld rBrdSpi 16 16 = satAdd 16 (s.fld rBrdSpi 16 16) 1 ∧
      t.bit rImgFlashStatus 2 = true ∧ t.fld rImgFlashStatus 0 2 = 2 ∧ Frame (fun o => o == rBrdSpi || o == rImgFlashStatus) s t ∧ t.out = s.out)

/-! ### The PCIe endpoint and the board (chapter 19) -/

/-- R612, R613: what a PCIe reset leaves: no VF, no bit of configuration space, and every outbound read in flight ended as for a completion timeout. -/
def ConfigReset (u : State) : Prop :=
  u.dev.pci.vfEnable = false ∧ u.dev.pci.fns = [] ∧ u.dev.pci.vecs = [] ∧ u.dev.pci.pending = [] ∧ u.dev.pci.bar4 = 0 ∧
  (∀ r ∈ u.dev.pci.reads, r.got.isSome = true)

/-- R612, R613, R603: PERST_N low, a Hot Reset and the loss of the link are PCIe resets, which count; an FLR of PF0 and of a VF counts, the latter resetting the VF's
function and its basin; clearing VF Enable
ends the VFs and resets every OPEN tenant basin; a trained link shows its width and rate, and the functions are as host software has configured them. -/
def Obligations.PcieResets : Prop :=
  (∀ (s : State), s.dev.board.perstHigh = true → s.dev.board.poreset = false →
    Completes .perstNLow s (Reaching (fun u => ConfigReset u ∧ u.dev.board.perstHigh = false ∧ Frame (fun _ => false) s u)
      (Eff.all [dropRings, drivesOff, putFld rPciLink 0 9 0, bumpFld rPciLink 16 16 1]))) ∧
  (∀ (s : State), s.dlActive = true →
    Completes .hotReset s (Reaching (fun u => ConfigReset u ∧ Frame (fun _ => false) s u) (Eff.all [dropRings, drivesOff, putFld rPciLink 0 9 0, bumpFld rPciLink 16 16 1])) ∧
    Completes .linkDown s (Reaching (fun u => ConfigReset u ∧ Frame (fun _ => false) s u) (Eff.all [dropRings, drivesOff, putFld rPciLink 0 9 0, bumpFld rPciLink 16 16 1])) ∧
    Completes .pf0Flr s (Reaching (fun u => u.dev.pci.vfEnable = false ∧ u.dev.pci.fns = [] ∧ u.dev.pci.vecs = [] ∧
      u.fld rPciFlr 0 16 = satAdd 16 (s.fld rPciFlr 0 16) 1 ∧ Frame (fun o => o == rPciFlr) s u) (.andThen dropRings drivesOff)) ∧
    (∀ b, 1 ≤ b → b ≤ 15 → s.fnExists b = true →
      Completes (.flr b) s fun t => t.fld rPciFlr 16 16 = satAdd 16 (s.fld rPciFlr 16 16) 1 ∧ mget? t.dev.pci.fns b = none ∧ (∀ v, v < 64 → mget? t.dev.pci.vecs (64 * b + v) = none) ∧
        (s.isOpen b = true → b ∈ t.dev.due.basins) ∧ Frame (fun o => o == rPciFlr) s t ∧ t.out = s.out) ∧
    (s.dev.pci.vfEnable = true →
      Completes .vfEnableClear s fun t => t.dev.pci.vfEnable = false ∧ (∀ f, 1 ≤ f → mget? t.dev.pci.fns f = none) ∧
        (∀ b, 1 ≤ b → b < 16 → s.isOpen b = true → b ∈ t.dev.due.basins) ∧ Frame (fun _ => false) s t ∧ t.out = s.out)) ∧
  (∀ (s : State) (width rate : Nat) (c : PciConfig), s.dev.board.poreset = false → s.dlActive = false → width ∈ [1, 2, 4, 8, 16] → 1 ≤ rate → rate ≤ 5 → c.ok = true → s.dryDock = false →
    Completes (.linkUp width rate c) s fun t => t.fld rPciLink 0 5 = width ∧ t.fld rPciLink 5 3 = rate ∧ t.dlActive = true ∧ t.dev.board.perstHigh = true ∧
      t.dev.pci.fns = c.fns ∧ t.dev.pci.vfEnable = c.vfEnable ∧ t.dev.pci.numVfs = c.numVfs ∧ t.dev.pci.bar4 = c.bar4 ∧ t.dev.pci.cto = c.cto ∧ Frame (fun o => o == rPciLink) s t ∧ t.out = s.out)

/-- R503, R628, R667: PFAIL_N's fall counts, and a chip that is not toll master does no more, while a toll master stops cleanly; its rise with every PWR_GOOD high clears
CLEAN_STOP. A pending message whose vector is open is sent. -/
def Stated.PowerFailAndMessages : Prop :=
  (∀ (s : State), s.dev.board.pfailHigh = true → s.dev.board.poreset = false → s.isToll = false →
    Completes .pfailFall s fun t => t.dev.board.pfailHigh = false ∧ t.fld rBrdPwr 16 16 = satAdd 16 (s.fld rBrdPwr 16 16) 1 ∧ Frame (fun o => o == rBrdPwr) s t ∧ t.out = s.out) ∧
  (∀ (s : State), s.dev.board.pfailHigh = true → s.dev.board.poreset = false → s.isToll = true → s.dev.tol.started = true →
    Completes .pfailFall s fun t => t.dev.board.pfailHigh = false ∧ t.dev.keep.cleanStop = true ∧ SameHbm s t ∧ SameGates s t) ∧
  (∀ (s : State), s.dev.board.pfailHigh = false → s.dev.board.good = 15 →
    Completes .pfailRise s fun t => t.dev.board.pfailHigh = true ∧ t.dev.keep.cleanStop = false ∧ Frame (fun _ => false) s t ∧ t.out = s.out) ∧
  (∀ (s : State) (f v : Nat), v < 64 → s.fnExists f = true → s.dev.pci.pending.contains (64 * f + v) = true → s.msixOpen f v = true →
    Completes (.msixPendingSend f v) s fun t => t.out = .msix f v :: s.out ∧ ¬ (64 * f + v) ∈ t.dev.pci.pending ∧ Frame (fun _ => false) s t)

/-- R615 to R618: SET_ADDR sets the target's pointer and length; READ answers LEN/4 registers and moves the pointer on, as WRITE does for its count; SUMMARY answers four registers; a keyed RESET
makes a CHIP_RESET due; a transaction in which SCL has been low for 25 ms times out, and counts. A transfer whose byte count or PEC is wrong writes nothing: a wrong PEC counts. -/
def Obligations.BoardTarget : Prop :=
  (∀ (s : State) (bs : List Byte), 1 ≤ s.phase → bs.length = 5 → getLe bs 0 4 % 4 = 0 → getLe bs 0 4 < 0x1000000 → getLe bs 4 1 % 4 = 0 → 4 ≤ getLe bs 4 1 → getLe bs 4 1 ≤ 32 →
    Completes (.setAddr bs none) s fun t => t.dev.board.ptr = getLe bs 0 4 ∧ t.dev.board.len = getLe bs 4 1 ∧ Frame (fun _ => false) s t ∧ t.out = s.out) ∧
  (∀ (s : State) (bs : List Byte) (p : Nat), 1 ≤ s.phase → bs.length = 5 → getLe bs 0 4 % 4 = 0 → getLe bs 0 4 < 0x1000000 → getLe bs 4 1 % 4 = 0 → 4 ≤ getLe bs 4 1 → getLe bs 4 1 ≤ 32 →
    p ≠ s.writePec 1 bs →
    Completes (.setAddr bs (some p)) s fun t => t.dev.board = s.dev.board ∧ t.fld rBrdI2c 8 8 = satAdd 8 (s.fld rBrdI2c 8 8) 1 ∧ SameHbm s t ∧ SameGates s t) ∧
  (∀ (s : State), 1 ≤ s.phase →
    Completes .smbusRead s (fun t => (∃ pec u, u = (onBoard fun b => { b with ptr := b.ptr + s.dev.board.len }).run
      ((Eff.each (List.range (s.dev.board.len / 4)) fun i => i2cRead (s.dev.board.ptr + 4 * i)).run s) ∧ t = { u with out := .smbusPec pec :: u.out }) ∧
      SameHbm s t ∧ SameGates s t) ∧
    Completes .summary s (fun t =>
      (∃ a b c d, t.out = .smbusPec (s.readPec 0x10 (leBytes 4 d ++ leBytes 4 c ++ leBytes 4 b ++ leBytes 4 a)) :: .readData i2cReader rFltStatus a :: .readData i2cReader rImgStatus b :: .readData i2cReader rGlbRole c :: .readData i2cReader rGlbId d :: s.out) ∧
      Frame (fun _ => false) s t) ∧
    (∀ since, s.now < since + 20000000 → Completes (.smbusTimeout since) s (fun t => t = s)) ∧
    (∀ since, since + 20000000 ≤ s.now → Completes (.smbusTimeout since) s fun t => t.fld rBrdI2c 16 8 = satAdd 8 (s.fld rBrdI2c 16 8) 1 ∧ Frame (fun o => o == rBrdI2c) s t ∧ t.out = s.out) ∧
    (∀ bs : List Byte, bs.length % 4 = 0 → 4 ≤ bs.length → bs.length ≤ 32 →
      Completes (.smbusWrite bs none) s fun t => t = (onBoard fun b => { b with ptr := b.ptr + bs.length }).run
        ((Eff.each (List.range (bs.length / 4)) fun i => i2cWrite (s.dev.board.ptr + 4 * i) (getLe bs (4 * i) 4)).run s)) ∧
    (∀ bs : List Byte, bs.length = 3 → getLe bs 0 2 = 0xC41F → getLe bs 2 1 = 1 → s.dev.due.chip = none →
      Completes (.reset bs none) s fun t => t.dev.due.chip = some (5, 0) ∧ Frame (fun _ => false) s t ∧ t.out = s.out) ∧
    (∀ bs : List Byte, bs.length = 3 → getLe bs 0 2 = 0xC41F → getLe bs 2 1 = 2 → s.dev.due.chip = none →
      Completes (.reset bs none) s fun t => t.dev.due.chip = some (6, 0) ∧ t.dev.keep.dryReq = true ∧ Frame (fun _ => false) s t ∧ t.out = s.out))

/-! ### Memory upkeep, pace and marks (chapters 03, 05 and 12) -/

/-- The rest of a lengthsman's read at an address, once the errors of HBM have been counted. -/
def lengthsmanTail (a : Nat) : Eff := Eff.all
  [ if a + 64 < hbmSize then putFld rMemScrub 0 35 (a + 64)
    else Eff.all [putFld rMemScrub 0 35 0, bumpFld rMemScrub 48 16 1, .read fun s => putReg rMemScrubLast s.now],
    drainUsers [], pumpJournal ]

/-- R164, R151, R157: a read of the lengthsman moves its pass on by 64 B; at the end of HBM the pass is counted, with its tick, and the next starts. A correctable error counts at its
channel and changes no byte; an uncorrectable one also poisons its sector. The end of a remap's copy ends its busy state, and the next waiting retirement may begin. -/
def Obligations.HbmUpkeep : Prop :=
  (∀ (s : State), s.bit rMemStatus 0 = true →
    Completes (.lengthsmanRead [] []) s (Reaching (fun u =>
        (s.fld rMemScrub 0 35 + 64 < hbmSize → u.fld rMemScrub 0 35 = s.fld rMemScrub 0 35 + 64 ∧ Frame (fun o => o == rMemScrub) s u) ∧
        (hbmSize ≤ s.fld rMemScrub 0 35 + 64 → u.fld rMemScrub 0 35 = 0 ∧ u.fld rMemScrub 48 16 = satAdd 16 (s.fld rMemScrub 48 16) 1 ∧
          u.reg rMemScrubLast = w64 s.now ∧ Frame (fun o => o == rMemScrub || o == rMemScrubLast) s u) ∧ u.out = s.out)
      (.andThen (drainUsers []) pumpJournal))) ∧
  (∀ (s : State) (e : EccEvent), s.bit rMemStatus 0 = true → e.chan < 16 → s.fld rMemScrub 0 35 ≤ sectorOf e.sector → sectorOf e.sector < s.fld rMemScrub 0 35 + 64 →
    s.poisoned (sectorOf e.sector) = false →
    (e.kind = .correctable → Completes (.lengthsmanRead [e] []) s (Reaching (fun u => u.fld (rMemCh e.chan) 0 32 = satAdd 32 (s.fld (rMemCh e.chan) 0 32) 1 ∧
      SameHbm s u ∧ SameGates s u) (lengthsmanTail (s.fld rMemScrub 0 35)))) ∧
    (e.kind ≠ .correctable → Completes (.lengthsmanRead [e] []) s (Reaching (fun u => u.fld (rMemCh e.chan) 32 32 = satAdd 32 (s.fld (rMemCh e.chan) 32 32) 1 ∧
      u.poisoned (sectorOf e.sector) = true ∧ (∀ a, u.byte a = s.byte a) ∧ SameGates s u) (lengthsmanTail (s.fld rMemScrub 0 35))))) ∧
  (∀ (s : State) (r : Retire) (t0 : Nat), s.dev.hbm.remap = some (r, t0) →
    Completes (.pageRemapDone []) s (Reaching (fun u => u.bit rMemStatus 3 = false ∧ u.dev.hbm.remap = none ∧ u.dev.hbm.waiting = s.dev.hbm.waiting ∧
      Frame (fun o => o == rMemStatus) s u ∧ u.out = s.out) (beginNext s.dev.hbm.waiting)))

/-- R81, R82, R86: a decision that reads nothing over PMBus shows in PAC_STATUS the row of Table 3.3 that it took and in PAC_PACE_SUM the slowest and the fastest tile. The slowest tile
below the target by more than the hysteresis raises the voltage by 5 mV, and above the target by more than the hysteresis lowers it by 5 mV, within the image's bounds, where no earlier row holds. -/
def Stated.PaceDecision : Prop :=
  (∀ (s : State) (r : PmbReads) (slow fast : Nat × Nat), s.dev.pace.marks ≠ 0 → s.bit rGlbRole 31 = true → s.bit rClkGateStatus 7 = true →
    extreme (fun a b => decide (a < b)) s.paced = some slow → extreme (fun a b => decide (b < a)) s.paced = some fast →
    Completes (.paceDecision r) s (Reaching (fun u => u.dev.pace.marks = 0 ∧ u.fld rPacStatus 6 3 = s.paceRow ∧
        u.reg rPacPaceSum = w64 (slow.2 + slow.1 * 2 ^ 18 + fast.2 * 2 ^ 25 + fast.1 * 2 ^ 43) ∧
        (∀ v, s.paceStep s.paceRow = some v → r.command = true → s.avsLost = false → s.modeOk = true → s.vdd ≠ 0 →
          u.fld rPacVdd 0 10 = v % 1024 ∧ u.out = .voltage (s.fld rBrdPmb 0 7) (s.mantissa v) :: s.out) ∧
        (s.paceStep s.paceRow = none → u.fld rPacVdd 0 10 = s.fld rPacVdd 0 10 ∧ u.out = s.out) ∧ SameHbm s u ∧ SameGates s u)
      (Eff.all [paceFloor, paceOutliers, pumpJournal]))) ∧
  (∀ (s : State) (slow : Nat × Nat), s.bit rPacCtrl 0 = true → s.dev.board.pfailHigh = true → s.fld rPacBounds 36 10 ≤ s.vdd → s.vdd ≤ s.fld rPacBounds 46 10 →
    s.tooHot = false → s.tooStrong = false → extreme (fun a b => decide (a < b)) s.paced = some slow →
    (∀ p ∈ s.paced, p.2 ≤ s.fld rPacBounds 18 18) →
    (slow.2 + s.fld rPacTarget 19 13 < s.fld rPacTarget 0 18 → s.vdd < s.fld rPacBounds 46 10 → s.paceStep s.paceRow = some (s.vdd + 5)) ∧
    (s.fld rPacTarget 0 18 + s.fld rPacTarget 19 13 < slow.2 → s.fld rPacBounds 36 10 < s.vdd → s.paceStep s.paceRow = some (s.vdd - 5)) ∧
    (s.fld rPacTarget 0 18 ≤ slow.2 + s.fld rPacTarget 19 13 → slow.2 ≤ s.fld rPacTarget 0 18 + s.fld rPacTarget 19 13 → s.paceStep s.paceRow = none))

/-- What an own time mark sets off, after IBN_MARK. -/
def ownMarkTail (d : MarkData) (n : Nat) : Eff := Eff.all
  [ markXtal d.xtalRuns, zeroesInForce, markPace d n, markIro d.span, markRails d.rails, markLanes d, markWaits, markRanks, markFabric n, markActivity n,
    drainUsers [], startZeroes, nextStoppage, pumpJournal ]

/-- R289: an own time mark, at a multiple of 65,536 ticks that has had none, shows in IBN_MARK, and then every block that acts at a mark acts. Of these, the tiles' pace counts appear in
their registers: a replica that at trim 0 would make x cycles makes x × 16 / (16 + TRIM_EFF) of them (R80, R663; the rounding and the clamp are the model's choice, log entry 88). -/
def Obligations.OwnTimeMark : Prop :=
  (∀ (s : State) (d : MarkData), s.dev.clk.started = true → (s.reg rIbnMark).toNat < s.now / 65536 →
    Completes (.ownTimeMark d) s (Reaching (fun u => u.reg rIbnMark = w64 (s.now / 65536) ∧ Frame (fun o => o == rIbnMark) s u ∧ u.out = s.out)
      (ownMarkTail d (s.now / 65536)))) ∧
  (∀ (s : State) (d : MarkData), (s.dev.clk.started = false ∨ s.now / 65536 ≤ (s.reg rIbnMark).toNat) → Completes (.ownTimeMark d) s fun t => t = s) ∧
  (∀ (s : State) (d : MarkData) (n : Nat), n % 16 ≠ 0 → d.raw = [] → d.pace.map (·.1) = List.range 96 →
    ∀ e ∈ d.pace, ((markPace d n).run s).fld (rPacTile e.1) 0 18 = min (2 ^ 18 - 1) (e.2 * 16 / (16 + s.fld (rPacTile e.1) 22 4)))

/-- R594: at the end of a lane's stoppage STP_STATUS no longer names it; then the errors count, and a lane that has adapted rejoins. -/
def Stated.LaneStoppageEnds : Prop :=
  ∀ (s : State) (errors adapted : Bool), s.bit rStpStatus 1 = true →
    Completes (.laneStoppageEnd errors adapted) s (Reaching (fun u => u.bit rStpStatus 1 = false ∧ u.fld rStpStatus 16 6 = 0 ∧ Frame (fun o => o == rStpStatus) s u ∧ u.out = s.out)
      (Eff.all
        [ Eff.when (errors || !adapted) (countAt 0x33 (s.fld rStpStatus 16 6)),
          .read fun t => Eff.when (adapted && t.pState (s.fld rStpStatus 16 6 / 4) == 2 && !bitOf (t.pRetired (s.fld rStpStatus 16 6 / 4)) (s.fld rStpStatus 16 6 % 4))
            (startLanes (s.fld rStpStatus 16 6 / 4) (t.laneMask (s.fld rStpStatus 16 6 / 4) ||| 2 ^ (s.fld rStpStatus 16 6 % 4))),
          processLanes, pumpJournal ]))

/-! ### The codec (chapter 07) -/

/-- A table command of basin b on table n is taken: a write of CDC_CMD_b by a reader, the basin OPEN and the table's owner (R219, R229). -/
abbrev TableCommand (s : State) (rd b n : Nat) : Prop :=
  b < 16 ∧ n < 256 ∧ (∃ l, Writes s rd (rCdcCmd b) l) ∧ s.isOpen b = true ∧ s.tblOwned b n = true

/-- A table has changed to a state, its GEN one more, with the outcome OK of an operation shown in CDC_RESULT_b. -/
def TableNow (s : State) (b n op state : Nat) (t : State) : Prop :=
  t.tblState n = state ∧ t.fld (rCdcTbl n) 16 16 = (s.fld (rCdcTbl n) 16 16 + 1) % 2 ^ 16 ∧ t.reg (rCdcResult b) = w64 (n + op * 2 ^ 8) ∧ t.out = s.out

/-- R229, R217, R230, R232 (Table 7.3): LOAD of valid staged lengths makes them the table's and the table VALID; SURVEY_START makes it SURVEYING, with the basin's histogram empty;
SURVEY_FINISH gives it the lengths built from the histogram and makes it VALID; INVALIDATE makes it INVALID; FETCH puts its lengths into the staging area. A command on a table that the basin
does not own ends NOT_OWNED and changes only CDC_RESULT_b. -/
def Obligations.TableCommands : Prop :=
  (∀ (s : State) (rd b n : Nat), TableCommand s rd b n → s.tblState n ≠ 2 → s.dev.img.codecFail = false → lensValid (s.staged b) = true →
    Completes (.load rd b n) s fun t => t.tblLens n = s.staged b ∧ TableNow s b n 1 1 t ∧ Frame (fun o => o == rCdcTbl n || o == rCdcResult b) s t) ∧
  (∀ (s : State) (rd b n : Nat), TableCommand s rd b n → s.tblState n ≠ 2 → s.bit (rCdcSurvey b) 63 = false → s.dev.img.codecFail = false →
    Completes (.surveyStart rd b n) s fun t => t.surveys b n = true ∧ t.fld (rCdcSurvey b) 0 48 = 0 ∧ (∀ x, x < 256 → mget 0 t.dev.codec.hist (256 * b + x) = 0) ∧
      TableNow s b n 2 2 t ∧ Frame (fun o => o == rCdcTbl n || o == rCdcResult b || o == rCdcSurvey b) s t) ∧
  (∀ (s : State) (rd b n : Nat), TableCommand s rd b n → s.surveys b n = true →
    Completes (.surveyFinish rd b n) s fun t => t.tblLens n = buildLens (fun x => mget 0 s.dev.codec.hist (256 * b + x)) ∧ t.surveys b n = false ∧
      TableNow s b n 3 1 t ∧ Frame (fun o => o == rCdcTbl n || o == rCdcResult b || o == rCdcSurvey b) s t) ∧
  (∀ (s : State) (rd b n : Nat), TableCommand s rd b n →
    Completes (.invalidate rd b n) s (fun t => t.surveys b n = false ∧ TableNow s b n 4 0 t ∧ Frame (fun o => o == rCdcTbl n || o == rCdcResult b || o == rCdcSurvey b) s t) ∧
    Completes (.fetch rd b n) s (fun t => t.reg (rCdcResult b) = w64 (n + 5 * 2 ^ 8) ∧
      (∀ w, w < 64 → t.reg (rCdcStage b w) = w64 (leNat ((List.range 4).map fun i => BitVec.ofNat 8 ((s.tblLens n).getD (4 * w + i) 0)))) ∧
      Frame (fun o => o == rCdcResult b || (List.range 64).any (fun w => o == rCdcStage b w)) s t ∧ t.out = s.out)) ∧
  (∀ (s : State) (rd b n : Nat) (l : Loc), b < 16 → n < 256 → Writes s rd (rCdcCmd b) l → s.isOpen b = true → s.tblOwned b n = false →
    ∀ c ∈ [(1, Instr.load rd b n), (2, .surveyStart rd b n), (3, .surveyFinish rd b n), (4, .invalidate rd b n), (5, .fetch rd b n)],
      Completes c.2 s fun t => t.reg (rCdcResult b) = w64 (n + c.1 * 2 ^ 8 + 2 ^ 16) ∧ t.dev.codec = s.dev.codec ∧ Frame (fun o => o == rCdcResult b) s t ∧ t.out = s.out)

/-! ### Copies (chapter 06) -/

/-- A free copy engine is granted to a COPY queue whose next entry, a COPY, passes what is judged of every entry (R188, R196). -/
abbrev CopyGranted (s : State) (q e : Nat) (ent : Entry) : Prop :=
  s.startable q = some ent ∧ ent.cmd = 0x10 ∧ s.judge q ent = none ∧ s.qKind q = 1 ∧ e < 8 ∧ s.copyOn e = none ∧
  ∃ turn, s.grant 4 s.copyWaiting = some (q, turn)

/-- R200 to R202: a COPY that passes its checks, here one within HBM that is not coded, occupies its engine; one that fails a check ends with that check's status. A block of a copy
of one row, an entry's or a request's, is read whole and written: its bytes are those of the source, and every other byte of HBM stays. -/
def Obligations.Copies : Prop :=
  (∀ (s : State) (q e : Nat) (ent : Entry), CopyGranted s q e ent → copyReservedOk ent = true → (ent.copy q).total ≠ 0 → (ent.copy q).staticCheck s.chipId = none →
    (ent.copy q).cmode = 0 → (ent.copy q).remote = false →
    s.firstRefusal (s.qOwner q) [⟨(ent.copy q).srcSpan.1.toNat, (ent.copy q).srcSpan.2.toNat, rightR⟩, ⟨(ent.copy q).dstSpan.1.toNat, (ent.copy q).dstSpan.2.toNat, rightW⟩] = none →
    Completes (.copy q e) s fun t => t.copyOn e = some (ent.copy q) ∧ t.bit rDmaStatus e = true ∧
      (t.queue q).owed = (s.queue q).owed.map (fun x => if x.idx = ent.idx then { x with stage := .running } else x) ∧ Frame (fun o => o == rDmaStatus) s t ∧ t.out = s.out) ∧
  (∀ (s : State) (q e st : Nat) (ent : Entry), CopyGranted s q e ent → copyReservedOk ent = true → (ent.copy q).total ≠ 0 → (ent.copy q).staticCheck s.chipId = some st →
    Completes (.copy q e) s (Reaching (fun u => u.dev.work.queues = s.dev.work.queues ∧ u.copyOn e = none ∧ Frame (fun _ => false) s u ∧ u.out = s.out)
      (finish q ent.idx { status := st }))) ∧
  (∀ (s : State) (e : Nat) (c : CopyRun) (turn : Turn), e < 8 → s.copyOn e = some c → c.cmode = 0 → c.remote = false → c.table = none → c.stop = none → c.rows = 1 →
    c.pos < c.rowBytes → c.src + c.rowBytes ≤ hbmSize → c.dst + c.rowBytes ≤ hbmSize → s.poison = [] → s.grant 1 s.blockQueues = some (c.q, turn) →
    Completes (.copyBlock e 0 0 []) s (Reaching (fun u =>
        (∀ i, i < c.blockLen c.pos → u.byte (c.dst + c.pos + i) = s.byte (c.src + c.pos + i)) ∧
        (∀ a, (a < c.dst + c.pos ∨ c.dst + c.pos + c.blockLen c.pos ≤ a) → u.byte a = s.byte a) ∧
        u.copyOn e = some { c with pos := c.pos + c.blockLen c.pos, detail := c.detail + c.blockLen c.pos } ∧
        u.reg rDmaBlocks = w64 (satAdd 64 (s.reg rDmaBlocks).toNat 1) ∧ SameGates s u ∧
        RegsBut (fun o => o == rDmaBlocks || o == rMemActRd (s.userBasin c.q) || o == rMemActWr (s.userBasin c.q)) s u ∧ u.out = s.out)
      (copyAdvance e)))

/-! ### Ranks (chapter 09) -/

/-- The map of a group descriptor at RNK_ARG_b. -/
def mapAt (s : State) (b : Nat) : List Nat :=
  let d := s.num (s.fld (rRnkArg b) 0 48) 64
  (List.range (2 ^ (rfield d 0 1 - rfield d 1 1))).map fun k => s.num (rfield d 8 6 + 4 * k) 4

/-- OPEN's descriptor and map at RNK_ARG_b, in HBM, have every field in its range and pass the lock check and R299's tests of the map. -/
abbrev GroupOpens (s : State) (b g : Nat) : Prop :=
  let a := s.fld (rRnkArg b) 0 48
  let d := s.num a 64
  let l := rfield d 0 1
  let v := rfield d 1 1
  let m := rfield d 8 6
  let n := 4 * 2 ^ (l - v)
  s.grpState b g = 0 ∧ s.openGroups < 64 ∧ rfield d 3 1 = 0 ∧ rfield d 14 50 = 0 ∧ 1 ≤ l ∧ l ≤ 15 ∧ v ≤ 3 ∧ v ≤ l ∧ l - v ≤ 12 ∧ rfield d 4 4 ≠ 0 ∧ m % 4 = 0 ∧
  a + 64 ≤ hbmSize ∧ m + n ≤ hbmSize ∧ s.firstRefusal b [⟨a, a + 63, rightR⟩, ⟨m, m + n - 1, rightR⟩] = none ∧ s.poison = [] ∧
  (∀ c ∈ mapAt s b, c ≤ 0xFFF) ∧ (mapAt s b).Nodup ∧ s.chipId ∈ mapAt s b ∧
  (∀ c ∈ mapAt s b, c = s.chipId ∨ s.hasRoute c = true)

/-- R299, R328, R309: OPEN of a CLOSED group by such a descriptor opens it, with L, V, FAIL_GATE and this chip's first rank in RNK_GRP, and ends OK. CLOSE of a group with nothing outstanding
closes it; CLOSE of a CLOSED group ends GROUP_STATE. A submission joins the basin's FIFO of 64; one too many is dropped and sets OVERFLOW. -/
def Obligations.RankGroups : Prop :=
  (∀ (s : State) (rd b g : Nat) (l : Loc), b < 16 → g < 16 → Writes s rd (rRnkCmd b) l → s.isOpen b = true → GroupOpens s b g →
    Completes (.openGroup rd b g []) s fun t =>
      t.grpState b g = 1 ∧ t.fld (rRnkStatus b) 0 8 = 0 ∧ t.fld (rRnkGrp b g) 2 4 = rfield (s.num (s.fld (rRnkArg b) 0 48) 64) 0 1 ∧
      t.fld (rRnkGrp b g) 6 2 = rfield (s.num (s.fld (rRnkArg b) 0 48) 64) 1 1 ∧ t.fld (rRnkGrp b g) 23 8 = rfield (s.num (s.fld (rRnkArg b) 0 48) 64) 2 1 ∧
      t.grpFirst b g = (mapAt s b).idxOf s.chipId * 2 ^ rfield (s.num (s.fld (rRnkArg b) 0 48) 64) 1 1 ∧ (t.grp b g).map = mapAt s b ∧ (t.grp b g).colls = [] ∧
      Frame (fun o => o == rRnkGrp b g || o == rRnkStatus b || o == rMemActRd b) s t ∧ t.out = s.out) ∧
  (∀ (s : State) (rd b g : Nat) (l : Loc), b < 16 → g < 16 → Writes s rd (rRnkCmd b) l → s.isOpen b = true →
    (s.grpState b g ≠ 0 → (s.grp b g).colls = [] → Completes (.close rd b g) s fun t => t.reg (rRnkGrp b g) = 0#64 ∧ t.fld (rRnkStatus b) 0 8 = 0 ∧ t.grp b g = {} ∧
      Frame (fun o => o == rRnkGrp b g || o == rRnkStatus b) s t ∧ t.out = s.out) ∧
    (s.grpState b g = 0 → Completes (.close rd b g) s fun t => t.fld (rRnkStatus b) 0 8 = 0x29 ∧ Frame (fun o => o == rRnkStatus b) s t ∧ t.out = s.out)) ∧
  (∀ (s : State) (rd b v : Nat) (l : Loc), b < 16 → Writes s rd (rRnkSubmit b) l → s.isOpen b = true →
    ((s.rankBasin b).fifo.length < 64 → Completes (.rnkSubmit rd b v) s fun t => (t.rankBasin b).fifo = (s.rankBasin b).fifo ++ [bitsOf v 0 48] ∧
      t.fld (rRnkStatus b) 16 7 = (s.rankBasin b).fifo.length + 1 ∧ Frame (fun o => o == rRnkStatus b) s t ∧ t.out = s.out) ∧
    (64 ≤ (s.rankBasin b).fifo.length → Completes (.rnkSubmit rd b v) s fun t => (t.rankBasin b).fifo = (s.rankBasin b).fifo ∧ t.bit (rRnkStatus b) 8 = true ∧
      Frame (fun o => o == rRnkStatus b) s t ∧ t.out = s.out))

/-- The command of each collective (Table 9.3). -/
def collectiveRows (b : Nat) (es : List EccEvent) : List (Nat × Instr) :=
  [(1, .barrier b es), (2, .allReduce b es), (3, .reduce b es), (4, .reduceScatter b es), (5, .allGather b es), (6, .broadcast b es)]

/-- What a failed instance does once its group has FAILED: the status goes to the parent and to the children on other chips, and the local collectives take it. -/
def failTail (s : State) (b g q st : Nat) : Eff := Eff.all
  [ match s.parentOf b g, s.topNodes b g with
      | some p, t :: _ => sendCode b g q t p.2.2 false st
      | _, _ => .skip,
    Eff.each ((s.localNodes b g).filter fun n => n.1 != 0) fun n => Eff.each (s.kidChips b g n.1 n.2) fun c => sendCode b g q n c true st,
    onRankBasin b fun k => { k with cur := k.cur.filter fun c => !(c.group == g && c.seq == q) },
    dropSums b fun x => x.group == g && x.coll == q, giveStatus b g q st, rankDone b g ]

/-- R312, R309: the command of a collective reads the basin's next descriptor of that collective, which leaves the FIFO; and one whose wait is satisfied, whose inputs pass their locks
and are not poisoned, is accepted: it captures GLB_SEED_b and gives its input to the tree. R326: a wait of an instance that has lasted TIMEOUT time marks fails its group with RANK_TIMEOUT. -/
def Obligations.Collectives : Prop :=
  (∀ (s : State) (b a cop : Nat) (rest : List Nat) (c : Instr), b < 16 → (cop, c) ∈ collectiveRows b [] → s.isOpen b = true → (∀ x ∈ (s.rankBasin b).sums, x.tile = none) → (s.rankBasin b).cur = none →
    (s.rankBasin b).fifo = a :: rest → rest.length < 64 → s.num a 2 = cop → a + 192 ≤ hbmSize → s.firstRefusal b [⟨a, a + 191, rightR⟩] = none → s.poison = [] →
    Completes c s (Reaching (fun u => (u.rankBasin b).fifo = rest ∧ u.fld (rRnkStatus b) 16 7 = rest.length ∧
        u.reg (rMemActRd b) = w64 (satAdd 64 (s.reg (rMemActRd b)).toNat (32 * (sectorsOf a 192).length)) ∧
        Frame (fun o => o == rRnkStatus b || o == rMemActRd b) s u ∧ u.out = s.out)
      (Eff.all [collRead b (s.num a 192) [], placeSums b, rankFlush b]))) ∧
  (∀ (s : State) (b cop : Nat) (k : RankCur) (y : RankColl) (c : Instr), b < 16 → k.group < 16 → (cop, c) ∈ collectiveRows b [] → s.isOpen b = true →
    (∀ x ∈ (s.rankBasin b).sums, x.tile = none) → (s.rankBasin b).cur = some k → s.grpState b k.group ≠ 2 → cCop k.desc = cop → (dWaits k.desc = true → waitExpired (dWaitLimit k.desc) k.marks = false) → s.opWaitMet b k.desc k.marks = true →
    s.firstRefusal b (([0, 1].filter (cUses k.desc (s.grpFirst b k.group + k.vslot) ·)).map fun n =>
      AccUnit.mk (cTensor k.desc n).extent.1 (cTensor k.desc n).extent.2 (if n = 0 then rightR else rightW)) = none →
    ((s.grp b k.group).colls.filter fun x => x.vslot == k.vslot && x.accepted).length < 16 → s.poison = [] →
    (s.grp b k.group).colls.find? (fun x => x.vslot == k.vslot && x.seq == k.seq) = some y →
    Completes c s (Reaching (fun u =>
        (u.rankBasin b).cur = none ∧ (u.grp b k.group).collOf k.vslot k.seq = some { y with accepted := true, seed := (s.reg (rGlbSeed b)).toNat } ∧
        mget? ((u.grp b k.group).inst k.seq).vals (nodeKey 0 (s.grpFirst b k.group + k.vslot)) = some
          (if cUses k.desc (s.grpFirst b k.group + k.vslot) 0 then
            { fmt := fmtOf (cTensor k.desc 0).etype, base := if cop = 5 then (s.grpFirst b k.group + k.vslot) * (cTensor k.desc 0).count else 0,
              elems := (s.readElems (cTensor k.desc 0) []).toList } else {}) ∧
        Frame (fun o => o == rMemActRd b) s u ∧ u.out = s.out)
      (Eff.all [advanceInst b k.group k.seq, placeSums b, rankFlush b]))) ∧
  (∀ (s : State) (b g q : Nat) (i : RankInst), b < 16 → g < 16 → mget? (s.grp b g).insts q = some i → (i.waits.any fun w => decide ((s.grp b g).timeout ≤ w.2.1)) = true →
    i.fail = none → i.outcome = none → s.grpState b g = 1 → s.dev.flt.ignored.contains (0xF0 + b) = false →
    Completes (.rankTimeout b g q) s (Reaching (fun u => u.grpState b g = 2 ∧ ((u.grp b g).inst q).fail = some 0x28 ∧
        u.reg (rFltEvents (0xF0 + b)) = w64 (satAdd 32 (s.reg (rFltEvents (0xF0 + b))).toNat 1) ∧ SameHbm s u ∧ SameGates s u)
      (.andThen (failTail s b g q 0x28) (rankFlush b))))

/-! ### Serving (chapter 10) -/

/-- A SERVE or WHARF queue is granted its next entry, which passes what is judged of every entry (R188, R196). -/
abbrev EntryGranted (s : State) (q kind : Nat) (e : Entry) : Prop :=
  s.startable q = some e ∧ s.judge q e = none ∧ s.qKind q = kind ∧ ∃ turn, s.grant kind (s.startableQueues kind) = some (q, turn)

/-- The units that SUBMIT's lock check takes after the descriptor's own (R337). -/
def submitUnits (c : SrvCfg) (bs : List Byte) : List AccUnit :=
  [⟨(parseReq bs).promptAddr, (parseReq bs).promptAddr + 4 * (parseReq bs).plen - 1, rightR⟩,
    ⟨(parseReq bs).outAddr, (parseReq bs).outAddr + 32 + 16 * bget bs 24 4 - 1, rightW⟩]
  ++ (if (parseReq bs).moor = 0 then [] else [⟨(parseReq bs).moor, (parseReq bs).moor + moorBytes c (parseReq bs) - 1, rightR + rightW⟩])

/-- The configuration that a block of HBM and the region bases that it names give (Table 10.3). -/
def configOf (s : State) (a : Nat) : SrvCfg :=
  { parseCfg (s.bytes a 128) with bases := (List.range (bget (s.bytes a 128) 6 1 + 1)).map fun k => s.num (bget (s.bytes a 128) 0 6 + 8 * k) 8 }

/-- The units that CONFIGURE's last lock check takes (R334). -/
def configUnits (s : State) (b : Nat) (c : SrvCfg) (mlen : Nat) : List AccUnit :=
  (c.bases.map fun x => ⟨x, x + c.poolPages * c.pageBytes - 1, rightR + rightW⟩)
  ++ ([⟨c.poolMeta, c.poolMeta + 8 * c.poolPages - 1, rightR + rightW⟩, ⟨c.listArea, c.listArea + 4096 * s.reqQuota b - 1, rightR + rightW⟩,
      ⟨c.manifest, c.manifest + mlen - 1, rightR + rightW⟩]
    ++ (if c.patchCount = 0 then [] else [⟨c.patchTable, c.patchTable + 8 * c.patchCount - 1, rightR + rightW⟩])
    ++ [⟨c.program, c.program + c.programLen - 1, rightR⟩])

/-- R333, R334, R337, R361, R364: CONFIGURE of a block of HBM that passes every check makes its basin SERVING with that configuration and no page in use; SUBMIT of a descriptor of HBM in order
takes the lowest free slot, QUEUED, with the next generation, and names slot and generation in DETAIL; CANCEL makes a request that is PREFILL or DECODE DRAINING and marks one that is moored,
ending OK; RELEASE drops a handle's pages. -/
def Obligations.ServingCommands : Prop :=
  (∀ (s : State) (q : Nat) (e : Entry), EntryGranted s q 2 e → e.cmd = 0x100 → e.get 22 42 = 0 → s.srvState (s.qOwner q) = 0 → s.reqQuota (s.qOwner q) ≠ 0 →
    s.cowWait (configOf s (e.get 16 6)).poolMeta (8 * (configOf s (e.get 16 6)).poolPages) = false → e.get 16 6 + 128 ≤ hbmSize → cfgOk (s.bytes (e.get 16 6) 128) = true → s.poison = [] →
    s.firstRefusal (s.qOwner q) [⟨e.get 16 6, e.get 16 6 + 127, rightR⟩, ⟨bget (s.bytes (e.get 16 6) 128) 0 6,
      bget (s.bytes (e.get 16 6) 128) 0 6 + 8 * (bget (s.bytes (e.get 16 6) 128) 6 1 + 1) - 1, rightR⟩] = none →
    (configOf s (e.get 16 6)).bases.all (fun x => x % 64 == 0 && inHbm x) = true →
    s.firstRefusal (s.qOwner q) (configUnits s (s.qOwner q) (configOf s (e.get 16 6)) (bget (s.bytes (e.get 16 6) 128) 40 4)) = none →
    s.qPresent (configOf s (e.get 16 6)).stepQueue = true → s.qKind (configOf s (e.get 16 6)).stepQueue = 0 → s.qOwner (configOf s (e.get 16 6)).stepQueue = s.qOwner q →
    s.qEnabled (configOf s (e.get 16 6)).stepQueue = true →
    Completes (.configure q [] []) s (Reaching (fun u => u.srvState (s.qOwner q) = 1 ∧ (u.srvBasin (s.qOwner q)).cfg = some (configOf s (e.get 16 6)) ∧
        (u.srvBasin (s.qOwner q)).refs = [] ∧ u.dev.work.queues = s.dev.work.queues ∧
        Frame (fun o => o == rMemActRd (s.qOwner q) || o == rSrvState (s.qOwner q) || o == rClkGate || o == rClkGateStatus) s u ∧ u.out = s.out)
      (.andThen (metaWrite (s.qOwner q)) (finish q e.idx { status := 0 })))) ∧
  (∀ (s : State) (q k : Nat) (e : Entry) (c : SrvCfg), EntryGranted s q 2 e → e.cmd = 0x101 → e.get 22 42 = 0 → (s.srvBasin (s.qOwner q)).cfg = some c →
    s.srvState (s.qOwner q) = 1 → e.get 16 6 + 128 ≤ hbmSize → s.poison = [] → s.firstRefusal (s.qOwner q) [⟨e.get 16 6, e.get 16 6 + 127, rightR⟩] = none →
    reqOk (s.bytes (e.get 16 6) 128) = true → s.firstRefusal (s.qOwner q) (submitUnits c (s.bytes (e.get 16 6) 128)) = none →
    (parseReq (s.bytes (e.get 16 6) 128)).handle = 0 → (parseReq (s.bytes (e.get 16 6) 128)).hblocks = 0 →
    (s.slots (s.qOwner q)).find? (fun k => (s.req k).state == 0) = some k →
    Completes (.submit q [] []) s (Reaching (fun u =>
        u.req k = { parseReq (s.bytes (e.get 16 6) 128) with
          basin := s.qOwner q, queue := q, tag := e.tag, gen := ((s.req k).gen + 1) % 65536, submitTick := s.now,
          admitSeq := ((s.srvBasin (s.qOwner q)).admits + 1) % 2 ^ 32 } ∧
        (∀ j, j ≠ k → u.req j = s.req j) ∧ Frame (fun o => o == rMemActRd (s.qOwner q)) s u ∧ u.out = s.out)
      (finish q e.idx { status := 0, detail := k + ((s.req k).gen + 1) % 65536 * 2 ^ 16 }))) ∧
  (∀ (s : State) (q : Nat) (e : Entry), EntryGranted s q 2 e → e.cmd = 0x102 → e.get 20 44 = 0 → e.get 16 2 ∈ s.slots (s.qOwner q) → (s.req (e.get 16 2)).state ≠ 0 →
    (s.req (e.get 16 2)).gen = e.get 18 2 →
    Completes (.cancel q) s (Reaching (fun u => (∀ j, j ≠ e.get 16 2 → u.req j = s.req j) ∧ Frame (fun _ => false) s u ∧ u.out = s.out ∧
        ((s.req (e.get 16 2)).state = 2 ∨ (s.req (e.get 16 2)).state = 3 → u.req (e.get 16 2) = { s.req (e.get 16 2) with state := 7 }) ∧
        ((s.req (e.get 16 2)).state = 4 ∨ (s.req (e.get 16 2)).state = 5 → u.req (e.get 16 2) = { s.req (e.get 16 2) with cancel := true }))
      (finish q e.idx { status := 0 }))) ∧
  (∀ (s : State) (q : Nat) (e : Entry) (ps : List Nat), EntryGranted s q 2 e → e.cmd = 0x104 → e.get 20 44 = 0 → s.handlePages (s.qOwner q) (e.get 16 4) = some ps →
    Completes (.release q) s (Reaching (fun u => mget? u.dev.srv.handles (e.get 16 4 % 65536) = some { gen := e.get 16 4 / 65536, pages := none } ∧
        u.dev.srv.reqs = s.dev.srv.reqs ∧ Frame (fun _ => false) s u ∧ u.out = s.out)
      (finish q e.idx { status := 0 })))

/-- A build's state at its composition: the pages whose zeroing waited are zeroed as far as they may be, and SLACK is stamped. -/
def buildAt (s : State) (b : Nat) : State := (stampSlack b).run ((zeroWaiting b).run s)

/-- R341, R342, R349, R351, R354, R355, R362, R595: a TRACKED basin that is free to build and composes some rows has its step running, with the next number; STEP of a plan that moors one request makes
it MOORING and ends OK with the step's number; the collect of a step whose program ended OK ends the step, its number shown in SRV_STEP; a MOORING request with no page left to spill is MOORED, and a
RESUMING one with no page left to restore runs again, while one that needs a copy stays as it is; a new key empties the basin's index; and a serving stoppage that falls due between steps is taken,
and ends. -/
def Obligations.ServingSteps : Prop :=
  (∀ (s : State) (b : Nat) (c : SrvCfg), b < 16 → (s.srvBasin b).cfg = some c → s.tended b = false → s.canBuild b c = true → s.poison = [] →
    (∀ e ∈ s.slots b, inHbm (s.req e).promptAddr = true) → ((buildAt s b).composed [] b c).items ≠ [] →
    Completes (.stepBuild b [] []) s fun t => t.bit (rSrvState b) 2 = true ∧ (t.srvBasin b).steps = (s.srvBasin b).steps + 1 ∧
      ∃ r, (t.srvBasin b).step = some r ∧ r.number = (s.srvBasin b).steps + 1 ∧ r.rerun = false ∧ r.entry = none ∧ r.items = ((buildAt s b).composed [] b c).items) ∧
  (∀ (s : State) (q k : Nat) (e : Entry) (c : SrvCfg), EntryGranted s q 2 e → e.cmd = 0x103 → e.get 22 2 = 0 → e.get 26 38 = 0 → e.get 24 2 = 1 →
    (s.srvBasin (s.qOwner q)).cfg = some c → s.srvState (s.qOwner q) = 1 → s.tended (s.qOwner q) = true → s.srvWait (s.qOwner q) c = false → (s.srvBasin (s.qOwner q)).zeros = [] →
    e.get 16 6 + 8 ≤ hbmSize → s.poison = [] → s.firstRefusal (s.qOwner q) [⟨e.get 16 6, e.get 16 6 + 7, rightR⟩] = none →
    (∀ e ∈ s.slots (s.qOwner q), inHbm (s.req e).promptAddr = true) →
    k < 4096 → k ∈ s.slots (s.qOwner q) → s.num (e.get 16 6) 8 = k + 4096 + (s.req k).gen * 65536 → (s.req k).gen < 65536 → ((s.req k).state = 2 ∨ (s.req k).state = 3) →
    (s.req k).moor ≠ 0 →
    Completes (.step q [] []) s (Reaching (fun u => (u.req k).state = 4 ∧ (∀ j, j ≠ k → (u.req j).state = (s.req j).state) ∧
        (u.srvBasin (s.qOwner q)).steps = (s.srvBasin (s.qOwner q)).steps + 1 ∧ Frame (fun o => o == rMemActRd (s.qOwner q)) s u ∧ u.out = s.out)
      (finish q e.idx { status := 0, detail := ((s.srvBasin (s.qOwner q)).steps + 1) % 2 ^ 32 }))) ∧
  (∀ (s : State) (b : Nat) (c : SrvCfg) (r : StepRun) (host : HostBytes) (es : List EccEvent), b < 16 → (s.srvBasin b).cfg = some c → (s.srvBasin b).step = some r → r.entry = none →
    s.srvState b = 1 → s.bit rStpStatus 2 = false → s.srvWait b c = false → s.stepEnd c r = some 0 → s.poison = [] →
    (∀ x ∈ es, ¬ sectorOf x.sector ∈ sectorsOf c.poolMeta (8 * c.poolPages)) →
    Completes (.stepCollect b host es) s fun t => (t.srvBasin b).step = none ∧ t.bit (rSrvState b) 2 = false ∧ t.reg (rSrvStep b) = w64 r.number) ∧
  (∀ (s : State) (e : Nat), (s.req e).state = 4 →
    Completes (.mooringDone e) s fun t => t.req e = (if (s.moveOf e).isNone then { s.req e with state := 5 } else s.req e) ∧ (∀ j, j ≠ e → t.req j = s.req j) ∧
      Frame (fun _ => false) s t ∧ t.out = s.out) ∧
  (∀ (s : State) (e : Nat), (s.req e).state = 6 →
    Completes (.resumeDone e) s fun t => t.req e = (if (s.req e).held = [] ∧ (s.req e).spilled = 0 then
      { s.req e with cancel := false, state := if (s.req e).cancel = true then 7 else if (s.req e).pos < (s.req e).plen then 2 else 3 } else s.req e) ∧
      (∀ j, j ≠ e → t.req j = s.req j) ∧ Frame (fun _ => false) s t ∧ t.out = s.out) ∧
  (∀ (s : State) (rd b v : Nat) (l : Loc), b < 16 → Writes s rd (rSrvKey b 1) l → s.isOpen b = true →
    Completes (.srvKeyWrite rd b v) s fun t => (t.srvBasin b).key = ((s.reg (rSrvKey b 0)).toNat, v % 2 ^ 64) ∧
      (∀ n, inRange (s.pfxRange b) n = true → mget? t.dev.srv.index n = none) ∧ Frame (fun o => o == rSrvKey b 1) s t ∧ t.out = s.out) ∧
  (∀ (s : State), s.dev.srv.stopDue = none → s.bit rStpCfg 14 = true → s.dev.srv.stopSlot < s.now / servePeriod → s.stepRunning = false → s.bit rStpStatus 2 = false →
    Completes .servingStoppageDue s fun t => t.bit rStpStatus 2 = true ∧ t.dev.srv.stopDue = none ∧ t.dev.srv.stopSlot = s.now / servePeriod ∧
      t.fld rStpTaken 48 16 = (s.fld rStpTaken 48 16 + 1) % 2 ^ 16 ∧ Frame (fun o => o == rStpStatus || o == rStpTaken || o == rStpMaxDefer) s t ∧ t.out = s.out) ∧
  (∀ (s : State), s.bit rStpStatus 2 = true →
    Completes (.servingStoppageEnd true) s fun t => t.bit rStpStatus 2 = false ∧ Frame (fun o => o == rStpStatus) s t ∧ t.out = s.out)

/-! ### The wharf (chapter 11) -/

/-- The definition that a DEFINE_SET entry and its set list give. -/
def setDefOf (s : State) (e : Entry) (list : List Byte) : SetDef :=
  { archiveId := getLe list 0 16, user := (list.drop 16).take 64,
    tensors := ((List.range (e.get 32 2)).map fun i => (list.drop (128 * (i + 1))).take 128).map fun x => (setTensor x).2, metaAddr := e.get 40 6,
    cowAddr := e.get 48 6, cowPages := e.get 56 4, compress := bitOf (e.get 18 1) 0, table := if bitOf (e.get 18 1) 0 then e.get 17 1 else 0,
    lens := if bitOf (e.get 18 1) 0 then s.tblLens (e.get 17 1) else [] }

/-- A DEFINE_SET entry of an UNDEFINED or DEFINED set, without COMPRESS and ADOPT, passes the checks of R376. -/
abbrev SetDefines (s : State) (q : Nat) (e : Entry) (list : List Byte) : Prop :=
  let b := s.qOwner q
  let k := e.get 16 1
  let n := 128 * (e.get 32 2 + 1)
  let d := setDefOf s e list
  k < 16 ∧ s.setPresent k = true ∧ s.setOwner k = b ∧ s.setState k ≤ 1 ∧ (s.wset k).adopt = none ∧ (s.wset k).undo = false ∧
  e.get 18 1 = 0 ∧ e.get 19 5 = 0 ∧ e.get 30 2 = 0 ∧ e.get 34 6 = 0 ∧ e.get 46 2 = 0 ∧ e.get 54 2 = 0 ∧ e.get 60 4 = 0 ∧
  1 ≤ e.get 32 2 ∧ e.get 32 2 ≤ 4096 ∧ 1 ≤ e.get 56 4 ∧ e.get 56 4 ≤ 4096 ∧ e.get 24 6 + n ≤ hbmSize ∧ e.get 40 6 + d.manBytes ≤ hbmSize ∧ e.get 48 6 + 65536 * e.get 56 4 ≤ hbmSize ∧
  s.poison = [] ∧ list = s.bytes (e.get 24 6) n ∧ s.firstRefusal b [⟨e.get 24 6, e.get 24 6 + n - 1, rightR⟩] = none ∧ getLe list 80 48 = 0 ∧
  (∀ i, i < e.get 32 2 → setEntryOk ((list.drop (128 * (i + 1))).take 128) = true) ∧ (d.tensors.map (·.gid)).Nodup ∧
  rangesApart d.ranges (s.otherRanges k) = true ∧ d.cowAddr % 65536 = 0 ∧
  s.firstRefusal b ((d.tensors.map fun t => ⟨t.addr, t.addr + t.bytes - 1, rightR + rightW⟩)
    ++ [⟨d.metaAddr, d.metaAddr + d.manBytes - 1, rightR + rightW⟩, ⟨d.cowAddr, d.cowAddr + 65536 * d.cowPages - 1, rightR + rightW⟩]) = none

/-- R376, R377, R385, R396, R400: DEFINE_SET in order makes the set DEFINED, NEED_FULL, with every page dirty and its next epoch 1. EPOCH on a DEFINED set arms it at its gate; a wait that reaches its
limit ends the epoch GATE_TIMEOUT with nothing armed, and ABANDON ends one that still waits ABORTED, NEED_FULL set. RESTORE in order makes the set RESTORING. -/
def Obligations.CheckpointSets : Prop :=
  (∀ (s : State) (q : Nat) (e : Entry) (list : List Byte), EntryGranted s q 3 e → s.current q = some e → e.cmd = 0x200 → SetDefines s q e list →
    Completes (.defineSet q []) s (Reaching (fun u => u.setState (e.get 16 1) = 1 ∧ u.needFull (e.get 16 1) = true ∧ (u.wset (e.get 16 1)).defn = setDefOf s e list ∧
        (u.wset (e.get 16 1)).nextEpoch = 1 ∧ (∀ p, p ∈ (u.wset (e.get 16 1)).dirty ↔ p ∈ (setDefOf s e list).pageList) ∧ SameGates s u ∧ u.out = s.out)
      (.andThen (finishCurrent q { status := 0, detail := (setDefOf s e list).pageList.length }) pumpWharf))) ∧
  (∀ (s : State) (q : Nat) (e : Entry), EntryGranted s q 3 e → e.cmd = 0x201 → e.get 19 1 = 0 → e.get 32 32 = 0 → e.get 16 1 < 16 → s.setPresent (e.get 16 1) = true →
    s.setOwner (e.get 16 1) = s.qOwner q → s.setState (e.get 16 1) = 1 → (s.wset (e.get 16 1)).adopt = none → (s.wset (e.get 16 1)).undo = false →
    (e.get 17 1 = 0 ∨ (e.get 17 1 = 1 ∧ s.needFull (e.get 16 1) = false)) →
    Completes (.epoch q) s (Reaching (fun u => u.setState (e.get 16 1) = 2 ∧ (u.wset (e.get 16 1)).epoch = some
        { q := q, kind := e.get 17 1, gate := e.get 18 1, value := e.get 24 8, limit := e.get 20 4, since := s.now } ∧
        Frame (fun o => o == rWhfSetState (e.get 16 1)) s u ∧ u.out = s.out)
      (.andThen (armOnGate (s.qOwner q) (e.get 18 1)) pumpWharf))) ∧
  (∀ (s : State) (k : Nat) (e : EpochRun), k < 16 → (s.wset k).epoch = some e → s.setState k = 2 → (s.wset k).undo = false → e.issued = false → e.posted = false →
    (e.limit ≠ 0 → e.limit ≤ e.marks → Completes (.epochWaitTimeout k) s (Reaching (fun u => u.setState k = 1 ∧ u.needFull k = true ∧ u.fld (rWhfSetState k) 4 8 = 0x19 ∧
      (u.wset k).epoch = none ∧ (u.wset k).armed = [] ∧ Frame (fun o => o == rWhfSetState k || (List.range 8).any (fun d => o == rWhfSetRing k d)) s u ∧ u.out = s.out)
      (finishCurrent e.q { status := 0x19, detail := e.number % 2 ^ 32 }))) ∧
    (∀ rd l, Writes s rd (rWhfSetCtrl k) l → s.isOpen (s.setOwner k) = true → Completes (.abandon rd k) s (Reaching (fun u => u.setState k = 1 ∧ u.needFull k = true ∧
      u.fld (rWhfSetState k) 4 8 = 0x1C ∧ (u.wset k).epoch = none ∧ Frame (fun o => o == rWhfSetState k || (List.range 8).any (fun d => o == rWhfSetRing k d)) s u ∧ u.out = s.out)
      (finishCurrent e.q { status := 0x1C, detail := e.number % 2 ^ 32 })))) ∧
  (∀ (s : State) (q n : Nat) (e : Entry), EntryGranted s q 3 e → e.cmd = 0x202 → e.get 16 1 < 16 → s.setPresent (e.get 16 1) = true → s.setOwner (e.get 16 1) = s.qOwner q →
    s.setState (e.get 16 1) = 1 → (s.wset (e.get 16 1)).adopt = none → (s.wset (e.get 16 1)).undo = false → bitsOf (e.get 18 1) 3 5 = 0 → e.get 19 5 = 0 → e.get 38 2 = 0 →
    e.get 46 18 = 0 → n = e.get 17 1 → 1 ≤ n → n ≤ 8 → e.get 32 6 + 16 * n ≤ hbmSize →
    e.get 40 6 + scratchBytes (s.wset (e.get 16 1)).defn.tensors ≤ hbmSize → 1 ≤ scratchBytes (s.wset (e.get 16 1)).defn.tensors → s.poison = [] →
    s.firstRefusal (s.qOwner q) [⟨e.get 32 6, e.get 32 6 + 16 * n - 1, rightR⟩,
      ⟨e.get 40 6, e.get 40 6 + scratchBytes (s.wset (e.get 16 1)).defn.tensors - 1, rightR + rightW⟩] = none →
    (∀ i, i < n → getLe (s.bytes (e.get 32 6) (16 * n)) (16 * i + 1) 7 = 0 ∧ getLe (s.bytes (e.get 32 6) (16 * n)) (16 * i) 1 ≤ 7 ∧
      s.lbaAllowed (e.get 16 1) (getLe (s.bytes (e.get 32 6) (16 * n)) (16 * i) 1) (getLe (s.bytes (e.get 32 6) (16 * n)) (16 * i + 8) 8) 2 = true ∧
      s.drvState (getLe (s.bytes (e.get 32 6) (16 * n)) (16 * i) 1) = 1) →
    Completes (.restore q []) s (Reaching (fun u => u.setState (e.get 16 1) = 5 ∧
        (∃ r, (u.wset (e.get 16 1)).restore = some r ∧ r.q = q ∧ r.sources.length = n ∧ r.applied = 0 ∧ r.stage = 0 ∧ r.toRead.length = 2 * n) ∧
        Frame (fun o => o == rWhfSetState (e.get 16 1) || o == rMemActRd (s.qOwner q)) s u ∧ u.out = s.out) pumpWharf))

/-- R389, R391, R383, R384, R381: a write's copy of an armed page puts the page's bytes, as they were, on a free copy page and takes the page from the armed ones; the
staging of a set's next page, uncoded
here, takes a buffer and sends one drive command; a drive's completion counts and takes its command away, and a read whose buffer was lost is made again; a command out of time makes its drive FAILED with DRIVE_ERROR; a drive with its
doorbells and RID set becomes READY, and one disabled OFF. -/
def Obligations.CheckpointDrives : Prop :=
  (∀ (s : State) (k page c : Nat), k < 16 → page ∈ (s.wset k).armed → (s.wset k).freeCow = some c → s.poison = [] → 65536 * page + 65536 ≤ hbmSize →
    (s.wset k).defn.cowAddr + 65536 * c + 65536 ≤ hbmSize → (s.wset k).defn.cowAddr % 65536 = 0 →
    Completes (.cowCopy k page []) s (Reaching (fun t =>
      (∀ i, i < 65536 → t.byte ((s.wset k).defn.cowAddr + 65536 * c + i) = s.byte (65536 * page + i)) ∧
      (∀ a, (a < (s.wset k).defn.cowAddr + 65536 * c ∨ (s.wset k).defn.cowAddr + 65536 * c + 65536 ≤ a) → t.byte a = s.byte a) ∧
      ¬ page ∈ (t.wset k).armed ∧ (page, c) ∈ (t.wset k).copies ∧ t.fld (rWhfSetStalls k) 0 32 = satAdd 32 (s.fld (rWhfSetStalls k) 0 32) 1 ∧
      SameGates s t ∧ RegsBut (fun o => o == rWhfSetStalls k || o == rMemActRd (s.setOwner k) || o == rMemActWr (s.setOwner k)) s t ∧ t.out = s.out) pumpWharf)) ∧
  (∀ (s : State) (k p i d ti ext : Nat) (e : EpochRun) (x : WTensor), k < 16 → (s.wset k).epoch = some e → e.fail = none → s.setState k = 3 → (s.wset k).copies = [] →
    (s.wset k).armed.head? = some p → pageExtent p 0 (s.wset k).defn.tensors = some (ti, x, ext) → s.freeBuf = some i → d = (s.setDrives k).getD (e.next % (s.setDrives k).length) 0 →
    s.drvState d = 1 → s.drvRoom d = true → s.poison = [] → s.dev.codec.coded = [] →
    Completes (.extentStaged k []) s fun t => (t.wset k).armed = (s.wset k).armed.drop 1 ∧ i ∈ t.dev.whf.inUse ∧ (t.drive d).cmds.length = (s.drive d).cmds.length + 1 ∧
      (t.drive d).sqTail = ((s.drive d).sqTail + 1) % s.drvDepth d ∧ SameHbm s t ∧ SameGates s t) ∧
  (∀ (s : State) (d : Nat) (c : DrvCmd) (es : List EccEvent), d < 8 → s.drvState d = 1 → bitOf (getLe (s.sram (0x880000 + 0x10000 * d + 16 * (s.drive d).cqHead) 16) 12 4) 16 = (s.drive d).phase →
    bitsOf (getLe (s.sram (0x880000 + 0x10000 * d + 16 * (s.drive d).cqHead) 16) 12 4) 17 15 = 0 →
    (s.drive d).cmds.find? (fun x => x.cid == bitsOf (getLe (s.sram (0x880000 + 0x10000 * d + 16 * (s.drive d).cqHead) 16) 12 4) 0 16) = some c →
    s.busMaster 0 = false →
    Completes (.nvmeCompletion d es) s (Reaching (fun u => u.reg (rWhfDrvDone d) = w64 (satAdd 64 (s.reg (rWhfDrvDone d)).toNat 1) ∧
        (u.drive d).cmds = (s.drive d).cmds.eraseP (fun x => x.cid == c.cid) ∧ (u.drive d).cqHead = ((s.drive d).cqHead + 1) % s.drvDepth d ∧
        Frame (fun o => o == rWhfDrvDone d || o == rWhfDrvStatus d) s u ∧ u.out = s.out)
      (.andThen (if c.again = true then placeCmd d { c with again := false, tick := s.now } else cmdDone d c es) (pumpWith es)))) ∧
  (∀ (s : State) (d : Nat), d < 8 → s.drvState d = 1 → ((s.drive d).cmds.any fun c => decide (c.tick + 2 ^ s.fld rWhfCfg 3 6 ≤ s.now)) = true →
    s.dev.flt.ignored.contains 0x23 = false →
    Completes (.nvmeTimeout d) s (Reaching (fun u => u.drvState d = 2 ∧ u.fld (rWhfDrvStatus d) 12 8 = 0x32 ∧
        u.reg (rFltEvents 0x23) = w64 (satAdd 32 (s.reg (rFltEvents 0x23)).toNat 1) ∧ SameHbm s u ∧ SameGates s u)
      (.andThen (dropDrive d true) pumpWharf))) ∧
  (∀ (s : State) (rd d : Nat) (l : Loc), d < 8 → Writes s rd (rWhfDrvCmd d) l →
    (s.drvState d = 0 → outbound (s.reg (rWhfDrvSqdb d)).toNat = true → outbound (s.reg (rWhfDrvCqdb d)).toNat = true → s.fld (rWhfDrvCtrl d) 16 16 ≠ 0 →
      s.firstRefusal 0 [⟨(s.reg (rWhfDrvSqdb d)).toNat, (s.reg (rWhfDrvSqdb d)).toNat + 3, rightW⟩,
        ⟨(s.reg (rWhfDrvCqdb d)).toNat, (s.reg (rWhfDrvCqdb d)).toNat + 3, rightW⟩] = none →
      Completes (.driveEnable rd d) s fun t => t.reg (rWhfDrvStatus d) = 1#64 ∧ t.drive d = {} ∧
        Frame (fun o => o == rWhfDrvStatus d || o == rClkGate || o == rClkGateStatus) s t ∧ t.out = s.out) ∧
    Completes (.driveDisable rd d) s (Reaching (fun u => u.reg (rWhfDrvStatus d) = 0#64 ∧ u.drive d = {} ∧ (∀ x ∈ u.dev.whf.quarantined, x.2 ≠ d) ∧
      Frame (fun o => o == rWhfDrvStatus d || o == rWhfStatus) s u ∧ u.out = s.out) pumpWharf))

/-- R148, R379, R609: a TLP to BAR4 from the requester of a READY drive slot reads or writes the wharf memories where the window map allows it; from any other requester
it is refused: nothing is written,
PCI_ERR counts it, the refusal stands in PF0's lock record, and a read completes as Unsupported Request. In dry-dock, and while basin 0 is not OPEN (R138), a write is dropped and a read refused. -/
def Obligations.Bar4 : Prop :=
  (∀ (s : State) (rid off n d : Nat) (bs : List Byte) (w : Window), s.dlActive = true → (s.fn 0).mse = true → s.asleep = false → s.dryDock = false → s.isOpen 0 = true →
    s.ridSlot rid = some d → s.drvState d = 1 →
    (bs ≠ [] → bar4Check off (off + bs.length - 1) (rightW + rightD) = .pass w →
      Completes (.bar4Tlp rid true off bs n) s fun t => (∀ i, i < bs.length → mget 0#8 t.dev.whf.sram (off + i) = bs.getD i 0#8) ∧
        (∀ a, (a < off ∨ off + bs.length ≤ a) → mget 0#8 t.dev.whf.sram a = mget 0#8 s.dev.whf.sram a) ∧ Frame (fun _ => false) s t ∧ t.out = s.out) ∧
    (0 < n → bar4Check off (off + n - 1) (rightR + rightD) = .pass w →
      Completes (.bar4Tlp rid false off bs n) s fun t => t.out = .tlpData rid off (s.sram off n) :: s.out ∧ t.dev = s.dev ∧ Frame (fun _ => false) s t)) ∧
  (∀ (s : State) (rid off n : Nat) (bs : List Byte), s.dlActive = true → (s.fn 0).mse = true → s.asleep = false → s.dryDock = false → s.isOpen 0 = true → s.ridSlot rid = none → bs ≠ [] → 0 < n →
    Completes (.bar4Tlp rid true off bs n) s (fun t => t.dev.whf.sram = s.dev.whf.sram ∧ t.fld rPciErr 48 16 = satAdd 16 (s.fld rPciErr 48 16) 1 ∧
      t.fld (rLckLast 0 2) 0 8 = 0x17 ∧ t.reg (rLckLast 0 0) = w64 (off % 2 ^ 48) ∧ SameHbm s t ∧ SameGates s t) ∧
    Completes (.bar4Tlp rid false off bs n) s (fun t => t.dev.whf.sram = s.dev.whf.sram ∧ t.out.head? = some (.unsupportedRequest 0) ∧
      t.fld rPciErr 48 16 = satAdd 16 (s.fld rPciErr 48 16) 1 ∧ t.fld (rLckLast 0 2) 0 8 = 0x17 ∧ SameHbm s t ∧ SameGates s t)) ∧
  (∀ (s : State) (rid off n : Nat) (bs : List Byte), s.dlActive = true → (s.fn 0).mse = true → s.asleep = false → (s.dryDock = true ∨ s.isOpen 0 = false) → bs ≠ [] → 0 < n →
    Completes (.bar4Tlp rid true off bs n) s (fun t => t = s) ∧
    Completes (.bar4Tlp rid false off bs n) s (fun t => t.dev.whf.sram = s.dev.whf.sram ∧ t.out.head? = some (.unsupportedRequest 0) ∧ SameHbm s t ∧ SameGates s t))

/-! ### Statements made of several -/

/-- At reset the machine's data are in canonical form. R4, R2: right after reset a register holds the reset value of its card: GLB_ID identifies stepping A1, and the
registers named hold their nonzero reset values; every other register holds zero. -/
def Obligations.ResetState : Prop := Stated.SoundAtReset ∧ Stated.RegistersAtReset

/-- R12: a 32-bit read of a low word answers with the live low word and loads the reader's shadow with the live high word and the register's identity; it changes no
register. R13, R14: a 32-bit read of a high word answers with the reader's shadow where it holds the register's identity, and otherwise with the live high word, setting
UNPAIRED_HIGH for that reader; it changes no register and no shadow. R17, R18: an aligned 64-bit read of a 64-bit register answers with both words from one instant and
leaves the shadow; a low-word read or a 64-bit read of a register with access RC also clears it, the shadow receiving the high word as it stood before. -/
def Obligations.RegisterReads : Prop := Stated.LowWordRead ∧ Stated.HighWordRead ∧ Stated.RcRead

/-- R630: an access to a hole reads zero, discards its write and counts once at CSR_ACCESS. R7: an access of an unsupported size or alignment counts once there; its write
is discarded, and its read answers all ones to an on-chip or I²C reader and Unsupported Request on PCIe. R632: an aligned 64-bit access that does not address one 64-bit
register is carried out as two 32-bit accesses, at +0 and then +4. -/
def Obligations.HolesAndOtherAccesses : Prop := Stated.HoleAndUnsupportedAccess ∧ Stated.Split64Access

/-- R577: an event at a source and unit raises FLT_EVENTS of the source. Where the threshold is 0 or the unit is retired it does no more; below the threshold the count of
its window rises; at the threshold the count returns to 0 and the source's bit of FLT_TRIP is set. This for the sources that retire no unit and restore no tolls. R578,
R588: an event that reaches the threshold of a tile source retires the tile: PAC_TILE_t.STATE becomes RETIRED, and its bit of FLT_TRIP is set. -/
def Obligations.FaultEvents : Prop := Stated.FaultEventCounts ∧ Stated.TileRetiresAtThreshold

/-- R586: with FORCE_EN set, a 1 written to a bit of FLT_FORCE injects one event at that source, a reserved source excepted; with FORCE_EN clear nothing changes. R581: a
write of 1s to FLT_TRIP clears those trips and the same bits of FLT_PIN; the other bits and every other register stay. R583, R584: POP removes the head of a HISTORY
capture queue; CLEAR returns a FIRST record to its reset state, clearing OVERFLOW. R590: a keyed write to FLT_RELEASE for a tile that is RETIRED asks the journal for a
TILE_RELEASE entry of that tile and changes no register; for a tile that is not retired, or without the key, nothing changes. -/
def Obligations.CollectorCommands : Prop := Stated.ForcedEvents ∧ Stated.TripClear ∧ Stated.CaptureCommands ∧ Stated.TileRelease

/-- R594: at the slot of a lane, in the order of port and lane, an UP port of two or more active lanes whose neighbour has the higher chip id starts the lane's stoppage:
STP_STATUS names it, STP_TAKEN rises, and a LANES frame without the lane goes out; a slot that finds a stoppage under way, or such a port not there, is skipped and
STP_SKIPPED rises. R594: at the end of a lane's stoppage STP_STATUS no longer names it; then the errors count, and a lane that has adapted rejoins. -/
def Obligations.LaneStoppages : Prop := Stated.LaneStoppage ∧ Stated.LaneStoppageEnds

/-- R570, R574: an auto-zero whose two codes agree and lie within 16 is accepted and waits for its boundary, ending an exclusion; one that times out is bad: LAST_STATUS
is TIMEOUT and FAILS rises, and the third in a row excludes the sensor. R569, R570: a re-centering falls due on a trained pseudo-channel 2^34 ticks after it last did; a
refresh window brings an accepted result into force, counting it in the channel's record; one that has not finished within 2^20 ticks is discarded, LAST_STATUS being
TIMEOUT. -/
def Obligations.SensorAndChannelCalibration : Prop := Stated.AutoZero ∧ Stated.HbmRecentering

/-- R94: a write to PAC_TARGET within the bounds of the image takes effect; one that breaks them changes nothing but the REFUSED flag of PAC_STATUS. R81, R82, R86: a
decision that reads nothing over PMBus shows in PAC_STATUS the row of Table 3.3 that it took and in PAC_PACE_SUM the slowest and the fastest tile. The slowest tile below
the target by more than the hysteresis raises the voltage by 5 mV, and above the target by more than the hysteresis lowers it by 5 mV, within the image's bounds, where no
earlier row holds. -/
def Obligations.PaceControl : Prop := Stated.PacTargetWrite ∧ Stated.PaceDecision

/-- R88, R89: a margin detector event counts at its source, and the tile's MARGIN_CNT rises; a late transition counts at its source, and the operator that runs on the
tile is marked to end TILE_FAULT. R592, R593: a tile stoppage slot moves STP_NEXT_TILE to the next slot; the slot of a tile that is not in service is skipped, and that of
an idle tile in service starts its stoppage when no tile is in stoppage. A stoppage that has waited 8,000,000,000 ticks is taken at once. When the tests end the tile
returns to service, and its trim steps that were due take effect and are recorded. -/
def Obligations.TileFaultsAndStoppages : Prop := Stated.TileEvents ∧ Stated.TileStoppages

/-- R105 stages 2 and 3: an operator whose descriptor has been read and passes its static check begins its wait, at no mark counted; END and NOP, which run nothing, do so
where their wait is not yet satisfied. No register, gate or byte of HBM changes. R105, R664: an operator that fails its static check ends its program with the status of
the first check that fails. R110, R112: END and NOP whose wait is satisfied complete: the operator's increment raises its gate of the owner basin, saturating. R109: a
wait of an operator, or of a WAIT_GATE entry, that has counted WAIT_LIMIT time marks unsatisfied ends GATE_TIMEOUT. -/
def Obligations.OperatorWaits : Prop := Stated.OperatorBeginsItsWait ∧ Stated.OperatorFailsItsCheck ∧ Stated.EndAndNopIncrement ∧ Stated.GateTimeout

/-- R177: a write of ENABLE to a DISABLED queue of an OPEN basin whose rings lie within the basin's windows makes the queue ENABLED with phase 1, both ring positions 0
and nothing owed. Where a ring is refused the queue stays DISABLED and CAUSE holds the refusal's status. R179: a committed write to a ring base takes effect while the
queue is DISABLED, and changes no register at any other time. -/
def Obligations.QueueEnableAndBases : Prop := Stated.QueueEnable ∧ Stated.QueBaseWrite

/-- R183, R189: a queue that may take up its next entry reads 64 bytes of its ring in HBM, counts the read as its owner's activity, moves its fetch position on, and holds
the entry as the last it owes. R185, R186, R187: the queue command NOP ends OK; RUN_PROGRAM of an extent of HBM that the owner may read starts its program at offset 0;
WAIT_GATE on a gate that has reached VALUE ends OK, and otherwise begins its wait; INC_GATE raises its gate by AMOUNT, saturating, and ends OK. -/
def Obligations.QueueEntries : Prop := Stated.SqFetch ∧ Stated.QueueCommands

/-- R190, R208: a completion whose entry has ended is posted once a CQ slot is free: its 16 bytes stand in HBM at the ring's tail, QUE_DONE counts it, and the entry is no
longer owed. R195: when the oldest completion since the last message is AGE × 1,024 ticks old, the queue sends its MSI-X message: at once where the owner's vector is
open. R608: an outbound read's completion reaches its user, and one that does not arrive within the timeout is an error to it, counted but where it was for the TAG of an
aborted entry alone (R205; the timeouts are log entry 87's). -/
def Obligations.CompletionsAndMessages : Prop := Stated.CompletionPosted ∧ Stated.MessagesAndReads

/-- R245, R293: an enabled port begins training from cold, and again 2^27 ticks after a training that timed out; a training that has not ended within 2^24 ticks leaves
the port DOWN with CAUSE 2; a port whose lanes have found codeword lock sends its HELLO, once; a lane that has not adapted within 2^22 ticks is left out, and its record
says TIMEOUT. R245 to R247: the HELLO of the neighbour that the image names, with a common lane, brings the training port UP on the common lanes; that of another
neighbour counts at WIRING and leaves it DOWN with CAUSE 3: both within 2^24 ticks of the training's start. R249: in an external winding hole a HELLO tells whether the
port has met itself. -/
def Obligations.PortTrainingAndHello : Prop := Stated.PortTraining ∧ Stated.HelloExchange

/-- R262, R263: an LNAK on an UP port that no LANES exchange holds has its replay buffer sent again from the LSEQ it names, and a barge that has waited 8,192 ticks for
its LACK has it sent again from the oldest; a port that has sent a barge 8 times enters RETRAIN, and otherwise goes on. R261: a LACK frees the barges up to its LSEQ.
R257: a CREDIT frame tells the neighbour's free buffers, at most 8 of a class being held; the barges on their way to them take theirs (the model's reading, log entry 81).
R248: a LANES frame on an UP port announces the lanes on which both ends will switch, the retired ones left out; at the switch the port goes on, on those lanes, from the
oldest barge that no LACK covers. R240: a codeword has 544 symbols. R242, R262: one that the code cannot correct counts at its port and at its source, and one that a
barge overlaps is answered by an LNAK; one that it corrects counts nowhere. R264, R294: a retrain that ends in time brings the port UP on the lanes locked at both ends;
one that does not retires it. -/
def Obligations.LinkRetryAndWidth : Prop := Stated.LinkRetry ∧ Stated.WidthAndRetrain

/-- R283, R285, R287: a time mark on the port that a chip follows that is behind by 32,768 ticks or more steps the timebase forward; any other error is made good by a
slew. IBN_TIME shows FOLLOWING and the port. R284: a PING is answered by a PONG with its value, and a PONG makes an exchange of the port's link delay. R288: a chip that
is not the master and has accepted no mark for four mark intervals goes to HOLDOVER, which counts as it enters it. R428: the master seeds its timebase once its first port
has been UP for 2^24 ticks: never below its own value. -/
def Obligations.ReachTime : Prop := Stated.TimeMarks ∧ Stated.HoldoverAndSeed

/-- R431, R433: a carry into SECONDS moves the real-time clock on to the next second, with what FRACTION has counted past it (log entry 67), and on a chip whose timebase
has started TBS_CORR takes both clocks. A KXTAL that was LOST and runs again is being judged. A time set on a chip that keeps no tolls loads the clock and makes it valid.
R596, R597: a battery test ends with the voltage found and its verdict, 2,400 mV passing; then the updates it held are applied. R480: a burst of the current-only mode
that confirms neither a start nor an end of tampering, outside a tamper event, only shows its current and counts. -/
def Obligations.KeeperTimeAndBattery : Prop := Stated.RealTimeClock ∧ Stated.BatteryAndTamper

/-- R513, R517, R518, R526: the panel's states. A rail that settles near its target is up; the next frame is BLANK, and two blank frames later content is shown, with the
page and status annunciators; a rail that does not settle in time, or a VLCD out of range, leaves the panel DARK and counts; so does VDD_AON below 1.65 V, uncounted.
R517, R525: a write of BLANK makes a panel that is not DARK go DARK; a hold on an entry that can be shown, of 1 to 3,600 seconds, shows it and holds it; one of 0 seconds
ends the hold. -/
def Obligations.FrontPanel : Prop := Stated.PanelStates ∧ Stated.PanelCommands

/-- R440, R441: a sample of a meter that runs, where no window has ended, is taken by every channel in service, with the ones of its block (R477), and the first of the
discarded samples counts the discarding down. R447: a window whose end has been found is measured. R462, R464: a pulse of CF_OUT starts where one is queued, none is high
and the spacing has passed: the queue falls and the count rises; after its width it ends. A pulse input's accepted active level counts once. -/
def Obligations.MeterSamplesAndPulses : Prop := Stated.MeterSamples ∧ Stated.Pulses

/-- R493, R494: COMMIT of a calendar in order, whose time is a minute or more ahead, is BUSY and asks the journal for its record; one whose format is wrong ends FORMAT;
one that is not committed in time ends JOURNAL. CANCEL asks for a record that cancels the pending calendar, which is gone. R486, R484: an ACTIVITY report of a chip of the
tray rises its slot's counters and count at the toll master; a tray chip that has sent none for 2^24 ticks counts at its slot. -/
def Obligations.CalendarsAndReports : Prop := Stated.Calendars ∧ Stated.ActivityReports

/-- R605: a write to PCI_OUT_HI takes effect while no outbound user is active, and otherwise changes no register. R503, R628, R667: PFAIL_N's fall counts, and a chip that
is not toll master does no more, while a toll master stops cleanly; its rise with every PWR_GOOD high clears CLEAN_STOP. A pending message whose vector is open is sent.
-/
def Obligations.EndpointAndPowerFail : Prop := Stated.PciOutHiWrite ∧ Stated.PowerFailAndMessages
end

