-- ==== Sys2Proof/Laws/Maps.lean ====
section
/-!
SUPPORT. Sparse maps and sets in canonical form: what a write leaves at its own key and at every other key, and that
every operation keeps the form.
-/
namespace Sys2Proof.Machine

variable {α : Type}

theorem mrising_mono {b c : Nat} (h : b ≤ c) : ∀ {m : Map α}, mrising c m = true → mrising b m = true
  | [], _ => rfl
  | (k, v) :: rest, hm => by
    simp only [mrising, Bool.and_eq_true, decide_eq_true_eq] at hm ⊢
    exact ⟨by omega, hm.2⟩

theorem mget?_of_below : ∀ {m : Map α} {b k : Nat}, mrising b m = true → k < b → mget? m k = none
  | [], _, _, _, _ => rfl
  | (k', v) :: rest, b, k, hm, hk => by
    simp only [mrising, Bool.and_eq_true, decide_eq_true_eq] at hm
    have : k' ≠ k := by omega
    simp only [mget?, this, if_false]
    exact mget?_of_below hm.2 (by omega)

@[simp] theorem mget?_mput (k : Nat) (v : α) : ∀ m : Map α, mget? (mput m k v) k = some v
  | [] => by simp [mput, mget?]
  | (k', w) :: rest => by
    unfold mput
    split
    · simp [mget?]
    · split
      · simp [mget?]
      · rename_i h _; simp [mget?, h, mget?_mput k v rest]

theorem mget?_mput_other {k j : Nat} (v : α) (h : j ≠ k) : ∀ m : Map α, mget? (mput m k v) j = mget? m j
  | [] => by simp [mput, mget?, Ne.symm h]
  | (k', w) :: rest => by
    unfold mput
    split
    · subst_vars; simp [mget?, Ne.symm h]
    · split
      · simp [mget?, Ne.symm h]
      · simp only [mget?, mget?_mput_other v h rest]

theorem mrising_mput {k : Nat} (v : α) : ∀ {m : Map α} {b : Nat}, mrising b m = true → b ≤ k → mrising b (mput m k v) = true
  | [], b, _, hb => by simp [mput, mrising, hb]
  | (k', w) :: rest, b, hm, hb => by
    simp only [mrising, Bool.and_eq_true, decide_eq_true_eq] at hm
    unfold mput
    split
    · subst_vars; simp [mrising, hm.2, hb]
    · split
      · rename_i h1 h2
        simp only [mrising, Bool.and_eq_true, decide_eq_true_eq]
        exact ⟨hb, by omega, hm.2⟩
      · simp only [mrising, Bool.and_eq_true, decide_eq_true_eq]
        exact ⟨hm.1, mrising_mput v hm.2 (by omega)⟩

theorem mrising_filter (p : Nat × α → Bool) : ∀ {m : Map α} {b : Nat}, mrising b m = true → mrising b (m.filter p) = true
  | [], _, _ => rfl
  | (k', w) :: rest, b, hm => by
    simp only [mrising, Bool.and_eq_true, decide_eq_true_eq] at hm
    simp only [List.filter_cons]
    split
    · simp only [mrising, Bool.and_eq_true, decide_eq_true_eq]
      exact ⟨hm.1, mrising_filter p hm.2⟩
    · exact mrising_mono (by omega) (mrising_filter p hm.2)

theorem mem_mput {k : Nat} {v : α} {e : Nat × α} : ∀ {m : Map α}, e ∈ mput m k v → e = (k, v) ∨ e ∈ m
  | [], h => by simpa [mput] using h
  | (k', w) :: rest, h => by
    unfold mput at h
    split at h
    · simp only [List.mem_cons] at h ⊢; grind
    · split at h
      · simp only [List.mem_cons] at h ⊢; grind
      · simp only [List.mem_cons] at h ⊢
        rcases h with h | h
        · grind
        · have := mem_mput h; grind

theorem mget?_filter {p : Nat × α → Bool} {j : Nat} (hp : ∀ w, p (j, w) = true) : ∀ m : Map α, mget? (m.filter p) j = mget? m j
  | [] => rfl
  | (k', w) :: rest => by
    simp only [List.filter_cons]
    split
    · simp only [mget?, mget?_filter hp rest]
    · rename_i h
      have : k' ≠ j := fun e => h (e ▸ hp w)
      simp only [mget?, this, if_false, mget?_filter hp rest]

theorem mget?_filter_out {p : Nat × α → Bool} {j : Nat} (hp : ∀ w, p (j, w) = false) : ∀ m : Map α, mget? (m.filter p) j = none
  | [] => rfl
  | (k', w) :: rest => by
    simp only [List.filter_cons]
    split
    · rename_i h
      have : k' ≠ j := fun e => by rw [e, hp w] at h; exact absurd h (by decide)
      simp only [mget?, this, if_false, mget?_filter_out hp rest]
    · exact mget?_filter_out hp rest

@[simp] theorem mget?_mdel (m : Map α) (k : Nat) : mget? (mdel m k) k = none := mget?_filter_out (fun _ => by simp) m

theorem mget?_mdel_other {k j : Nat} (h : j ≠ k) (m : Map α) : mget? (mdel m k) j = mget? m j := mget?_filter (fun _ => by simpa using h) m

theorem mrising_mdel {k : Nat} {m : Map α} {b : Nat} (h : mrising b m = true) : mrising b (mdel m k) = true := mrising_filter _ h

theorem mem_mdel {k : Nat} {e : Nat × α} {m : Map α} (h : e ∈ mdel m k) : e ∈ m := (List.mem_filter.mp h).1

section
variable [DecidableEq α]

theorem mwf_rising {d : Nat → α} {m : Map α} (h : mwf d m = true) : mrising 0 m = true := by
  simp only [mwf, Bool.and_eq_true] at h; exact h.1

theorem mwf_iff {d : Nat → α} {m : Map α} : mwf d m = true ↔ mrising 0 m = true ∧ ∀ e ∈ m, e.2 ≠ d e.1 := by
  simp [mwf]

@[simp] theorem mget_mset (d : α) (m : Map α) (k : Nat) (v : α) : mget d (mset d m k v) k = v := by
  unfold mset mget
  split
  · rename_i e; simp [e]
  · simp

theorem mget_mset_other {d v : α} {m : Map α} {k j : Nat} (h : j ≠ k) (e : α) :
    mget e (mset d m k v) j = mget e m j := by
  unfold mset mget
  split
  · rw [mget?_mdel_other h]
  · rw [mget?_mput_other v h]

theorem mwf_mset {d : Nat → α} {m : Map α} (h : mwf d m = true) (k : Nat) (v : α) : mwf d (mset (d k) m k v) = true := by
  rw [mwf_iff] at h ⊢
  unfold mset
  split
  · exact ⟨mrising_mdel h.1, fun e he => h.2 e (mem_mdel he)⟩
  · rename_i hv
    refine ⟨mrising_mput v h.1 (Nat.zero_le _), fun e he => ?_⟩
    rcases mem_mput he with rfl | he
    · exact hv
    · exact h.2 e he

theorem mwf_filter {d : Nat → α} {m : Map α} (h : mwf d m = true) (p : Nat × α → Bool) : mwf d (m.filter p) = true := by
  rw [mwf_iff] at h ⊢
  exact ⟨mrising_filter p h.1, fun e he => h.2 e ((List.mem_filter.mp he).1)⟩

theorem mem_mset {d v : α} {m : Map α} {k : Nat} {e : Nat × α} (h : e ∈ mset d m k v) : e = (k, v) ∨ e ∈ m := by
  unfold mset at h
  split at h
  · exact .inr (mem_mdel h)
  · exact mem_mput h
end

/-! ### Sorted sets -/

theorem mem_sins {x y : Nat} : ∀ {l : List Nat}, y ∈ sins l x ↔ y = x ∨ y ∈ l
  | [] => by simp [sins]
  | z :: rest => by
    unfold sins
    split
    · subst_vars; simp
    · split
      · simp
      · simp only [List.mem_cons, mem_sins (l := rest)]; grind

@[simp] theorem mem_sdel {x y : Nat} {l : List Nat} : y ∈ sdel l x ↔ y ∈ l ∧ y ≠ x := by
  simp [sdel]

theorem pairwise_sins {x : Nat} : ∀ {l : List Nat}, l.Pairwise (· < ·) → (sins l x).Pairwise (· < ·)
  | [], _ => by simp [sins]
  | z :: rest, h => by
    rw [List.pairwise_cons] at h
    unfold sins
    split
    · exact List.pairwise_cons.mpr h
    · split
      · rename_i h1 h2
        refine List.pairwise_cons.mpr ⟨fun y hy => ?_, List.pairwise_cons.mpr h⟩
        rcases List.mem_cons.mp hy with rfl | hy
        · exact h2
        · exact Nat.lt_trans h2 (h.1 y hy)
      · refine List.pairwise_cons.mpr ⟨fun y hy => ?_, pairwise_sins h.2⟩
        rcases mem_sins.mp hy with rfl | hy
        · omega
        · exact h.1 y hy

theorem pairwise_sdel {x : Nat} {l : List Nat} (h : l.Pairwise (· < ·)) : (sdel l x).Pairwise (· < ·) := h.filter _

/-! ### Bytes written -/

theorem Memory.wf_memWrite : ∀ (bs : List Byte) {m : List Host.Cell} (a : Nat), Memory.wf m = true → Memory.wf (memWrite m a bs) = true
  | [], _, _, h => h
  | _ :: bs, _, a, h => Memory.wf_memWrite bs (a + 1) (mwf_mset (d := fun _ => 0#8) h a _)

theorem mget_memWrite_other : ∀ (bs : List Byte) {m : List Host.Cell} {a x : Nat}, (x < a ∨ a + bs.length ≤ x) →
    mget 0#8 (memWrite m a bs) x = mget 0#8 m x
  | [], _, _, _, _ => rfl
  | b :: bs, m, a, x, h => by
    simp only [List.length_cons] at h
    rw [memWrite, mget_memWrite_other bs (by omega), mget_mset_other (by omega)]

theorem mget_memWrite : ∀ (bs : List Byte) {m : List Host.Cell} {a : Nat} (i : Nat) (h : i < bs.length),
    mget 0#8 (memWrite m a bs) (a + i) = bs[i]
  | b :: bs, m, a, 0, _ => by
    rw [memWrite, mget_memWrite_other bs (by omega)]
    exact mget_mset 0#8 m a b
  | b :: bs, m, a, i + 1, h => by
    simp only [List.length_cons] at h
    have := mget_memWrite bs (m := mset 0#8 m a b) (a := a + 1) i (by omega)
    rw [memWrite, show a + (i + 1) = a + 1 + i by omega, this]
    rfl

theorem mem_memWrite : ∀ (bs : List Byte) {m : List Host.Cell} {a : Nat} {e : Host.Cell}, e ∈ memWrite m a bs →
    e ∈ m ∨ (a ≤ e.1 ∧ e.1 < a + bs.length)
  | [], _, _, _, h => .inl h
  | b :: bs, m, a, e, h => by
    rcases mem_memWrite bs h with h | h
    · rcases mem_mset h with rfl | h
      · right; simp
      · exact .inl h
    · right; simp only [List.length_cons]; omega

end Sys2Proof.Machine
end

