-- ==== Sys2Proof/Laws/State.lean ====
section
/-!
SUPPORT. What each primitive update leaves in each field of the state, and how effects run.
-/
namespace Sys2Proof.Machine

section
variable (s : State)

@[simp] theorem Act.raiseNow_now (t : Nat) : (Act.run s (.raiseNow t)).now = max s.now (t % 2 ^ 64) := rfl
@[simp] theorem Act.raiseNow_regs (t : Nat) : (Act.run s (.raiseNow t)).regs = s.regs := rfl
@[simp] theorem Act.raiseNow_gates (t : Nat) : (Act.run s (.raiseNow t)).gates = s.gates := rfl
@[simp] theorem Act.raiseNow_mem (t : Nat) : (Act.run s (.raiseNow t)).mem = s.mem := rfl
@[simp] theorem Act.raiseNow_poison (t : Nat) : (Act.run s (.raiseNow t)).poison = s.poison := rfl
@[simp] theorem Act.raiseNow_dev (t : Nat) : (Act.run s (.raiseNow t)).dev = s.dev := rfl
@[simp] theorem Act.raiseNow_out (t : Nat) : (Act.run s (.raiseNow t)).out = s.out := rfl
@[simp] theorem Act.raiseNow_freeCount (t : Nat) : (Act.run s (.raiseNow t)).freeCount = s.freeCount := rfl
@[simp] theorem Act.raiseNow_pending (t : Nat) : (Act.run s (.raiseNow t)).pending = s.pending := rfl

@[simp] theorem Act.setReg_now (off : Nat) (v : Word64) : (Act.run s (.setReg off v)).now = s.now := rfl
@[simp] theorem Act.setReg_regs (off : Nat) (v : Word64) : (Act.run s (.setReg off v)).regs = mset (regReset off) s.regs off v := rfl
@[simp] theorem Act.setReg_gates (off : Nat) (v : Word64) : (Act.run s (.setReg off v)).gates = s.gates := rfl
@[simp] theorem Act.setReg_mem (off : Nat) (v : Word64) : (Act.run s (.setReg off v)).mem = s.mem := rfl
@[simp] theorem Act.setReg_poison (off : Nat) (v : Word64) : (Act.run s (.setReg off v)).poison = s.poison := rfl
@[simp] theorem Act.setReg_dev (off : Nat) (v : Word64) : (Act.run s (.setReg off v)).dev = s.dev := rfl
@[simp] theorem Act.setReg_out (off : Nat) (v : Word64) : (Act.run s (.setReg off v)).out = s.out := rfl
@[simp] theorem Act.setReg_freeCount (off : Nat) (v : Word64) : (Act.run s (.setReg off v)).freeCount = s.freeCount := rfl
@[simp] theorem Act.setReg_pending (off : Nat) (v : Word64) : (Act.run s (.setReg off v)).pending = s.pending := rfl

@[simp] theorem Act.raiseGate_now (b g v : Nat) : (Act.run s (.raiseGate b g v)).now = s.now := rfl
@[simp] theorem Act.raiseGate_regs (b g v : Nat) : (Act.run s (.raiseGate b g v)).regs = s.regs := rfl
@[simp] theorem Act.raiseGate_gates (b g v : Nat) : (Act.run s (.raiseGate b g v)).gates = mset 0 s.gates (256 * b + g) (max (s.gate b g) (min v (2 ^ 64 - 1))) := rfl
@[simp] theorem Act.raiseGate_mem (b g v : Nat) : (Act.run s (.raiseGate b g v)).mem = s.mem := rfl
@[simp] theorem Act.raiseGate_poison (b g v : Nat) : (Act.run s (.raiseGate b g v)).poison = s.poison := rfl
@[simp] theorem Act.raiseGate_dev (b g v : Nat) : (Act.run s (.raiseGate b g v)).dev = s.dev := rfl
@[simp] theorem Act.raiseGate_out (b g v : Nat) : (Act.run s (.raiseGate b g v)).out = s.out := rfl
@[simp] theorem Act.raiseGate_freeCount (b g v : Nat) : (Act.run s (.raiseGate b g v)).freeCount = s.freeCount := rfl
@[simp] theorem Act.raiseGate_pending (b g v : Nat) : (Act.run s (.raiseGate b g v)).pending = s.pending := rfl

@[simp] theorem Act.store_now (a : Nat) (bs : List Byte) : (Act.run s (.store a bs)).now = s.now := rfl
@[simp] theorem Act.store_regs (a : Nat) (bs : List Byte) : (Act.run s (.store a bs)).regs = s.regs := rfl
@[simp] theorem Act.store_gates (a : Nat) (bs : List Byte) : (Act.run s (.store a bs)).gates = s.gates := rfl
@[simp] theorem Act.store_mem (a : Nat) (bs : List Byte) : (Act.run s (.store a bs)).mem = memWrite s.mem a (bs.take (hbmSize - a)) := rfl
@[simp] theorem Act.store_poison (a : Nat) (bs : List Byte) : (Act.run s (.store a bs)).poison = s.poison := rfl
@[simp] theorem Act.store_dev (a : Nat) (bs : List Byte) : (Act.run s (.store a bs)).dev = s.dev := rfl
@[simp] theorem Act.store_out (a : Nat) (bs : List Byte) : (Act.run s (.store a bs)).out = s.out := rfl
@[simp] theorem Act.store_freeCount (a : Nat) (bs : List Byte) : (Act.run s (.store a bs)).freeCount = s.freeCount := rfl
@[simp] theorem Act.store_pending (a : Nat) (bs : List Byte) : (Act.run s (.store a bs)).pending = s.pending := rfl

@[simp] theorem Act.poison_now (sec : Nat) (on : Bool) : (Act.run s (.poison sec on)).now = s.now := rfl
@[simp] theorem Act.poison_regs (sec : Nat) (on : Bool) : (Act.run s (.poison sec on)).regs = s.regs := rfl
@[simp] theorem Act.poison_gates (sec : Nat) (on : Bool) : (Act.run s (.poison sec on)).gates = s.gates := rfl
@[simp] theorem Act.poison_mem (sec : Nat) (on : Bool) : (Act.run s (.poison sec on)).mem = s.mem := rfl
@[simp] theorem Act.poison_poison (sec : Nat) (on : Bool) : (Act.run s (.poison sec on)).poison = if on then sins s.poison sec else sdel s.poison sec := rfl
@[simp] theorem Act.poison_dev (sec : Nat) (on : Bool) : (Act.run s (.poison sec on)).dev = s.dev := rfl
@[simp] theorem Act.poison_out (sec : Nat) (on : Bool) : (Act.run s (.poison sec on)).out = s.out := rfl
@[simp] theorem Act.poison_freeCount (sec : Nat) (on : Bool) : (Act.run s (.poison sec on)).freeCount = s.freeCount := rfl
@[simp] theorem Act.poison_pending (sec : Nat) (on : Bool) : (Act.run s (.poison sec on)).pending = s.pending := rfl

@[simp] theorem Act.dev_now (f : Dev → Dev) : (Act.run s (.dev f)).now = s.now := rfl
@[simp] theorem Act.dev_regs (f : Dev → Dev) : (Act.run s (.dev f)).regs = s.regs := rfl
@[simp] theorem Act.dev_gates (f : Dev → Dev) : (Act.run s (.dev f)).gates = s.gates := rfl
@[simp] theorem Act.dev_mem (f : Dev → Dev) : (Act.run s (.dev f)).mem = s.mem := rfl
@[simp] theorem Act.dev_poison (f : Dev → Dev) : (Act.run s (.dev f)).poison = s.poison := rfl
@[simp] theorem Act.dev_dev (f : Dev → Dev) : (Act.run s (.dev f)).dev = f s.dev := rfl
@[simp] theorem Act.dev_out (f : Dev → Dev) : (Act.run s (.dev f)).out = s.out := rfl
@[simp] theorem Act.dev_freeCount (f : Dev → Dev) : (Act.run s (.dev f)).freeCount = s.freeCount := rfl
@[simp] theorem Act.dev_pending (f : Dev → Dev) : (Act.run s (.dev f)).pending = s.pending := rfl

@[simp] theorem Act.emit_now (o : Output) : (Act.run s (.emit o)).now = s.now := rfl
@[simp] theorem Act.emit_regs (o : Output) : (Act.run s (.emit o)).regs = s.regs := rfl
@[simp] theorem Act.emit_gates (o : Output) : (Act.run s (.emit o)).gates = s.gates := rfl
@[simp] theorem Act.emit_mem (o : Output) : (Act.run s (.emit o)).mem = s.mem := rfl
@[simp] theorem Act.emit_poison (o : Output) : (Act.run s (.emit o)).poison = s.poison := rfl
@[simp] theorem Act.emit_dev (o : Output) : (Act.run s (.emit o)).dev = s.dev := rfl
@[simp] theorem Act.emit_out (o : Output) : (Act.run s (.emit o)).out = o :: s.out := rfl
@[simp] theorem Act.emit_freeCount (o : Output) : (Act.run s (.emit o)).freeCount = s.freeCount := rfl
@[simp] theorem Act.emit_pending (o : Output) : (Act.run s (.emit o)).pending = s.pending := rfl

@[simp] theorem Act.free_now : (Act.run s .free).now = s.now := rfl
@[simp] theorem Act.free_regs : (Act.run s .free).regs = s.regs := rfl
@[simp] theorem Act.free_gates : (Act.run s .free).gates = s.gates := rfl
@[simp] theorem Act.free_mem : (Act.run s .free).mem = s.mem := rfl
@[simp] theorem Act.free_poison : (Act.run s .free).poison = s.poison := rfl
@[simp] theorem Act.free_dev : (Act.run s .free).dev = s.dev := rfl
@[simp] theorem Act.free_out : (Act.run s .free).out = s.out := rfl
@[simp] theorem Act.free_freeCount : (Act.run s .free).freeCount = s.freeCount + 1 := rfl
@[simp] theorem Act.free_pending : (Act.run s .free).pending = s.pending := rfl

@[simp] theorem Act.resetRegs_now (hit : Nat → Bool) : (Act.run s (.resetRegs hit)).now = s.now := rfl
@[simp] theorem Act.resetRegs_regs (hit : Nat → Bool) : (Act.run s (.resetRegs hit)).regs = s.regs.filter fun e => !hit e.1 := rfl
@[simp] theorem Act.resetRegs_gates (hit : Nat → Bool) : (Act.run s (.resetRegs hit)).gates = s.gates := rfl
@[simp] theorem Act.resetRegs_mem (hit : Nat → Bool) : (Act.run s (.resetRegs hit)).mem = s.mem := rfl
@[simp] theorem Act.resetRegs_poison (hit : Nat → Bool) : (Act.run s (.resetRegs hit)).poison = s.poison := rfl
@[simp] theorem Act.resetRegs_dev (hit : Nat → Bool) : (Act.run s (.resetRegs hit)).dev = s.dev := rfl
@[simp] theorem Act.resetRegs_out (hit : Nat → Bool) : (Act.run s (.resetRegs hit)).out = s.out := rfl
@[simp] theorem Act.resetRegs_freeCount (hit : Nat → Bool) : (Act.run s (.resetRegs hit)).freeCount = s.freeCount := rfl
@[simp] theorem Act.resetRegs_pending (hit : Nat → Bool) : (Act.run s (.resetRegs hit)).pending = s.pending := rfl

@[simp] theorem Act.zeroHbm_now : (Act.run s .zeroHbm).now = s.now := rfl
@[simp] theorem Act.zeroHbm_regs : (Act.run s .zeroHbm).regs = s.regs := rfl
@[simp] theorem Act.zeroHbm_gates : (Act.run s .zeroHbm).gates = s.gates := rfl
@[simp] theorem Act.zeroHbm_mem : (Act.run s .zeroHbm).mem = [] := rfl
@[simp] theorem Act.zeroHbm_poison : (Act.run s .zeroHbm).poison = [] := rfl
@[simp] theorem Act.zeroHbm_dev : (Act.run s .zeroHbm).dev = s.dev := rfl
@[simp] theorem Act.zeroHbm_out : (Act.run s .zeroHbm).out = s.out := rfl
@[simp] theorem Act.zeroHbm_freeCount : (Act.run s .zeroHbm).freeCount = s.freeCount := rfl
@[simp] theorem Act.zeroHbm_pending : (Act.run s .zeroHbm).pending = s.pending := rfl

@[simp] theorem Act.zeroRange_now (a n : Nat) : (Act.run s (.zeroRange a n)).now = s.now := rfl
@[simp] theorem Act.zeroRange_regs (a n : Nat) : (Act.run s (.zeroRange a n)).regs = s.regs := rfl
@[simp] theorem Act.zeroRange_gates (a n : Nat) : (Act.run s (.zeroRange a n)).gates = s.gates := rfl
@[simp] theorem Act.zeroRange_mem (a n : Nat) : (Act.run s (.zeroRange a n)).mem = s.mem.filter fun e => !(decide (a ≤ e.1) && decide (e.1 < a + n)) := rfl
@[simp] theorem Act.zeroRange_poison (a n : Nat) : (Act.run s (.zeroRange a n)).poison = s.poison.filter fun p => !(decide (a ≤ p) && decide (p < a + n)) := rfl
@[simp] theorem Act.zeroRange_dev (a n : Nat) : (Act.run s (.zeroRange a n)).dev = s.dev := rfl
@[simp] theorem Act.zeroRange_out (a n : Nat) : (Act.run s (.zeroRange a n)).out = s.out := rfl
@[simp] theorem Act.zeroRange_freeCount (a n : Nat) : (Act.run s (.zeroRange a n)).freeCount = s.freeCount := rfl
@[simp] theorem Act.zeroRange_pending (a n : Nat) : (Act.run s (.zeroRange a n)).pending = s.pending := rfl

end

end Sys2Proof.Machine
end

