-- ==== Sys2Proof/Laws/Effects.lean ====
section
/-!
SUPPORT. Effects: how they run, what kinds of update they may hold, and what every one of them keeps.
-/
namespace Sys2Proof.Machine

/-! ### Running -/

@[simp] theorem Eff.run_skip (s : State) : Eff.skip.run s = s := rfl
@[simp] theorem Eff.run_act (a : Act) (s : State) : (Eff.act a).run s = a.run s := rfl
@[simp] theorem Eff.run_andThen (e f : Eff) (s : State) : (Eff.andThen e f).run s = f.run (e.run s) := rfl
@[simp] theorem Eff.run_read (k : State → Eff) (s : State) : (Eff.read k).run s = (k s).run s := rfl
@[simp] theorem Eff.run_all_nil (s : State) : (Eff.all []).run s = s := rfl
@[simp] theorem Eff.run_all_cons (e : Eff) (es : List Eff) (s : State) : (Eff.all (e :: es)).run s = (Eff.all es).run (e.run s) := by
  cases es <;> rfl
@[simp] theorem Eff.run_when (c : Bool) (e : Eff) (s : State) : (Eff.when c e).run s = if c then e.run s else s := by
  cases c <;> rfl
@[simp] theorem Eff.run_each_nil {α : Type} (f : α → Eff) (s : State) : (Eff.each [] f).run s = s := rfl
@[simp] theorem Eff.run_each_cons {α : Type} (x : α) (xs : List α) (f : α → Eff) (s : State) :
    (Eff.each (x :: xs) f).run s = (Eff.each xs f).run ((f x).run s) := by
  simp [Eff.each]
theorem Eff.run_ite (c : Prop) [Decidable c] (e f : Eff) (s : State) :
    (if c then e else f).run s = if c then e.run s else f.run s := by split <;> rfl
theorem Eff.done_eq (e : Eff) (s : State) : e.done s = .next (e.run s) := rfl

@[simp] theorem setReg_run (off : Nat) (v : Word64) (s : State) : (setReg off v).run s = Act.run s (.setReg off v) := rfl
@[simp] theorem putReg_run (off v : Nat) (s : State) : (putReg off v).run s = Act.run s (.setReg off (w64 v)) := rfl
@[simp] theorem putFld_run (off lo w x : Nat) (s : State) :
    (putFld off lo w x).run s = Act.run s (.setReg off (setFld (s.reg off) lo w x)) := rfl
@[simp] theorem putBit_run (off i : Nat) (b : Bool) (s : State) :
    (putBit off i b).run s = Act.run s (.setReg off (setFld (s.reg off) i 1 (b2n b))) := rfl
@[simp] theorem bumpReg_run (off w n : Nat) (s : State) :
    (bumpReg off w n).run s = Act.run s (.setReg off (w64 (satAdd w (s.reg off).toNat n))) := rfl
@[simp] theorem bumpFld_run (off lo w n : Nat) (s : State) :
    (bumpFld off lo w n).run s = Act.run s (.setReg off (setFld (s.reg off) lo w (satAdd w (s.fld off lo w) n))) := rfl
@[simp] theorem onDev_run (f : Dev → Dev) (s : State) : (onDev f).run s = Act.run s (.dev f) := rfl
@[simp] theorem emit_run (o : Output) (s : State) : (emit o).run s = Act.run s (.emit o) := rfl

/-! ### What an effect may hold -/

/-- Every update that an effect can make satisfies a condition. -/
def Eff.Only (r : Act → Prop) : Eff → Prop
  | .skip => True
  | .act a => r a
  | .andThen e f => e.Only r ∧ f.Only r
  | .read k => ∀ s, (k s).Only r

/-- What every permitted update keeps, the effect keeps. -/
theorem Eff.Only.keeps {r : Act → Prop} {I : State → Prop} (h : ∀ a s, r a → I s → I (a.run s)) :
    ∀ {e : Eff}, e.Only r → ∀ {s : State}, I s → I (e.run s)
  | .skip, _, _, hi => hi
  | .act a, ho, s, hi => h a s ho hi
  | .andThen _ _, ho, _, hi => Eff.Only.keeps h ho.2 (Eff.Only.keeps h ho.1 hi)
  | .read _, ho, s, hi => Eff.Only.keeps h (ho s) hi

theorem Eff.Only.mono {r q : Act → Prop} (h : ∀ a, r a → q a) : ∀ {e : Eff}, e.Only r → e.Only q
  | .skip, _ => trivial
  | .act a, ho => h a ho
  | .andThen _ _, ho => ⟨ho.1.mono h, ho.2.mono h⟩
  | .read _, ho => fun s => (ho s).mono h

theorem Eff.only_true : ∀ e : Eff, e.Only (fun _ => True)
  | .skip => trivial
  | .act _ => trivial
  | .andThen e f => ⟨e.only_true, f.only_true⟩
  | .read k => fun s => (k s).only_true

section
variable {r : Act → Prop}

@[simp] theorem Eff.only_skip : Eff.skip.Only r := trivial
@[simp] theorem Eff.only_act {a : Act} : (Eff.act a).Only r ↔ r a := Iff.rfl
@[simp] theorem Eff.only_andThen {e f : Eff} : (Eff.andThen e f).Only r ↔ e.Only r ∧ f.Only r := Iff.rfl
@[simp] theorem Eff.only_read {k : State → Eff} : (Eff.read k).Only r ↔ ∀ s, (k s).Only r := Iff.rfl
@[simp] theorem Eff.only_all : ∀ {es : List Eff}, (Eff.all es).Only r ↔ ∀ e ∈ es, e.Only r
  | [] => by simp [Eff.all]
  | [e] => by simp [Eff.all]
  | e :: f :: es => by simp [Eff.all, Eff.only_all (es := f :: es)]
@[simp] theorem Eff.only_when {c : Bool} {e : Eff} : (Eff.when c e).Only r ↔ (c = true → e.Only r) := by
  cases c <;> simp [Eff.when]
@[simp] theorem Eff.only_each {α : Type} {xs : List α} {f : α → Eff} : (Eff.each xs f).Only r ↔ ∀ x ∈ xs, (f x).Only r := by
  simp [Eff.each]
@[simp] theorem Eff.only_ite {c : Prop} [Decidable c] {e f : Eff} :
    (if c then e else f).Only r ↔ (c → e.Only r) ∧ (¬c → f.Only r) := by split <;> simp_all
@[simp] theorem setReg_only {off : Nat} {v : Word64} : (setReg off v).Only r ↔ r (.setReg off v) := Iff.rfl
@[simp] theorem putReg_only {off v : Nat} : (putReg off v).Only r ↔ r (.setReg off (w64 v)) := Iff.rfl
@[simp] theorem putFld_only {off lo w x : Nat} : (putFld off lo w x).Only r ↔ ∀ s : State, r (.setReg off (setFld (s.reg off) lo w x)) := Iff.rfl
@[simp] theorem putBit_only {off i : Nat} {b : Bool} :
    (putBit off i b).Only r ↔ ∀ s : State, r (.setReg off (setFld (s.reg off) i 1 (b2n b))) := Iff.rfl
@[simp] theorem bumpReg_only {off w n : Nat} :
    (bumpReg off w n).Only r ↔ ∀ s : State, r (.setReg off (w64 (satAdd w (s.reg off).toNat n))) := Iff.rfl
@[simp] theorem bumpFld_only {off lo w n : Nat} :
    (bumpFld off lo w n).Only r ↔ ∀ s u : State, r (.setReg off (setFld (u.reg off) lo w (satAdd w (s.fld off lo w) n))) := Iff.rfl
@[simp] theorem onDev_only {f : Dev → Dev} : (onDev f).Only r ↔ r (.dev f) := Iff.rfl
@[simp] theorem emit_only {o : Output} : (emit o).Only r ↔ r (.emit o) := Iff.rfl
@[simp] theorem withFree_only {k : Nat → Eff} : (withFree k).Only r ↔ ∀ s : State, r .free ∧ (k (Config.freeValue s.freeCount)).Only r := Iff.rfl
end

/-! ### What every update keeps -/

theorem State.sound_iff {s : State} : s.sound = true ↔
    mwf regReset s.regs = true ∧ mwf (fun _ => 0) s.gates = true ∧ Memory.wf s.mem = true ∧ s.poison.Pairwise (· < ·) ∧
    (∀ e ∈ s.mem, e.1 < hbmSize) ∧ (∀ e ∈ s.gates, e.2 < 2 ^ 64) ∧ s.now < 2 ^ 64 := by
  simp only [State.sound, Bool.and_eq_true, decide_eq_true_eq, List.all_eq_true, and_assoc]

theorem mget_of_forall {p : Nat → Prop} {d : Nat} (hd : p d) : ∀ {m : Map Nat} {k : Nat}, (∀ e ∈ m, p e.2) → p (mget d m k)
  | [], _, _ => hd
  | (k', v) :: rest, k, h => by
    unfold mget mget?
    split
    · exact h _ (List.mem_cons_self ..)
    · exact mget_of_forall hd (m := rest) fun e he => h e (List.mem_cons_of_mem _ he)

theorem State.gate_lt {s : State} (h : s.sound = true) (b g : Nat) : s.gate b g < 2 ^ 64 :=
  mget_of_forall (p := (· < 2 ^ 64)) (by decide) (State.sound_iff.mp h).2.2.2.2.2.1

/-- Every primitive update keeps the data forms. -/
theorem Act.run_sound (a : Act) {s : State} (h : s.sound = true) : (a.run s).sound = true := by
  have hg := s.gate_lt h
  rw [State.sound_iff] at h ⊢
  obtain ⟨hr, hgt, hm, hp, hb, hv, hn⟩ := h
  cases a with
  | raiseNow t => exact ⟨hr, hgt, hm, hp, hb, hv, by simp only [raiseNow_now]; omega⟩
  | setReg off v => exact ⟨mwf_mset hr off v, hgt, hm, hp, hb, hv, hn⟩
  | raiseGate b g v =>
    refine ⟨hr, mwf_mset (d := fun _ => 0) hgt _ _, hm, hp, hb, fun e he => ?_, hn⟩
    rcases mem_mset he with rfl | he
    · have := hg b g; simp only; omega
    · exact hv e he
  | store a bs =>
    refine ⟨hr, hgt, Memory.wf_memWrite _ _ hm, hp, fun e he => ?_, hv, hn⟩
    rcases mem_memWrite _ he with he | he
    · exact hb e he
    · have := he.2; rw [List.length_take] at this; omega
  | poison sec on =>
    refine ⟨hr, hgt, hm, ?_, hb, hv, hn⟩
    cases on
    · exact pairwise_sdel hp
    · exact pairwise_sins hp
  | dev f => exact ⟨hr, hgt, hm, hp, hb, hv, hn⟩
  | emit o => exact ⟨hr, hgt, hm, hp, hb, hv, hn⟩
  | free => exact ⟨hr, hgt, hm, hp, hb, hv, hn⟩
  | resetRegs hit => exact ⟨mwf_filter hr _, hgt, hm, hp, hb, hv, hn⟩
  | zeroHbm => exact ⟨hr, hgt, rfl, List.Pairwise.nil, by simp, hv, hn⟩
  | zeroRange a n =>
    exact ⟨hr, hgt, mwf_filter (d := fun _ => 0#8) hm _, hp.filter _, fun e he => hb e (List.mem_filter.mp he).1, hv, hn⟩

/-- Every effect keeps the data forms. -/
theorem Eff.run_sound (e : Eff) {s : State} (h : s.sound = true) : (e.run s).sound = true :=
  e.only_true.keeps (I := fun s => s.sound = true) (fun a _ _ => a.run_sound) h

theorem Act.run_gate_le (a : Act) (s : State) (b g : Nat) : s.gate b g ≤ (a.run s).gate b g := by
  cases a with
  | raiseGate b' g' v =>
    unfold State.gate
    simp only [raiseGate_gates]
    by_cases e : 256 * b + g = 256 * b' + g'
    · rw [e]
      unfold mset
      split
      · rename_i h0
        have : s.gate b' g' = 0 := by omega
        unfold State.gate at this; omega
      · simp only [mget, mget?_mput, Option.getD_some]
        show s.gate b' g' ≤ _
        omega
    · exact Nat.le_of_eq (by rw [mget_mset_other e])
  | _ => exact Nat.le_refl _

/-- No effect lowers a gate counter (R113). -/
theorem Eff.run_gate_le (e : Eff) (s : State) (b g : Nat) : s.gate b g ≤ (e.run s).gate b g :=
  e.only_true.keeps (I := fun t => s.gate b g ≤ t.gate b g) (fun a t _ h => Nat.le_trans h (a.run_gate_le t b g)) (Nat.le_refl _)

/-- No effect lowers the timebase (R427). -/
theorem Eff.run_now_le (e : Eff) (s : State) : s.now ≤ (e.run s).now :=
  e.only_true.keeps (I := fun t => s.now ≤ t.now)
    (fun a t _ h => by cases a <;> first | exact h | exact Nat.le_trans h (Nat.le_max_left ..)) (Nat.le_refl _)

/-- No effect touches the commands that wait. -/
theorem Eff.run_pending (e : Eff) (s : State) : (e.run s).pending = s.pending :=
  e.only_true.keeps (I := fun t => t.pending = s.pending) (fun a t _ h => by cases a <;> exact h) rfl

/-- What has been sent out stays sent out. -/
theorem Eff.run_out (e : Eff) (s : State) : s.out <:+ (e.run s).out :=
  e.only_true.keeps (I := fun t => s.out <:+ t.out)
    (fun a t _ h => by cases a <;> first | exact h | exact h.trans (List.suffix_cons ..)) (List.suffix_refl _)

/-! ### Registers after an update -/

@[simp] theorem State.reg_setReg (s : State) (off : Nat) (v : Word64) : (Act.run s (.setReg off v)).reg off = v := mget_mset _ _ _ _

theorem State.reg_setReg_other {s : State} {off j : Nat} (h : j ≠ off) (v : Word64) :
    (Act.run s (.setReg off v)).reg j = s.reg j := mget_mset_other h _

/-- An update that sets registers of a set alone. -/
def Act.Within (r : Nat → Bool) : Act → Prop
  | .setReg off _ => r off = true
  | .resetRegs hit => ∀ off, hit off = true → r off = true
  | _ => True

theorem Act.reg_within {r : Nat → Bool} {a : Act} (h : a.Within r) (s : State) {off : Nat} (ho : r off = false) :
    (a.run s).reg off = s.reg off := by
  cases a with
  | setReg o v => exact State.reg_setReg_other (fun e => by subst e; simp [Act.Within] at h; simp [h] at ho) v
  | resetRegs hit =>
    unfold State.reg mget
    rw [resetRegs_regs, mget?_filter]
    intro w
    cases hh : hit off with
    | false => rfl
    | true => rw [h off hh] at ho; cases ho
  | _ => rfl

/-- An effect within a set of registers leaves the others. -/
theorem Eff.Only.regsBut {r : Nat → Bool} {e : Eff} (h : e.Only (Act.Within r)) (s : State) : RegsBut r s (e.run s) :=
  fun off ho => h.keeps (I := fun t => t.reg off = s.reg off) (fun _ t ha ht => (Act.reg_within ha t ho).trans ht) rfl

/-- An update that leaves HBM alone. -/
def Act.NoHbm : Act → Prop
  | .store .. | .poison .. | .zeroHbm | .zeroRange .. => False
  | _ => True

theorem Eff.Only.sameMem {e : Eff} (h : e.Only Act.NoHbm) (s : State) : (e.run s).mem = s.mem ∧ (e.run s).poison = s.poison :=
  h.keeps (I := fun t => t.mem = s.mem ∧ t.poison = s.poison) (fun a t ha ht => by cases a <;> first | exact ht | exact ha.elim) ⟨rfl, rfl⟩

theorem Eff.Only.sameHbm {e : Eff} (h : e.Only Act.NoHbm) (s : State) : SameHbm s (e.run s) :=
  ⟨fun _ => congrArg (mget 0#8 · _) (h.sameMem s).1, (h.sameMem s).2⟩

/-- An update that leaves the gates and the timebase alone. -/
def Act.NoGate : Act → Prop
  | .raiseGate .. | .raiseNow .. => False
  | _ => True

theorem Eff.Only.sameGates {e : Eff} (h : e.Only Act.NoGate) (s : State) : SameGates s (e.run s) := by
  have : (e.run s).gates = s.gates ∧ (e.run s).now = s.now :=
    h.keeps (I := fun t => t.gates = s.gates ∧ t.now = s.now) (fun a t ha ht => by cases a <;> first | exact ht | exact ha.elim) ⟨rfl, rfl⟩
  exact ⟨fun _ _ => congrArg (mget 0 · _) this.1, this.2, e.run_pending s⟩

/-- An update of registers of a set and of the engines alone: no HBM byte, no gate, no timebase. -/
def Act.Local (r : Nat → Bool) (a : Act) : Prop := a.Within r ∧ a.NoHbm ∧ a.NoGate

theorem Eff.Only.frame {r : Nat → Bool} {e : Eff} (h : e.Only (Act.Local r)) (s : State) : Frame r s (e.run s) :=
  ⟨(h.mono fun _ x => x.2.1).sameHbm s, (h.mono fun _ x => x.2.2).sameGates s, (h.mono fun _ x => x.1).regsBut s⟩

@[simp] theorem Act.local_setReg {r : Nat → Bool} {off : Nat} {v : Word64} : Act.Local r (.setReg off v) ↔ r off = true := by
  simp [Act.Local, Act.Within, Act.NoHbm, Act.NoGate]
@[simp] theorem Act.local_dev {r : Nat → Bool} {f : Dev → Dev} : Act.Local r (.dev f) := ⟨trivial, trivial, trivial⟩
@[simp] theorem Act.local_emit {r : Nat → Bool} {o : Output} : Act.Local r (.emit o) := ⟨trivial, trivial, trivial⟩
@[simp] theorem Act.local_free {r : Nat → Bool} : Act.Local r .free := ⟨trivial, trivial, trivial⟩

end Sys2Proof.Machine
end

