-- ==== Sys2Proof/Laws/Word.lean ====
section
/-!
SUPPORT. Fields of numbers and registers: what a field reads after a field has been set.
-/
namespace Sys2Proof.Machine

theorem testBit_bitsOf (n lo w i : Nat) : (bitsOf n lo w).testBit i = (decide (i < w) && n.testBit (lo + i)) := by
  simp [bitsOf, Nat.testBit_mod_two_pow, Nat.testBit_shiftRight]

theorem bitOf_eq_testBit (n i : Nat) : bitOf n i = n.testBit i := by
  simp only [bitOf, Nat.testBit, Nat.one_and_eq_mod_two]
  rcases Nat.mod_two_eq_zero_or_one (n >>> i) with h | h <;> simp [h]

theorem bitsOf_lt (n lo w : Nat) : bitsOf n lo w < 2 ^ w := Nat.mod_lt _ (Nat.two_pow_pos w)

/-- A number as its bits below, inside and above a field. -/
theorem split_field (n lo w : Nat) : n = n / 2 ^ (lo + w) * 2 ^ (lo + w) + (bitsOf n lo w * 2 ^ lo + n % 2 ^ lo) := by
  have h1 : n = n / 2 ^ lo * 2 ^ lo + n % 2 ^ lo := (Nat.div_add_mod' n (2 ^ lo)).symm
  have h2 : n / 2 ^ lo = n / 2 ^ lo / 2 ^ w * 2 ^ w + n / 2 ^ lo % 2 ^ w := (Nat.div_add_mod' _ _).symm
  have h3 : n / 2 ^ lo / 2 ^ w = n / 2 ^ (lo + w) := by rw [Nat.div_div_eq_div_mul, ← Nat.pow_add]
  have h4 : bitsOf n lo w = n / 2 ^ lo % 2 ^ w := by simp [bitsOf, Nat.shiftRight_eq_div_pow]
  rw [h4]
  rw [h3] at h2
  have h5 : n / 2 ^ lo * 2 ^ lo = n / 2 ^ (lo + w) * 2 ^ (lo + w) + n / 2 ^ lo % 2 ^ w * 2 ^ lo := by
    conv => lhs; rw [h2]
    rw [Nat.add_mul, Nat.mul_assoc, ← Nat.pow_add, Nat.add_comm w lo]
  omega

theorem set_field_toNat (n lo w x : Nat) :
    n - bitsOf n lo w * 2 ^ lo + x % 2 ^ w * 2 ^ lo = n / 2 ^ (lo + w) * 2 ^ (lo + w) + (x % 2 ^ w * 2 ^ lo + n % 2 ^ lo) := by
  have := split_field n lo w
  omega

theorem testBit_set_field (n lo w x i : Nat) :
    (n - bitsOf n lo w * 2 ^ lo + x % 2 ^ w * 2 ^ lo).testBit i =
      if lo ≤ i ∧ i < lo + w then x.testBit (i - lo) else n.testBit i := by
  have hl : n % 2 ^ lo < 2 ^ lo := Nat.mod_lt _ (Nat.two_pow_pos lo)
  have hx : x % 2 ^ w < 2 ^ w := Nat.mod_lt _ (Nat.two_pow_pos w)
  have hb : x % 2 ^ w * 2 ^ lo + n % 2 ^ lo < 2 ^ (lo + w) := by
    rw [Nat.pow_add]
    calc x % 2 ^ w * 2 ^ lo + n % 2 ^ lo < x % 2 ^ w * 2 ^ lo + 2 ^ lo := by omega
      _ = (x % 2 ^ w + 1) * 2 ^ lo := by rw [Nat.add_mul, Nat.one_mul]
      _ ≤ 2 ^ w * 2 ^ lo := Nat.mul_le_mul_right _ hx
      _ = 2 ^ lo * 2 ^ w := Nat.mul_comm ..
  rw [set_field_toNat, Nat.mul_comm (n / 2 ^ (lo + w)), Nat.testBit_two_pow_mul_add _ hb, Nat.mul_comm (x % 2 ^ w),
    Nat.testBit_two_pow_mul_add _ hl]
  by_cases h1 : i < lo
  · rw [if_pos (by omega), if_pos h1, if_neg (by omega), Nat.testBit_mod_two_pow]; simp [h1]
  · by_cases h2 : i < lo + w
    · rw [if_pos h2, if_neg h1, if_pos ⟨by omega, h2⟩, Nat.testBit_mod_two_pow]
      have : i - lo < w := by omega
      simp [this]
    · rw [if_neg h2, if_neg (by omega), Nat.testBit_div_two_pow]
      congr 1; omega

theorem toNat_setFld (v : Word64) (lo w x : Nat) (h : lo + w ≤ 64) :
    (setFld v lo w x).toNat = v.toNat - bitsOf v.toNat lo w * 2 ^ lo + x % 2 ^ w * 2 ^ lo := by
  unfold setFld
  simp only [BitVec.toNat_ofNat]
  apply Nat.mod_eq_of_lt
  apply Nat.lt_pow_two_of_testBit
  intro i hi
  rw [testBit_set_field, if_neg (by omega)]
  exact Nat.testBit_lt_two_pow (Nat.lt_of_lt_of_le v.isLt (Nat.pow_le_pow_right (by decide) hi))

theorem testBit_setFld (v : Word64) (lo w x i : Nat) (h : lo + w ≤ 64) :
    (setFld v lo w x).toNat.testBit i = if lo ≤ i ∧ i < lo + w then x.testBit (i - lo) else v.toNat.testBit i := by
  rw [toNat_setFld v lo w x h, testBit_set_field]

/-- A field reads what it has been set to. -/
theorem bitsOf_setFld (v : Word64) (lo w x : Nat) (h : lo + w ≤ 64) : bitsOf (setFld v lo w x).toNat lo w = x % 2 ^ w := by
  apply Nat.eq_of_testBit_eq
  intro i
  rw [testBit_bitsOf, testBit_setFld v lo w x _ h, Nat.testBit_mod_two_pow]
  by_cases hi : i < w
  · simp [hi]
  · simp [hi]

/-- A field that shares no bit with the one set is as before. -/
theorem bitsOf_setFld_other (v : Word64) (lo w x l k : Nat) (h : lo + w ≤ 64) (hd : l + k ≤ lo ∨ lo + w ≤ l) :
    bitsOf (setFld v lo w x).toNat l k = bitsOf v.toNat l k := by
  apply Nat.eq_of_testBit_eq
  intro i
  rw [testBit_bitsOf, testBit_bitsOf, testBit_setFld v lo w x _ h]
  by_cases hi : i < k
  · rw [if_neg (by omega)]
  · simp [hi]

theorem bitOf_setFld (v : Word64) (lo w x i : Nat) (h : lo + w ≤ 64) :
    bitOf (setFld v lo w x).toNat i = if lo ≤ i ∧ i < lo + w then bitOf x (i - lo) else bitOf v.toNat i := by
  simp only [bitOf_eq_testBit]
  exact testBit_setFld v lo w x i h

theorem bitOf_b2n (b : Bool) : bitOf (b2n b) 0 = b := by cases b <;> rfl

theorem toNat_w64 {n : Nat} (h : n < 2 ^ 64) : (w64 n).toNat = n := by
  show n % 2 ^ 64 = n
  exact Nat.mod_eq_of_lt h

theorem satAdd_le (w a b : Nat) : satAdd w a b ≤ 2 ^ w - 1 := Nat.min_le_right ..

end Sys2Proof.Machine
end

