-- ==== Sys2Proof/Laws/Faults.lean ====
section
/-!
SUPPORT. What the fault collector's operations touch, and that an event is counted.
-/
namespace Sys2Proof.Machine

/-- The registers of the fault collector. -/
def fltBlock (off : Nat) : Bool := decide (0xF0000 ≤ off ∧ off < 0x100000)

theorem mem_fltBlock {off : Nat} : fltBlock off = true ↔ 0xF0000 ≤ off ∧ off < 0x100000 := by simp [fltBlock]

/-- Effects of engines and outputs alone. -/
theorem raiseMsix_only (r : Nat → Bool) (f v : Nat) : (raiseMsix f v).Only (Act.Local r) := by
  simp [raiseMsix, onPending]

theorem causeBasinReset_only (r : Nat → Bool) (b : Nat) : (causeBasinReset b).Only (Act.Local r) := by
  simp [causeBasinReset, onDue]

theorem causeChipReset_only (r : Nat → Bool) (last src : Nat) : (causeChipReset last src).Only (Act.Local r) := by
  simp [causeChipReset, onDue]

theorem journalUnits_only (r : Nat → Bool) (kind cause a b c d : Nat) (tag : JTag) :
    (journalUnits kind cause a b c d tag).Only (Act.Local r) := by
  simp [journalUnits, journal]

/-- The collector's registers but FLT_EVENTS of a source. -/
def fltBut (src off : Nat) : Bool := fltBlock off && off != rFltEvents src

section
variable {r : Nat → Bool} {src : Nat}

theorem fltBut_trip (h : src < 256) (n : Nat) (hn : n < 8) : fltBut src (rFltTrip n) = true := by
  simp [fltBut, fltBlock, rFltTrip, rFltEvents]; omega
theorem fltBut_pin (h : src < 256) (n : Nat) (hn : n < 8) : fltBut src (rFltPin n) = true := by
  simp [fltBut, fltBlock, rFltPin, rFltEvents]; omega
theorem fltBut_capStat (h : src < 256) (n : Nat) (hn : n < 16) : fltBut src (rFltCapStat n) = true := by
  simp [fltBut, fltBlock, rFltCapStat, rFltEvents]; omega

/-- A capture changes FLT_CAP_STAT of its group alone. -/
theorem capture_only (hb : r (rFltCapStat (src / 16)) = true) (c : Capture) (hc : c.source = src) : (capture c).Only (Act.Local r) := by
  simp only [capture, onFlt, Eff.only_read, hc]
  intro s
  split <;> split <;> simp [hb]

theorem pinChange_only (hp : r (rFltPin (src / 32)) = true) : (pinChange (setBit8 rFltPin src)).Only (Act.Local r) := by
  simp [pinChange, setBit8, hp]

/-- Reactions change FLT_PIN alone. -/
theorem reactions_only (hp : r (rFltPin (src / 32)) = true) (rx : Nat) : (reactions src rx).Only (Act.Local r) := by
  simp only [reactions, Eff.only_all, List.mem_cons, List.not_mem_nil, or_false]
  rintro e (rfl | rfl | rfl | rfl | rfl | rfl | rfl) <;> refine Eff.only_when.mpr fun _ => ?_
  · exact raiseMsix_only _ _ _
  · exact raiseMsix_only _ _ _
  · simp
  · exact pinChange_only hp
  · exact causeBasinReset_only _ _
  · split <;> simp [onDue]
  · exact causeChipReset_only _ _ _

/-- What a trip may change: the collector's registers, and those of a retirement. -/
theorem trip_only (hr : ∀ off, fltBut src off = true → r off = true) (u flags : Nat) (after : Eff) (h : src < 256)
    (hret : retires src = true → (retireUnit src u).Only (Act.Local r) ∧ after.Only (Act.Local r)) (h60 : src = 0x60 → r rTolStatus = true) :
    (trip src u flags after).Only (Act.Local r) := by
  have ht := hr _ (fltBut_trip h (src / 32) (by omega))
  simp only [trip, Eff.only_read, Eff.only_all, List.mem_cons, List.not_mem_nil, or_false]
  rintro s e (rfl | rfl | rfl | rfl | rfl)
  · simp [setBit8, ht]
  · exact capture_only (hr _ (fltBut_capStat h (src / 16) (by omega))) _ rfl
  · refine Eff.only_when.mpr fun hh => ?_
    simp only [Bool.and_eq_true] at hh
    exact hret hh.1
  · refine Eff.only_when.mpr fun hh => ?_
    simp [h60 (by simpa using hh)]
  · exact reactions_only (hr _ (fltBut_pin h (src / 32) (by omega))) _

/-- What an event may change. -/
theorem countWith_only (hr : ∀ off, fltBlock off = true → r off = true) (u flags : Nat) (after : Eff) (h : src < 256)
    (hret : retires src = true → (retireUnit src u).Only (Act.Local r) ∧ after.Only (Act.Local r)) (h60 : src = 0x60 → r rTolStatus = true) :
    (countWith src u flags after).Only (Act.Local r) := by
  have he : r (rFltEvents src) = true := hr _ (mem_fltBlock.mpr (by unfold rFltEvents; omega))
  have ht := trip_only (fun off ho => hr off (by simp only [fltBut, Bool.and_eq_true] at ho; exact ho.1)) u flags after h hret h60
  simp [countWith, onFlt, he, ht]

/-- An event at a source that retires nothing changes the collector's registers alone. -/
theorem countAt_only (u : Nat) (h : src < 256) (hr : retires src = false) (h60 : src ≠ 0x60) :
    (countAt src u).Only (Act.Local fltBlock) :=
  countWith_only (fun _ h => h) u 0 _ h (fun x => by simp [hr] at x) (fun x => absurd x h60)

/-- An event at a source that is not ignored raises FLT_EVENTS of the source by one, saturating (R577). -/
theorem countAt_events {s : State} (u : Nat) (h : src < 256) (hr : retires src = false) (h60 : src ≠ 0x60)
    (hi : s.dev.flt.ignored.contains src = false) :
    ((countAt src u).run s).reg (rFltEvents src) = w64 (satAdd 32 (s.reg (rFltEvents src)).toNat 1) := by
  unfold countAt countWith
  simp only [Eff.run_read, hi, Bool.false_eq_true, if_false, Eff.run_andThen, bumpReg_run]
  have keep : ∀ {e : Eff} {t : State}, e.Only (Act.Local (fltBut src)) → (e.run t).reg (rFltEvents src) = t.reg (rFltEvents src) :=
    fun he => (he.frame _).2.2 _ (by simp [fltBut])
  have ht := trip_only (r := fltBut src) (fun _ h => h) u 0 (tileBudget src) h (fun x => by simp [hr] at x) (fun x => absurd x h60)
  rw [keep, State.reg_setReg]
  simp [onFlt, ht]

/-- A trip sets the source's bit of FLT_TRIP (R578), where what follows a retirement leaves FLT_TRIP alone. -/
theorem trip_sets {s : State} (u flags : Nat) (after : Eff) (h : src < 256)
    (hret : retires src = true → (retireUnit src u).Only (Act.Local fun o => o != rFltTrip (src / 32)) ∧
      after.Only (Act.Local fun o => o != rFltTrip (src / 32))) :
    ((trip src u flags after).run s).bit (rFltTrip (src / 32)) (src % 32) = true := by
  have keep : ∀ {e : Eff}, e.Only (Act.Local fun o => o != rFltTrip (src / 32)) → ∀ {t : State},
      t.bit (rFltTrip (src / 32)) (src % 32) = true → (e.run t).bit (rFltTrip (src / 32)) (src % 32) = true := fun he t ht => by
    rw [State.bit, (he.frame t).2.2 _ (by simp)]; exact ht
  unfold trip
  simp only [Eff.run_read, Eff.run_all_cons, Eff.run_all_nil]
  refine keep (reactions_only (src := src) (by simp [rFltPin, rFltTrip]) _)
    (keep (by simp [rTolStatus, rFltTrip]; omega) (keep (Eff.only_when.mpr fun hh => ?_)
      (keep (capture_only (src := src) (by simp [rFltCapStat, rFltTrip]; omega) _ rfl) ?_)))
  · simp only [Bool.and_eq_true] at hh; exact hret hh.1
  · rw [setBit8, putBit_run, State.bit, State.reg_setReg, bitOf_setFld _ _ _ _ _ (by omega), if_pos (by omega), Nat.sub_self]; rfl
end

end Sys2Proof.Machine
end

