-- ==== Sys2Proof/Laws/Access.lean ====
section
/-!
SUPPORT. Accesses of readers: what one that reaches its register runs, and what the readers' state leaves alone.
-/
namespace Sys2Proof.Machine

/-- The state after a write's bookkeeping: the reader's shadow of the register invalidated (R16), its stage emptied where the register is wide. -/
def State.written (s : State) (rd : Nat) (l : Loc) : State :=
  (Eff.when l.row.wide (dropStage rd)).run ((invalidate rd l.reg).run s)

theorem access_run {s : State} {rd : Nat} (h : Reaches s rd) (e : Eff) : (access rd e).run s = e.run s := by
  unfold access
  rw [Eff.run_read, h.1]
  cases hp : isPcie rd with
  | false => simp
  | true => simp [h.2 hp]

theorem readAccess_run {s : State} {rd : Nat} (h : Reaches s rd) (off size : Nat) (e : Eff) : (readAccess rd off size e).run s = e.run s := by
  unfold readAccess
  rw [Eff.run_read, h.1]
  cases hp : isPcie rd with
  | false => simp
  | true => simp [h.2 hp]

/-- A write that takes effect runs its effect after the bookkeeping of R16 and R21. -/
theorem writeReg_run {s : State} {rd off : Nat} {l : Loc} (h : Writes s rd off l) (e : Eff) :
    (writeReg rd off e).run s = e.run (s.written rd l) := by
  unfold writeReg
  rw [access_run h.1, Eff.run_read, h.2.1]
  have hd : (!s.dryDock || dryDockBlock l.reg) = true := by rcases h.2.2.2 with x | x <;> simp [x]
  simp [h.2.2.1, hd, State.written, invalidate, onReaders, dropStage]

section
variable (s : State) (rd : Nat) (l : Loc)
theorem State.written_eq : ∃ r, s.written rd l = { s with dev := { s.dev with readers := r } } := by
  unfold State.written
  cases l.row.wide <;> exact ⟨_, rfl⟩
@[simp] theorem State.written_regs : (s.written rd l).regs = s.regs := by cases h : l.row.wide <;> simp [State.written, h, invalidate, onReaders, dropStage]
@[simp] theorem State.written_reg (off : Nat) : (s.written rd l).reg off = s.reg off := congrArg (mget _ · off) (s.written_regs rd l)
@[simp] theorem State.written_fld (off lo w : Nat) : (s.written rd l).fld off lo w = s.fld off lo w := by simp [State.fld]
@[simp] theorem State.written_bit (off i : Nat) : (s.written rd l).bit off i = s.bit off i := by simp [State.bit]
@[simp] theorem State.written_gates : (s.written rd l).gates = s.gates := by cases h : l.row.wide <;> simp [State.written, h, invalidate, onReaders, dropStage]
@[simp] theorem State.written_mem : (s.written rd l).mem = s.mem := by cases h : l.row.wide <;> simp [State.written, h, invalidate, onReaders, dropStage]
@[simp] theorem State.written_poison : (s.written rd l).poison = s.poison := by cases h : l.row.wide <;> simp [State.written, h, invalidate, onReaders, dropStage]
@[simp] theorem State.written_now : (s.written rd l).now = s.now := by cases h : l.row.wide <;> simp [State.written, h, invalidate, onReaders, dropStage]
@[simp] theorem State.written_out : (s.written rd l).out = s.out := by cases h : l.row.wide <;> simp [State.written, h, invalidate, onReaders, dropStage]
@[simp] theorem State.written_pending : (s.written rd l).pending = s.pending := by cases h : l.row.wide <;> simp [State.written, h, invalidate, onReaders, dropStage]
end

theorem State.written_sound {s : State} (h : s.sound = true) (rd : Nat) (l : Loc) : (s.written rd l).sound = true :=
  Eff.run_sound _ (Eff.run_sound _ h)

theorem State.written_frame (s : State) (rd : Nat) (l : Loc) (r : Nat → Bool) : Frame r s (s.written rd l) := by
  refine ⟨⟨fun _ => ?_, s.written_poison rd l⟩, ⟨fun _ _ => ?_, s.written_now rd l, s.written_pending rd l⟩, fun _ _ => s.written_reg rd l _⟩
  · simp [State.byte]
  · simp [State.gate]

theorem Frame.trans {r : Nat → Bool} {s t u : State} (h : Frame r s t) (k : Frame r t u) : Frame r s u :=
  ⟨⟨fun a => (k.1.1 a).trans (h.1.1 a), k.1.2.trans h.1.2⟩,
   ⟨fun b g => (k.2.1.1 b g).trans (h.2.1.1 b g), k.2.1.2.1.trans h.2.1.2.1, k.2.1.2.2.trans h.2.1.2.2⟩,
   fun off ho => (k.2.2 off ho).trans (h.2.2 off ho)⟩

theorem Frame.refl (r : Nat → Bool) (s : State) : Frame r s s := ⟨⟨fun _ => rfl, rfl⟩, ⟨fun _ _ => rfl, rfl, rfl⟩, fun _ _ => rfl⟩

end Sys2Proof.Machine
end

