-- ==== Sys2Proof/Laws/Step.lean ====
section
/-!
SUPPORT. What a step can do, said once: an effect, a reset of the main domain, or a tick.
-/
namespace Sys2Proof.Machine
open Sys2Proof

theorem State.mainReset_sound {s : State} (h : s.sound = true) (b : Bool) : (s.mainReset b).sound = true := by
  rw [State.sound_iff] at h ⊢
  exact ⟨mwf_filter h.1 _, rfl, h.2.2.1, h.2.2.2.1, h.2.2.2.2.1, by simp [State.mainReset], by simp [State.mainReset]⟩
theorem State.chipReset_sound {s : State} (h : s.sound = true) : s.chipReset.sound = true := by
  unfold State.chipReset
  split
  · exact h
  · exact Eff.run_sound _ (State.mainReset_sound (Eff.run_sound _ h) _)
theorem State.powerFall_sound {s : State} (h : s.sound = true) (i : Nat) : (s.powerFall i).sound = true := by
  unfold State.powerFall
  split
  · exact h
  · refine Eff.run_sound _ ?_
    split
    · exact h
    · exact State.mainReset_sound (Eff.run_sound _ h) _

/-- The commands that reset the main domain. -/
def isMainReset : Instr → Bool
  | .chipReset => true
  | .pwrGoodFall _ => true
  | _ => false

/-- Every command is an effect, or one of the two that reset the main domain. -/
theorem exec_cases (c : Instr) (s : State) : (isMainReset c = false ∧ ∃ e : Eff, exec c s = .next (e.run s)) ∨
    (c = .chipReset ∧ exec c s = .next s.chipReset) ∨ ∃ i, c = .pwrGoodFall i ∧ exec c s = .next (s.powerFall i) := by
  cases c
  case chipReset => exact .inr (.inl ⟨rfl, rfl⟩)
  case pwrGoodFall => exact .inr (.inr ⟨_, rfl, rfl⟩)
  all_goals exact .inl ⟨rfl, _, rfl⟩

theorem idleTick_sound {s : State} (h : s.sound = true) : (idleTick s).sound = true := by
  unfold idleTick
  split
  · exact h
  · rw [State.sound_iff] at h ⊢
    exact ⟨h.1, h.2.1, h.2.2.1, h.2.2.2.1, h.2.2.2.2.1, h.2.2.2.2.2.1, Nat.mod_lt _ (by decide)⟩
theorem idle_sound {s : State} (h : s.sound = true) : (idle s).sound = true := idleTick_sound (Eff.run_sound _ h)

theorem State.mainReset_pending (s : State) (b : Bool) : (s.mainReset b).pending = s.pending := rfl
theorem State.chipReset_pending (s : State) : s.chipReset.pending = s.pending := by
  unfold State.chipReset
  split
  · rfl
  · rw [Eff.run_pending, State.mainReset_pending, Eff.run_pending]
theorem State.powerFall_pending (s : State) (i : Nat) : (s.powerFall i).pending = s.pending := by
  unfold State.powerFall
  split
  · rfl
  · rw [Eff.run_pending]
    split
    · rfl
    · rw [State.poreset, State.mainReset_pending, Eff.run_pending]

theorem keepLink_local (a b : Nat) : (keepLink a b).Only (Act.Local fun _ => true) := by
  simp [keepLink, strapAddresses]

end Sys2Proof.Machine
end

