-- ==== Sys2Proof/Laws/Fields.lean ====
section
/-!
SUPPORT. Register fields after an update, and parts of the engines' state that an effect leaves alone.
-/
namespace Sys2Proof.Machine

section
variable {s : State}

theorem State.fld_setReg (off : Nat) (v : Word64) (l k : Nat) :
    (Act.run s (.setReg off v)).fld off l k = bitsOf v.toNat l k := by
  rw [State.fld, State.reg_setReg]

theorem State.fld_setReg_other {off j : Nat} (h : j ≠ off) (v : Word64) (l k : Nat) : (Act.run s (.setReg off v)).fld j l k = s.fld j l k := by
  rw [State.fld, State.reg_setReg_other h, State.fld]

theorem State.fld_putFld {off lo w : Nat} (x : Nat) (hw : lo + w ≤ 64) :
    ((putFld off lo w x).run s).fld off lo w = x % 2 ^ w := by
  rw [putFld_run, State.fld_setReg, bitsOf_setFld _ _ _ _ hw]

theorem State.fld_putFld_apart {off lo w l k : Nat} (x : Nat) (hw : lo + w ≤ 64) (hd : l + k ≤ lo ∨ lo + w ≤ l) :
    ((putFld off lo w x).run s).fld off l k = s.fld off l k := by
  rw [putFld_run, State.fld_setReg, bitsOf_setFld_other _ _ _ _ _ _ hw hd, State.fld]

theorem State.bit_putBit {off i : Nat} (b : Bool) (hi : i < 64) : ((putBit off i b).run s).bit off i = b := by
  rw [putBit_run, State.bit, State.reg_setReg, bitOf_setFld _ _ _ _ _ (by omega), if_pos (by omega), Nat.sub_self, bitOf_b2n]

theorem State.bit_putBit_apart {off i j : Nat} (b : Bool) (hi : i < 64) (hj : j ≠ i) :
    ((putBit off i b).run s).bit off j = s.bit off j := by
  rw [putBit_run, State.bit, State.reg_setReg, bitOf_setFld _ _ _ _ _ (by omega), if_neg (by omega), State.bit]

theorem State.bit_setReg_other {off j : Nat} (h : j ≠ off) (v : Word64) (i : Nat) : (Act.run s (.setReg off v)).bit j i = s.bit j i := by
  rw [State.bit, State.reg_setReg_other h, State.bit]

theorem setReg_frame {r : Nat → Bool} {off : Nat} (v : Word64) (h : r off = true) : Frame r s (Act.run s (.setReg off v)) :=
  Eff.Only.frame (e := .act (.setReg off v)) (by simp [h]) s
end

/-- An update that leaves a part of the engines' state as it is. -/
def Act.Keeps {α : Type} (p : Dev → α) : Act → Prop
  | .dev f => ∀ d, p (f d) = p d
  | _ => True

theorem Eff.Only.devKeeps {α : Type} {p : Dev → α} {e : Eff} (h : e.Only (Act.Keeps p)) (s : State) : p (e.run s).dev = p s.dev :=
  h.keeps (I := fun t => p t.dev = p s.dev) (fun a t ha ht => by cases a <;> first | exact ht | exact (ha _).trans ht) rfl

@[simp] theorem Act.keeps_setReg {α : Type} {p : Dev → α} {off : Nat} {v : Word64} : Act.Keeps p (.setReg off v) := trivial
@[simp] theorem Act.keeps_emit {α : Type} {p : Dev → α} {o : Output} : Act.Keeps p (.emit o) := trivial
@[simp] theorem Act.keeps_free {α : Type} {p : Dev → α} : Act.Keeps p .free := trivial
@[simp] theorem Act.keeps_store {α : Type} {p : Dev → α} {a : Nat} {bs : List Byte} : Act.Keeps p (.store a bs) := trivial
@[simp] theorem Act.keeps_poison {α : Type} {p : Dev → α} {a : Nat} {b : Bool} : Act.Keeps p (.poison a b) := trivial
@[simp] theorem Act.keeps_raiseGate {α : Type} {p : Dev → α} {b g v : Nat} : Act.Keeps p (.raiseGate b g v) := trivial
@[simp] theorem Act.keeps_dev {α : Type} {p : Dev → α} {f : Dev → Dev} : Act.Keeps p (.dev f) ↔ ∀ d, p (f d) = p d := Iff.rfl

theorem Act.Local.mono {r q : Nat → Bool} (h : ∀ off, r off = true → q off = true) {a : Act} (x : a.Local r) : a.Local q :=
  ⟨by
    have := x.1
    cases a <;> first | trivial | exact h _ this | exact fun o ho => h _ (this o ho), x.2⟩

/-- An effect within a set of registers is within a larger set. -/
theorem Eff.Only.wider {r q : Nat → Bool} (h : ∀ off, r off = true → q off = true) {e : Eff} (x : e.Only (Act.Local r)) : e.Only (Act.Local q) :=
  x.mono fun _ => Act.Local.mono h

theorem Frame.fld {r : Nat → Bool} {s t : State} (h : Frame r s t) {off : Nat} (ho : r off = false) (l k : Nat) : t.fld off l k = s.fld off l k := by
  rw [State.fld, h.2.2 off ho, State.fld]

theorem Frame.bit {r : Nat → Bool} {s t : State} (h : Frame r s t) {off : Nat} (ho : r off = false) (k : Nat) : t.bit off k = s.bit off k := by
  rw [State.bit, h.2.2 off ho, State.bit]

theorem Frame.mono {r q : Nat → Bool} (h : ∀ off, r off = true → q off = true) {s t : State} (f : Frame r s t) : Frame q s t :=
  ⟨f.1, f.2.1, fun off ho => f.2.2 off (by cases hr : r off with
    | false => rfl
    | true => rw [h off hr] at ho; cases ho)⟩

end Sys2Proof.Machine
end

