-- ==== Sys2Proof/Laws/Journal.lean ====
section
/-!
SUPPORT. The journal's writer changes the flash and the requests alone.
-/
namespace Sys2Proof.Machine

variable {r : Act → Prop}

theorem issueOp_only (h : ∀ g : Flash → Flash, (onFlash g).Only r) (o : FlashOp) (l : List FlashOp) :
    (issueOp o l).Only r := by
  exact fun _ => h _

theorem beginRecord_only (h : ∀ g : Flash → Flash, (onFlash g).Only r) (j : JReq) : (beginRecord j).Only r := by
  simp only [beginRecord, Eff.only_read]
  intro s
  split
  · trivial
  · refine ⟨h _, ?_⟩
    split
    · exact issueOp_only h _ _
    · trivial

/-- The journal's writer changes the flash's state and the records asked for, and nothing else. -/
theorem pumpJournal_only (h : ∀ g : Flash → Flash, (onFlash g).Only r)
    (hj : ∀ l : List JReq, (onDev fun d => { d with jrn := l }).Only r) : pumpJournal.Only r := by
  simp only [pumpJournal, Eff.only_read]
  intro s
  repeat' split
  all_goals first
    | trivial
    | exact beginRecord_only h _
    | exact issueOp_only h _ _
    | exact ⟨hj _, beginRecord_only h _⟩

theorem pumpJournal_local (q : Nat → Bool) : pumpJournal.Only (Act.Local q) := pumpJournal_only (fun _ => by simp [onFlash]) fun _ => by simp

end Sys2Proof.Machine
end

