-- ==== Sys2Proof/WellFormed.lean ====
section
/-!
DEFINITION. Which commands can arise: every operand lies in the range that the spec gives it.
-/
namespace Sys2Proof
open Sys2Proof.Machine

/-! ### Operand ranges -/

/-- A number below a bound: an index, or a value of a given width. -/
def below (n x : Nat) : Bool := decide (x < n)

/-- The address of a 4 KiB page of HBM. -/
def pageOk (a : Nat) : Bool := a % 4096 == 0 && below hbmSize a

/-- Sector errors name sectors of HBM and a place in a stack: channel, pseudo-channel, bank and row (R158). -/
def eccOk (es : List EccEvent) : Bool :=
  es.all fun e => e.sector % 32 == 0 && below hbmSize e.sector && below 16 e.chan && below 2 e.pseudo && below 64 e.bank && below (2 ^ 18) e.row

/-- Bytes that come over PCIe lie in the outbound range (R605). -/
def hostOk (h : HostBytes) : Bool := h.all fun c => decide (2 ^ 47 ≤ c.1 ∧ c.1 + c.2.length ≤ 2 ^ 48)

/-- A user of an outbound read: a queue, a copy engine, or a barge that is held. -/
def userOk : ReadUser → Bool
  | .sq q => below 256 q
  | .copy e => below 8 e
  | .barge _ => true

/-- What a completion brings is at most one block. -/
def hostReadOk : HostRead → Bool
  | .data bs => within 0 4096 bs.length
  | .error => true
  | .poisoned => true

/-- A report of an operator names tiles and their three fault sources (Table 18.3). -/
def reportOk (r : OpReport) : Bool := eccOk r.es && r.faults.all fun f => below 96 f.1 && [0x00, 0x04, 0x05].contains f.2

/-- PMBus words have 16 bits, and VOUT_MODE has 8 (R622). -/
def pmbReadsOk (r : PmbReads) : Bool := below 256 (r.mode.getD 0) && below 65536 (r.vout.getD 0) && below 65536 (r.iout.getD 0)

/-- What is found at a mark names tiles, sensors, sources and lanes; sensor codes have 12 bits (R566). -/
def markOk (d : MarkData) : Bool :=
  d.pace.map (·.1) == List.range 96 && d.raw.all (fun e => below 98 e.1 && below 4096 e.2) && d.rails.all (below 256)
    && d.symbols.all (fun e => below 64 e.1) && d.unlocked.all (below 64)

/-- An error of an on-chip memory names an item of that memory (Table 5.6). -/
def chipOk : ChipMemory → Bool
  | .tileSram t _ => below 96 t
  | .requestTable _ e _ => below 4096 e
  | .prefixIndex _ n => below 65536 n
  | .codecTable _ t => below 256 t
  | .formMap _ w => below (hbmSize / 262144) w
  | .remapStore => true
  | .wharfSram _ off => below 0x908000 off
  | .rankState _ hit => hit.all fun h => below 16 h.1 && below 16 h.2.1 && below (2 ^ 24) h.2.2

/-- A sensor code has 12 bits. -/
def code12 (z : Int) : Bool := decide (0 ≤ z ∧ z < 4096)

/-! ### Commands -/

/-- A command's operands lie in their ranges. -/
def Instr.wf : Instr → Bool
  | .unsupportedAccess rd _ off size => below 19 rd && below 0x1000000 off && within 1 64 size
  | .holeAccess rd _ off => below 19 rd && below 0x1000000 off
  | .split64Access rd _ off v => below 19 rd && below 0x1000000 off && below (2 ^ 64) v
  | .lowWordRead rd off => below 19 rd && below 0x1000000 off
  | .highWordRead rd off => below 19 rd && below 0x1000000 off
  | .rcRead rd off _ => below 19 rd && below 0x1000000 off
  | .lowWordWrite rd off v => below 19 rd && below 0x1000000 off && below (2 ^ 32) v
  | .highWordWrite rd off v => below 19 rd && below 0x1000000 off && below (2 ^ 32) v
  | .aligned64Write rd off v => below 19 rd && below 0x1000000 off && below (2 ^ 64) v
  | .registerWrite rd off v => below 19 rd && below 0x1000000 off && below (2 ^ 32) v
  | .keeperPowerOn _ _ _ => true
  | .keeperSupplyChange _ _ => true
  | .pwrGoodRise input => below 4 input
  | .pwrGoodFall input => below 4 input
  | .poresetRelease straps _ => below 16 straps
  | .fuseRead _ clockRaw => code12 clockRaw
  | .journalRead _ => true
  | .imageVerify => true
  | .sectionApply vout => below 65536 (vout.getD 0)
  | .tileSelftestDone failed _ => failed.all (below 96)
  | .hbmTrainingDone repaired delays => repaired.all pageOk && decide (delays.length = 32)
  | .hbmTrainTimeout chan => below 16 chan
  | .hbmBistDone fails => eccOk fails
  | .hbmZeroingDone => true
  | .joinWaitEnd => true
  | .basinsOpen => true
  | .go rd v => below 19 rd && below (2 ^ 32) v
  | .drydock rd v => below 19 rd && below (2 ^ 32) v
  | .chipReset => true
  | .blockReset _ => true
  | .own rd v => below 19 rd && below (2 ^ 32) v
  | .svnCommit rd v => below 19 rd && below (2 ^ 32) v
  | .flashErase rd v => below 19 rd && below (2 ^ 32) v
  | .flashProgram rd v => below 19 rd && below (2 ^ 32) v
  | .flashRead rd v => below 19 rd && below (2 ^ 32) v
  | .flashOperationDone => true
  | .flashTimeout => true
  | .joinRetry => true
  | .ownTimeMark d => markOk d
  | .paceDecision r => pmbReadsOk r
  | .pacTargetWrite rd v => below 19 rd && below (2 ^ 32) v
  | .marginEvent tile => below 96 tile
  | .lateTransition tile => below 96 tile
  | .endProgram q es => below 256 q && eccOk es
  | .nop q es => below 256 q && eccOk es
  | .gateRinc q es => below 256 q && eccOk es
  | .matmul q es => below 256 q && eccOk es
  | .ewUnary q es => below 256 q && eccOk es
  | .ewBinary q es => below 256 q && eccOk es
  | .ewGlu q es => below 256 q && eccOk es
  | .rmsnorm q es => below 256 q && eccOk es
  | .layernorm q es => below 256 q && eccOk es
  | .softmax q es => below 256 q && eccOk es
  | .rope q es => below 256 q && eccOk es
  | .attnPaged q es => below 256 q && eccOk es
  | .gather q es => below 256 q && eccOk es
  | .scatter q es => below 256 q && eccOk es
  | .embed q es => below 256 q && eccOk es
  | .transpose q es => below 256 q && eccOk es
  | .idxToBf16 q es => below 256 q && eccOk es
  | .topk q es => below 256 q && eccOk es
  | .sample q es => below 256 q && eccOk es
  | .optStep q es => below 256 q && eccOk es
  | .operatorAccept q tiles es => below 256 q && tiles.all (below 96) && eccOk es
  | .operatorComplete q rep => below 256 q && reportOk rep
  | .gateTimeout q => below 256 q
  | .glbGateAdd rd b v => below 19 rd && below 16 b && below (2 ^ 32) v
  | .glbGateWrite rd b g v => below 19 rd && below 16 b && below 256 g && below (2 ^ 64) v
  | .lengthsmanRead es chip => eccOk es && chip.all chipOk
  | .pageRemapDone es => eccOk es
  | .lckBasinReset rd v => below 19 rd && below (2 ^ 32) v
  | .basinReset b => below 16 b
  | .basinReopen b => below 16 b
  | .queueEnable rd q => below 19 rd && below 256 q
  | .queueDisable rd q v => below 19 rd && below 256 q && below (2 ^ 32) v
  | .queBaseWrite rd q _ v => below 19 rd && below 256 q && below (2 ^ 64) v
  | .doorbell f _ off size v => below 16 f && below 0x1000000 off && within 1 64 size && below (2 ^ 32) v
  | .sqFetch q es => below 256 q && eccOk es
  | .cmdNop q => below 256 q
  | .runProgram q es => below 256 q && eccOk es
  | .copy q e => below 256 q && below 8 e
  | .waitGate q => below 256 q
  | .incGate q => below 256 q
  | .copyBlock e _ _ es => below 8 e && eccOk es
  | .deferredCompletion q => below 256 q
  | .coalesceAge q => below 256 q
  | .load rd b t => below 19 rd && below 16 b && below 256 t
  | .surveyStart rd b t => below 19 rd && below 16 b && below 256 t
  | .surveyFinish rd b t => below 19 rd && below 16 b && below 256 t
  | .invalidate rd b t => below 19 rd && below 16 b && below 256 t
  | .fetch rd b t => below 19 rd && below 16 b && below 256 t
  | .training p ls => below 16 p && below 16 ls
  | .laneAdaptTimeout p l => below 16 p && below 4 l
  | .trainTimeout p => below 16 p
  | .trainRetry p => below 16 p
  | .hello p ls frame => below 16 p && below 16 ls && decide (frame.length = 16)
  | .lanes p frame => below 16 p && decide (frame.length = 16)
  | .laneSwitch p => below 16 p
  | .credit p frame => below 16 p && decide (frame.length = 16)
  | .lack p frame => below 16 p && decide (frame.length = 16)
  | .lnak p frame => below 16 p && decide (frame.length = 16)
  | .timeMark p frame => below 16 p && decide (frame.length = 16)
  | .ping p frame => below 16 p && decide (frame.length = 16)
  | .pong p frame => below 16 p && decide (frame.length = 16)
  | .codewordUncorrectable p word _ => below 16 p && decide (word.length = 544) && word.all (below 1024)
  | .replayTimeout p => below 16 p
  | .retrainDone p ls => below 16 p && below 16 ls
  | .retrainTimeout p => below 16 p
  | .bargeReceive p bs _ => below 16 p && within 0 4224 bs.length
  | .write es => eccOk es
  | .readReq es => eccOk es
  | .gateInc => true
  | .reducePart => true
  | .test p got => below 16 p && within 0 4096 got.length
  | .ack es => eccOk es
  | .readData es => eccOk es
  | .join => true
  | .admitted => true
  | .conflict => true
  | .activity => true
  | .firmware => true
  | .ackTimeout queue dest cls => below 512 queue && below 4096 dest && below 4 cls
  | .flowReset rd b v => below 19 rd && below 16 b && below (2 ^ 32) v
  | .windInternal rd p => below 19 rd && below 16 p
  | .windExternal rd p => below 19 rd && below 16 p
  | .windStop rd p => below 19 rd && below 16 p
  | .linkRelease rd p => below 19 rd && below 16 p
  | .holdover => true
  | .masterSeed => true
  | .openGroup rd b g es => below 19 rd && below 16 b && below 16 g && eccOk es
  | .close rd b g => below 19 rd && below 16 b && below 16 g
  | .rnkSubmit rd b v => below 19 rd && below 16 b && below (2 ^ 64) v
  | .barrier b es => below 16 b && eccOk es
  | .allReduce b es => below 16 b && eccOk es
  | .reduce b es => below 16 b && eccOk es
  | .reduceScatter b es => below 16 b && eccOk es
  | .allGather b es => below 16 b && eccOk es
  | .broadcast b es => below 16 b && eccOk es
  | .rankTimeout b g q => below 16 b && below 16 g && below (2 ^ 24) q
  | .configure q host es => below 256 q && hostOk host && eccOk es
  | .submit q host es => below 256 q && hostOk host && eccOk es
  | .cancel q => below 256 q
  | .step q host es => below 256 q && hostOk host && eccOk es
  | .release q => below 256 q
  | .stepBuild b host es => below 16 b && hostOk host && eccOk es
  | .stepCollect b host es => below 16 b && hostOk host && eccOk es
  | .mooringDone e => below 4096 e
  | .resumeDone e => below 4096 e
  | .srvKeyWrite rd b v => below 19 rd && below 16 b && below (2 ^ 64) v
  | .defineSet q es => below 256 q && eccOk es
  | .epoch q => below 256 q
  | .restore q es => below 256 q && eccOk es
  | .epochWaitTimeout k => below 16 k
  | .cowCopy k page es => below 16 k && below (hbmSize / 65536) page && eccOk es
  | .nvmeCompletion d es => below 8 d && eccOk es
  | .nvmeTimeout d => below 8 d
  | .driveEnable rd d => below 19 rd && below 8 d
  | .driveDisable rd d => below 19 rd && below 8 d
  | .abandon rd k => below 19 rd && below 16 k
  | .xtalMissingEdge => true
  | .xtalGood _ => true
  | .pllLock => true
  | .pllLockLoss => true
  | .kxtalMissingEdge => true
  | .kxtalGood _ => true
  | .clkGate rd v => below 19 rd && below (2 ^ 32) v
  | .tbsRtcSet rd v => below 19 rd && below (2 ^ 64) v
  | .secondsCarry _ => true
  | .batteryTestEnd mv _ => below 4096 mv
  | .tamperBurstEnd _ => true
  | .meterSample blocks wrong => blocks.all (below (2 ^ 512)) && wrong.all (below 7)
  | .windowEnd raw => below 4096 raw
  | .cfPulseStart => true
  | .cfPulseEnd => true
  | .pulseInAccept n _ => below 2 n
  | .measure rd v => below 19 rd && below (2 ^ 32) v
  | .apply rd v => below 19 rd && below (2 ^ 32) v
  | .clear rd v => below 19 rd && below (2 ^ 32) v
  | .measureTimeout => true
  | .applyTimeout => true
  | .meterRelease rd v => below 19 rd && below (2 ^ 32) v
  | .snapshot rd v => below 19 rd && below (2 ^ 32) v
  | .snapshotSealed who => below 2 who
  | .billingClose rd v => below 19 rd && below (2 ^ 32) v
  | .calendarCommit rd v => below 19 rd && below (2 ^ 32) v
  | .calendarCancel rd v => below 19 rd && below (2 ^ 32) v
  | .pfailFall => true
  | .pfailRise => true
  | .activitySilent slot => below 8 slot
  | .lcdFrame => true
  | .lcdRailSettled vlcd aon => below 65536 vlcd && below 65536 aon
  | .lcdRailTimeout => true
  | .aonLow => true
  | .aonRise => true
  | .lcdCtrlBlank rd v => below 19 rd && below (2 ^ 32) v
  | .lcdHold rd v => below 19 rd && below (2 ^ 32) v
  | .autoZero k _ => below 98 k
  | .hbmRecenter pc => below 32 pc
  | .faultEvent src unit => below 256 src && below 65536 unit
  | .fltForce rd w v => below 19 rd && below 8 w && below (2 ^ 32) v
  | .fltTripClear rd w v => below 19 rd && below 8 w && below (2 ^ 32) v
  | .pop rd g v => below 19 rd && below 16 g && below (2 ^ 32) v
  | .capClear rd g v => below 19 rd && below 16 g && below (2 ^ 32) v
  | .tileRelease rd v => below 19 rd && below (2 ^ 32) v
  | .tileStoppageSlot => true
  | .stoppageDeferralBound => true
  | .tileStoppageEnd _ => true
  | .laneStoppageSlot => true
  | .laneStoppageEnd _ _ => true
  | .servingStoppageDue => true
  | .servingStoppageEnd _ => true
  | .perstNLow => true
  | .hotReset => true
  | .linkDown => true
  | .linkUp width rate c => [1, 2, 4, 8, 16].contains width && within 1 5 rate && c.ok
  | .flr b => within 1 15 b
  | .pf0Flr => true
  | .vfEnableClear => true
  | .msixPendingSend f v => below 16 f && below 64 v
  | .readCompletion u r => userOk u && hostReadOk r
  | .completionTimeout u => userOk u
  | .bar4Tlp rid _ off bs n => below 65536 rid && below 0x1000000 off && within 0 4096 bs.length && within 0 4096 n
  | .pciOutHiWrite rd v => below 19 rd && below (2 ^ 64) v
  | .setAddr bs pec => within 0 255 bs.length && below 256 (pec.getD 0)
  | .smbusRead => true
  | .smbusWrite bs pec => within 0 255 bs.length && below 256 (pec.getD 0)
  | .summary => true
  | .reset bs pec => within 0 255 bs.length && below 256 (pec.getD 0)
  | .smbusTimeout since => decide (since < 2 ^ 64)
  | .calendarCommitTimeout => true
  | .vlcdOutOfRange => true
  | .allBankRefreshWindow pc _ _ => below 32 pc
  | .hbmRecenterTimeout pc => below 32 pc
  | .extentStaged k es => below 16 k && eccOk es

end Sys2Proof
end

