-- ==== Sys2Proof/Tests/Slice0.lean ====
section
/-!
SUPPORT. Tests: ill-formed commands are refused, single steps give what the spec says, and the hypotheses of every statement are met by a
concrete chip and operands.
-/
open Sys2Proof Sys2Proof.Machine
namespace Sys2Proof.Tests

set_option Elab.async false
set_option linter.unusedVariables false

/-- Registers that hold values other than their reset values. -/
def regsOf (l : List (Nat × Nat)) : Map Word64 := l.foldl (fun m e => mset (regReset e.1) m e.1 (w64 e.2)) []

/-- The hidden state of a powered chip whose link is up and whose PF0 answers. -/
def up : Dev :=
  { pci := { fns := [(0, { bme := true, mse := true, msix := true })] }
    board := { poreset := false, good := 15, perstHigh := true }, keep := { powered := true } }

/-- A chip at RUN: basin 0 is OPEN with one window over all of HBM, with every right; queue 0 is its COMPUTE queue of 16 slots. -/
def chip (l : List (Nat × Nat)) (d : Dev := up) (now : Nat := 0) : State :=
  { now := now
    regs := regsOf ([(rImgStatus, 6), (rPciLink, 256), (rLckBasin 0, 1), (rLckWin 0 0, 0xF), (rLckWin 0 1, 0x5FFFFF000),
      (rQueCfg 0, 2 ^ 31 + 4 * 2 ^ 8 + 2 ^ 18)] ++ l)
    dev := d }

/-- Where an offset lies. -/
def at_ (off : Nat) : Loc := (locate off).getD { row := { name := "", base := off }, i := 0, j := 0, reg := off, high := false }

/-- A record of bytes with values at byte offsets. -/
def rec_ (l : List (Nat × Nat)) : Nat := (l.map fun e => e.2 * 2 ^ (8 * e.1)).sum

/-- EW_UNARY of four BF16 elements at 0x20000, to 0x20100. -/
def unary : Nat := rec_ [(0, 0x20), (2, 2), (64, 0x20000), (75, 1), (80, 4), (84, 1), (88, 1), (92, 1), (96, 2),
  (128, 0x20100), (139, 1), (144, 4), (148, 1), (152, 1), (156, 1), (160, 2)]

/-- The program of 256 B that `prog` puts on queue 0. -/
def pr (d : Nat) (st : PStage) : Prog := { addr := 0x10000, len := 256, desc := d, stage := st }

/-- A queue that runs a program for its entry. -/
def progQueue (p : Prog) : Queue := { owed := [{ idx := 0, bytes := 1, stage := .running }], prog := some p }

/-- A chip whose queue 0 holds a program at a stage, its operator's descriptor `d`. -/
def prog (d : Nat) (st : PStage) (l : List (Nat × Nat) := []) (dev : Dev := up) : State :=
  chip l { dev with work := { queues := [(0, progQueue (pr d st))] } }

/-- A chip whose queue 0, ENABLED, of a kind, has taken up one entry. -/
def taken (kind bytes : Nat) (l : List (Nat × Nat) := []) (dev : Dev := up) (stage : EStage := .fetched) (mem : List Host.Cell := []) : State :=
  { chip ([(rQueCfg 0, 2 ^ 31 + 4 * 2 ^ 8 + 2 ^ 18 + kind * 16), (rQueStatus 0, 1)] ++ l)
      { dev with work := { queues := [(0, { owed := [{ idx := 0, bytes := bytes, stage := stage }] })] } } with mem := mem }

/-- The entry that `taken` puts on queue 0. -/
def ent (bytes : Nat) (stage : EStage := .fetched) : Entry := { idx := 0, bytes := bytes, stage := stage }

/-- A barge of a kind and class with a payload and ARG, from chip `src` to address `addr` of basin 0. -/
def barge (kind cls : Nat) (payload : List Byte) (arg : Nat := 0) (addr : Nat := 0) (queue : Nat := 0) (src : Nat := 2) (dest : Nat := 0) : Barge :=
  { hdr := bargeHdr kind cls false src queue payload.length dest 0 addr arg 0, payload := payload }

/-- A barge that has come in by port 0. -/
def wt (b : Barge) : Waiting := { input := 0, barge := b }

/-- A chip of the reach with a barge to be performed, next of its flow. -/
def holding (b : Barge) (l : List (Nat × Nat) := []) (d : Dev := up) (f : Fabric := {}) (role : Nat := 0) : State :=
  chip ((rGlbRole, 2 ^ 18 + role) :: l)
    { d with fab := { f with inbox := [wt b], dst := [(b.dstKey, { broken := false, gen := 0, expect := 0, tick := 0 })] } }

/-- Bytes of HBM. -/
def memOf (l : List (Nat × List Byte)) : List Host.Cell := l.foldl (fun m e => memWrite m e.1 e.2) []

/-- A tariff calendar of one season and one day profile, band 1 all day. -/
def calendar : List Byte :=
  let c : List Byte := [0x56#8, 0x43#8, 0x41#8, 0x4C#8] ++ leBytes 4 7 ++ leBytes 2 120 ++ [1#8, 1#8] ++ zeros 20 ++ [1#8, 1#8] ++ zeros 14 ++ [1#8] ++ zeros 17 ++ [1#8] ++ zeros 45
  c ++ leBytes 8 (crc64 c)

/-- A chip whose basin 0 serves, with one slot of the request table. -/
def serving (c : SrvCfg) (r : Req) (l : List (Nat × Nat) := []) (b : SrvBasin := {}) (d : Dev := up) : State :=
  chip ([(rSrvState 0, 1), (rSrvCfg 0, 4095 + 1 * 2 ^ 12)] ++ l)
    { d with srv := { basins := [(0, { b with cfg := some c })], reqs := [(4095, r)] } }

/-- A serving configuration: one region of one page, step queue 1. -/
def cfg : SrvCfg :=
  { bases := [0x100000], pageBytes := 64, poolPages := 1, poolMeta := 0x110000, listArea := 0x120000, manifest := 0x130000, program := 0x140000,
    programLen := 64, patchTable := 0x150000, patchCount := 0, stepQueue := 1, rowBudget := 64, chunk := 64, stepReqs := 8 }

/-- A CONFIGURE block that gives such a configuration, with queue 1 as the step queue, and its region base. -/
def cfgBytes : List Byte :=
  leBytes 128 (rec_ [(0, 0x20000), (6, 0), (8, 64), (12, 1), (16, 0x110000), (24, 0x120000), (32, 0x130000), (40, 8192), (44, 0x140000), (52, 64), (56, 0x150000),
    (63, 1), (64, 64), (68, 64), (70, 8)])

/-- A SUBMIT descriptor: one prompt token, one new token. -/
def reqBytes : List Byte := leBytes 128 (rec_ [(0, 0x30000), (8, 1), (12, 1), (16, 0x40000), (24, 1), (42, 0x3F80)])

/-- A chip whose queue 0 has taken up one entry of a kind, with memory and further state. -/
def takes (kind bytes : Nat) (l : List (Nat × Nat)) (d : Dev) (mem : List Host.Cell := []) : State := taken kind bytes l d .fetched mem

/-- The turn after the grant of a queue. -/
def turnOf (s : State) (k : Nat) (ready : List Nat) : Turn := ((s.grant k ready).getD (0, {})).2

/-- A set list of one tensor of 64 KiB at 0x200000. -/
def setList : List Byte :=
  leBytes 16 9 ++ zeros 112 ++ leBytes 128 (rec_ [(0, 0x200000), (11, 1), (16, 32768), (20, 1), (24, 1), (28, 1), (32, 2), (64, 5), (72, 32768), (76, 1), (80, 1), (84, 1)])

/-- A count of 0 for every tile. -/
def everyTile : List (Nat × Nat) := (List.range 96).map fun k => (k, 0)

/-! ### Ill-formed commands are refused -/

theorem test_wf_reader : Instr.wf (.unsupportedAccess 19 false 0 4) = false := by decide +kernel

theorem test_wf_offset : Instr.wf (.unsupportedAccess 0 false 0x1000000 4) = false := by decide +kernel

theorem test_wf_size_zero : Instr.wf (.unsupportedAccess 0 false 0 0) = false := by decide +kernel

theorem test_wf_size_over : Instr.wf (.unsupportedAccess 0 false 0 65) = false := by decide +kernel

theorem test_wf_hole_offset : Instr.wf (.holeAccess 0 false 0x1000000) = false := by decide +kernel

theorem test_wf_split_value : Instr.wf (.split64Access 0 true 4 (2 ^ 64)) = false := by decide +kernel

theorem test_wf_low_read : Instr.wf (.lowWordRead 19 0) = false := by decide +kernel

theorem test_wf_high_read : Instr.wf (.highWordRead 0 0x1000000) = false := by decide +kernel

theorem test_wf_rc_read : Instr.wf (.rcRead 19 0 true) = false := by decide +kernel

theorem test_wf_low_value : Instr.wf (.lowWordWrite 0 0 (2 ^ 32)) = false := by decide +kernel

theorem test_wf_high_value : Instr.wf (.highWordWrite 0 0 (2 ^ 32)) = false := by decide +kernel

theorem test_wf_wide_value : Instr.wf (.aligned64Write 0 0 (2 ^ 64)) = false := by decide +kernel

theorem test_wf_word_value : Instr.wf (.registerWrite 0 0 (2 ^ 32)) = false := by decide +kernel

theorem test_wf_power_input : Instr.wf (.pwrGoodRise 4) = false := by decide +kernel

theorem test_wf_straps : Instr.wf (.poresetRelease 16 true) = false := by decide +kernel

theorem test_wf_clock_code : Instr.wf (.fuseRead true 4096) = false := by decide +kernel

theorem test_wf_clock_code_negative : Instr.wf (.fuseRead true (-1)) = false := by decide +kernel

theorem test_wf_vout : Instr.wf (.sectionApply (some 65536)) = false := by decide +kernel

theorem test_wf_failed_tile : Instr.wf (.tileSelftestDone [96] false) = false := by decide +kernel

theorem test_wf_repaired_page_place : Instr.wf (.hbmTrainingDone [1] (List.replicate 32 [])) = false := by decide +kernel

theorem test_wf_repaired_page_outside : Instr.wf (.hbmTrainingDone [0x600000000] (List.replicate 32 [])) = false := by decide +kernel

theorem test_wf_delays : Instr.wf (.hbmTrainingDone [] []) = false := by decide +kernel

theorem test_wf_channel : Instr.wf (.hbmTrainTimeout 16) = false := by decide +kernel

theorem test_wf_sector_place : Instr.wf (.hbmBistDone [{ sector := 16, kind := .correctable }]) = false := by decide +kernel

theorem test_wf_sector_outside : Instr.wf (.hbmBistDone [{ sector := 0x600000000, kind := .correctable }]) = false := by decide +kernel

theorem test_wf_sector_channel : Instr.wf (.hbmBistDone [{ sector := 0, kind := .correctable, chan := 16 }]) = false := by decide +kernel

theorem test_wf_sector_pseudo : Instr.wf (.hbmBistDone [{ sector := 0, kind := .correctable, pseudo := 2 }]) = false := by decide +kernel

theorem test_wf_sector_bank : Instr.wf (.hbmBistDone [{ sector := 0, kind := .correctable, bank := 64 }]) = false := by decide +kernel

theorem test_wf_sector_row : Instr.wf (.hbmBistDone [{ sector := 0, kind := .correctable, row := 0x40000 }]) = false := by decide +kernel

theorem test_wf_mark_tile : Instr.wf (.ownTimeMark { pace := everyTile ++ [(96, 0)] }) = false := by decide +kernel

theorem test_wf_mark_missing_tile : Instr.wf (.ownTimeMark { pace := everyTile.drop 1 }) = false := by decide +kernel

theorem test_wf_mark_sensor : Instr.wf (.ownTimeMark { pace := everyTile, raw := [(98, 0)] }) = false := by decide +kernel

theorem test_wf_mark_code : Instr.wf (.ownTimeMark { pace := everyTile, raw := [(0, 4096)] }) = false := by decide +kernel

theorem test_wf_mark_rail : Instr.wf (.ownTimeMark { pace := everyTile, rails := [256] }) = false := by decide +kernel

theorem test_wf_mark_lane : Instr.wf (.ownTimeMark { pace := everyTile, symbols := [(64, 0)] }) = false := by decide +kernel

theorem test_wf_mark_unlocked : Instr.wf (.ownTimeMark { pace := everyTile, unlocked := [64] }) = false := by decide +kernel

theorem test_wf_pmb_mode : Instr.wf (.paceDecision { mode := some 256 }) = false := by decide +kernel

theorem test_wf_pmb_vout : Instr.wf (.paceDecision { vout := some 65536 }) = false := by decide +kernel

theorem test_wf_pmb_iout : Instr.wf (.paceDecision { iout := some 65536 }) = false := by decide +kernel

theorem test_wf_margin_tile : Instr.wf (.marginEvent 96) = false := by decide +kernel

theorem test_wf_queue : Instr.wf (.endProgram 256 []) = false := by decide +kernel

theorem test_wf_operator_errors : Instr.wf (.matmul 0 [{ sector := 1, kind := .correctable }]) = false := by decide +kernel

theorem test_wf_granted_tile : Instr.wf (.operatorAccept 0 [96] []) = false := by decide +kernel

theorem test_wf_report_source : Instr.wf (.operatorComplete 0 { faults := [(0, 1)] }) = false := by decide +kernel

theorem test_wf_report_tile : Instr.wf (.operatorComplete 0 { faults := [(96, 4)] }) = false := by decide +kernel

theorem test_wf_report_errors : Instr.wf (.operatorComplete 0 { es := [{ sector := 1, kind := .correctable }] }) = false := by decide +kernel

theorem test_wf_basin : Instr.wf (.glbGateAdd 0 16 0) = false := by decide +kernel

theorem test_wf_gate : Instr.wf (.glbGateWrite 0 0 256 0) = false := by decide +kernel

theorem test_wf_tile_sram : Instr.wf (.lengthsmanRead [] [.tileSram 96 false]) = false := by decide +kernel

theorem test_wf_request_table : Instr.wf (.lengthsmanRead [] [.requestTable true 4096 true]) = false := by decide +kernel

theorem test_wf_prefix_index : Instr.wf (.lengthsmanRead [] [.prefixIndex true 65536]) = false := by decide +kernel

theorem test_wf_codec_table : Instr.wf (.lengthsmanRead [] [.codecTable true 256]) = false := by decide +kernel

theorem test_wf_form_map : Instr.wf (.lengthsmanRead [] [.formMap true 98304]) = false := by decide +kernel

theorem test_wf_wharf_sram : Instr.wf (.lengthsmanRead [] [.wharfSram true 0x908000]) = false := by decide +kernel

theorem test_wf_rank_basin : Instr.wf (.lengthsmanRead [] [.rankState true [(16, 0, 0)]]) = false := by decide +kernel

theorem test_wf_rank_group : Instr.wf (.lengthsmanRead [] [.rankState true [(0, 16, 0)]]) = false := by decide +kernel

theorem test_wf_rank_sequence : Instr.wf (.lengthsmanRead [] [.rankState true [(0, 0, 0x1000000)]]) = false := by decide +kernel

theorem test_wf_doorbell_function : Instr.wf (.doorbell 16 true 0 4 0) = false := by decide +kernel

theorem test_wf_engine : Instr.wf (.copy 0 8) = false := by decide +kernel

theorem test_wf_table : Instr.wf (.load 0 0 256) = false := by decide +kernel

theorem test_wf_port : Instr.wf (.training 16 0) = false := by decide +kernel

theorem test_wf_training_lanes : Instr.wf (.training 0 16) = false := by decide +kernel

theorem test_wf_word_length : Instr.wf (.codewordUncorrectable 0 [] false) = false := by decide +kernel

theorem test_wf_word_symbol : Instr.wf (.codewordUncorrectable 0 (List.replicate 543 0 ++ [1024]) false) = false := by decide +kernel

theorem test_wf_test_bytes : Instr.wf (.test 0 (zeros 4097)) = false := by decide +kernel

theorem test_wf_bus_tick : Instr.wf (.smbusTimeout (2 ^ 64)) = false := by decide +kernel

theorem test_wf_lane : Instr.wf (.laneAdaptTimeout 0 4) = false := by decide +kernel

theorem test_wf_hello_lanes : Instr.wf (.hello 0 16 (zeros 16)) = false := by decide +kernel

theorem test_wf_frame : Instr.wf (.credit 0 []) = false := by decide +kernel

theorem test_wf_barge_bytes : Instr.wf (.bargeReceive 0 (zeros 4225) false) = false := by decide +kernel

theorem test_wf_flow_queue : Instr.wf (.ackTimeout 512 0 0) = false := by decide +kernel

theorem test_wf_flow_dest : Instr.wf (.ackTimeout 0 4096 0) = false := by decide +kernel

theorem test_wf_flow_class : Instr.wf (.ackTimeout 0 0 4) = false := by decide +kernel

theorem test_wf_group : Instr.wf (.openGroup 0 0 16 []) = false := by decide +kernel

theorem test_wf_collective_sequence : Instr.wf (.rankTimeout 0 0 (2 ^ 24)) = false := by decide +kernel

theorem test_wf_host_range : Instr.wf (.configure 0 [(0, [0#8])] []) = false := by decide +kernel

theorem test_wf_host_end : Instr.wf (.submit 0 [(0xFFFFFFFFFFFF, [0#8, 0#8])] []) = false := by decide +kernel

theorem test_wf_request : Instr.wf (.mooringDone 4096) = false := by decide +kernel

theorem test_wf_set : Instr.wf (.epochWaitTimeout 16) = false := by decide +kernel

theorem test_wf_page : Instr.wf (.cowCopy 0 393216 []) = false := by decide +kernel

theorem test_wf_drive : Instr.wf (.nvmeCompletion 8 []) = false := by decide +kernel

theorem test_wf_drive_errors : Instr.wf (.nvmeCompletion 0 [{ sector := 1, kind := .correctable }]) = false := by decide +kernel

theorem test_wf_battery : Instr.wf (.batteryTestEnd 4096 false) = false := by decide +kernel

theorem test_wf_meter_block : Instr.wf (.meterSample [2 ^ 512] []) = false := by decide +kernel

theorem test_wf_meter_channel : Instr.wf (.meterSample [] [7]) = false := by decide +kernel

theorem test_wf_window_code : Instr.wf (.windowEnd 4096) = false := by decide +kernel

theorem test_wf_pulse_input : Instr.wf (.pulseInAccept 2 true) = false := by decide +kernel

theorem test_wf_snapshot_reader : Instr.wf (.snapshotSealed 2) = false := by decide +kernel

theorem test_wf_slot : Instr.wf (.activitySilent 8) = false := by decide +kernel

theorem test_wf_rail : Instr.wf (.lcdRailSettled 65536 0) = false := by decide +kernel

theorem test_wf_sensor : Instr.wf (.autoZero 98 .timeout) = false := by decide +kernel

theorem test_wf_pseudo_channel : Instr.wf (.hbmRecenter 32) = false := by decide +kernel

theorem test_wf_source : Instr.wf (.faultEvent 256 0) = false := by decide +kernel

theorem test_wf_unit : Instr.wf (.faultEvent 0 65536) = false := by decide +kernel

theorem test_wf_force_word : Instr.wf (.fltForce 0 8 0) = false := by decide +kernel

theorem test_wf_capture : Instr.wf (.pop 0 16 0) = false := by decide +kernel

theorem test_wf_link_width : Instr.wf (.linkUp 3 1 {}) = false := by decide +kernel

theorem test_wf_link_rate : Instr.wf (.linkUp 16 6 {}) = false := by decide +kernel

theorem test_wf_link_config : Instr.wf (.linkUp 16 1 { mps := 64 }) = false := by decide +kernel

theorem test_wf_link_vfs : Instr.wf (.linkUp 16 1 { numVfs := 16 }) = false := by decide +kernel

theorem test_wf_flr : Instr.wf (.flr 0) = false := by decide +kernel

theorem test_wf_vector : Instr.wf (.msixPendingSend 0 64) = false := by decide +kernel

theorem test_wf_read_bytes : Instr.wf (.readCompletion (.sq 0) (.data (zeros 4097))) = false := by decide +kernel

theorem test_wf_read_user : Instr.wf (.completionTimeout (.copy 8)) = false := by decide +kernel

theorem test_wf_requester : Instr.wf (.bar4Tlp 65536 false 0 [] 0) = false := by decide +kernel

theorem test_wf_bar4_length : Instr.wf (.bar4Tlp 0 false 0 [] 4097) = false := by decide +kernel

theorem test_wf_smbus_pec : Instr.wf (.setAddr [] (some 256)) = false := by decide +kernel

theorem test_wf_smbus_bytes : Instr.wf (.setAddr (zeros 256) none) = false := by decide +kernel

/-- A well-formed command is not refused. -/
theorem test_wf_accepts : Instr.wf (.hbmBistDone [{ sector := 32, kind := .correctable, row := 0x3FFFF }]) = true ∧ Instr.wf (.ownTimeMark { pace := everyTile }) = true := by decide +kernel

/-! ### Single steps, with the numbers of the spec's worked examples -/

/-- What a command makes of a state. -/
def after (i : Instr) (s : State) : State :=
  match exec i s with
  | .next t => t
  | _ => s

/-- A device whose VF3 exists, with Bus Master Enable. -/
def vf3 : Dev :=
  { up with
    pci := { fns := [(0, { bme := true, mse := true, msix := true }), (3, { bme := true, mse := true, msix := true })], vfEnable := true, numVfs := 3 } }

/-- Basin 3's windows of Example 5.1, and its window over PCIe of Example 6.1. -/
def windows3 : List (Nat × Nat) :=
  [(rLckBasin 3, 5), (rLckWin 3 0, 0x40000003), (rLckWin 3 1, 0x18FFFF000), (rLckWin 3 2, 0x500000007), (rLckWin 3 3, 0x53FFFF000),
   (rLckWin 3 4, 0x800040000007), (rLckWin 3 5, 0x800043FFF000)]

/-- Example 0.1: the low word of TBS_COUNT is answered live, and the shadow keeps the high word. -/
theorem test_paired_read :
    let s := after (.lowWordRead 0 rTbsCount) { chip [] { up with clk := { started := true } } with now := 0x1FFFFFFF0 }
    s.out = [.readData 0 0x18000 0xFFFFFFF0] ∧ s.dev.readers.shadow = [(0, ⟨rTbsCount, 1⟩)] := by decide +kernel

/-- Example 2.2: ties go to the even neighbour. -/
theorem test_ties :
    rne (1 + mkRat 1 256) = 0x3F80#16 ∧ rne (1 + mkRat 3 256) = 0x3F82#16 ∧ rne (1 + mkRat 1 256 + mkRat 1 (2 ^ 20)) = 0x3F81#16 := by
  decide +kernel

/-- Example 2.3: 1 + 2^-9 + 2^-12 as a pair. -/
theorem test_pair : pairVal (.ofRat (1 + mkRat 1 512 + mkRat 1 4096)) = (0x3F80#16, 0x3B10#16, 0) := by decide +kernel

/-- Example 2.1: 256 + 1 - 256 is 1 in a pound, in any order. -/
theorem test_pound :
    rneVal (poundOf [.ofRat 256, .ofRat 1, .ofRat (-256)]).val = (0x3F80#16, 0)
      ∧ rneVal (poundOf [.ofRat 256, .ofRat (-256), .ofRat 1]).val = (0x3F80#16, 0) := by decide +kernel

/-- Example 4.2: e^-1 rounds to 0x3EBC, and the shares of 303/128 to 0x3ED8 and 0x3E1F. -/
theorem test_softmax_points :
    fnVal .exp (.ofRat (-1)) = (0x3EBC#16, 0) ∧ rne (mkRat 128 303) = 0x3ED8#16 ∧ rne (mkRat 47 303) = 0x3E1F#16 := by decide +kernel

/-- The chip of Example 3.2, its slowest tile at a count and VDD_CORE at a voltage. -/
def paced (cnt mv : Nat) : State :=
  chip ([(rGlbRole, 2 ^ 31), (rPacCtrl, 1), (rPacVdd, mv + mv * 1024), (rPacTarget, 102400 + 1024 * 2 ^ 19),
    (rPacBounds, 80000 + 200000 * 2 ^ 18 + 600 * 2 ^ 36 + 900 * 2 ^ 46), (rPacLimits, 200 + 105 * 256), (rPacTile 0, cnt)])
    { up with pace := { marks := 16 } }

/-- What the regulator reads at a voltage. -/
def reads (mv : Nat) : PmbReads := { mode := some 0x17, vout := some (mv * 512 / 1000), iout := some 0 }

/-- Example 3.2: a tile below the band raises the voltage by one step of 5 mV; in the band it is held. -/
theorem test_pace :
    (after (.paceDecision (reads 750)) (paced 99123 750)).fld rPacVdd 0 10 = 755
      ∧ (after (.paceDecision (reads 765)) (paced 101859 765)).fld rPacVdd 0 10 = 765
      ∧ (after (.paceDecision (reads 765)) (paced 101859 765)).fld rPacStatus 6 3 = 7 := by decide +kernel

/-- The copy entry of Example 5.1. -/
def spanEntry : Nat := rec_ [(0, 0x10), (16, 0x53FFFF000), (24, 0x800040000000), (32, 4096), (36, 2), (40, 4096), (48, 4096)]

/-- Queue 0x21 of basin 3 has fetched that entry. -/
def spanWork : Work := { queues := [(0x21, { owed := [{ idx := 0, bytes := spanEntry, stage := .fetched }] })] }

/-- The chip of Example 5.1. -/
def spanning : State := chip (windows3 ++ [(rQueCfg 0x21, 0x80102853), (rQueStatus 0x21, 1)]) { vf3 with work := spanWork }

/-- Example 5.1: the refusal LOCK_SPAN as LCK_LAST_3 records it. -/
theorem test_lock_span :
    let s := after (.copy 0x21 2) spanning
    s.reg (rLckLast 3 0) = 0x53FFFF000#64 ∧ s.reg (rLckLast 3 1) = 0x540000FFF#64 ∧ s.reg (rLckLast 3 2) = 0x21021116#64
      ∧ s.reg (rMemActRd 3) = 0#64 := by decide +kernel

/-- Example 5.2: basin 7's two windows of its own are 2,097,152 pages to zero. -/
theorem test_basin_reset :
    (after (.basinReset 7)
      (after (.lckBasinReset 0 0xB45E0007)
        (chip [(rLckWin 0 0, 0), (rLckBasin 7, 5), (rLckWin 7 0, 0x100000007), (rLckWin 7 1, 0x27FFFF000), (rLckWin 7 2, 0x300000007),
          (rLckWin 7 3, 0x37FFFF000), (rLckWin 7 4, 0x400000003), (rLckWin 7 5, 0x400FFF000)]))).reg (rLckBasin 7) = 0x01000006#64 := by
  decide +kernel

/-- Example 6.1: queue 0x21 becomes ENABLED, and its doorbell takes SQ_TAIL 1. -/
theorem test_queue_enable :
    let s := after (.queueEnable 3 0x21)
      (chip (windows3 ++ [(rQueCfg 0x21, 0x80102853), (rQueSqBase 0x21, 0x800042000000), (rQueCqBase 0x21, 0x800042004000)]) vf3)
    s.fld (rQueStatus 0x21) 0 2 = 1 ∧ ((after (.doorbell 3 true 0x21000 4 0x8001) s).queue 0x21).sqTail = 1 := by decide +kernel

/-- The lengths of Table 7.8. -/
def lens18 : List Nat := List.replicate 123 10 ++ [4, 3, 2, 2, 3] ++ List.replicate 10 10 ++ List.replicate 118 11

/-- Example 7.1: the codes of Table 18. -/
theorem test_codes :
    lensValid lens18 = true
      ∧ ([(125, 2, 0), (126, 2, 1), (124, 3, 4), (127, 3, 5), (123, 4, 12), (0, 10, 832), (122, 10, 954), (128, 10, 955), (138, 11, 1930),
          (255, 11, 2047)] : List (Nat × Nat × Nat)).all (canon lens18).contains = true := by decide +kernel

/-- Example 8.1: the header's bytes 8 to 23, without OPENS and CODED. -/
theorem test_header : (barge 1 2 (zeros 2752) 0 0x510000000 0x21 0x43 0x44).hdr % 2 ^ 128 = 0x04400005100000000AC0002100430201 := by decide +kernel

/-- Example 9.1: ARG of node (1, 8)'s contribution in NODE_BF16 mode, and its value. -/
theorem test_rank_arg :
    leBytes 8 (rankArg 8 1 2 0x105 0 false true 0x42) = [0x08#8, 0#8, 0x21#8, 0x05#8, 0x01#8, 0#8, 0x08#8, 0x42#8]
      ∧ rne 263 = 0x4384#16 ∧ rne (-249) = 0xC379#16 := by decide +kernel

/-- Example 9.1: chip 0x044 opens group slot 2. -/
theorem test_open_group :
    (after (.openGroup 3 3 2 [])
      { chip (windows3 ++ [(rGlbRole, 0x80044044), (rRnkArg 3, 0x520000000), (rIbnPState 4, 66)] ++ (List.range 8).map fun i => (rIbnRoute (0x40 + i), 0x1004))
          vf3 with
        mem := memOf [(0x520000000, [4#8, 1#8, 9#8, 0#8, 0#8, 4#8, 0#8, 0#8, 0x40#8, 0#8, 0#8, 0x20#8, 5#8]),
          (0x520000040, (List.range 8).flatMap fun i => leBytes 4 (0x40 + i))] }).reg (rRnkGrp 3 2) = 0x04800851#64 := by decide +kernel

/-- Example 12.1: a missing XTAL edge. -/
theorem test_clock_loss :
    let s := after .xtalMissingEdge { chip [(rClkStatus, 9)] { up with clk := { started := true } } with now := 0x2000002F60 }
    s.reg rClkStatus = 0x10016#64 ∧ s.reg rClkLossTick = 0x2000002F60#64 ∧ iroChange (8 * 131079) = -2 := by decide +kernel

/-- Example 13.1: a window of 1,563 samples at 2.4 kW hands 133 whole mWh to quantities 0 and 6. -/
theorem test_energy : (additions 1563 (iv 2400000) (iv 0) (iv 2400000)).map (· / 2 ^ 32) = [133, 0, 0, 0, 0, 0, 133] := by decide +kernel

/-- Equal activity of basins 0, 3 and 7. -/
def thirds : List Nat := [1, 0, 0, 1, 0, 0, 0, 1, 0, 0, 0, 0, 0, 0, 0, 0]

/-- Example 14.1: the two closes of 40,000 mWh. -/
theorem test_shares :
    apportion 40000 thirds (List.replicate 16 0)
        = ([13334, 0, 0, 13333, 0, 0, 0, 13333, 0, 0, 0, 0, 0, 0, 0, 0], [-0xAAAAAAAA, 0, 0, 0x55555555, 0, 0, 0, 0x55555555, 0, 0, 0, 0, 0, 0, 0, 0])
      ∧ (apportion 40000 thirds [-0xAAAAAAAA, 0, 0, 0x55555555, 0, 0, 0, 0x55555555, 0, 0, 0, 0, 0, 0, 0, 0]).1
        = [13333, 0, 0, 13334, 0, 0, 0, 13333, 0, 0, 0, 0, 0, 0, 0, 0] := by decide +kernel

/-- Example 15.1: the segments of the tray's day-band import. -/
theorem test_page :
    (chip [(rLcdPage 0, 0x01010001), (rTolTray 0 1, 0x7A120000)]).pageBits 0
      = 0x505F + 0x3D000000 * 2 ^ 32 + 0x5FFF725F * 2 ^ 64 + 0x21015F5F * 2 ^ 96 + 0x10 * 2 ^ 128 := by decide +kernel

/-- Example 18.1: the third pound-parity event of tile 17 trips and retires it. -/
theorem test_trip :
    let s := after (.faultEvent 0 0x11)
      { chip [(rFltMode, 1), (rFltSrc 0, 3 + 40 * 2 ^ 8 + 2 ^ 16)]
          { up with flt := { counts := [(0x11, { n := 2, start := 0x5000000000 })] } } with now := 0xD000000000 }
    s.caps 0 = [{ tick := 0xD000000000, source := 0, flags := 4, unit := 0x11, count := 3, reactions := 1 }] ∧ s.tileState 0x11 = 2
      ∧ s.bit (rFltTrip 0) 0 = true := by decide +kernel

/-- Example 20.1: VF3 reads zero at GLB_SEED_7, and CSR_ACCESS counts. -/
theorem test_foreign_read :
    let s := after (.holeAccess 3 false 0x138) (chip [(rLckBasin 3, 5), (rGlbSeed 7, 5)] vf3)
    s.out = [.readData 3 0x138 0] ∧ s.reg (rFltEvents 0x24) = 1#64 := by decide +kernel

/-- R663: at trim 4 a replica of 100,000 cycles makes 80,000. -/
theorem test_trimmed_count : (chip [(rPacTile 7, 4 * 2 ^ 22)]).paceCount 7 100000 = 80000 := by decide +kernel

/-- R240: α^10 = α^3 + 1, and the parity of a message makes every syndrome zero. -/
theorem test_code : gfMul 2 512 = 9 ∧ (rsSyndromes (rsEncode [1, 1023])).all (· == 0) = true := by decide +kernel

/-- Table 19.2: what PF0 and VF 3 show in configuration space. -/
theorem test_identity : (chip []).pciIdentity 0 = ⟨0x1E2F, 0x5F01, 0xA1, 0x120000, 0⟩ ∧ ((chip []).pciIdentity 3).device = 0x5F02 := by decide +kernel

/-- The hypothesis of the last clauses of LowWordWrite and HighWordAnd64BitWrite, for a 64-bit and a 32-bit register. -/
theorem witness_plainWrites : (∀ x, PlainWrite 0 (at_ (rGlbSeed 0)) x) ∧ (∀ x, PlainWrite 0 (at_ (rGlbArithFlags 0)) x) :=
  ⟨fun _ => ⟨rfl, by decide +kernel⟩, fun _ => ⟨rfl, by decide +kernel⟩⟩

/-! ### Witnesses of the statements' hypotheses -/

theorem witness_stepKeepsSound :
  (∃ (s : State) (t : State), s.sound = true ∧ step s = .next t) :=
  ⟨State.reset, State.reset, by decide +kernel, rfl⟩

theorem witness_gateNeverFalls :
  (∃ (s : State) (t : State) (b : Nat) (g : Nat), step s = .next t ∧ s.pending.head? ≠ some .chipReset ∧ (∀ i, s.pending.head? ≠ some (.pwrGoodFall i))) :=
  ⟨State.reset, State.reset, 0, 0, rfl, by decide, fun _ => by simp [State.reset]⟩

theorem witness_timebaseNeverFalls :
  (∃ (s : State) (t : State), step s = .next t ∧ s.now < 2 ^ 64 - 2 ∧ s.pending.head? ≠ some .chipReset ∧ (∀ i, s.pending.head? ≠ some (.pwrGoodFall i))) :=
  ⟨State.reset, State.reset, rfl, by decide, by decide, fun _ => by simp [State.reset]⟩

theorem witness_idleCountsOneTick :
  (∃ (s : State), s.pending = []) :=
  ⟨State.reset, by decide +kernel⟩

theorem witness_lowWordRead :
  (∃ (s : State) (rd : Nat) (off : Nat) (l : Loc), ReadsPlace s rd off (.reg l) ∧ l.high = false ∧ l.reg ≠ rBrdGpio ∧ l.row.acc ≠ .rc) :=
  ⟨chip [], 0, rGlbSeed 0, at_ (rGlbSeed 0), by decide +kernel⟩

theorem witness_highWordRead :
  (∃ (s : State) (rd : Nat) (off : Nat) (l : Loc), ReadsPlace s rd off (.reg l) ∧ l.high = true ∧ l.reg ≠ rBrdGpio) :=
  ⟨chip [], 16, rGlbSeed 0 + 4, at_ (rGlbSeed 0 + 4), by decide +kernel⟩

theorem witness_rcRead :
  (∃ (s : State) (rd : Nat) (off : Nat) (l : Loc), Reaches s rd ∧ off % 8 = 0 ∧ off < windowSize rd ∧ s.place rd off = .reg l ∧ l.row.wide = true ∧ l.high = false ∧ l.reg ≠ rBrdGpio) ∧
  (∃ (s : State) (rd : Nat) (off : Nat) (l : Loc), ReadsPlace s rd off (.reg l) ∧ l.row.wide = true ∧ l.high = false ∧ l.reg ≠ rBrdGpio) :=
  ⟨⟨chip [], 18, rGlbSeed 0, at_ (rGlbSeed 0), by decide +kernel⟩,
   ⟨chip [], 0, rGlbSeed 0, at_ (rGlbSeed 0), by decide +kernel⟩⟩

theorem witness_lowWordWrite :
  (∃ (s : State) (rd : Nat) (off : Nat) (v : Nat) (l : Loc), off % 4 = 0 ∧ WritesPlace s rd off l ∧ l.row.wide = true ∧ l.high = false) ∧
  (∃ (s : State) (rd : Nat) (off : Nat) (v : Nat) (l : Loc), off % 4 = 0 ∧ WritesPlace s rd off l ∧ l.row.wide = false ∧ l.high = false) ∧
  (∃ (s : State) (rd : Nat) (off : Nat) (v : Nat) (l : Loc), ReadsPlace s rd off (.reg l) ∧ l.high = false ∧ s.mayWrite rd l = false ∧ l.row.wide = true) ∧
  (∃ (s : State) (rd : Nat) (off : Nat) (v : Nat) (l : Loc), ReadsPlace s rd off (.reg l) ∧ l.high = false ∧ s.mayWrite rd l = false ∧ l.row.wide = false) :=
  ⟨⟨chip [], 0, rGlbSeed 0, 2 ^ 32 - 1, at_ (rGlbSeed 0), by decide +kernel⟩,
   ⟨chip [], 0, rGlbArithFlags 0, 31, at_ (rGlbArithFlags 0), by decide +kernel⟩,
   ⟨chip [], 16, rTbsCount, 1, at_ rTbsCount, by decide +kernel⟩,
   ⟨chip [], 0, rGlbId, 2 ^ 32 - 1, at_ rGlbId, by decide +kernel⟩⟩

theorem witness_highWordAnd64BitWrite :
  (∃ (s : State) (rd : Nat) (off : Nat) (v : Nat) (l : Loc), ReadsPlace s rd off (.reg l) ∧ l.high = true ∧ s.mayWrite rd l = true) ∧
  (∃ (s : State) (rd : Nat) (off : Nat) (v : Nat) (l : Loc), off % 8 = 0 ∧ WritesPlace s rd off l ∧ l.row.wide = true ∧ l.high = false) ∧
  (∃ (s : State) (rd : Nat) (off : Nat) (v : Nat) (l : Loc), ReadsPlace s rd off (.reg l) ∧ s.mayWrite rd l = false ∧ l.high = true) ∧
  (∃ (s : State) (rd : Nat) (off : Nat) (v : Nat) (l : Loc), ReadsPlace s rd off (.reg l) ∧ s.mayWrite rd l = false ∧ off % 8 = 0 ∧ l.row.wide = true ∧ l.high = false) :=
  ⟨⟨chip [], 0, rGlbSeed 0 + 4, 7, at_ (rGlbSeed 0 + 4), by decide +kernel⟩,
   ⟨chip [], 0, rGlbSeed 0, 2 ^ 64 - 1, at_ (rGlbSeed 0), by decide +kernel⟩,
   ⟨chip [], 0, rTbsCount + 4, 2 ^ 32 - 1, at_ (rTbsCount + 4), by decide +kernel⟩,
   ⟨chip [], 16, rTbsCount, 5, at_ rTbsCount, by decide +kernel⟩⟩

theorem witness_holeAndUnsupportedAccess :
  (∃ (s : State) (rd : Nat) (off : Nat), s.dev.flt.ignored.contains 0x24 = false ∧ ReadsPlace s rd off .hole) ∧
  (∃ (s : State) (rd : Nat) (off : Nat) (size : Nat), s.dev.flt.ignored.contains 0x24 = false ∧ Reaches s rd ∧ supported rd off size = false ∧ off < windowSize rd) :=
  ⟨⟨chip [], 0, 0x20, by decide +kernel⟩,
   ⟨chip [], 0, 0x101, 4, by decide +kernel⟩⟩

theorem witness_split64Access :
  (∃ (s : State) (rd : Nat) (off : Nat) (v : Nat) (l : Loc) (m : Loc), Reaches s rd ∧ off % 8 = 0 ∧ off < windowSize rd ∧ s.place rd off = .reg l ∧ s.place rd (off + 4) = .reg m ∧ l.row.wide = false ∧ l.high = false ∧ m.row.wide = false ∧ m.high = false ∧ l.row.acc ≠ .rc ∧ m.row.acc ≠ .rc ∧ l.reg ≠ rBrdGpio ∧ m.reg ≠ rBrdGpio) ∧
  (∃ (s : State) (rd : Nat) (off : Nat) (v : Nat) (l : Loc), Reaches s rd ∧ off % 8 = 0 ∧ off < windowSize rd ∧ s.place rd off = .reg l ∧ (l.row.wide = false ∨ l.high = true)) :=
  ⟨⟨chip [], 0, 0x180, 0, at_ 0x180, at_ 0x184, by decide +kernel⟩,
   ⟨chip [], 0, 0x180, 2 ^ 64 - 1, at_ 0x180, by decide +kernel⟩⟩

theorem witness_pciOutHiWrite :
  (∃ (s : State) (rd : Nat) (v : Nat) (l : Loc), Writes s rd rPciOutHi l) :=
  ⟨chip [], 0, 2 ^ 47, at_ (rPciOutHi), by decide +kernel⟩

theorem witness_faultEventCounts :
  (∃ (s : State) (src : Nat) (u : Nat), src < 256 ∧ srcReserved src = false ∧ u < srcUnits src ∧ s.dev.flt.ignored.contains src = false ∧ retires src = false ∧ src ≠ 0x60 ∧ src ≠ 0x62) :=
  ⟨chip [(rFltSrc 0x24, 2)], 0x24, 0, by decide +kernel⟩

theorem witness_tileRetiresAtThreshold :
  (∃ (s : State) (src : Nat) (u : Nat), src ≤ 6 ∧ u < 96 ∧ s.dev.flt.ignored.contains src = false ∧ s.fld (rFltSrc src) 0 8 = 1 ∧ s.tileState u ≠ 2) :=
  ⟨chip [(rFltSrc 6, 1)], 6, 95, by decide +kernel⟩

theorem witness_forcedEvents :
  (∃ (s : State) (rd : Nat) (w : Nat) (v : Nat) (l : Loc), w < 8 ∧ Writes s rd (rFltForce w) l) :=
  ⟨chip [(rFltCtrl, 1)], 0, 7, 1, at_ (rFltForce 7), by decide +kernel⟩

theorem witness_tripClear :
  (∃ (s : State) (rd : Nat) (w : Nat) (v : Nat) (l : Loc), w < 8 ∧ Writes s rd (rFltTrip w) l) :=
  ⟨chip [], 0, 0, 2 ^ 31, at_ (rFltTrip 0), by decide +kernel⟩

theorem witness_captureCommands :
  (∃ (s : State) (rd : Nat) (g : Nat) (v : Nat) (l : Loc), g < 16 ∧ Writes s rd (rFltCapCmd g) l ∧ s.history g = true ∧ bitOf v 0 = true) ∧
  (∃ (s : State) (rd : Nat) (g : Nat) (v : Nat) (l : Loc), g < 16 ∧ Writes s rd (rFltCapCmd g) l ∧ s.history g = false ∧ bitOf v 0 = true) :=
  ⟨⟨chip [(rFltMode, 2 ^ 15)], 0, 15, 1, at_ (rFltCapCmd 15), by decide +kernel⟩,
   ⟨chip [], 0, 0, 1, at_ (rFltCapCmd 0), by decide +kernel⟩⟩

theorem witness_tileRelease :
  (∃ (s : State) (rd : Nat) (v : Nat) (l : Loc), Writes s rd rFltRelease l) :=
  ⟨chip [(rPacTile 95, 2 * 2 ^ 18)], 0, 0x7E1A005F, at_ (rFltRelease), by decide +kernel⟩

theorem witness_laneStoppage :
  (∃ (s : State), s.bit rStpCfg 13 = true ∧ s.dev.board.laneSlot < s.now / 2 ^ 33 ∧ s.pState (s.now / 2 ^ 33 % 64 / 4) = 2 ∧ 2 ≤ s.pWidth (s.now / 2 ^ 33 % 64 / 4) ∧ bitOf (s.pActive (s.now / 2 ^ 33 % 64 / 4)) (s.now / 2 ^ 33 % 64 % 4) = true ∧ bitOf (s.laneMask (s.now / 2 ^ 33 % 64 / 4)) (s.now / 2 ^ 33 % 64 % 4) = true ∧ s.bit rStpStatus 1 = false ∧ s.chipId < s.fld (rIbnPNeigh (s.now / 2 ^ 33 % 64 / 4)) 0 12) ∧
  (∃ (s : State), s.bit rStpCfg 13 = true ∧ s.dev.board.laneSlot < s.now / 2 ^ 33 ∧ s.bit rStpStatus 1 = true) :=
  ⟨⟨chip [(rStpCfg, 2 ^ 13), (rIbnPState 0, 2 + 2 * 2 ^ 4 + 3 * 2 ^ 8), (rIbnPNeigh 0, 9)] up (64 * 2 ^ 33), by decide +kernel⟩,
   ⟨chip [(rStpCfg, 2 ^ 13), (rStpStatus, 2)] up (2 ^ 33), by decide +kernel⟩⟩

theorem witness_autoZero :
  (∃ (s : State) (k : Nat) (t0 : Nat) (a : Int), k < 98 ∧ mget? s.dev.cal.azRun k = some t0 ∧ s.now ≤ t0 + 2 ^ 20 ∧ -16 ≤ a ∧ a ≤ 16) ∧
  (∃ (s : State) (k : Nat) (t0 : Nat), k < 98 ∧ mget? s.dev.cal.azRun k = some t0 ∧ t0 + 2 ^ 20 ≤ s.now) :=
  ⟨⟨chip [] { up with cal := { azRun := [(97, 5)] } } (2 ^ 20 + 5), 97, 5, -16, by decide +kernel⟩,
   ⟨chip [] { up with cal := { azRun := [(0, 5)] } } (2 ^ 20 + 5), 0, 5, by decide +kernel⟩⟩

theorem witness_hbmRecentering :
  (∃ (s : State) (pc : Nat), pc < 32 ∧ s.dev.img.trained = true ∧ s.dryDock = false ∧ mget 0 s.dev.cal.recAt pc + 2 ^ 34 ≤ s.now ∧ mget? s.dev.cal.recentre pc = none ∧ mget? s.dev.cal.accepted pc = none) ∧
  (∃ (s : State) (pc : Nat) (c : Bool) (ds : List Int) (d : List Int), pc < 32 ∧ mget? s.dev.cal.accepted pc = some d) ∧
  (∃ (s : State) (pc : Nat) (t0 : Nat) (f : Option (List Int)), pc < 32 ∧ mget? s.dev.cal.recentre pc = some (t0, f) ∧ t0 + 2 ^ 20 ≤ s.now) :=
  ⟨⟨chip [] { up with img := { trained := true } } (2 ^ 34), 31, by decide +kernel⟩,
   ⟨chip [] { up with cal := { accepted := [(0, [1])] } }, 0, false, [], [1], by decide +kernel⟩,
   ⟨chip [] { up with cal := { recentre := [(0, (3, none))] } } (2 ^ 20 + 3), 0, 3, none, by decide +kernel⟩⟩

theorem witness_pacTargetWrite :
  (∃ (s : State) (rd : Nat) (v : Nat) (l : Loc), Writes s rd rPacTarget l) :=
  ⟨chip [], 0, 100, at_ (rPacTarget), by decide +kernel⟩

theorem witness_tileEvents :
  (∃ (s : State) (t0 : Nat), t0 < 96 ∧ s.dev.flt.ignored.contains 0x01 = false) ∧
  (∃ (s : State) (t0 : Nat), t0 < 96 ∧ s.dev.flt.ignored.contains 0x02 = false) :=
  ⟨⟨chip [], 95, by decide +kernel⟩,
   ⟨chip [], 0, by decide +kernel⟩⟩

theorem witness_tileStoppages :
  (∃ (s : State), s.bit rStpCfg 12 = true ∧ s.tilePeriod ≠ 0 ∧ (s.reg rStpNextTile).toNat ≤ s.now ∧ s.tileState ((s.reg rStpNextTile).toNat / s.tilePeriod % 96) ≠ 0) ∧
  (∃ (s : State), s.bit rStpCfg 12 = true ∧ s.tilePeriod ≠ 0 ∧ (s.reg rStpNextTile).toNat ≤ s.now ∧ s.dev.pace.stopDue = [] ∧ s.inStoppage = false ∧ s.tileState ((s.reg rStpNextTile).toNat / s.tilePeriod % 96) = 0 ∧ s.tileBusy ((s.reg rStpNextTile).toNat / s.tilePeriod % 96) = false) ∧
  (∃ (s : State) (e : Nat × Nat), s.inStoppage = false ∧ e.1 < 96 ∧ s.dev.pace.stopDue.find? (fun e => s.tileState e.1 == 0 && decide (e.2 + 8000000000 ≤ s.now)) = some e) ∧
  (∃ (s : State), s.inStoppage = true ∧ s.fld rStpStatus 8 7 < 96 ∧ s.tileState (s.fld rStpStatus 8 7) = 1 ∧ s.dev.pace.stopDue = []) :=
  ⟨⟨chip [(rStpCfg, 2 ^ 12 + 1), (rStpNextTile, 95 * 500000000)] up (95 * 500000000), by decide +kernel⟩,
   ⟨chip [(rStpCfg, 2 ^ 12 + 2047), (rStpNextTile, 0), (rPacTile 0, 0)], by decide +kernel⟩,
   ⟨chip [(rPacTile 5, 0)] { up with pace := { stopDue := [(5, 3)] } } 8000000003, (5, 3), by decide +kernel⟩,
   ⟨chip [(rStpStatus, 1 + 95 * 2 ^ 8), (rPacTile 95, 2 ^ 18)], by decide +kernel⟩⟩

theorem witness_gateWrites :
  (∃ (s : State) (rd : Nat) (b : Nat) (v : Nat) (l : Loc), s.sound = true ∧ b < 16 ∧ Writes s rd (rGlbGateAdd b) l ∧ bitsOf v 8 24 ≠ 0) ∧
  (∃ (s : State) (rd : Nat) (b : Nat) (g : Nat) (v : Nat) (l : Loc), s.sound = true ∧ b < 16 ∧ g < 256 ∧ v < 2 ^ 64 ∧ Writes s rd (rGlbGate b g) l) :=
  ⟨⟨chip [], 0, 0, 2 ^ 8 + 255, at_ (rGlbGateAdd 0), by decide +kernel⟩,
   ⟨chip [], 0, 0, 255, 2 ^ 64 - 1, at_ (rGlbGate 0 255), by decide +kernel⟩⟩

theorem witness_operatorBeginsItsWait :
  (∃ (s : State) (q : Nat) (op : Nat) (es : List EccEvent) (c : Instr) (p : Prog), (op, c) ∈ operatorRows q es ∧ s.prog q = some p ∧ p.stage = .read ∧ dOpcode p.desc = op ∧ staticCheck s.chipId s.hasRoute (wholeAt p p.desc) p.desc = none ∧ (2 ≤ op ∨ s.opWaitMet (s.qOwner q) p.desc 0 = false)) :=
  ⟨prog unary .read, 0, 0x20, [], .ewUnary 0 [], pr unary .read, by decide +kernel⟩

theorem witness_operatorFailsItsCheck :
  (∃ (s : State) (q : Nat) (op : Nat) (st : Nat) (es : List EccEvent) (c : Instr) (p : Prog), (op, c) ∈ operatorRows q es ∧ s.prog q = some p ∧ p.stage = .read ∧ dOpcode p.desc = op ∧ staticCheck s.chipId s.hasRoute (wholeAt p p.desc) p.desc = some st) :=
  ⟨prog (rec_ [(0, 1), (4, 1)]) .read, 0, 1, 0x11, [], .nop 0 [], pr (rec_ [(0, 1), (4, 1)]) .read, by decide +kernel⟩

theorem witness_endAndNopIncrement :
  (∃ (s : State) (q : Nat) (op : Nat) (es : List EccEvent) (c : Instr) (p : Prog), s.sound = true ∧ (op, c) ∈ operatorRows q es ∧ op ≤ 1 ∧ s.prog q = some p ∧ p.stage = .read ∧ dOpcode p.desc = op ∧ staticCheck s.chipId s.hasRoute (wholeAt p p.desc) p.desc = none ∧ s.opWaitMet (s.qOwner q) p.desc 0 = true ∧ dIncs p.desc = true) :=
  ⟨prog (rec_ [(0, 0), (18, 0x80FF), (32, 2 ^ 32 - 1)]) .read, 0, 0, [], .endProgram 0 [], pr (rec_ [(0, 0), (18, 0x80FF), (32, 2 ^ 32 - 1)]) .read, by decide +kernel⟩

theorem witness_operatorStarts :
  (∃ (s : State) (q : Nat) (m : Nat) (since : Nat) (tiles : List Nat) (es : List EccEvent) (p : Prog) (turn : Turn), s.prog q = some p ∧ p.stage = .gateWait m since ∧ s.opWaitMet (s.qOwner q) p.desc m = true ∧ 3 ≤ dOpcode p.desc ∧ ¬ dOpcode p.desc ∈ [0x0060, 0x0070, 0x0071, 0x0072, 0x0081, 0x0090] ∧ s.tilesFree tiles = true ∧ s.grant 0 s.tileQueues = some (q, turn) ∧ s.firstRefusal (s.qOwner q) ((dTensors p.desc).map fun x => AccUnit.mk x.2.2.extent.1 x.2.2.extent.2 x.2.1.role.rights) = none ∧ ((dTensors p.desc).filter fun x => x.2.2.compressed) = []) :=
  ⟨prog unary (.gateWait 0 0) [(rPacTile 0, 0)], 0, 0, 0, [0], [], pr unary (.gateWait 0 0), ((State.grant (prog unary (.gateWait 0 0) [(rPacTile 0, 0)]) 0 (State.tileQueues (prog unary (.gateWait 0 0) [(rPacTile 0, 0)]))).getD (0, {})).2, by decide +kernel⟩

theorem witness_operatorCompletes :
  (∃ (s : State) (q : Nat) (rep : OpReport) (p : Prog) (r : RunOp), s.prog q = some p ∧ p.stage = .running r ∧ r.faulted = false ∧ s.opCow p.desc = false ∧ rep.faults = [] ∧ rep.es = [] ∧ s.poison = []) :=
  ⟨prog unary (.running { seed := 0, tiles := [0] }), 0, {}, pr unary (.running { seed := 0, tiles := [0] }), { seed := 0, tiles := [0] }, by decide +kernel⟩

theorem witness_gateTimeout :
  (∃ (s : State) (q : Nat) (m : Nat) (since : Nat) (p : Prog), s.prog q = some p ∧ p.stage = .gateWait m since ∧ dWaits p.desc = true ∧ dWaitLimit p.desc ≠ 0 ∧ dWaitLimit p.desc ≤ m) ∧
  (∃ (s : State) (q : Nat) (m : Nat) (since : Nat) (e : Entry), s.prog q = none ∧ s.current q = some e ∧ e.stage = .gateWait m since ∧ e.get 20 4 ≠ 0 ∧ e.get 20 4 ≤ m) :=
  ⟨⟨prog (unary + rec_ [(16, 0x8000), (20, 1), (24, 5)]) (.gateWait 1 0), 0, 1, 0, pr (unary + rec_ [(16, 0x8000), (20, 1), (24, 5)]) (.gateWait 1 0), by decide +kernel⟩,
   ⟨taken 0 (rec_ [(0, 0x20), (20, 7), (24, 1)]) [] up (.gateWait 7 0), 0, 7, 0, ent (rec_ [(0, 0x20), (20, 7), (24, 1)]) (.gateWait 7 0), by decide +kernel⟩⟩

theorem witness_queueEnable :
  (∃ (s : State) (rd : Nat) (q : Nat) (l : Loc), q < 256 ∧ Writes s rd (rQueCtrl q) l ∧ s.isOpen (s.qOwner q) = true ∧ s.qState q = 0 ∧ s.firstRefusal (s.qOwner q) [⟨s.fld (rQueSqBase q) 12 36 * 4096, s.fld (rQueSqBase q) 12 36 * 4096 + 64 * s.qDepth q - 1, rightR⟩, ⟨s.fld (rQueCqBase q) 12 36 * 4096, s.fld (rQueCqBase q) 12 36 * 4096 + 16 * s.qDepth q - 1, rightW⟩] = none) ∧
  (∃ (s : State) (rd : Nat) (q : Nat) (st : Nat) (l : Loc) (a : AccUnit) (w : Option Nat), q < 256 ∧ Writes s rd (rQueCtrl q) l ∧ s.isOpen (s.qOwner q) = true ∧ s.qState q = 0 ∧ s.firstRefusal (s.qOwner q) [⟨s.fld (rQueSqBase q) 12 36 * 4096, s.fld (rQueSqBase q) 12 36 * 4096 + 64 * s.qDepth q - 1, rightR⟩, ⟨s.fld (rQueCqBase q) 12 36 * 4096, s.fld (rQueCqBase q) 12 36 * 4096 + 16 * s.qDepth q - 1, rightW⟩] = some (a, st, w)) :=
  ⟨⟨chip [], 0, 0, at_ (rQueCtrl 0), by decide +kernel⟩,
   ⟨chip [(rLckWin 0 0, 0)], 0, 0, 0x17, at_ (rQueCtrl 0), ((State.firstRefusal (chip [(rLckWin 0 0, 0)]) 0 [⟨0, 1023, rightR⟩]).getD (⟨0, 0, 0⟩, 0, none)).1, none, by decide +kernel⟩⟩

theorem witness_queBaseWrite :
  (∃ (s : State) (rd : Nat) (q : Nat) (v : Nat) (cq : Bool) (l : Loc), Writes s rd (if cq then rQueCqBase q else rQueSqBase q) l) :=
  ⟨chip [], 0, 0, 0x1000, true, at_ (rQueCqBase 0), by decide +kernel⟩

theorem witness_doorbell :
  (∃ (s : State) (f : Nat) (q : Nat) (v : Nat), DoorbellReaches s f q ∧ (bitOf v 15 = true → bitsOf v 0 13 < s.qDepth q) ∧ (bitOf v 31 = true → bitsOf v 16 13 < s.qDepth q ∧ (bitsOf v 16 13 + s.qDepth q - (s.queue q).cqHead) % s.qDepth q ≤ (s.queue q).posted)) ∧
  (∃ (s : State) (f : Nat) (q : Nat) (v : Nat), DoorbellReaches s f q ∧ bitOf v 15 = true ∧ s.qDepth q ≤ bitsOf v 0 13) ∧
  (∃ (s : State) (f : Nat) (q : Nat) (v : Nat), isPcie f = true ∧ s.fnExists f = true ∧ s.dlActive = true ∧ (s.fn f).mse = true ∧ s.asleep = false ∧ s.dryDock = false ∧ q < 256 ∧ s.qPresent q = true ∧ s.qOwner q ≠ f ∧ s.dev.flt.ignored.contains (0xA0 + f) = false) :=
  ⟨⟨chip [(rQueStatus 0, 1)] { up with work := { queues := [(0, { posted := 15 })] } }, 0, 0, 2 ^ 15 + 15 + 15 * 2 ^ 16 + 2 ^ 31, by decide +kernel⟩,
   ⟨chip [(rQueStatus 0, 1)], 0, 0, 2 ^ 15 + 16, by decide +kernel⟩,
   ⟨chip [(rQueCfg 0, 2 ^ 31 + 1 + 4 * 2 ^ 8)], 0, 0, 2 ^ 15, by decide +kernel⟩⟩

theorem witness_sqFetch :
  (∃ (s : State) (q : Nat), q < 256 ∧ s.tagFetch q = none ∧ s.mayFetch q = true ∧ s.poison = [] ∧ inHbm (s.fld (rQueSqBase q) 12 36 * 4096 + 64 * ((s.queue q).nextFetch % s.qDepth q)) = true) :=
  ⟨chip [(rQueStatus 0, 1), (rQueSqBase 0, 0x1000)] { up with work := { queues := [(0, { sqTail := 1 })] } }, 0, by decide +kernel⟩

theorem witness_queueCommands :
  (∃ (s : State) (q : Nat) (e : Entry), Starts s q e ∧ e.cmd = 0 ∧ e.get 16 48 = 0) ∧
  (∃ (s : State) (q : Nat) (e : Entry) (es : List EccEvent), Starts s q e ∧ e.cmd = 1 ∧ e.get 22 2 = 0 ∧ e.get 28 36 = 0 ∧ e.get 24 4 % 64 = 0 ∧ e.get 24 4 ≠ 0 ∧ e.get 24 4 ≤ 2 ^ 20 ∧ e.get 16 6 + e.get 24 4 ≤ hbmSize ∧ s.firstRefusal (s.qOwner q) [⟨e.get 16 6, e.get 16 6 + e.get 24 4 - 1, rightR⟩] = none) ∧
  (∃ (s : State) (q : Nat) (e : Entry), Starts s q e ∧ s.current q = some e ∧ e.cmd = 0x20 ∧ e.get 17 3 = 0 ∧ e.get 32 32 = 0 ∧ s.gateMet (s.qOwner q) (e.get 16 1) (e.get 24 8) = true) ∧
  (∃ (s : State) (q : Nat) (e : Entry), Starts s q e ∧ s.current q = some e ∧ e.cmd = 0x20 ∧ e.get 17 3 = 0 ∧ e.get 32 32 = 0 ∧ s.gateMet (s.qOwner q) (e.get 16 1) (e.get 24 8) = false) ∧
  (∃ (s : State) (q : Nat) (e : Entry), s.sound = true ∧ Starts s q e ∧ e.cmd = 0x21 ∧ e.get 17 3 = 0 ∧ e.get 24 40 = 0 ∧ e.get 20 4 ≠ 0) :=
  ⟨⟨taken 0 0, 0, ent 0, by decide +kernel⟩,
   ⟨taken 0 (rec_ [(0, 1), (16, 0x10000), (24, 2 ^ 20)]), 0, ent (rec_ [(0, 1), (16, 0x10000), (24, 2 ^ 20)]), [], by decide +kernel⟩,
   ⟨taken 0 (rec_ [(0, 0x20), (16, 255)]), 0, ent (rec_ [(0, 0x20), (16, 255)]), by decide +kernel⟩,
   ⟨taken 0 (rec_ [(0, 0x20), (16, 255), (24, 2 ^ 64 - 1)]), 0, ent (rec_ [(0, 0x20), (16, 255), (24, 2 ^ 64 - 1)]), by decide +kernel⟩,
   ⟨taken 0 (rec_ [(0, 0x21), (16, 255), (20, 2 ^ 32 - 1)]), 0, ent (rec_ [(0, 0x21), (16, 255), (20, 2 ^ 32 - 1)]), by decide +kernel⟩⟩

theorem witness_completionPosted :
  (∃ (s : State) (q : Nat) (e : Entry) (f : Fin), q < 256 ∧ (s.queue q).owed = [e] ∧ e.fin = some f ∧ e.stage ≠ .abortTag ∧ s.drops q = false ∧ s.canPost q = true ∧ (s.queue q).closing = false ∧ s.cqSlot q + 16 ≤ hbmSize ∧ s.poison = []) :=
  ⟨chip [(rQueStatus 0, 1), (rQueCqBase 0, 0x2000)] { up with work := { queues := [(0, { owed := [{ idx := 15, fin := some { status := 0 } }] })] } }, 0, { idx := 15, fin := some { status := 0 } }, { status := 0 }, by decide +kernel⟩

theorem witness_messagesAndReads :
  (∃ (s : State) (q : Nat) (t0 : Nat), (s.queue q).oldest = some t0 ∧ s.fld (rQueCoal q) 8 16 ≠ 0 ∧ t0 + s.fld (rQueCoal q) 8 16 * 1024 ≤ s.now) ∧
  (∃ (s : State) (u : ReadUser) (r : HostRead) (x : OutRead), s.outRead u = some x ∧ x.got = none ∧ r ≠ .poisoned) ∧
  (∃ (s : State) (u : ReadUser) (x : OutRead), s.outRead u = some x ∧ x.got = none ∧ s.mayTimeOut x.tick = true) :=
  ⟨⟨chip [(rQueCoal 0, 1 * 2 ^ 8)] { up with work := { queues := [(0, { oldest := some 0 })] } } 1024, 0, 0, by decide +kernel⟩,
   ⟨chip [] { up with pci := { reads := [{ user := .sq 0, tick := 0 }] } }, .sq 0, .data [], { user := .sq 0, tick := 0 }, by decide +kernel⟩,
   ⟨chip [] { up with pci := { reads := [{ user := .sq 0, tick := 0 }] } } (2 ^ 40), .sq 0, { user := .sq 0, tick := 0 }, by decide +kernel⟩⟩

theorem witness_portTraining :
  (∃ (s : State) (p : Nat) (lanes : Nat), p < 16 ∧ (s.port p).enabled = true ∧ (s.port p).retired = false ∧ s.pState p = 0 ∧ s.pCause p = 0 ∧ s.bit rGlbRole 19 = false ∧ (s.phase = 5 ∨ s.phase = 6) ∧ s.pRetired p ≠ 15) ∧
  (∃ (s : State) (p : Nat) (lanes : Nat), p < 16 ∧ s.pState p = 1 ∧ s.trainLanes p lanes ≠ 0 ∧ (s.port p).helloSent = false) ∧
  (∃ (s : State) (p : Nat), p < 16 ∧ s.pState p = 0 ∧ s.pCause p = 2 ∧ (s.port p).since + 2 ^ 27 ≤ s.now ∧ s.pRetired p ≠ 15) ∧
  (∃ (s : State) (p : Nat), p < 16 ∧ s.pState p = 1 ∧ (s.port p).since + 2 ^ 24 ≤ s.now) ∧
  (∃ (s : State) (p : Nat) (l : Nat), p < 16 ∧ l < 4 ∧ s.pState p = 1 ∧ (s.port p).since + 2 ^ 22 ≤ s.now ∧ bitOf (s.pRetired p) l = false ∧ bitOf (s.port p).leftOut l = false) :=
  ⟨⟨chip [(rIbnPState 0, 0)] { up with fab := { ports := [(0, { enabled := true })] } } (0), 0, 0, by decide +kernel⟩,
   ⟨chip [(rIbnPState 15, 1 + 7 * 2 ^ 12)] { up with fab := { ports := [(15, { enabled := true })] } } (0), 15, 15, by decide +kernel⟩,
   ⟨chip [(rIbnPState 15, 2 * 2 ^ 16)] { up with fab := { ports := [(15, { enabled := true })] } } (2 ^ 27), 15, by decide +kernel⟩,
   ⟨chip [(rIbnPState 0, 1)] { up with fab := { ports := [(0, { enabled := true })] } } (2 ^ 24), 0, by decide +kernel⟩,
   ⟨chip [(rIbnPState 0, 1)] { up with fab := { ports := [(0, { enabled := true })] } } (2 ^ 22), 0, 3, by decide +kernel⟩⟩

theorem witness_helloExchange :
  (∃ (s : State) (p : Nat) (lanes : Nat) (m : Nat) (frame : List Byte), FrameArrives s p 0x15 frame m ∧ s.pState p = 1 ∧ s.now ≤ (s.port p).since + 2 ^ 24 ∧ bodyGet m 5 4 = s.fld rIbnReach 0 32 ∧ bodyGet m 1 2 = s.fld (rIbnPNeigh p) 16 12 ∧ bodyGet m 3 1 = s.fld (rIbnPNeigh p) 28 4 ∧ s.trainLanes p lanes &&& bodyGet m 4 1 ≠ 0) ∧
  (∃ (s : State) (p : Nat) (lanes : Nat) (m : Nat) (frame : List Byte), FrameArrives s p 0x15 frame m ∧ s.pState p = 1 ∧ s.now ≤ (s.port p).since + 2 ^ 24 ∧ (bodyGet m 5 4 ≠ s.fld rIbnReach 0 32 ∨ bodyGet m 1 2 ≠ s.fld (rIbnPNeigh p) 16 12 ∨ bodyGet m 3 1 ≠ s.fld (rIbnPNeigh p) 28 4) ∧ s.dev.flt.ignored.contains 0x36 = false) ∧
  (∃ (s : State) (p : Nat) (lanes : Nat) (m : Nat) (frame : List Byte), FrameArrives s p 0x15 frame m ∧ s.pState p = 4 ∧ (s.port p).wind = 2) :=
  ⟨⟨chip [(rIbnPState 0, 1), (rIbnReach, 7), (rIbnPNeigh 0, 5 * 2 ^ 16 + 3 * 2 ^ 28)] { up with fab := { ports := [(0, { enabled := true })] } } (0), 0, 15, ((frameBody 0x15 (control 0x15 (rec_ [(0, 5), (2, 3), (3, 15), (4, 7)]))).getD 0), (control 0x15 (rec_ [(0, 5), (2, 3), (3, 15), (4, 7)])), by decide +kernel⟩,
   ⟨chip [(rIbnPState 0, 1), (rIbnReach, 8), (rIbnPNeigh 0, 5 * 2 ^ 16 + 3 * 2 ^ 28)] { up with fab := { ports := [(0, { enabled := true })] } } (0), 0, 15, ((frameBody 0x15 (control 0x15 (rec_ [(0, 5), (2, 3), (3, 15), (4, 7)]))).getD 0), (control 0x15 (rec_ [(0, 5), (2, 3), (3, 15), (4, 7)])), by decide +kernel⟩,
   ⟨chip [(rIbnPState 0, 4)] { up with fab := { ports := [(0, { wind := 2 })] } } (0), 0, 15, ((frameBody 0x15 (control 0x15 (rec_ [(0, 5), (2, 3), (3, 15), (4, 7)]))).getD 0), (control 0x15 (rec_ [(0, 5), (2, 3), (3, 15), (4, 7)])), by decide +kernel⟩⟩

theorem witness_linkRetry :
  (∃ (s : State) (p : Nat) (m : Nat) (i : Nat) (frame : List Byte), FrameArrives s p 0x13 frame m ∧ s.pState p = 2 ∧ (s.port p).lanes = none ∧ (s.port p).replay.findIdx? (fun r => r.lseq == bodyGet m 1 2 % 4096) = some i) ∧
  (∃ (s : State) (p : Nat) (r : Replay) (rs : List Replay), (s.port p).replay = r :: rs ∧ s.pState p = 2 ∧ (s.port p).lanes = none ∧ r.tick + 8192 ≤ s.now) ∧
  (∃ (s : State) (p : Nat) (m : Nat) (i : Nat) (frame : List Byte), FrameArrives s p 0x12 frame m ∧ (s.port p).replay.findIdx? (fun r => r.lseq == bodyGet m 1 2 % 4096) = some i) ∧
  (∃ (s : State) (p : Nat) (m : Nat) (frame : List Byte), FrameArrives s p 0x11 frame m) :=
  ⟨⟨chip [(rIbnPState 0, 2)] { up with fab := { ports := [(0, { replay := [{ lseq := 4095, barge := { hdr := 0 } }] })] } } (0), 0, ((frameBody 0x13 (control 0x13 (rec_ [(0, 4095)]))).getD 0), 0, (control 0x13 (rec_ [(0, 4095)])), by decide +kernel⟩,
   ⟨chip [(rIbnPState 0, 2)] { up with fab := { ports := [(0, { replay := [{ lseq := 4095, barge := { hdr := 0 } }] })] } } (8192), 0, { lseq := 4095, barge := { hdr := 0 } }, [], by decide +kernel⟩,
   ⟨chip [(rIbnPState 0, 2)] { up with fab := { ports := [(0, { replay := [{ lseq := 4095, barge := { hdr := 0 } }] })] } } (0), 0, ((frameBody 0x12 (control 0x12 (rec_ [(0, 4095)]))).getD 0), 0, (control 0x12 (rec_ [(0, 4095)])), by decide +kernel⟩,
   ⟨chip [(rIbnPState 0, 2)] { up with fab := { ports := [(0, { credits := [0, 8, 8, 8] })] } } (0), 0, ((frameBody 0x11 (control 0x11 (255))).getD 0), (control 0x11 (255)), by decide +kernel⟩⟩

theorem witness_widthAndRetrain :
  (∃ (s : State) (p : Nat) (m : Nat) (frame : List Byte), FrameArrives s p 0x18 frame m ∧ s.pState p = 2) ∧
  (∃ (s : State) (p : Nat) (mask : Nat) (cw : Nat), p < 16 ∧ (s.port p).lanes = some (mask, cw) ∧ s.pState p = 2 ∧ mask ≠ 0 ∧ mask < 16) ∧
  (∃ (frames : List (List Byte)) (w : List Nat), w ∈ codewords frames) ∧
  (∃ (s : State) (p : Nat) (w : List Nat) (word : List Nat) (hit : Bool), rsDecode word = some w) ∧
  (∃ (s : State) (p : Nat) (word : List Nat) (hit : Bool), p < 16 ∧ s.pState p ≠ 0 ∧ s.pState p ≠ 5 ∧ s.dev.flt.ignored.contains 0x30 = false ∧ rsDecode word = none) ∧
  (∃ (s : State) (p : Nat) (lanes : Nat), p < 16 ∧ s.pState p = 3 ∧ s.now ≤ (s.port p).since + 2 ^ 18 ∧ (lanes % 16) &&& (15 - s.pRetired p) ≠ 0) ∧
  (∃ (s : State) (p : Nat), p < 16 ∧ s.pState p = 3 ∧ (s.port p).since + 2 ^ 18 < s.now) :=
  ⟨⟨chip [(rIbnPState 0, 2)] { up with fab := { ports := [(0, {  })] } } (0), 0, ((frameBody 0x18 (control 0x18 (3))).getD 0), (control 0x18 (3)), by decide +kernel⟩,
   ⟨chip [(rIbnPState 0, 2)] { up with fab := { ports := [(0, { lanes := some (15, 1) })] } } (0), 0, 15, 1, by decide +kernel⟩,
   ⟨[control 0x10 0], (codewords [control 0x10 0]).getD 0 [], by decide +kernel⟩,
   ⟨chip [(rIbnPState 0, 2)] { up with fab := { ports := [(0, {  })] } } (0), 0, [], [], true, by decide +kernel⟩,
   ⟨chip [(rIbnPState 0, 2)] { up with fab := { ports := [(0, {  })] } } (0), 0, [1], false, by decide +kernel⟩,
   ⟨chip [(rIbnPState 0, 3)] { up with fab := { ports := [(0, {  })] } } (2 ^ 18), 0, 1, by decide +kernel⟩,
   ⟨chip [(rIbnPState 0, 3)] { up with fab := { ports := [(0, {  })] } } (2 ^ 18 + 1), 0, by decide +kernel⟩⟩

theorem witness_windingAndRelease :
  (∃ (s : State) (rd : Nat) (p : Nat) (l : Loc), p < 16 ∧ Writes s rd (rIbnPCtrl p) l ∧ (s.pState p = 0 ∨ s.pState p = 5)) ∧
  (∃ (s : State) (rd : Nat) (p : Nat) (l : Loc), p < 16 ∧ Writes s rd (rIbnPCtrl p) l ∧ s.pState p = 4) ∧
  (∃ (s : State) (rd : Nat) (p : Nat) (l : Loc), p < 16 ∧ Writes s rd (rIbnPCtrl p) l) ∧
  (∃ (s : State) (p : Nat) (got : List Byte), p < 16 ∧ s.pState p = 4 ∧ ((s.port p).wind = 1 ∨ (s.port p).windOk = true)) :=
  ⟨⟨chip [(rIbnPState 0, 5)] { up with fab := { ports := [(0, {  })] } } (0), 0, 0, at_ (rIbnPCtrl 0), by decide +kernel⟩,
   ⟨chip [(rIbnPState 0, 4)] { up with fab := { ports := [(0, {  })] } } (0), 0, 0, at_ (rIbnPCtrl 0), by decide +kernel⟩,
   ⟨chip [(rIbnPState 15, 2 + 15 * 2 ^ 12)] { up with fab := { ports := [(15, {  })] } } (0), 0, 15, at_ (rIbnPCtrl 15), by decide +kernel⟩,
   ⟨chip [(rIbnPState 0, 4)] { up with fab := { ports := [(0, { wind := 1 })] } } (0), 0, [1#8], by decide +kernel⟩⟩

theorem witness_bargeReception :
  (∃ (s : State) (p : Nat) (l : Nat) (b : Barge) (bs : List Byte), p < 16 ∧ s.pState p = 2 ∧ parseBarge bs = (some l, some b) ∧ l = (s.port p).rxSeq ∧ b.dest = s.chipId) ∧
  (∃ (s : State) (p : Nat) (l : Nat) (b : Barge) (bs : List Byte), p < 16 ∧ s.pState p = 2 ∧ parseBarge bs = (some l, some b) ∧ l = (s.port p).rxSeq ∧ b.dest ≠ s.chipId) ∧
  (∃ (s : State) (p : Nat) (bs : List Byte) (b : Option Barge), p < 16 ∧ s.pState p = 2 ∧ parseBarge bs = (none, b)) ∧
  (∃ (s : State) (p : Nat) (l : Nat) (b : Barge) (bs : List Byte) (x : Bool), p < 16 ∧ s.pState p = 2 ∧ parseBarge bs = (some l, some b) ∧ l ≠ (s.port p).rxSeq) :=
  ⟨⟨chip [(rIbnPState 0, 2)] { up with fab := { ports := [(0, { rxSeq := 4095 })] } } (0), 0, 4095, { barge 0x2F 0 [1#8] with payload := [1#8] }, Barge.bytes (barge 0x2F 0 [1#8]) 4095, by decide +kernel⟩,
   ⟨chip [(rIbnPState 0, 2)] { up with fab := { ports := [(0, {  })] } } (0), 0, 0, barge 0x2F 0 [] 0 0 0 2 9, Barge.bytes (barge 0x2F 0 [] 0 0 0 2 9) 0, by decide +kernel⟩,
   ⟨chip [(rIbnPState 0, 2)] { up with fab := { ports := [(0, {  })] } } (0), 0, [], none, by decide +kernel⟩,
   ⟨chip [(rIbnPState 0, 2)] { up with fab := { ports := [(0, {  })] } } (0), 0, 1, barge 0x2F 0 [] 0 0 0 2 9, Barge.bytes (barge 0x2F 0 [] 0 0 0 2 9) 1, true, by decide +kernel⟩⟩

theorem witness_bargesPerformed :
  (∃ (s : State) (w : Waiting) (es : List EccEvent), firstFit (fun b => b.kind == 1 && !(inHbm b.addr && s.cowWait b.addr b.payload.length)) [] s.dev.fab.inbox = some w ∧ NextOfFlow s w.barge ∧ s.bargeCheck w.barge = none ∧ w.barge.coded = false ∧ w.barge.pmap = 0 ∧ w.barge.addr + w.barge.payload.length ≤ hbmSize ∧ w.barge.payload ≠ [] ∧ (∀ p ∈ sectorsOf w.barge.addr w.barge.payload.length, s.poisoned p = false) ∧ es = []) ∧
  (∃ (s : State) (w : Waiting), s.sound = true ∧ Arrived s 3 w) ∧
  (∃ (s : State) (w : Waiting), Arrived s 0x2F w) ∧
  (∃ (s : State) (w : Waiting), s.readReady = none ∧ Arrived s 2 w ∧ inHbm w.barge.addr = true ∧ s.poison = []) ∧
  (∃ (s : State) (w : Waiting), Arrived s 4 w) :=
  ⟨⟨holding (barge 0x01 1 [7#8] 0 0x5FFFFFFFF), wt (barge 0x01 1 [7#8] 0 0x5FFFFFFFF), [], by decide +kernel, ⟨{ broken := false, gen := 0, expect := 0, tick := 0 }, by decide +kernel⟩, by decide +kernel⟩,
   ⟨holding (barge 0x03 1 [] (255 + (2 ^ 32 - 1) * 2 ^ 32)), wt (barge 0x03 1 [] (255 + (2 ^ 32 - 1) * 2 ^ 32)), by decide +kernel, ⟨by decide +kernel, ⟨{ broken := false, gen := 0, expect := 0, tick := 0 }, by decide +kernel⟩, by decide +kernel⟩⟩,
   ⟨holding (barge 0x2F 0 [1#8]), wt (barge 0x2F 0 [1#8]), ⟨by decide +kernel, ⟨{ broken := false, gen := 0, expect := 0, tick := 0 }, by decide +kernel⟩, by decide +kernel⟩⟩,
   ⟨holding (barge 0x02 1 [] (4096 * 2 ^ 48) 0x1000), wt (barge 0x02 1 [] (4096 * 2 ^ 48) 0x1000), by decide +kernel, ⟨by decide +kernel, ⟨{ broken := false, gen := 0, expect := 0, tick := 0 }, by decide +kernel⟩, by decide +kernel⟩, by decide +kernel⟩,
   ⟨holding (barge 0x04 1 [1#8, 0#8, 0#8, 0#8, 0#8, 0#8, 0#8, 0#8] (1 * 2 ^ 16 + 7 * 2 ^ 48 - 2 ^ 51 * 0) 0 0x100 0) [(rRnkGrp 0 0, 1 + 1 * 2 ^ 2 + 1 * 2 ^ 8)] { up with rnk := { groups := [(0, { map := [0, 1], counts := [0], insts := [(0, {})] })] } } {} 1, wt (barge 0x04 1 [1#8, 0#8, 0#8, 0#8, 0#8, 0#8, 0#8, 0#8] (1 * 2 ^ 16 + 7 * 2 ^ 48 - 2 ^ 51 * 0) 0 0x100 0), ⟨by decide +kernel, ⟨{ broken := false, gen := 0, expect := 0, tick := 0 }, by decide +kernel⟩, by decide +kernel⟩⟩⟩

theorem witness_sourceFlows :
  (∃ (s : State) (w : Waiting) (f : Nat) (x : SrcFlow) (o : OutBarge), firstFit (fun b => b.kind == 0x10 && true) [] s.dev.fab.inbox = some w ∧ bitOf w.barge.arg 8 = false ∧ s.answerFlow w.barge = some f ∧ s.flow? f = some x ∧ x.state = 0 ∧ bitsOf w.barge.arg 0 8 = 0 ∧ x.outs.find? (fun o => o.seq == w.barge.seq && o.sent && o.answer.isNone) = some o) ∧
  (∃ (s : State) (w : Waiting), firstFit (fun b => b.kind == 0x10 && true) [] s.dev.fab.inbox = some w ∧ bitOf w.barge.arg 8 = true) ∧
  (∃ (s : State) (w : Waiting) (f : Nat) (es : List EccEvent), firstFit (fun b => b.kind == 0x11 && !(inHbm b.addr && s.cowWait b.addr b.payload.length)) [] s.dev.fab.inbox = some w ∧ s.answerFlow w.barge = some f) ∧
  (∃ (s : State) (queue : Nat) (dest : Nat) (cls : Nat) (x : SrcFlow) (o : OutBarge), s.flow? (flowKey queue dest cls) = some x ∧ x.state = 0 ∧ x.outs.find? (fun o => o.sent && o.answer.isNone && decide (o.tick + s.ackTimeout ≤ s.now)) = some o) ∧
  (∃ (s : State) (rd : Nat) (b : Nat) (v : Nat) (l : Loc) (x : SrcFlow), b < 16 ∧ Writes s rd (rIbnFlowReset b) l ∧ s.isOpen b = true ∧ s.qPresent (bitsOf v 0 8) = true ∧ s.qOwner (bitsOf v 0 8) = b ∧ s.flow? (flowKey (bitsOf v 0 8) (bitsOf v 16 12) (bitsOf v 12 2)) = some x ∧ (x.state = 2 ∨ x.outs = [])) :=
  ⟨⟨holding (barge 0x10 1 []) [] up { src := [(flowKey 0 2 1, { outs := [{ seq := 0, hdr := 0, payload := [], sent := true }] })] }, wt (barge 0x10 1 []), flowKey 0 2 1, { outs := [{ seq := 0, hdr := 0, payload := [], sent := true }] }, { seq := 0, hdr := 0, payload := [], sent := true }, by decide +kernel⟩,
   ⟨holding (barge 0x10 1 [] 256), wt (barge 0x10 1 [] 256), by decide +kernel⟩,
   ⟨holding (barge 0x11 1 [1#8]) [] up { src := [(flowKey 0 2 1, { outs := [{ seq := 0, hdr := 0, payload := [], sent := true }] })] }, wt (barge 0x11 1 [1#8]), flowKey 0 2 1, [], by decide +kernel⟩,
   ⟨chip [(rIbnCfg, 16 * 2 ^ 12)] { up with fab := { src := [(flowKey 0 2 1, { outs := [{ seq := 0, hdr := 0, payload := [], sent := true }] })] } } 65536, 0, 2, 1, { outs := [{ seq := 0, hdr := 0, payload := [], sent := true }] }, { seq := 0, hdr := 0, payload := [], sent := true }, by decide +kernel⟩,
   ⟨chip [] { up with fab := { src := [(flowKey 0 2 1, { gen := 65535 })] } }, 0, 0, 2 ^ 12 + 2 * 2 ^ 16, at_ (rIbnFlowReset 0), { gen := 65535 }, by decide +kernel⟩⟩

theorem witness_timeMarks :
  (∃ (s : State) (p : Nat) (m : Nat) (frame : List Byte), FrameArrives s p 0x14 frame m ∧ s.isMaster = false ∧ s.timeParent = some p) ∧
  (∃ (s : State) (p : Nat) (m : Nat) (frame : List Byte), FrameArrives s p 0x16 frame m) ∧
  (∃ (s : State) (p : Nat) (m : Nat) (frame : List Byte), FrameArrives s p 0x17 frame m) :=
  ⟨⟨chip [(rIbnPState 0, 2)] { up with fab := { ports := [(0, {  })], parents := [0] } } (0), 0, ((frameBody 0x14 (control 0x14 (rec_ [(0, 2 ^ 40)]))).getD 0), (control 0x14 (rec_ [(0, 2 ^ 40)])), by decide +kernel⟩,
   ⟨chip [(rIbnPState 0, 2)] { up with fab := { ports := [(0, {  })] } } (0), 0, ((frameBody 0x16 (control 0x16 (2 ^ 64 - 1))).getD 0), (control 0x16 (2 ^ 64 - 1)), by decide +kernel⟩,
   ⟨chip [(rIbnPState 0, 2)] { up with fab := { ports := [(0, {  })] } } (100), 0, ((frameBody 0x17 (control 0x17 (0))).getD 0), (control 0x17 (0)), by decide +kernel⟩⟩

theorem witness_holdoverAndSeed :
  (∃ (s : State), s.isMaster = false ∧ (s.phase = 5 ∨ s.phase = 6) ∧ s.dev.fab.holdTick + 4 * 65536 ≤ s.now ∧ s.dev.flt.ignored.contains 0x37 = false) ∧
  (∃ (s : State) (t0 : Nat), s.dev.fab.firstUp = some t0 ∧ s.isMaster = true ∧ s.bit rTbsStatus 2 = false ∧ t0 + 2 ^ 24 ≤ s.now ∧ s.seed16 < 2 ^ 66) :=
  ⟨⟨chip [(rIbnTime, 1)] up (4 * 65536), by decide +kernel⟩,
   ⟨chip [(rGlbRole, 2 ^ 17)] { up with fab := { firstUp := some 0, ports := [(0, { ping := 2 ^ 60 })] } } (2 ^ 24), 0, by decide +kernel⟩⟩

theorem witness_joining :
  (∃ (s : State), (s.phase = 5 ∨ s.phase = 6) ∧ s.isMaster = false ∧ s.dev.fab.joined = false ∧ s.upPorts ≠ [] ∧ (∀ t0, s.dev.fab.joinTick = some t0 → t0 + 2 ^ 26 ≤ s.now)) ∧
  (∃ (s : State) (w : Waiting), Arrived s 0x20 w ∧ s.isMaster = true ∧ mget? s.dev.fab.admitted (bitsOf (leNat w.barge.payload) 0 16) = none) ∧
  (∃ (s : State) (w : Waiting), Arrived s 0x21 w) ∧
  (∃ (s : State) (w : Waiting), Arrived s 0x22 w) :=
  ⟨⟨chip [(rIbnPState 0, 2)] { up with fab := { ports := [(0, {  })] } } (0), by decide +kernel, by decide +kernel, by decide +kernel, by decide +kernel, by decide +kernel⟩,
   ⟨holding (barge 0x20 0 (leBytes 16 9)) [] up {} (2 ^ 17), wt (barge 0x20 0 (leBytes 16 9)), ⟨by decide +kernel, ⟨{ broken := false, gen := 0, expect := 0, tick := 0 }, by decide +kernel⟩, by decide +kernel⟩, by decide +kernel⟩,
   ⟨holding (barge 0x21 0 (leBytes 16 9)), wt (barge 0x21 0 (leBytes 16 9)), ⟨by decide +kernel, ⟨{ broken := false, gen := 0, expect := 0, tick := 0 }, by decide +kernel⟩, by decide +kernel⟩⟩,
   ⟨holding (barge 0x22 0 (leBytes 16 9)), wt (barge 0x22 0 (leBytes 16 9)), ⟨by decide +kernel, ⟨{ broken := false, gen := 0, expect := 0, tick := 0 }, by decide +kernel⟩, by decide +kernel⟩⟩⟩

theorem witness_rootClock :
  (∃ (s : State), s.dev.board.poreset = false ∧ s.xtal = 1) ∧
  (∃ (s : State), s.dev.board.poreset = false ∧ s.xtal = 3) ∧
  (∃ (s : State), s.bit rClkStatus 3 = true) ∧
  (∃ (s : State) (iro : Nat), s.dev.board.poreset = false ∧ (s.xtal = 0 ∨ s.xtal = 3) ∧ 1 ≤ s.phase ∧ 256902 ≤ iro ∧ iro ≤ 267386) ∧
  (∃ (s : State) (iro : Nat), (iro < 256902 ∨ 267386 < iro ∨ s.xtal = 2)) ∧
  (∃ (s : State), s.dev.board.poreset = false ∧ s.bit rClkStatus 3 = false ∧ s.dev.clk.started = false ∧ s.phase = 1 ∧ s.xtal = 1) ∧
  (∃ (s : State), s.dev.board.poreset = false ∧ s.bit rClkStatus 3 = false ∧ s.dev.clk.started = true) :=
  ⟨⟨chip [(rClkStatus, 1)], by decide +kernel⟩,
   ⟨chip [(rClkStatus, 3)], by decide +kernel⟩,
   ⟨chip [(rClkStatus, 9)], by decide +kernel⟩,
   ⟨chip [(rClkStatus, 0)], 256902, by decide +kernel⟩,
   ⟨chip [], 267387, by decide +kernel⟩,
   ⟨chip [(rClkStatus, 1), (rImgStatus, 1)], by decide +kernel⟩,
   ⟨chip [(rClkStatus, 1)] { up with clk := { started := true } }, by decide +kernel⟩⟩

theorem witness_keeperClock :
  (∃ (s : State), s.dev.keep.powered = true ∧ s.kxtal = 1 ∧ s.lcdState ≠ 0 ∧ s.phase < 2) ∧
  (∃ (s : State), s.dev.keep.powered = true ∧ s.kxtal = 1 ∧ s.lcdState = 0 ∧ 2 ≤ s.phase ∧ s.dev.flt.ignored.contains 0x42 = false) ∧
  (∃ (s : State) (kro : Nat), s.dev.keep.powered = true ∧ (s.kxtal = 0 ∨ s.kxtal = 3) ∧ 3686 ≤ kro ∧ kro ≤ 4506) ∧
  (∃ (s : State) (kro : Nat), (kro < 3686 ∨ 4506 < kro ∨ s.kxtal = 2)) ∧
  (∃ (s : State) (v : Bool) (a : Bool), s.dev.keep.powered = true) ∧
  (∃ (s : State) (rd : Nat) (v : Nat) (l : Loc), Writes s rd rClkGate l) :=
  ⟨⟨chip [(rTbsKeeper, 4), (rLcdStatus, 3), (rImgStatus, 1)], by decide +kernel⟩,
   ⟨chip [(rTbsKeeper, 4), (rImgStatus, 2)], by decide +kernel⟩,
   ⟨chip [(rTbsKeeper, 12)], 4506, by decide +kernel⟩,
   ⟨chip [], 3685, by decide +kernel⟩,
   ⟨chip [], true, false, by decide +kernel⟩,
   ⟨chip [], 0, 2 ^ 9 - 1, at_ rClkGate, by decide +kernel⟩⟩

theorem witness_realTimeClock :
  (∃ (s : State) (r : Bool), s.dev.keep.powered = true) ∧
  (∃ (s : State) (rd : Nat) (v : Nat) (l : Loc), Writes s rd rTbsRtcSet l ∧ s.dev.keep.powered = true ∧ s.isToll = false) :=
  ⟨⟨chip [(rTbsRtc, 2 ^ 64 - 1), (rTbsKeeper, 2 * 2 ^ 2)], true, by decide +kernel⟩,
   ⟨chip [], 0, 2 ^ 64 - 1, at_ rTbsRtcSet, by decide +kernel⟩⟩

theorem witness_batteryAndTamper :
  (∃ (s : State) (mv : Nat) (early : Bool), s.testing = true ∧ early = false ∧ 2400 ≤ mv ∧ mv < 4096) ∧
  (∃ (s : State) (mv : Nat), s.testing = true ∧ mv < 2400 ∧ s.mainUp = true ∧ s.dev.flt.ignored.contains 0x48 = false) ∧
  (∃ (s : State) (xs : List Int), s.dev.keep.burst = true ∧ s.currentOnly = true ∧ s.bit rMtrTamperStatus 0 = false ∧ s.dev.keep.tamperRun = 0) :=
  ⟨⟨chip [] { up with keep := { powered := true, test := true } }, 2400, false, by decide +kernel⟩,
   ⟨chip [] { up with keep := { powered := true, test := true } }, 2399, by decide +kernel⟩,
   ⟨chip [] { keep := { powered := true, tollMaster := true, burst := true, mtrSec := List.replicate 80 0#8 ++ [1#8] } }, [], by decide +kernel⟩⟩

theorem witness_panelStates :
  (∃ (s : State) (vlcd : Nat) (aon : Nat), s.lcdState = 1 ∧ s.dev.lcd.rail = false ∧ s.lcdInternal = false ∧ 2700 ≤ vlcd ∧ vlcd ≤ 5000) ∧
  (∃ (s : State) (vlcd : Nat) (aon : Nat), s.lcdState = 1 ∧ s.dev.lcd.rail = false ∧ s.lcdInternal = true ∧ 20 * vlcd ≤ 21 * (s.lcdTarget aon).1 ∧ 19 * (s.lcdTarget aon).1 ≤ 20 * vlcd) ∧
  (∃ (s : State), s.dev.keep.powered = true ∧ s.lcdState = 1 ∧ s.dev.lcd.rail = true) ∧
  (∃ (s : State), s.dev.keep.powered = true ∧ s.lcdState = 2 ∧ 1 < s.dev.lcd.blanks) ∧
  (∃ (s : State), s.dev.keep.powered = true ∧ ((s.lcdState = 2 ∧ s.dev.lcd.blanks ≤ 1) ∨ s.lcdState = 3)) ∧
  (∃ (s : State), s.lcdState = 1 ∧ s.dev.lcd.rail = false ∧ s.railOverdue = true) ∧
  (∃ (s : State), s.lcdState = 3 ∧ s.lcdInternal = false) ∧
  (∃ (s : State), s.dev.keep.powered = true ∧ s.lcdState ≠ 0) ∧
  (∃ (s : State), s.dev.keep.powered = true ∧ s.lcdState = 0 ∧ s.lcdWanted = true ∧ s.kxtal = 1 ∧ s.dev.lcd.retry = false) :=
  ⟨⟨chip [(rLcdStatus, 1)] { up with lcd := {  } }, 5000, 3000, by decide +kernel⟩,
   ⟨chip [(rLcdStatus, 1), (rLcdCfg, 2)] { up with lcd := {  } }, 2700, 3300, by decide +kernel⟩,
   ⟨chip [(rLcdStatus, 1)] { up with lcd := { rail := true } }, by decide +kernel⟩,
   ⟨chip [(rLcdStatus, 2)] { up with lcd := { blanks := 2 } }, by decide +kernel⟩,
   ⟨chip [(rLcdStatus, 2)] { up with lcd := { blanks := 1 } }, by decide +kernel⟩,
   ⟨chip [(rLcdStatus, 1)] { up with lcd := {  } }, by decide +kernel⟩,
   ⟨chip [(rLcdStatus, 3)] { up with lcd := {  } }, by decide +kernel⟩,
   ⟨chip [(rLcdStatus, 4)] { up with lcd := {  } }, by decide +kernel⟩,
   ⟨chip [(rTbsKeeper, 4), (rLcdCfg, 1)] { up with keep := { powered := true, tollMaster := true } }, by decide +kernel⟩⟩

theorem witness_panelCommands :
  (∃ (s : State) (rd : Nat) (v : Nat) (l : Loc), Writes s rd rLcdCtrl l ∧ v % 2 = 1 ∧ s.lcdState ≠ 0) ∧
  (∃ (s : State) (rd : Nat) (v : Nat) (l : Loc), Writes s rd rLcdHold l ∧ v / 65536 = 0xD15A ∧ 1 ≤ v / 16 % 4096 ∧ v / 16 % 4096 ≤ 3600 ∧ s.pageOpen (v % 16) = true) ∧
  (∃ (s : State) (rd : Nat) (v : Nat) (l : Loc), Writes s rd rLcdHold l ∧ v / 65536 = 0xD15A ∧ v / 16 % 4096 = 0) :=
  ⟨⟨chip [(rLcdStatus, 3)] { up with lcd := {  } }, 0, 1, at_ rLcdCtrl, by decide +kernel⟩,
   ⟨chip [(rLcdPage 0, 1)], 0, 0xD15A0000 + 3600 * 16, at_ rLcdHold, by decide +kernel⟩,
   ⟨chip [(rLcdStatus, 3)] { up with lcd := {  } }, 0, 0xD15A0000, at_ rLcdHold, by decide +kernel⟩⟩

theorem witness_meterSamples :
  (∃ (s : State) (blocks : List Nat), s.metering = true ∧ s.windowEnd = none ∧ s.dev.mtr.skip = 3 ∧ s.dev.mtr.measure = none ∧ (∀ c, (mget {} s.dev.mtr.chans c).recent = [])) ∧
  (∃ (s : State) (raw : Nat) (w : Nat) (x : Option Rat), s.metering = true ∧ s.windowEnd = some (w, x) ∧ (∀ a, s.dev.mtr.applying = some a → a.ch < 7)) ∧
  (∃ (s : State) (raw : Nat), s.metering = true ∧ s.windowEnd = none) :=
  ⟨⟨chip [(rMtrStatus, 1)], [], by decide +kernel, by decide +kernel, by decide +kernel, by decide +kernel, fun _ => rfl⟩,
   ⟨chip [(rMtrStatus, 1)] { up with mtr := { open_ := true, n := 1562, from_ := 0 } }, 0, 1563, none, by decide +kernel, by decide +kernel, by decide +kernel⟩,
   ⟨chip [(rMtrStatus, 1)], 0, by decide +kernel⟩⟩

theorem witness_pulses :
  (∃ (s : State), s.metering = true ∧ s.dev.mtr.high = false ∧ s.reg rMtrCfQueue ≠ 0#64 ∧ (∀ t0, s.dev.mtr.lastPulse = some t0 → (t0 : Rat) + s.dev.mtr.spacing ≤ s.now)) ∧
  (∃ (s : State), s.dev.mtr.high = true ∧ s.dev.mtr.lastPulse.getD 0 + s.fld rMtrCfCfg 20 7 * 800000 ≤ s.now) ∧
  (∃ (s : State) (n : Nat) (level : Bool), n < 2 ∧ s.dev.mtr.on = true ∧ level ≠ s.bit (rMtrPinCfg n) 23) :=
  ⟨⟨chip [(rMtrStatus, 1), (rMtrCfQueue, 1)] { up with mtr := { lastPulse := some 0, spacing := 7 } } 7, by decide +kernel, by decide +kernel, by decide +kernel, by decide +kernel⟩,
   ⟨chip [(rMtrCfCfg, 1 * 2 ^ 20)] { up with mtr := { high := true, lastPulse := some 0 } } 800000, by decide +kernel⟩,
   ⟨chip [(rMtrStatus, 1)] { up with mtr := { on := true } }, 1, true, by decide +kernel⟩⟩

theorem witness_meterCalibration :
  (∃ (s : State) (rd : Nat) (v : Nat), CalTaken s rd v ∧ v % 4 = 1 ∧ s.mtrUsed.contains s.stageCh = true ∧ 1 ≤ s.fld (rMtrCalStage 0) 8 8 ∧ s.fld (rMtrCalStage 0) 8 8 ≤ 64) ∧
  (∃ (s : State) (rd : Nat) (v : Nat), CalTaken s rd v ∧ v % 4 = 3 ∧ s.mtrUsed.contains s.stageCh = true ∧ s.tempPoints s.stageCh = [] ∧ -65536 < s.sfld (rMtrChFact s.stageCh 2) 0 32 + s.sfld (rMtrChImg s.stageCh 2) 0 32 ∧ s.sfld (rMtrChFact s.stageCh 2) 0 32 + s.sfld (rMtrChImg s.stageCh 2) 0 32 < 65536) ∧
  (∃ (s : State) (rd : Nat) (v : Nat), CalTaken s rd v ∧ v % 4 = 2 ∧ s.mtrUsed.contains s.stageCh = true ∧ s.tempPoints s.stageCh = [] ∧ 2 ^ 29 ≤ (s.reg (rMtrCalStage 1)).toNat ∧ (s.reg (rMtrCalStage 1)).toNat ≤ 2 ^ 31 ∧ -1048576 ≤ s.sfld (rMtrCalStage 2) 0 32 ∧ s.sfld (rMtrCalStage 2) 0 32 ≤ 1048576 ∧ -65536 < s.sfld (rMtrChFact s.stageCh 2) 0 32 + s.sfld (rMtrChImg s.stageCh 2) 0 32 + s.sfld (rMtrCalStage 3) 0 32 ∧ s.sfld (rMtrChFact s.stageCh 2) 0 32 + s.sfld (rMtrChImg s.stageCh 2) 0 32 + s.sfld (rMtrCalStage 3) 0 32 < 65536) ∧
  (∃ (s : State) (m : Measure), s.dev.mtr.measure = some m ∧ m.start + 2 ^ 34 ≤ s.now) ∧
  (∃ (s : State) (a : Applying), s.dev.mtr.applying = some a ∧ a.committed = false ∧ a.start + 2 ^ 30 ≤ s.now) ∧
  (∃ (s : State) (rd : Nat) (v : Nat) (l : Loc), Writes s rd rMtrChCtrl l ∧ s.isToll = true ∧ v / 65536 = 0x7E1A ∧ bitOf v 3 = true ∧ v % 8 < 7) :=
  ⟨⟨chip [(rGlbRole, 2 ^ 16), (rMtrCalStage 0, 6 + 64 * 2 ^ 8)], 0, 0xCA1B0001, ⟨⟨at_ rMtrCalCmd, by decide +kernel⟩, by decide +kernel⟩, by decide +kernel⟩,
   ⟨chip [(rGlbRole, 2 ^ 16), (rMtrCalStage 0, 6)], 0, 0xCA1B0003, ⟨⟨at_ rMtrCalCmd, by decide +kernel⟩, by decide +kernel⟩, by decide +kernel⟩,
   ⟨chip [(rGlbRole, 2 ^ 16), (rMtrCalStage 0, 6), (rMtrCalStage 1, 2 ^ 31), (rMtrCalStage 2, 1048576), (rMtrCalStage 3, 65535)], 0, 0xCA1B0002, ⟨⟨at_ rMtrCalCmd, by decide +kernel⟩, by decide +kernel⟩, by decide +kernel⟩,
   ⟨chip [] { up with mtr := { measure := some { ch := 0, n := 1, g := 2 ^ 30, off := 0, ph := 0, start := 0 } } } (2 ^ 34), { ch := 0, n := 1, g := 2 ^ 30, off := 0, ph := 0, start := 0 }, by decide +kernel⟩,
   ⟨chip [] { up with mtr := { applying := some { op := 2, ch := 0, g := 2 ^ 30, off := 0, ph := 0, start := 0 } } } (2 ^ 30), { op := 2, ch := 0, g := 2 ^ 30, off := 0, ph := 0, start := 0 }, by decide +kernel⟩,
   ⟨chip [(rGlbRole, 2 ^ 16)], 0, 0x7E1A000E, at_ rMtrChCtrl, by decide +kernel⟩⟩

theorem witness_snapshots :
  (∃ (s : State) (rd : Nat) (v : Nat) (l : Loc), Writes s rd rTolCmd l ∧ s.isToll = true ∧ v % 4 = 1 ∧ s.testing = false) ∧
  (∃ (s : State) (rd : Nat) (v : Nat) (l : Loc), Writes s rd rTolCmd l ∧ s.isToll = true ∧ v % 4 = 1 ∧ s.testing = true) ∧
  (∃ (s : State) (who : Nat) (t0 : Nat), mget? s.dev.tol.sealing who = some t0) ∧
  (∃ (s : State) (rd : Nat) (v : Nat) (l : Loc), Writes s rd rTolCmd l ∧ s.isToll = true ∧ v % 4 = 2 ∧ v / 65536 = 0x5EA1 ∧ s.testing = false ∧ (s.metering = false ∨ s.windowEnd = none)) ∧
  (∃ (s : State) (rd : Nat) (v : Nat) (l : Loc), Writes s rd rTolCmd l ∧ s.isToll = true ∧ v % 4 = 2 ∧ v / 65536 = 0x5EA1) :=
  ⟨⟨chip [(rGlbRole, 2 ^ 16)], 0, 1, at_ rTolCmd, by decide +kernel⟩,
   ⟨chip [(rGlbRole, 2 ^ 16)] { up with keep := { powered := true, test := true } }, 18, 1, at_ rTolCmd, by decide +kernel⟩,
   ⟨chip [] { up with tol := { sealing := [(1, 0)] } }, 1, 0, by decide +kernel⟩,
   ⟨chip [(rGlbRole, 2 ^ 16)], 0, 0x5EA10002, at_ rTolCmd, by decide +kernel⟩,
   ⟨chip [(rGlbRole, 2 ^ 16)], 18, 0x5EA10002, at_ rTolCmd, by decide +kernel⟩⟩

theorem witness_calendars :
  (∃ (s : State) (rd : Nat) (v : Nat) (l : Loc), Writes s rd rTolCalCmd l ∧ s.isToll = true ∧ v / 65536 = 0x7A11 ∧ v % 4 = 1 ∧ s.dev.tol.commit = none ∧ calFormatOk s.stagedCalendar = true ∧ calCrcOk s.stagedCalendar = true ∧ s.rtcValid = true ∧ s.seconds + 60 ≤ (s.reg rTolCalAct).toNat) ∧
  (∃ (s : State) (rd : Nat) (v : Nat) (l : Loc), Writes s rd rTolCalCmd l ∧ s.isToll = true ∧ v / 65536 = 0x7A11 ∧ v % 4 = 1 ∧ s.dev.tol.commit = none ∧ calFormatOk s.stagedCalendar = false) ∧
  (∃ (s : State) (c : List Byte) (a : Nat) (t0 : Nat), s.dev.tol.commit = some (c, a, t0) ∧ t0 + 2 ^ 30 ≤ s.now) ∧
  (∃ (s : State) (rd : Nat) (v : Nat) (l : Loc), Writes s rd rTolCalCmd l ∧ s.isToll = true ∧ v / 65536 = 0x7A11 ∧ v % 4 = 2 ∧ s.dev.keep.pending ≠ []) :=
  ⟨⟨chip ((rGlbRole, 2 ^ 16) :: (rTbsKeeper, 2 ^ 4) :: (rTolCalAct, 60) :: (List.range 30).map fun i => (rTolCalStage i, getLe calendar (4 * i) 4)), 0, 0x7A110001, at_ rTolCalCmd, by decide +kernel⟩,
   ⟨chip [(rGlbRole, 2 ^ 16)], 0, 0x7A110001, at_ rTolCalCmd, by decide +kernel⟩,
   ⟨chip [] { up with tol := { commit := some ([], 0, 0) } } (2 ^ 30), [], 0, 0, by decide +kernel⟩,
   ⟨chip [(rGlbRole, 2 ^ 16)] { up with keep := { powered := true, pending := [1#8] } }, 0, 0x7A110002, at_ rTolCalCmd, by decide +kernel⟩⟩

theorem witness_activityReports :
  (∃ (s : State) (w : Waiting) (slot : Nat), Arrived s 0x28 w ∧ s.isToll = true ∧ s.trayChips.findIdx? (fun c => c == w.barge.srcChip) = some slot) ∧
  (∃ (s : State) (slot : Nat), s.isToll = true ∧ slot < 8 ∧ s.dev.tol.started = true ∧ (mget {} s.dev.tol.reports slot).tick + 2 ^ 24 ≤ s.now ∧ s.dev.flt.ignored.contains 0x64 = false) :=
  ⟨⟨holding (barge 0x28 0 (leBytes 784 7)) [] { up with tol := { sec := leBytes 16 (3 + 2 * 2 ^ 112) } } {} (2 ^ 16), wt (barge 0x28 0 (leBytes 784 7)), 7, ⟨by decide +kernel, ⟨{ broken := false, gen := 0, expect := 0, tick := 0 }, by decide +kernel⟩, by decide +kernel⟩, by decide +kernel⟩,
   ⟨chip [(rGlbRole, 2 ^ 16)] { up with tol := { started := true } } (2 ^ 24), 7, by decide +kernel⟩⟩

theorem witness_basinResets :
  (∃ (s : State) (rd : Nat) (v : Nat) (l : Loc), Writes s rd rLckBasinReset l ∧ bitsOf v 16 16 = 0xB45E ∧ 1 ≤ bitsOf v 0 4 ∧ s.isOpen (bitsOf v 0 4) = true) ∧
  (∃ (s : State) (b : Nat), b < 16 ∧ s.dev.due.basins.contains b = true ∧ s.dev.due.chip = none ∧ s.isOpen b = true) ∧
  (∃ (s : State) (b : Nat), b < 16 ∧ s.fld (rLckBasin b) 0 2 = 2 ∧ (∃ w ∈ s.zeroWindows b, s.cowWait w.first (w.last + 1 - w.first) = true)) ∧
  (∃ (s : State) (b : Nat), b < 16 ∧ s.fld (rLckBasin b) 0 2 = 2 ∧ (∀ w ∈ s.zeroWindows b, s.cowWait w.first (w.last + 1 - w.first) = false)) :=
  ⟨⟨chip [(rLckBasin 15, 1)], 0, 0xB45E000F, at_ rLckBasinReset, by decide +kernel⟩,
   ⟨chip [(rLckBasin 15, 1)] { up with due := { basins := [15] } }, 15, by decide +kernel⟩,
   ⟨chip [(rLckBasin 15, 2), (rLckWin 0 0, 0), (rLckWin 15 0, 0x200007), (rLckWin 15 1, 0x20F000)] { up with whf := { sets := [(0, { armed := [32] })] } }, 15, by decide +kernel⟩,
   ⟨chip [(rLckBasin 15, 2)], 15, by decide +kernel⟩⟩

theorem witness_mainResets :
  (∃ (s : State) (last : Nat) (src : Nat), s.dev.due.chip = some (last, src)) ∧
  (∃ (s : State) (i : Nat), i < 4 ∧ bitOf s.dev.board.good i = true ∧ s.dev.board.poreset = false) ∧
  (∃ (s : State) (i : Nat), i < 4 ∧ bitOf s.dev.board.good i = false ∧ s.dev.board.good < 16) ∧
  (∃ (s : State) (straps : Nat) (off : Bool), s.dev.board.poreset = true ∧ s.dev.board.good = 15 ∧ s.dev.keep.tamperOpen = none) :=
  ⟨⟨chip [] { up with due := { chip := some (3, 0x44) } }, 3, 0x44, by decide +kernel⟩,
   ⟨chip [], 3, by decide +kernel⟩,
   ⟨chip [] { board := { good := 7 } }, 3, by decide +kernel⟩,
   ⟨chip [] { board := { good := 15 } }, 15, true, by decide +kernel⟩⟩

theorem witness_resetCommands :
  (∃ (s : State) (rd : Nat) (v : Nat) (l : Loc), Writes s rd rGlbChipReset l ∧ bitsOf v 16 16 = 0xC41F ∧ bitOf v 0 = true ∧ bitOf v 1 = false ∧ s.dev.due.chip = none) ∧
  (∃ (s : State) (rd : Nat) (v : Nat) (l : Loc), Writes s rd rGlbChipReset l ∧ bitsOf v 16 16 = 0xC41F ∧ bitOf v 1 = true ∧ s.dev.due.chip = none) ∧
  (∃ (s : State) (k : Block), s.dev.due.blocks.contains k = true ∧ s.dev.due.chip = none) ∧
  (∃ (s : State) (rd : Nat) (q : Nat) (v : Nat) (l : Loc), q < 256 ∧ Writes s rd (rQueCtrl q) l ∧ bitOf v 1 = true ∧ s.qState q ≠ 0) ∧
  (∃ (s : State) (rd : Nat) (q : Nat) (v : Nat) (l : Loc), q < 256 ∧ Writes s rd (rQueCtrl q) l ∧ bitOf v 1 = true ∧ s.qState q ≠ 0 ∧ (s.queue q).owed = [] ∧ s.engineRuns q = false ∧ s.dev.whf = {} ∧ s.dev.srv.basins = []) :=
  ⟨⟨chip [], 0, 0xC41F0001, at_ rGlbChipReset, by decide +kernel⟩,
   ⟨chip [], 0, 0xC41F0003, at_ rGlbChipReset, by decide +kernel⟩,
   ⟨chip [] { up with due := { blocks := [.dma] } }, .dma, by decide +kernel⟩,
   ⟨chip [(rQueStatus 0, 1)], 0, 0, 2, at_ (rQueCtrl 0), by decide +kernel⟩,
   ⟨chip [(rQueStatus 0, 1)], 0, 0, 3, at_ (rQueCtrl 0), by decide +kernel⟩⟩

theorem witness_startSteps :
  (∃ (s : State) (clockRaw : Int), s.dev.board.poreset = false ∧ s.phase = 0) ∧
  (∃ (s : State) (p : Sfdp), s.phase = 2 ∧ s.forced = false ∧ within 0x1000000 0x4000000 p.density = true ∧ (p.density = 0x1000000 ∨ p.choice.2.long.isSome = true ∨ p.entry = true) ∧ s.dev.keep.dryReq = true) ∧
  (∃ (s : State) (p : Sfdp), s.phase = 2 ∧ s.forced = false ∧ within 0x1000000 0x4000000 p.density = true ∧ (p.density = 0x1000000 ∨ p.choice.2.long.isSome = true ∨ p.entry = true) ∧ s.dev.keep.dryReq = false) ∧
  (∃ (s : State) (c : Nat) (rest : List Nat), s.phase = 3 ∧ s.forced = false ∧ s.dev.img.tries = c :: rest ∧ c < 2) ∧
  (∃ (s : State) (vout : Option Nat), s.phase = 4) ∧
  (∃ (s : State), s.phase = 5 ∧ s.dev.img.tested = false) ∧
  (∃ (s : State) (ds : List (List Int)), s.phase = 5 ∧ s.dev.img.trained = false ∧ s.now ≤ s.dev.img.applyTick + 2 ^ 26) ∧
  (∃ (s : State), s.phase = 5 ∧ s.dev.img.trained = true ∧ s.dev.img.bist = false) ∧
  (∃ (s : State), s.phase = 5 ∧ s.dev.img.bist = true ∧ s.bit rMemStatus 0 = false) ∧
  (∃ (s : State), s.phase = 5 ∧ s.dev.img.applyTick + 2 ^ s.dev.img.joinLog ≤ s.now) ∧
  (∃ (s : State), s.readyToOpen = true) :=
  ⟨⟨chip [(rImgStatus, 0)], 0, by decide +kernel⟩,
   ⟨chip [(rImgStatus, 2)] { up with keep := { dryReq := true } }, { density := 0x4000000, read144 := some { instr := 0xEB, dummy := 6, long := some 0xEC }, quadReady := true }, by decide +kernel⟩,
   ⟨chip [(rImgStatus, 2)], { density := 0x1000000 }, by decide +kernel⟩,
   ⟨chip [(rImgStatus, 3)] { up with img := { tries := [1] } }, 1, [], by decide +kernel⟩,
   ⟨chip [(rImgStatus, 4)], none, by decide +kernel⟩,
   ⟨chip [(rImgStatus, 5)], by decide +kernel⟩,
   ⟨chip [(rImgStatus, 5)] up (2 ^ 26), [], by decide +kernel⟩,
   ⟨chip [(rImgStatus, 5)] { up with img := { trained := true } }, by decide +kernel⟩,
   ⟨chip [(rImgStatus, 5)] { up with img := { bist := true } }, by decide +kernel⟩,
   ⟨chip [(rImgStatus, 5)] up (2 ^ 24), by decide +kernel⟩,
   ⟨chip [(rImgStatus, 5), (rMemStatus, 1)] { up with img := { tested := true, joined := true } }, by decide +kernel⟩⟩

theorem witness_startCommands :
  (∃ (s : State) (rd : Nat) (v : Nat) (l : Loc), Writes s rd rImgProvision l ∧ bitOf v 0 = true ∧ v / 65536 = 0x0A7E ∧ s.phase = 6 ∧ s.bit rImgStatus 6 = true) ∧
  (∃ (s : State) (rd : Nat) (v : Nat) (l : Loc), Writes s rd rImgProvision l ∧ bitOf v 0 = false ∧ bitOf v 1 = true ∧ v / 65536 = 0x0A7E ∧ s.phase = 6 ∧ s.bit rImgStatus 6 = false ∧ s.dev.img.svnMin < s.fld rImgSvn 0 7) ∧
  (∃ (s : State) (chan : Nat), chan < 16 ∧ s.phase = 5 ∧ s.dev.img.trained = false ∧ s.dev.img.applyTick + 2 ^ 26 ≤ s.now ∧ s.dev.flt.ignored.contains 0x14 = false) ∧
  (∃ (s : State) (rd : Nat) (v : Nat) (l : Loc), Writes s rd rImgFlashCmd l ∧ v / 65536 = 0xF1A5 ∧ s.fld rImgFlashStatus 0 2 ≠ 1 ∧ s.flashOk (s.reg rImgFlashAddr).toNat = true ∧ v % 4 = 1) ∧
  (∃ (s : State) (rd : Nat) (v : Nat) (l : Loc), Writes s rd rImgFlashCmd l ∧ v / 65536 = 0xF1A5 ∧ s.fld rImgFlashStatus 0 2 ≠ 1 ∧ s.flashOk (s.reg rImgFlashAddr).toNat = true ∧ v % 4 = 2) ∧
  (∃ (s : State) (rd : Nat) (v : Nat) (l : Loc), Writes s rd rImgFlashCmd l ∧ v / 65536 = 0xF1A5 ∧ s.fld rImgFlashStatus 0 2 ≠ 1 ∧ s.flashOk (s.reg rImgFlashAddr).toNat = true ∧ v % 4 = 3) ∧
  (∃ (s : State) (o : FlashOp) (n : FlashOp) (t0 : Nat) (rest : List FlashOp), s.dev.flash.op = some (o, t0) ∧ s.bit rClkStatus 4 = false ∧ s.dev.flash.todo = n :: rest) ∧
  (∃ (s : State) (o : FlashOp) (t0 : Nat), s.dev.flash.op = some (o, t0) ∧ s.bit rClkStatus 4 = false ∧ s.dev.flash.todo = [] ∧ s.dryDock = true) ∧
  (∃ (s : State) (a : Nat) (t0 : Nat) (bs : List Byte), s.dev.flash.op = some (.program a bs, t0) ∧ t0 + 2 ^ 22 ≤ s.now ∧ s.dryDock = true ∧ s.bit rClkStatus 4 = false) :=
  ⟨⟨chip [(rImgStatus, 6 + 2 ^ 6)], 0, 0x0A7E0001, at_ rImgProvision, by decide +kernel⟩,
   ⟨chip [(rImgSvn, 64)], 0, 0x0A7E0002, at_ rImgProvision, by decide +kernel⟩,
   ⟨chip [(rImgStatus, 5)] up (2 ^ 26), 15, by decide +kernel⟩,
   ⟨chip [(rImgStatus, 7), (rImgFlashAddr, 0x1000000)] { up with flash := { density := 0x4000000 } }, 0, 0xF1A50001, at_ rImgFlashCmd, by decide +kernel⟩,
   ⟨chip [(rImgStatus, 7), (rImgFlashAddr, 0x1000000)] { up with flash := { density := 0x4000000 } }, 0, 0xF1A50002, at_ rImgFlashCmd, by decide +kernel⟩,
   ⟨chip [(rImgStatus, 7), (rImgFlashAddr, 0x1000000)] { up with flash := { density := 0x4000000 } }, 0, 0xF1A50003, at_ rImgFlashCmd, by decide +kernel⟩,
   ⟨chip [] { up with flash := { op := some (.erase 0, 0), todo := [.program 0 [0#8]] } }, .erase 0, .program 0 [0#8], 0, [], by decide +kernel⟩,
   ⟨chip [(rImgStatus, 7)] { up with flash := { op := some (.erase 0, 0) } }, .erase 0, 0, by decide +kernel⟩,
   ⟨chip [(rImgStatus, 7)] { up with flash := { op := some (.program 0 [0#8], 0) } } (2 ^ 22), 0, 0, [0#8], by decide +kernel⟩⟩

theorem witness_pcieResets :
  (∃ (s : State), s.dev.board.perstHigh = true ∧ s.dev.board.poreset = false) ∧
  (∃ (s : State), s.dlActive = true) ∧
  (∃ (s : State) (width : Nat) (rate : Nat) (c : PciConfig), s.dev.board.poreset = false ∧ s.dlActive = false ∧ width ∈ [1, 2, 4, 8, 16] ∧ 1 ≤ rate ∧ rate ≤ 5 ∧ c.ok = true ∧ s.dryDock = false) :=
  ⟨⟨chip [], by decide +kernel⟩,
   ⟨chip [], by decide +kernel⟩,
   ⟨chip [(rPciLink, 0)], 16, 5, { fns := [(0, { mse := true })] }, by decide +kernel⟩⟩

theorem witness_powerFailAndMessages :
  (∃ (s : State), s.dev.board.pfailHigh = true ∧ s.dev.board.poreset = false ∧ s.isToll = false) ∧
  (∃ (s : State), s.dev.board.pfailHigh = true ∧ s.dev.board.poreset = false ∧ s.isToll = true ∧ s.dev.tol.started = true) ∧
  (∃ (s : State), s.dev.board.pfailHigh = false ∧ s.dev.board.good = 15) ∧
  (∃ (s : State) (f : Nat) (v : Nat), v < 64 ∧ s.fnExists f = true ∧ s.dev.pci.pending.contains (64 * f + v) = true ∧ s.msixOpen f v = true) :=
  ⟨⟨chip [], by decide +kernel⟩,
   ⟨chip [(rGlbRole, 2 ^ 16)] { up with tol := { started := true } }, by decide +kernel⟩,
   ⟨chip [] { board := { good := 15, pfailHigh := false } }, by decide +kernel⟩,
   ⟨chip [] { pci := { fns := [(0, { bme := true, msix := true })], vecs := [(63, { masked := false })], pending := [63] } }, 0, 63, by decide +kernel⟩⟩

theorem witness_boardTarget :
  (∃ (s : State) (bs : List Byte), 1 ≤ s.phase ∧ bs.length = 5 ∧ getLe bs 0 4 % 4 = 0 ∧ getLe bs 0 4 < 0x1000000 ∧ getLe bs 4 1 % 4 = 0 ∧ 4 ≤ getLe bs 4 1 ∧ getLe bs 4 1 ≤ 32) ∧
  (∃ (s : State) (bs : List Byte) (p : Nat), 1 ≤ s.phase ∧ bs.length = 5 ∧ getLe bs 0 4 % 4 = 0 ∧ getLe bs 0 4 < 0x1000000 ∧ getLe bs 4 1 % 4 = 0 ∧ 4 ≤ getLe bs 4 1 ∧ getLe bs 4 1 ≤ 32 ∧ p ≠ s.writePec 1 bs) ∧
  (∃ (s : State), 1 ≤ s.phase) :=
  ⟨⟨chip [], leBytes 5 (0xFFFFFC + 32 * 2 ^ 32), by decide +kernel⟩,
   ⟨chip [], leBytes 5 (0xFFFFFC + 32 * 2 ^ 32), State.writePec (chip []) 1 (leBytes 5 (0xFFFFFC + 32 * 2 ^ 32)) + 1, by decide +kernel⟩,
   ⟨chip [], by decide +kernel⟩⟩

theorem witness_hbmUpkeep :
  (∃ (s : State), s.bit rMemStatus 0 = true) ∧
  (∃ (s : State) (e : EccEvent), s.bit rMemStatus 0 = true ∧ e.chan < 16 ∧ s.fld rMemScrub 0 35 ≤ sectorOf e.sector ∧ sectorOf e.sector < s.fld rMemScrub 0 35 + 64 ∧ s.poisoned (sectorOf e.sector) = false ∧ e.kind = .correctable) ∧
  (∃ (s : State) (e : EccEvent), s.bit rMemStatus 0 = true ∧ e.chan < 16 ∧ s.fld rMemScrub 0 35 ≤ sectorOf e.sector ∧ sectorOf e.sector < s.fld rMemScrub 0 35 + 64 ∧ s.poisoned (sectorOf e.sector) = false ∧ e.kind ≠ .correctable) ∧
  (∃ (s : State) (r : Retire) (t0 : Nat), s.dev.hbm.remap = some (r, t0)) :=
  ⟨⟨chip [(rMemStatus, 1)], by decide +kernel⟩,
   ⟨chip [(rMemStatus, 1)], { sector := 32, kind := .correctable, chan := 15 }, by decide +kernel⟩,
   ⟨chip [(rMemStatus, 1)], { sector := 32, kind := .address }, by decide +kernel⟩,
   ⟨chip [] { up with hbm := { remap := some ({ page := 0, cause := 1, ev := { sector := 0, kind := .correctable } }, 0) } }, { page := 0, cause := 1, ev := { sector := 0, kind := .correctable } }, 0, by decide +kernel⟩⟩

theorem witness_paceDecision :
  (∃ (s : State) (r : PmbReads) (slow : Nat × Nat) (fast : Nat × Nat), s.dev.pace.marks ≠ 0 ∧ s.bit rGlbRole 31 = true ∧ s.bit rClkGateStatus 7 = true ∧ extreme (fun a b => decide (a < b)) s.paced = some slow ∧ extreme (fun a b => decide (b < a)) s.paced = some fast) ∧
  (∃ (s : State) (slow : Nat × Nat), s.bit rPacCtrl 0 = true ∧ s.dev.board.pfailHigh = true ∧ s.fld rPacBounds 36 10 ≤ s.vdd ∧ s.vdd ≤ s.fld rPacBounds 46 10 ∧ s.tooHot = false ∧ s.tooStrong = false ∧ extreme (fun a b => decide (a < b)) s.paced = some slow ∧ (∀ p ∈ s.paced, p.2 ≤ s.fld rPacBounds 18 18)) :=
  ⟨⟨chip [(rPacTile 5, 90000), (rGlbRole, 2 ^ 31), (rClkGateStatus, 2 ^ 7)] { up with pace := { marks := 16 } }, {}, (5, 90000), (5, 90000), by decide +kernel⟩,
   ⟨chip [(rPacTile 5, 90000), (rPacCtrl, 1), (rPacVdd, 700), (rPacBounds, 131072 * 2 ^ 18 + 550 * 2 ^ 36 + 850 * 2 ^ 46), (rPacLimits, 255 + 255 * 2 ^ 8)], (5, 90000), by decide +kernel⟩⟩

theorem witness_ownTimeMark :
  (∃ (s : State) (d : MarkData), s.dev.clk.started = true ∧ (s.reg rIbnMark).toNat < s.now / 65536) ∧
  (∃ (s : State) (d : MarkData), (s.dev.clk.started = false ∨ s.now / 65536 ≤ (s.reg rIbnMark).toNat)) ∧
  (∃ (s : State) (d : MarkData) (n : Nat), n % 16 ≠ 0 ∧ d.raw = [] ∧ d.pace.map (·.1) = List.range 96) :=
  ⟨⟨chip [] { up with clk := { started := true } } 65536, {}, by decide +kernel⟩,
   ⟨chip [] { up with clk := { started := true } } 65535, {}, by decide +kernel⟩,
   ⟨chip [], { pace := everyTile.map fun e => (e.1, 2 ^ 20) }, 1, by decide +kernel⟩⟩

theorem witness_laneStoppageEnds :
  (∃ (s : State) (errors : Bool) (adapted : Bool), s.bit rStpStatus 1 = true) :=
  ⟨chip [(rStpStatus, 2)], true, false, by decide +kernel⟩

theorem witness_tableCommands :
  (∃ (s : State) (rd : Nat) (b : Nat) (n : Nat), TableCommand s rd b n ∧ s.tblState n ≠ 2 ∧ s.dev.img.codecFail = false ∧ lensValid (s.staged b) = true) ∧
  (∃ (s : State) (rd : Nat) (b : Nat) (n : Nat), TableCommand s rd b n ∧ s.tblState n ≠ 2 ∧ s.bit (rCdcSurvey b) 63 = false ∧ s.dev.img.codecFail = false) ∧
  (∃ (s : State) (rd : Nat) (b : Nat) (n : Nat), TableCommand s rd b n ∧ s.surveys b n = true) ∧
  (∃ (s : State) (rd : Nat) (b : Nat) (n : Nat), TableCommand s rd b n) ∧
  (∃ (s : State) (rd : Nat) (b : Nat) (n : Nat) (l : Loc), b < 16 ∧ n < 256 ∧ Writes s rd (rCdcCmd b) l ∧ s.isOpen b = true ∧ s.tblOwned b n = false) :=
  ⟨⟨chip [(rCdcTbl 255, 2 ^ 4), (rCdcStage 0 0, 1 * 2 ^ 8 + 1)], 0, 0, 255, ⟨by decide, by decide, ⟨at_ (rCdcCmd 0), by decide +kernel⟩, by decide +kernel, by decide +kernel⟩, by decide +kernel⟩,
   ⟨chip [(rCdcTbl 255, 2 ^ 4)], 0, 0, 255, ⟨by decide, by decide, ⟨at_ (rCdcCmd 0), by decide +kernel⟩, by decide +kernel, by decide +kernel⟩, by decide +kernel⟩,
   ⟨chip [(rCdcTbl 255, 2 ^ 4), (rCdcSurvey 0, 2 ^ 63 + 255 * 2 ^ 48)], 0, 0, 255, ⟨by decide, by decide, ⟨at_ (rCdcCmd 0), by decide +kernel⟩, by decide +kernel, by decide +kernel⟩, by decide +kernel⟩,
   ⟨chip [(rCdcTbl 255, 2 ^ 4)], 0, 0, 255, ⟨by decide, by decide, ⟨at_ (rCdcCmd 0), by decide +kernel⟩, by decide +kernel, by decide +kernel⟩⟩,
   ⟨chip [], 0, 0, 255, at_ (rCdcCmd 0), by decide +kernel⟩⟩

theorem witness_copies :
  (∃ (s : State) (q : Nat) (e : Nat) (ent : Entry), CopyGranted s q e ent ∧ copyReservedOk ent = true ∧ (ent.copy q).total ≠ 0 ∧ (ent.copy q).staticCheck s.chipId = none ∧ (ent.copy q).cmode = 0 ∧ (ent.copy q).remote = false ∧ s.firstRefusal (s.qOwner q) [⟨(ent.copy q).srcSpan.1.toNat, (ent.copy q).srcSpan.2.toNat, rightR⟩, ⟨(ent.copy q).dstSpan.1.toNat, (ent.copy q).dstSpan.2.toNat, rightW⟩] = none) ∧
  (∃ (s : State) (q : Nat) (e : Nat) (st : Nat) (ent : Entry), CopyGranted s q e ent ∧ copyReservedOk ent = true ∧ (ent.copy q).total ≠ 0 ∧ (ent.copy q).staticCheck s.chipId = some st) ∧
  (∃ (s : State) (e : Nat) (c : CopyRun) (turn : Turn), e < 8 ∧ s.copyOn e = some c ∧ c.cmode = 0 ∧ c.remote = false ∧ c.table = none ∧ c.stop = none ∧ c.rows = 1 ∧ c.pos < c.rowBytes ∧ c.src + c.rowBytes ≤ hbmSize ∧ c.dst + c.rowBytes ≤ hbmSize ∧ s.poison = [] ∧ s.grant 1 s.blockQueues = some (c.q, turn)) :=
  ⟨⟨taken 1 (rec_ [(0, 0x10), (16, 0x10000), (24, 0x5FFFFFFC0), (32, 64), (36, 1)]), 0, 7, ent (rec_ [(0, 0x10), (16, 0x10000), (24, 0x5FFFFFFC0), (32, 64), (36, 1)]), ⟨by decide +kernel, by decide +kernel, by decide +kernel, by decide +kernel, by decide +kernel, by decide +kernel, turnOf (taken 1 (rec_ [(0, 0x10), (16, 0x10000), (24, 0x5FFFFFFC0), (32, 64), (36, 1)])) 4 (State.copyWaiting (taken 1 (rec_ [(0, 0x10), (16, 0x10000), (24, 0x5FFFFFFC0), (32, 64), (36, 1)]))), by decide +kernel⟩, by decide +kernel⟩,
   ⟨taken 1 (rec_ [(0, 0x10), (16, 0x10000), (24, 0x5FFFFFFC0), (32, 64), (36, 1), (56, 9)]), 0, 0, 0x11, ent (rec_ [(0, 0x10), (16, 0x10000), (24, 0x5FFFFFFC0), (32, 64), (36, 1), (56, 9)]), ⟨by decide +kernel, by decide +kernel, by decide +kernel, by decide +kernel, by decide +kernel, by decide +kernel, turnOf (taken 1 (rec_ [(0, 0x10), (16, 0x10000), (24, 0x5FFFFFFC0), (32, 64), (36, 1), (56, 9)])) 4 (State.copyWaiting (taken 1 (rec_ [(0, 0x10), (16, 0x10000), (24, 0x5FFFFFFC0), (32, 64), (36, 1), (56, 9)]))), by decide +kernel⟩, by decide +kernel⟩,
   ⟨chip [] { up with work := { engines := [(0, (ent (rec_ [(0, 0x10), (16, 0x10000), (24, 0x5FFFFFFC0), (32, 64), (36, 1)])).copy 0)] } }, 0, (ent (rec_ [(0, 0x10), (16, 0x10000), (24, 0x5FFFFFFC0), (32, 64), (36, 1)])).copy 0, turnOf (chip [] { up with work := { engines := [(0, (ent (rec_ [(0, 0x10), (16, 0x10000), (24, 0x5FFFFFFC0), (32, 64), (36, 1)])).copy 0)] } }) 1 (State.blockQueues (chip [] { up with work := { engines := [(0, (ent (rec_ [(0, 0x10), (16, 0x10000), (24, 0x5FFFFFFC0), (32, 64), (36, 1)])).copy 0)] } })), by decide +kernel⟩⟩

theorem witness_rankGroups :
  (∃ (s : State) (rd : Nat) (b : Nat) (g : Nat) (l : Loc), b < 16 ∧ g < 16 ∧ Writes s rd (rRnkCmd b) l ∧ s.isOpen b = true ∧ GroupOpens s b g) ∧
  (∃ (s : State) (rd : Nat) (b : Nat) (g : Nat) (l : Loc), b < 16 ∧ g < 16 ∧ Writes s rd (rRnkCmd b) l ∧ s.isOpen b = true ∧ s.grpState b g ≠ 0 ∧ (s.grp b g).colls = []) ∧
  (∃ (s : State) (rd : Nat) (b : Nat) (g : Nat) (l : Loc), b < 16 ∧ g < 16 ∧ Writes s rd (rRnkCmd b) l ∧ s.isOpen b = true ∧ s.grpState b g = 0) ∧
  (∃ (s : State) (rd : Nat) (b : Nat) (v : Nat) (l : Loc), b < 16 ∧ Writes s rd (rRnkSubmit b) l ∧ s.isOpen b = true ∧ (s.rankBasin b).fifo.length < 64) ∧
  (∃ (s : State) (rd : Nat) (b : Nat) (v : Nat) (l : Loc), b < 16 ∧ Writes s rd (rRnkSubmit b) l ∧ s.isOpen b = true ∧ 64 ≤ (s.rankBasin b).fifo.length) :=
  ⟨⟨{ chip [(rRnkArg 0, 0x1000), (rGlbRole, 5 + 2 ^ 18), (rIbnRoute 9, 2 ^ 12)] with mem := memOf [(0x1000, leBytes 64 (rec_ [(0, 1), (1, 0), (2, 7), (4, 9), (8, 0x1040)])), (0x1040, leBytes 4 9 ++ leBytes 4 5)] }, 0, 0, 15, at_ (rRnkCmd 0), by decide +kernel⟩,
   ⟨chip [(rRnkGrp 0 15, 2)], 0, 0, 15, at_ (rRnkCmd 0), by decide +kernel⟩,
   ⟨chip [], 0, 0, 15, at_ (rRnkCmd 0), by decide +kernel⟩,
   ⟨chip [] { up with rnk := { basins := [(0, { fifo := List.replicate 63 0 })] } }, 0, 0, 2 ^ 48 - 1, at_ (rRnkSubmit 0), by decide +kernel⟩,
   ⟨chip [] { up with rnk := { basins := [(0, { fifo := List.replicate 64 0 })] } }, 0, 0, 0, at_ (rRnkSubmit 0), by decide +kernel⟩⟩

theorem witness_collectives :
  (∃ (s : State) (b : Nat) (a : Nat) (cop : Nat) (rest : List Nat) (c : Instr), b < 16 ∧ (cop, c) ∈ collectiveRows b [] ∧ s.isOpen b = true ∧ (∀ x ∈ (s.rankBasin b).sums, x.tile = none) ∧ (s.rankBasin b).cur = none ∧ (s.rankBasin b).fifo = a :: rest ∧ rest.length < 64 ∧ s.num a 2 = cop ∧ a + 192 ≤ hbmSize ∧ s.firstRefusal b [⟨a, a + 191, rightR⟩] = none ∧ s.poison = []) ∧
  (∃ (s : State) (b : Nat) (cop : Nat) (k : RankCur) (y : RankColl) (c : Instr), b < 16 ∧ k.group < 16 ∧ (cop, c) ∈ collectiveRows b [] ∧ s.isOpen b = true ∧ (∀ x ∈ (s.rankBasin b).sums, x.tile = none) ∧ (s.rankBasin b).cur = some k ∧ s.grpState b k.group ≠ 2 ∧ cCop k.desc = cop ∧ (dWaits k.desc = true → waitExpired (dWaitLimit k.desc) k.marks = false) ∧ s.opWaitMet b k.desc k.marks = true ∧ s.firstRefusal b (([0, 1].filter (cUses k.desc (s.grpFirst b k.group + k.vslot) ·)).map fun n => AccUnit.mk (cTensor k.desc n).extent.1 (cTensor k.desc n).extent.2 (if n = 0 then rightR else rightW)) = none ∧ ((s.grp b k.group).colls.filter fun x => x.vslot == k.vslot && x.accepted).length < 16 ∧ s.poison = [] ∧ (s.grp b k.group).colls.find? (fun x => x.vslot == k.vslot && x.seq == k.seq) = some y) ∧
  (∃ (s : State) (b : Nat) (g : Nat) (q : Nat) (i : RankInst), b < 16 ∧ g < 16 ∧ mget? (s.grp b g).insts q = some i ∧ (i.waits.any fun w => decide ((s.grp b g).timeout ≤ w.2.1)) = true ∧ i.fail = none ∧ i.outcome = none ∧ s.grpState b g = 1 ∧ s.dev.flt.ignored.contains (0xF0 + b) = false) :=
  ⟨⟨{ chip [] { up with rnk := { basins := [(0, { fifo := [0x1000] })] } } with mem := memOf [(0x1000, [2#8])] }, 0, 0x1000, 2, [], .allReduce 0 [], by decide +kernel⟩,
   ⟨chip [(rRnkGrp 0 15, 1)] { up with rnk := { basins := [(0, { cur := some { desc := 1, group := 15, vslot := 0, seq := 3 } })], groups := [(15, { map := [0], counts := [4], colls := [{ vslot := 0, seq := 3, desc := 1 }] })] } }, 0, 1, { desc := 1, group := 15, vslot := 0, seq := 3 }, { vslot := 0, seq := 3, desc := 1 }, .barrier 0 [], by decide +kernel⟩,
   ⟨chip [(rRnkGrp 0 15, 1)] { up with rnk := { groups := [(15, { timeout := 9, insts := [(3, { waits := [(0, (9, 0))] })] })] } }, 0, 15, 3, { waits := [(0, (9, 0))] }, by decide +kernel⟩⟩

theorem witness_servingCommands :
  (∃ (s : State) (q : Nat) (e : Entry), EntryGranted s q 2 e ∧ e.cmd = 0x100 ∧ e.get 22 42 = 0 ∧ s.srvState (s.qOwner q) = 0 ∧ s.reqQuota (s.qOwner q) ≠ 0 ∧ s.cowWait (configOf s (e.get 16 6)).poolMeta (8 * (configOf s (e.get 16 6)).poolPages) = false ∧ e.get 16 6 + 128 ≤ hbmSize ∧ cfgOk (s.bytes (e.get 16 6) 128) = true ∧ s.poison = [] ∧ s.firstRefusal (s.qOwner q) [⟨e.get 16 6, e.get 16 6 + 127, rightR⟩, ⟨bget (s.bytes (e.get 16 6) 128) 0 6, bget (s.bytes (e.get 16 6) 128) 0 6 + 8 * (bget (s.bytes (e.get 16 6) 128) 6 1 + 1) - 1, rightR⟩] = none ∧ (configOf s (e.get 16 6)).bases.all (fun x => x % 64 == 0 && inHbm x) = true ∧ s.firstRefusal (s.qOwner q) (configUnits s (s.qOwner q) (configOf s (e.get 16 6)) (bget (s.bytes (e.get 16 6) 128) 40 4)) = none ∧ s.qPresent (configOf s (e.get 16 6)).stepQueue = true ∧ s.qKind (configOf s (e.get 16 6)).stepQueue = 0 ∧ s.qOwner (configOf s (e.get 16 6)).stepQueue = s.qOwner q ∧ s.qEnabled (configOf s (e.get 16 6)).stepQueue = true) ∧
  (∃ (s : State) (q : Nat) (k : Nat) (e : Entry) (c : SrvCfg), EntryGranted s q 2 e ∧ e.cmd = 0x101 ∧ e.get 22 42 = 0 ∧ (s.srvBasin (s.qOwner q)).cfg = some c ∧ s.srvState (s.qOwner q) = 1 ∧ e.get 16 6 + 128 ≤ hbmSize ∧ s.poison = [] ∧ s.firstRefusal (s.qOwner q) [⟨e.get 16 6, e.get 16 6 + 127, rightR⟩] = none ∧ reqOk (s.bytes (e.get 16 6) 128) = true ∧ s.firstRefusal (s.qOwner q) (submitUnits c (s.bytes (e.get 16 6) 128)) = none ∧ (parseReq (s.bytes (e.get 16 6) 128)).handle = 0 ∧ (parseReq (s.bytes (e.get 16 6) 128)).hblocks = 0 ∧ (s.slots (s.qOwner q)).find? (fun k => (s.req k).state == 0) = some k) ∧
  (∃ (s : State) (q : Nat) (e : Entry), EntryGranted s q 2 e ∧ e.cmd = 0x102 ∧ e.get 20 44 = 0 ∧ e.get 16 2 ∈ s.slots (s.qOwner q) ∧ (s.req (e.get 16 2)).state ≠ 0 ∧ (s.req (e.get 16 2)).gen = e.get 18 2) ∧
  (∃ (s : State) (q : Nat) (e : Entry) (ps : List Nat), EntryGranted s q 2 e ∧ e.cmd = 0x104 ∧ e.get 20 44 = 0 ∧ s.handlePages (s.qOwner q) (e.get 16 4) = some ps) :=
  ⟨⟨takes 2 (rec_ [(0, 0x100), (16, 0x10000)]) [(rSrvCfg 0, 4095 + 1 * 2 ^ 12), (rQueCfg 1, 2 ^ 31 + 4 * 2 ^ 8), (rQueStatus 1, 1)] up (memOf [(0x10000, cfgBytes), (0x20000, leBytes 8 0x100000)]), 0, ent (rec_ [(0, 0x100), (16, 0x10000)]), ⟨by decide +kernel, by decide +kernel, by decide +kernel, turnOf (takes 2 (rec_ [(0, 0x100), (16, 0x10000)]) [(rSrvCfg 0, 4095 + 1 * 2 ^ 12), (rQueCfg 1, 2 ^ 31 + 4 * 2 ^ 8), (rQueStatus 1, 1)] up (memOf [(0x10000, cfgBytes), (0x20000, leBytes 8 0x100000)])) 2 (State.startableQueues (takes 2 (rec_ [(0, 0x100), (16, 0x10000)]) [(rSrvCfg 0, 4095 + 1 * 2 ^ 12), (rQueCfg 1, 2 ^ 31 + 4 * 2 ^ 8), (rQueStatus 1, 1)] up (memOf [(0x10000, cfgBytes), (0x20000, leBytes 8 0x100000)])) 2), by decide +kernel⟩, by decide +kernel⟩,
   ⟨takes 2 (rec_ [(0, 0x101), (16, 0x10000)]) [(rSrvState 0, 1), (rSrvCfg 0, 4095 + 1 * 2 ^ 12)] { up with srv := { basins := [(0, { cfg := some cfg })] } } (memOf [(0x10000, reqBytes)]), 0, 4095, ent (rec_ [(0, 0x101), (16, 0x10000)]), cfg, ⟨by decide +kernel, by decide +kernel, by decide +kernel, turnOf (takes 2 (rec_ [(0, 0x101), (16, 0x10000)]) [(rSrvState 0, 1), (rSrvCfg 0, 4095 + 1 * 2 ^ 12)] { up with srv := { basins := [(0, { cfg := some cfg })] } } (memOf [(0x10000, reqBytes)])) 2 (State.startableQueues (takes 2 (rec_ [(0, 0x101), (16, 0x10000)]) [(rSrvState 0, 1), (rSrvCfg 0, 4095 + 1 * 2 ^ 12)] { up with srv := { basins := [(0, { cfg := some cfg })] } } (memOf [(0x10000, reqBytes)])) 2), by decide +kernel⟩, by decide +kernel⟩,
   ⟨takes 2 (rec_ [(0, 0x102), (16, 4095), (18, 9)]) [(rSrvState 0, 1), (rSrvCfg 0, 4095 + 1 * 2 ^ 12)] { up with srv := { basins := [(0, { cfg := some cfg })], reqs := [(4095, { state := 2, gen := 9 })] } }, 0, ent (rec_ [(0, 0x102), (16, 4095), (18, 9)]), ⟨by decide +kernel, by decide +kernel, by decide +kernel, turnOf (takes 2 (rec_ [(0, 0x102), (16, 4095), (18, 9)]) [(rSrvState 0, 1), (rSrvCfg 0, 4095 + 1 * 2 ^ 12)] { up with srv := { basins := [(0, { cfg := some cfg })], reqs := [(4095, { state := 2, gen := 9 })] } }) 2 (State.startableQueues (takes 2 (rec_ [(0, 0x102), (16, 4095), (18, 9)]) [(rSrvState 0, 1), (rSrvCfg 0, 4095 + 1 * 2 ^ 12)] { up with srv := { basins := [(0, { cfg := some cfg })], reqs := [(4095, { state := 2, gen := 9 })] } }) 2), by decide +kernel⟩, by decide +kernel⟩,
   ⟨takes 2 (rec_ [(0, 0x104), (16, 1023), (18, 2)]) [(rSrvState 0, 1 + 1023 * 2 ^ 3 + 1 * 2 ^ 13)] { up with srv := { handles := [(1023, { gen := 2, pages := some [0] })] } }, 0, ent (rec_ [(0, 0x104), (16, 1023), (18, 2)]), [0], ⟨by decide +kernel, by decide +kernel, by decide +kernel, turnOf (takes 2 (rec_ [(0, 0x104), (16, 1023), (18, 2)]) [(rSrvState 0, 1 + 1023 * 2 ^ 3 + 1 * 2 ^ 13)] { up with srv := { handles := [(1023, { gen := 2, pages := some [0] })] } }) 2 (State.startableQueues (takes 2 (rec_ [(0, 0x104), (16, 1023), (18, 2)]) [(rSrvState 0, 1 + 1023 * 2 ^ 3 + 1 * 2 ^ 13)] { up with srv := { handles := [(1023, { gen := 2, pages := some [0] })] } }) 2), by decide +kernel⟩, by decide +kernel⟩⟩

theorem witness_servingSteps :
  (∃ (s : State) (b : Nat) (c : SrvCfg), b < 16 ∧ (s.srvBasin b).cfg = some c ∧ s.tended b = false ∧ s.canBuild b c = true ∧ s.poison = [] ∧ (∀ e ∈ s.slots b, inHbm (s.req e).promptAddr = true) ∧ ((buildAt s b).composed [] b c).items ≠ []) ∧
  (∃ (s : State) (q : Nat) (k : Nat) (e : Entry) (c : SrvCfg), EntryGranted s q 2 e ∧ e.cmd = 0x103 ∧ e.get 22 2 = 0 ∧ e.get 26 38 = 0 ∧ e.get 24 2 = 1 ∧ (s.srvBasin (s.qOwner q)).cfg = some c ∧ s.srvState (s.qOwner q) = 1 ∧ s.tended (s.qOwner q) = true ∧ s.srvWait (s.qOwner q) c = false ∧ (s.srvBasin (s.qOwner q)).zeros = [] ∧ e.get 16 6 + 8 ≤ hbmSize ∧ s.poison = [] ∧ s.firstRefusal (s.qOwner q) [⟨e.get 16 6, e.get 16 6 + 7, rightR⟩] = none ∧ (∀ e ∈ s.slots (s.qOwner q), inHbm (s.req e).promptAddr = true) ∧ k < 4096 ∧ k ∈ s.slots (s.qOwner q) ∧ s.num (e.get 16 6) 8 = k + 4096 + (s.req k).gen * 65536 ∧ (s.req k).gen < 65536 ∧ ((s.req k).state = 2 ∨ (s.req k).state = 3) ∧ (s.req k).moor ≠ 0) ∧
  (∃ (s : State) (b : Nat) (c : SrvCfg) (r : StepRun) (host : HostBytes) (es : List EccEvent), b < 16 ∧ (s.srvBasin b).cfg = some c ∧ (s.srvBasin b).step = some r ∧ r.entry = none ∧ s.srvState b = 1 ∧ s.bit rStpStatus 2 = false ∧ s.srvWait b c = false ∧ s.stepEnd c r = some 0 ∧ s.poison = [] ∧ (∀ x ∈ es, ¬ sectorOf x.sector ∈ sectorsOf c.poolMeta (8 * c.poolPages))) ∧
  (∃ (s : State) (e : Nat), (s.req e).state = 4) ∧
  (∃ (s : State) (e : Nat), (s.req e).state = 6) ∧
  (∃ (s : State) (rd : Nat) (b : Nat) (v : Nat) (l : Loc), b < 16 ∧ Writes s rd (rSrvKey b 1) l ∧ s.isOpen b = true) ∧
  (∃ (s : State), s.dev.srv.stopDue = none ∧ s.bit rStpCfg 14 = true ∧ s.dev.srv.stopSlot < s.now / servePeriod ∧ s.stepRunning = false ∧ s.bit rStpStatus 2 = false) ∧
  (∃ (s : State), s.bit rStpStatus 2 = true) :=
  ⟨⟨serving cfg { state := 2, plen := 1, maxTok := 1, promptAddr := 0x30000, outAddr := 0x40000, gen := 1 } [(rQueCfg 1, 2 ^ 31), (rQueStatus 1, 1)], 0, cfg, by decide +kernel⟩,
   ⟨takes 2 (rec_ [(0, 0x103), (16, 0x10000), (24, 1)]) [(rSrvState 0, 1), (rSrvCfg 0, 4095 + 1 * 2 ^ 12 + 2 ^ 58)] { up with srv := { basins := [(0, { cfg := some cfg })], reqs := [(4095, { state := 3, gen := 65535, moor := 0x50000 })] } } (memOf [(0x10000, leBytes 8 (4095 + 4096 + 65535 * 65536))]), 0, 4095, ent (rec_ [(0, 0x103), (16, 0x10000), (24, 1)]), cfg, ⟨by decide +kernel, by decide +kernel, by decide +kernel, turnOf (takes 2 (rec_ [(0, 0x103), (16, 0x10000), (24, 1)]) [(rSrvState 0, 1), (rSrvCfg 0, 4095 + 1 * 2 ^ 12 + 2 ^ 58)] { up with srv := { basins := [(0, { cfg := some cfg })], reqs := [(4095, { state := 3, gen := 65535, moor := 0x50000 })] } } (memOf [(0x10000, leBytes 8 (4095 + 4096 + 65535 * 65536))])) 2 (State.startableQueues (takes 2 (rec_ [(0, 0x103), (16, 0x10000), (24, 1)]) [(rSrvState 0, 1), (rSrvCfg 0, 4095 + 1 * 2 ^ 12 + 2 ^ 58)] { up with srv := { basins := [(0, { cfg := some cfg })], reqs := [(4095, { state := 3, gen := 65535, moor := 0x50000 })] } } (memOf [(0x10000, leBytes 8 (4095 + 4096 + 65535 * 65536))])) 2), by decide +kernel⟩, by decide +kernel⟩,
   ⟨serving cfg {} [] { step := some { number := 1, items := [] } } { up with work := { queues := [(1, { posted := 1, lastIdx := some 0 })] } }, 0, cfg, { number := 1, items := [] }, [], [], by decide +kernel⟩,
   ⟨serving cfg { state := 4 }, 4095, by decide +kernel⟩,
   ⟨serving cfg { state := 6, cancel := true }, 4095, by decide +kernel⟩,
   ⟨chip [], 0, 0, 2 ^ 64 - 1, at_ (rSrvKey 0 1), by decide +kernel⟩,
   ⟨chip [(rStpCfg, 2 ^ 14)] up servePeriod, by decide +kernel⟩,
   ⟨chip [(rStpStatus, 4)], by decide +kernel⟩⟩

theorem witness_checkpointSets :
  (∃ (s : State) (q : Nat) (e : Entry) (list : List Byte), EntryGranted s q 3 e ∧ s.current q = some e ∧ e.cmd = 0x200 ∧ SetDefines s q e list) ∧
  (∃ (s : State) (q : Nat) (e : Entry), EntryGranted s q 3 e ∧ e.cmd = 0x201 ∧ e.get 19 1 = 0 ∧ e.get 32 32 = 0 ∧ e.get 16 1 < 16 ∧ s.setPresent (e.get 16 1) = true ∧ s.setOwner (e.get 16 1) = s.qOwner q ∧ s.setState (e.get 16 1) = 1 ∧ (s.wset (e.get 16 1)).adopt = none ∧ (s.wset (e.get 16 1)).undo = false ∧ (e.get 17 1 = 0 ∨ (e.get 17 1 = 1 ∧ s.needFull (e.get 16 1) = false))) ∧
  (∃ (s : State) (k : Nat) (e : EpochRun), k < 16 ∧ (s.wset k).epoch = some e ∧ s.setState k = 2 ∧ (s.wset k).undo = false ∧ e.issued = false ∧ e.posted = false ∧ e.limit ≠ 0 ∧ e.limit ≤ e.marks) ∧
  (∃ (s : State) (k : Nat) (e : EpochRun) (rd : Nat) (l : Loc), k < 16 ∧ (s.wset k).epoch = some e ∧ s.setState k = 2 ∧ (s.wset k).undo = false ∧ e.issued = false ∧ e.posted = false ∧ Writes s rd (rWhfSetCtrl k) l ∧ s.isOpen (s.setOwner k) = true) ∧
  (∃ (s : State) (q : Nat) (n : Nat) (e : Entry), EntryGranted s q 3 e ∧ e.cmd = 0x202 ∧ e.get 16 1 < 16 ∧ s.setPresent (e.get 16 1) = true ∧ s.setOwner (e.get 16 1) = s.qOwner q ∧ s.setState (e.get 16 1) = 1 ∧ (s.wset (e.get 16 1)).adopt = none ∧ (s.wset (e.get 16 1)).undo = false ∧ bitsOf (e.get 18 1) 3 5 = 0 ∧ e.get 19 5 = 0 ∧ e.get 38 2 = 0 ∧ e.get 46 18 = 0 ∧ n = e.get 17 1 ∧ 1 ≤ n ∧ n ≤ 8 ∧ e.get 32 6 + 16 * n ≤ hbmSize ∧ e.get 40 6 + scratchBytes (s.wset (e.get 16 1)).defn.tensors ≤ hbmSize ∧ 1 ≤ scratchBytes (s.wset (e.get 16 1)).defn.tensors ∧ s.poison = [] ∧ s.firstRefusal (s.qOwner q) [⟨e.get 32 6, e.get 32 6 + 16 * n - 1, rightR⟩, ⟨e.get 40 6, e.get 40 6 + scratchBytes (s.wset (e.get 16 1)).defn.tensors - 1, rightR + rightW⟩] = none ∧ (∀ i, i < n → getLe (s.bytes (e.get 32 6) (16 * n)) (16 * i + 1) 7 = 0 ∧ getLe (s.bytes (e.get 32 6) (16 * n)) (16 * i) 1 ≤ 7 ∧ s.lbaAllowed (e.get 16 1) (getLe (s.bytes (e.get 32 6) (16 * n)) (16 * i) 1) (getLe (s.bytes (e.get 32 6) (16 * n)) (16 * i + 8) 8) 2 = true ∧ s.drvState (getLe (s.bytes (e.get 32 6) (16 * n)) (16 * i) 1) = 1)) :=
  ⟨⟨takes 3 (rec_ [(0, 0x200), (16, 15), (24, 0x10000), (32, 1), (40, 0x400000), (48, 0x500000), (56, 1)]) [(rWhfSetCfg 15, 2 ^ 4 + 1 * 2 ^ 8)] up (memOf [(0x10000, setList)]), 0, ent (rec_ [(0, 0x200), (16, 15), (24, 0x10000), (32, 1), (40, 0x400000), (48, 0x500000), (56, 1)]), setList, ⟨by decide +kernel, by decide +kernel, by decide +kernel, turnOf (takes 3 (rec_ [(0, 0x200), (16, 15), (24, 0x10000), (32, 1), (40, 0x400000), (48, 0x500000), (56, 1)]) [(rWhfSetCfg 15, 2 ^ 4 + 1 * 2 ^ 8)] up (memOf [(0x10000, setList)])) 3 (State.startableQueues (takes 3 (rec_ [(0, 0x200), (16, 15), (24, 0x10000), (32, 1), (40, 0x400000), (48, 0x500000), (56, 1)]) [(rWhfSetCfg 15, 2 ^ 4 + 1 * 2 ^ 8)] up (memOf [(0x10000, setList)])) 3), by decide +kernel⟩, by decide +kernel⟩,
   ⟨takes 3 (rec_ [(0, 0x201), (16, 15), (17, 0), (18, 255), (24, 5)]) [(rWhfSetCfg 15, 2 ^ 4 + 1 * 2 ^ 8), (rWhfSetState 15, 1)] up, 0, ent (rec_ [(0, 0x201), (16, 15), (17, 0), (18, 255), (24, 5)]), ⟨by decide +kernel, by decide +kernel, by decide +kernel, turnOf (takes 3 (rec_ [(0, 0x201), (16, 15), (17, 0), (18, 255), (24, 5)]) [(rWhfSetCfg 15, 2 ^ 4 + 1 * 2 ^ 8), (rWhfSetState 15, 1)] up) 3 (State.startableQueues (takes 3 (rec_ [(0, 0x201), (16, 15), (17, 0), (18, 255), (24, 5)]) [(rWhfSetCfg 15, 2 ^ 4 + 1 * 2 ^ 8), (rWhfSetState 15, 1)] up) 3), by decide +kernel⟩, by decide +kernel⟩,
   ⟨chip [(rWhfSetCfg 15, 2 ^ 4 + 1 * 2 ^ 8), (rWhfSetState 15, 2)] { up with whf := { sets := [(15, { epoch := some { q := 0, kind := 0, gate := 0, value := 1, limit := 7, marks := 7 } })] } }, 15, { q := 0, kind := 0, gate := 0, value := 1, limit := 7, marks := 7 }, by decide +kernel⟩,
   ⟨chip [(rWhfSetCfg 15, 2 ^ 4 + 1 * 2 ^ 8), (rWhfSetState 15, 2)] { up with whf := { sets := [(15, { epoch := some { q := 0, kind := 0, gate := 0, value := 1, limit := 7, marks := 7 } })] } }, 15, { q := 0, kind := 0, gate := 0, value := 1, limit := 7, marks := 7 }, 0, at_ (rWhfSetCtrl 15), by decide +kernel⟩,
   ⟨takes 3 (rec_ [(0, 0x202), (16, 15), (17, 1), (32, 0x10000), (40, 0x20000)]) [(rWhfSetCfg 15, 2 ^ 4 + 1 * 2 ^ 8), (rWhfSetState 15, 1), (rWhfSetArea 15 1, 2 ^ 20), (rWhfDrvStatus 0, 1)] { up with whf := { sets := [(15, { defn := { tensors := [{ addr := 0x200000, etype := 0, ndim := 1, sizes := [32768, 1, 1, 1], gid := 5, gsize := [32768, 1, 1, 1], boxOff := [0, 0, 0, 0] }] } })] } }, 0, 1, ent (rec_ [(0, 0x202), (16, 15), (17, 1), (32, 0x10000), (40, 0x20000)]), ⟨by decide +kernel, by decide +kernel, by decide +kernel, turnOf (takes 3 (rec_ [(0, 0x202), (16, 15), (17, 1), (32, 0x10000), (40, 0x20000)]) [(rWhfSetCfg 15, 2 ^ 4 + 1 * 2 ^ 8), (rWhfSetState 15, 1), (rWhfSetArea 15 1, 2 ^ 20), (rWhfDrvStatus 0, 1)] { up with whf := { sets := [(15, { defn := { tensors := [{ addr := 0x200000, etype := 0, ndim := 1, sizes := [32768, 1, 1, 1], gid := 5, gsize := [32768, 1, 1, 1], boxOff := [0, 0, 0, 0] }] } })] } }) 3 (State.startableQueues (takes 3 (rec_ [(0, 0x202), (16, 15), (17, 1), (32, 0x10000), (40, 0x20000)]) [(rWhfSetCfg 15, 2 ^ 4 + 1 * 2 ^ 8), (rWhfSetState 15, 1), (rWhfSetArea 15 1, 2 ^ 20), (rWhfDrvStatus 0, 1)] { up with whf := { sets := [(15, { defn := { tensors := [{ addr := 0x200000, etype := 0, ndim := 1, sizes := [32768, 1, 1, 1], gid := 5, gsize := [32768, 1, 1, 1], boxOff := [0, 0, 0, 0] }] } })] } }) 3), by decide +kernel⟩, by decide +kernel⟩⟩

theorem witness_checkpointDrives :
  (∃ (s : State) (k : Nat) (page : Nat) (c : Nat), k < 16 ∧ page ∈ (s.wset k).armed ∧ (s.wset k).freeCow = some c ∧ s.poison = [] ∧ 65536 * page + 65536 ≤ hbmSize ∧ (s.wset k).defn.cowAddr + 65536 * c + 65536 ≤ hbmSize ∧ (s.wset k).defn.cowAddr % 65536 = 0) ∧
  (∃ (s : State) (k : Nat) (p : Nat) (i : Nat) (d : Nat) (ti : Nat) (ext : Nat) (e : EpochRun) (x : WTensor), k < 16 ∧ (s.wset k).epoch = some e ∧ e.fail = none ∧ s.setState k = 3 ∧ (s.wset k).copies = [] ∧ (s.wset k).armed.head? = some p ∧ pageExtent p 0 (s.wset k).defn.tensors = some (ti, x, ext) ∧ s.freeBuf = some i ∧ d = (s.setDrives k).getD (e.next % (s.setDrives k).length) 0 ∧ s.drvState d = 1 ∧ s.drvRoom d = true ∧ s.poison = [] ∧ s.dev.codec.coded = []) ∧
  (∃ (s : State) (d : Nat) (c : DrvCmd) (es : List EccEvent), d < 8 ∧ s.drvState d = 1 ∧ bitOf (getLe (s.sram (0x880000 + 0x10000 * d + 16 * (s.drive d).cqHead) 16) 12 4) 16 = (s.drive d).phase ∧ bitsOf (getLe (s.sram (0x880000 + 0x10000 * d + 16 * (s.drive d).cqHead) 16) 12 4) 17 15 = 0 ∧ (s.drive d).cmds.find? (fun x => x.cid == bitsOf (getLe (s.sram (0x880000 + 0x10000 * d + 16 * (s.drive d).cqHead) 16) 12 4) 0 16) = some c ∧ s.busMaster 0 = false) ∧
  (∃ (s : State) (d : Nat), d < 8 ∧ s.drvState d = 1 ∧ ((s.drive d).cmds.any fun c => decide (c.tick + 2 ^ s.fld rWhfCfg 3 6 ≤ s.now)) = true ∧ s.dev.flt.ignored.contains 0x23 = false) ∧
  (∃ (s : State) (rd : Nat) (d : Nat) (l : Loc), d < 8 ∧ Writes s rd (rWhfDrvCmd d) l) ∧
  (∃ (s : State) (rd : Nat) (d : Nat) (l : Loc), d < 8 ∧ Writes s rd (rWhfDrvCmd d) l ∧ s.drvState d = 0 ∧ outbound (s.reg (rWhfDrvSqdb d)).toNat = true ∧ outbound (s.reg (rWhfDrvCqdb d)).toNat = true ∧ s.fld (rWhfDrvCtrl d) 16 16 ≠ 0 ∧ s.firstRefusal 0 [⟨(s.reg (rWhfDrvSqdb d)).toNat, (s.reg (rWhfDrvSqdb d)).toNat + 3, rightW⟩, ⟨(s.reg (rWhfDrvCqdb d)).toNat, (s.reg (rWhfDrvCqdb d)).toNat + 3, rightW⟩] = none) :=
  ⟨⟨chip [] { up with whf := { sets := [(15, { defn := { cowAddr := 0x500000, cowPages := 1 }, armed := [32] })] } }, 15, 32, 0, by decide +kernel⟩,
   ⟨chip [(rWhfSetCfg 15, 2 ^ 4 + 1 * 2 ^ 15), (rWhfSetState 15, 3), (rWhfDrvStatus 7, 1), (rWhfDrvCtrl 7, 2)] { up with whf := { sets := [(15, { defn := { tensors := [{ addr := 0x200000, etype := 0, ndim := 1, sizes := [32768, 1, 1, 1], gid := 5, gsize := [32768, 1, 1, 1], boxOff := [0, 0, 0, 0] }] }, armed := [32], epoch := some { q := 0, kind := 0, gate := 0, value := 0, limit := 0 } })] } }, 15, 32, 0, 7, 0, 0, { q := 0, kind := 0, gate := 0, value := 0, limit := 0 }, { addr := 0x200000, etype := 0, ndim := 1, sizes := [32768, 1, 1, 1], gid := 5, gsize := [32768, 1, 1, 1], boxOff := [0, 0, 0, 0] }, by decide +kernel⟩,
   ⟨chip [(rWhfDrvStatus 7, 1)] { whf := { drives := [(7, { cmds := [{ cid := 3, op := 1, slba := 0, nlb := 1, buf := 0, sends := 1, tick := 0, role := .flush 0 }] })], sram := memOf [(0x880000 + 0x70000 + 12, [3#8, 0#8, 1#8])] } }, 7, { cid := 3, op := 1, slba := 0, nlb := 1, buf := 0, sends := 1, tick := 0, role := .flush 0 }, [], by decide +kernel⟩,
   ⟨chip [(rWhfDrvStatus 7, 1), (rWhfCfg, 20 * 2 ^ 3)] { up with whf := { drives := [(7, { cmds := [{ cid := 3, op := 1, slba := 0, nlb := 1, buf := 0, sends := 1, tick := 0, role := .flush 0 }] })] } } (2 ^ 20), 7, by decide +kernel⟩,
   ⟨chip [], 0, 7, at_ (rWhfDrvCmd 7), by decide +kernel⟩,
   ⟨chip [(rWhfDrvSqdb 7, 2 ^ 47), (rWhfDrvCqdb 7, 2 ^ 47 + 4), (rWhfDrvCtrl 7, 2 ^ 16), (rLckWin 0 2, 2 ^ 47 + 15), (rLckWin 0 3, 2 ^ 47)], 0, 7, at_ (rWhfDrvCmd 7), by decide +kernel⟩⟩

theorem witness_bar4 :
  (∃ (s : State) (rid : Nat) (off : Nat) (n : Nat) (d : Nat) (bs : List Byte) (w : Window), s.dlActive = true ∧ (s.fn 0).mse = true ∧ s.asleep = false ∧ s.dryDock = false ∧ s.isOpen 0 = true ∧ s.ridSlot rid = some d ∧ s.drvState d = 1 ∧ bs ≠ [] ∧ bar4Check off (off + bs.length - 1) (rightW + rightD) = .pass w) ∧
  (∃ (s : State) (rid : Nat) (off : Nat) (n : Nat) (d : Nat) (bs : List Byte) (w : Window), s.dlActive = true ∧ (s.fn 0).mse = true ∧ s.asleep = false ∧ s.dryDock = false ∧ s.isOpen 0 = true ∧ s.ridSlot rid = some d ∧ s.drvState d = 1 ∧ 0 < n ∧ bar4Check off (off + n - 1) (rightR + rightD) = .pass w) ∧
  (∃ (s : State) (rid : Nat) (off : Nat) (n : Nat) (bs : List Byte), s.dlActive = true ∧ (s.fn 0).mse = true ∧ s.asleep = false ∧ s.dryDock = false ∧ s.isOpen 0 = true ∧ s.ridSlot rid = none ∧ bs ≠ [] ∧ 0 < n) ∧
  (∃ (s : State) (rid : Nat) (off : Nat) (n : Nat) (bs : List Byte), s.dlActive = true ∧ (s.fn 0).mse = true ∧ s.asleep = false ∧ (s.dryDock = true ∨ s.isOpen 0 = false) ∧ bs ≠ [] ∧ 0 < n) :=
  ⟨⟨chip [(rPciP2pRid 7, 2 ^ 16 + 9), (rWhfDrvStatus 7, 1)], 9, 0x7DFFFF, 0, 7, [5#8], ⟨0, 0x000000, 0x7DFFFF, 7⟩, by decide +kernel⟩,
   ⟨chip [(rPciP2pRid 7, 2 ^ 16 + 9), (rWhfDrvStatus 7, 1)], 9, 0x800000, 0x80000, 7, [], ⟨2, 0x800000, 0x87FFFF, 5⟩, by decide +kernel⟩,
   ⟨chip [], 9, 0, 4, [1#8], by decide +kernel⟩,
   ⟨chip [(rLckBasin 0, 0)], 9, 0, 4, [1#8], by decide +kernel⟩⟩

end Sys2Proof.Tests
end

section
/-!
# Gate counters across a step (R10, R113)

A gate counter is lowered by a reset of the main domain alone: every other command is an effect, and the one
update of an effect that sets a gate raises it (`Eff.run_gate_le`).
-/
namespace Sys2Proof.Machine
open Sys2Proof

/-- A command that is no reset of the main domain lowers no gate counter. -/
theorem exec_gate_le {c : Instr} {s t : State} (hchip : c ≠ .chipReset) (hfall : ∀ i, c ≠ .pwrGoodFall i)
    (h : exec c s = .next t) (b g : Nat) : s.gate b g ≤ t.gate b g := by
  rcases exec_cases c s with ⟨-, e, he⟩ | ⟨rfl, -⟩ | ⟨i, rfl, -⟩
  · obtain rfl : e.run s = t := by simpa [he] using h
    exact e.run_gate_le s b g
  · exact absurd rfl hchip
  · exact absurd rfl (hfall i)

theorem idleTick_gates (s : State) : (idleTick s).gates = s.gates := by
  unfold idleTick
  split <;> rfl

theorem idle_gate_le (s : State) (b g : Nat) : s.gate b g ≤ (idle s).gate b g :=
  calc s.gate b g ≤ (idleClocks.run s).gate b g := idleClocks.run_gate_le s b g
    _ = (idle s).gate b g := congrArg (mget 0 · _) (idleTick_gates _).symm

/-- Settles O4: an idle step moves the clocks alone, and a command other than the two resets is an effect. -/
theorem gateNeverFalls : Obligations.GateNeverFalls := by
  unfold Obligations.GateNeverFalls
  intro s t b g hstep hchip hfall
  unfold step at hstep
  cases hp : s.pending with
  | nil =>
    simp only [hp, Host.Outcome.next.injEq] at hstep
    exact hstep ▸ idle_gate_le s b g
  | cons c rest =>
    simp only [hp] at hstep
    exact exec_gate_le (s := { s with pending := rest }) (by simpa [hp] using hchip) (fun i => by simpa [hp] using hfall i) hstep b g

end Sys2Proof.Machine
end

section
/-!
# What reads and writes of registers run (R12 to R21)

The operations on a reader's shadow and write stage, the reads and writes that are built from them, and the commands
that run those reads and writes: each is said once here, for the access that reaches a register.
-/
namespace Sys2Proof.Machine
open Sys2Proof

/-! ### Shadows and write stages -/

theorem onReaders_local (r : Nat → Bool) (f : Readers → Readers) : (onReaders f).Only (Act.Local r) := Act.local_dev

theorem onReaders_frame (r : Nat → Bool) (f : Readers → Readers) (s : State) : Frame r s ((onReaders f).run s) :=
  (onReaders_local r f).frame s

theorem emit_frame (r : Nat → Bool) (o : Output) (s : State) : Frame r s ((emit o).run s) :=
  Eff.Only.frame (e := emit o) Act.local_emit s

section
variable (s : State) (rd reg : Nat)

@[simp] theorem onReaders_readers (f : Readers → Readers) : ((onReaders f).run s).dev.readers = f s.dev.readers := rfl

/-- After `invalidate` the reader's shadow is of another register, if there is one (R16). -/
theorem invalidate_shadow {h : Shadow} (hh : mget? ((invalidate rd reg).run s).dev.readers.shadow rd = some h) : h.reg ≠ reg := by
  simp only [invalidate, onReaders_readers] at hh
  split at hh
  next old hold =>
    split at hh
    next => simp at hh
    next hne =>
      obtain rfl : old = h := by simpa [hold] using hh
      exact hne
  next hnone => simp [hnone] at hh

@[simp] theorem invalidate_stage : ((invalidate rd reg).run s).dev.readers.stage = s.dev.readers.stage := by
  simp only [invalidate, onReaders_readers]
  split
  · split <;> rfl
  · rfl

theorem dropStage_stage : mget? ((dropStage rd).run s).dev.readers.stage rd = none := mget?_mdel s.dev.readers.stage rd

theorem loadShadow_shadow (high : Nat) : mget? ((loadShadow rd reg high).run s).dev.readers.shadow rd = some ⟨reg, high⟩ :=
  mget?_mput rd _ s.dev.readers.shadow
end

/-! ### Reads -/

/-- A register of access RC is the only one that its clearing changes (R18). -/
def clearedBy (l : Loc) (off : Nat) : Bool := l.row.acc == .rc && off == l.reg

theorem clearRc_local (l : Loc) : (clearRc l).Only (Act.Local (clearedBy l)) := by
  simp [clearRc, clearedBy]

theorem clearRc_reg {l : Loc} (h : l.row.acc = .rc) (s : State) : ((clearRc l).run s).reg l.reg = regReset l.reg := by
  simp [clearRc, h]

@[simp] theorem clearRc_dev (l : Loc) (s : State) : ((clearRc l).run s).dev = s.dev := by
  simp only [clearRc, Eff.run_when]
  split <;> rfl

@[simp] theorem clearRc_out (l : Loc) (s : State) : ((clearRc l).run s).out = s.out := by
  simp only [clearRc, Eff.run_when]
  split <;> rfl

theorem showing_run {l : Loc} (h : l.reg ≠ rBrdGpio) (rd : Nat) (k : Nat → Eff) (s : State) :
    (showing rd l k).run s = (k (s.shown rd l)).run s := by
  simp [showing, h]

/-- What a 32-bit read of a low word does before it answers: the shadow of a 64-bit register is loaded, then one of access RC is cleared. -/
def takeLow (rd : Nat) (l : Loc) (v : Nat) : Eff :=
  .andThen (Eff.when l.row.wide (loadShadow rd l.reg (v / 2 ^ 32))) (clearRc l)

theorem takeLow_local (rd : Nat) (l : Loc) (v : Nat) : (takeLow rd l v).Only (Act.Local (clearedBy l)) :=
  ⟨Eff.only_when.mpr fun _ => onReaders_local _ _, clearRc_local l⟩

theorem takeLow_out (rd : Nat) (l : Loc) (v : Nat) (s : State) : ((takeLow rd l v).run s).out = s.out := by
  simp only [takeLow, Eff.run_andThen, clearRc_out, Eff.run_when]
  split <;> rfl

theorem takeLow_shadow {l : Loc} (hw : l.row.wide = true) (rd v : Nat) (s : State) :
    mget? ((takeLow rd l v).run s).dev.readers.shadow rd = some ⟨l.reg, v / 2 ^ 32⟩ := by
  simp only [takeLow, Eff.run_andThen, clearRc_dev, Eff.run_when, hw, if_true]
  exact loadShadow_shadow s rd l.reg _

section
variable {s : State} {rd off : Nat} {l : Loc} (hp : s.place rd off = .reg l) (hg : l.reg ≠ rBrdGpio)
include hp hg

/-- R12: a read of a low word answers with the live one. -/
theorem read32_low (hl : l.high = false) (k : Nat → Eff) :
    (read32 rd off k).run s = (k (s.shown rd l % 2 ^ 32)).run ((takeLow rd l (s.shown rd l)).run s) := by
  simp [read32, hp, showing_run hg, hl, takeLow]

theorem read32_high (hl : l.high = true) (k : Nat → Eff) :
    (read32 rd off k).run s = (readHigh rd l.reg (s.shown rd l / 2 ^ 32) k).run s := by
  simp [read32, hp, showing_run hg, hl]

/-- R17: an aligned 64-bit read answers with both words as they stood before RC clears them. -/
theorem read64_wide (hw : l.row.wide = true) (hl : l.high = false) (k : Nat → Eff) :
    (read64 rd off k).run s = (k (s.shown rd l)).run ((clearRc l).run s) := by
  simp [read64, hp, hw, hl, showing_run hg]
end

section
variable {s : State} {rd reg : Nat}

/-- R13: the reader's shadow answers where it holds the register. -/
theorem readHigh_paired {h : Shadow} (hh : mget? s.dev.readers.shadow rd = some h) (hr : h.reg = reg) (live : Nat) (k : Nat → Eff) :
    (readHigh rd reg live k).run s = (k h.high).run s := by
  simp [readHigh, hh, hr]

/-- R14: with no shadow of the register the live high word answers, and UNPAIRED_HIGH is set. -/
theorem readHigh_unpaired (hh : ∀ h, mget? s.dev.readers.shadow rd = some h → h.reg ≠ reg) (live : Nat) (k : Nat → Eff) :
    (readHigh rd reg live k).run s = (k live).run ((onReaders fun r => { r with unpaired := sins r.unpaired rd }).run s) := by
  unfold readHigh
  cases hm : mget? s.dev.readers.shadow rd with
  | none => simp [hm]
  | some h => simp [hm, hh h hm]
end

/-! ### Writes -/

section
variable {s : State} {rd off : Nat} {l : Loc}

theorem mayWrite_run_onReaders (f : Readers → Readers) (w : Nat) (m : Loc) : ((onReaders f).run s).mayWrite w m = s.mayWrite w m := rfl

theorem State.mayWrite_written (w : Nat) (m : Loc) : (s.written rd l).mayWrite w m = s.mayWrite w m := by
  obtain ⟨r, hr⟩ := s.written_eq rd l
  rw [hr]; rfl

theorem State.dryDock_written : (s.written rd l).dryDock = s.dryDock := by
  simp [State.dryDock, State.phase]

theorem tryCommit_taken (h : s.mayWrite rd l = true) (hd : s.dryDock = false ∨ dryDockBlock l.reg = true) (v : Nat) :
    (tryCommit rd l v).run s = (commit rd l v).run s := by
  have hd' : (!s.dryDock || dryDockBlock l.reg) = true := by rcases hd with h | h <;> simp [h]
  simp [tryCommit, h, hd']

theorem tryCommit_ignored (h : s.mayWrite rd l = false) (v : Nat) : (tryCommit rd l v).run s = s := by
  simp [tryCommit, h]

/-- R20: a write of a high word that its reader may make fills the stage. -/
theorem write32_high (hp : s.place rd off = .reg l) (hl : l.high = true) (hm : s.mayWrite rd l = true) (v : Nat) :
    (write32 rd off v).run s =
      (onReaders fun r => { r with stage := mput r.stage rd ⟨l.reg, v % 2 ^ 32⟩ }).run ((invalidate rd l.reg).run s) := by
  simp [write32, hp, hl, hm]

theorem write32_ignored (hp : s.place rd off = .reg l) (hm : s.mayWrite rd l = false) (v : Nat) :
    (write32 rd off v).run s = (invalidate rd l.reg).run s := by
  simp [write32, hp, hm]

/-- R21: an aligned 64-bit write that takes effect commits both words after its bookkeeping. -/
theorem write64_taken (hp : s.place rd off = .reg l) (hw : l.row.wide = true) (hl : l.high = false) (hm : s.mayWrite rd l = true)
    (hd : s.dryDock = false ∨ dryDockBlock l.reg = true) (v : Nat) :
    (write64 rd off v).run s = (commit rd l (v % 2 ^ 64)).run (s.written rd l) := by
  have h : (write64 rd off v).run s = (tryCommit rd l (v % 2 ^ 64)).run (s.written rd l) := by
    simp [write64, hp, hw, hl, hm, State.written]
  rw [h, tryCommit_taken (by rw [State.mayWrite_written, hm]) (by rwa [State.dryDock_written])]

theorem write64_ignored (hp : s.place rd off = .reg l) (hw : l.row.wide = true) (hl : l.high = false) (hm : s.mayWrite rd l = false) (v : Nat) :
    (write64 rd off v).run s = (invalidate rd l.reg).run s := by
  have h : (write64 rd off v).run s = (tryCommit rd l (v % 2 ^ 64)).run ((invalidate rd l.reg).run s) := by
    simp [write64, hp, hw, hl, hm]
  rw [h, tryCommit_ignored (by rw [invalidate, mayWrite_run_onReaders, hm])]

/-- A write that its reader may not make only invalidates the reader's shadow of the register (R8, R16). -/
theorem ignored_invalidate (s : State) (rd reg : Nat) : Ignored s rd reg ((invalidate rd reg).run s) :=
  ⟨invalidate_stage s rd reg, fun _ => invalidate_shadow s rd reg, onReaders_frame _ _ s, rfl⟩

theorem afterCommit_eq_written (hw : l.row.wide = true) (s : State) (rd : Nat) : afterCommit s rd l.reg = s.written rd l := by
  simp [afterCommit, State.written, hw]

theorem written_stage (hw : l.row.wide = true) (s : State) (rd : Nat) : mget? (s.written rd l).dev.readers.stage rd = none := by
  rw [← afterCommit_eq_written hw]
  exact dropStage_stage _ rd

/-- A register without a write behaviour of its own takes its value under its access code (R8). -/
theorem commit_plain {v : Nat} (h : PlainWrite rd l v) (s : State) :
    (commit rd l v).run s = Act.run s (.setReg l.reg (w64 (codeValue l (s.reg l.reg).toNat v))) := by
  obtain ⟨hfind, hacc⟩ := h
  unfold commit codeValue
  rw [hfind]
  rcases hacc with ha | ha | ha <;> simp [codeWrite, ha]
end

/-! ### The commands -/

section
variable {s : State} {rd off : Nat} {l : Loc}

theorem at32_run {kind : Place → Bool} (h4 : off % 4 = 0) (hw : off < windowSize rd) (hk : kind (s.place rd off) = true) (e : Eff) :
    (at32 rd off kind e).run s = e.run s := by
  simp [at32, onlyIf, h4, hw, hk]

theorem at64_run {kind : Place → Bool} (h8 : off % 8 = 0) (hw : off < windowSize rd) (hk : kind (s.place rd off) = true) (e : Eff) :
    (at64 rd off kind e).run s = e.run s := by
  simp [at64, onlyIf, h8, hw, hk]

theorem Place.isWide_reg (hw : l.row.wide = true) (hl : l.high = false) : (Place.reg l).isWide = true := by
  simp [Place.isWide, hw, hl]

/-- A 32-bit read that reaches its register is a `read32` that answers its reader. -/
theorem at32_answer {p : Place} {kind : Place → Bool} (h : ReadsPlace s rd off p) (hk : kind p = true) :
    (at32 rd off kind (answer32 rd off)).run s = (read32 rd off fun v => emit (.readData rd off v)).run s := by
  obtain ⟨hr, h4, hw, hp⟩ := h
  rw [at32_run h4 hw (by rwa [hp]), answer32, readAccess_run hr]

/-- A 32-bit write that reaches its register is a `write32`. -/
theorem at32_write {p : Place} {kind : Place → Bool} (h : ReadsPlace s rd off p) (hk : kind p = true) (v : Nat) :
    (at32 rd off kind (access rd (write32 rd off v))).run s = (write32 rd off v).run s := by
  obtain ⟨hr, h4, hw, hp⟩ := h
  rw [at32_run h4 hw (by rwa [hp]), access_run hr]

theorem exec_lowWordRead (h : ReadsPlace s rd off (.reg l)) (hl : l.high = false) :
    exec (.lowWordRead rd off) s = .next ((read32 rd off fun v => emit (.readData rd off v)).run s) :=
  congrArg _ (at32_answer h (by simp [Place.isHigh, hl]))

theorem exec_highWordRead (h : ReadsPlace s rd off (.reg l)) (hl : l.high = true) :
    exec (.highWordRead rd off) s = .next ((read32 rd off fun v => emit (.readData rd off v)).run s) :=
  congrArg _ (at32_answer h hl)

theorem exec_rcRead_low (h : ReadsPlace s rd off (.reg l)) (hw : l.row.wide = true) (hl : l.high = false) :
    exec (.rcRead rd off false) s = .next ((read32 rd off fun v => emit (.readData rd off v)).run s) :=
  congrArg _ (at32_answer h (Place.isWide_reg hw hl))

theorem exec_rcRead_wide (hr : Reaches s rd) (h8 : off % 8 = 0) (ho : off < windowSize rd) (hp : s.place rd off = .reg l)
    (hw : l.row.wide = true) (hl : l.high = false) :
    exec (.rcRead rd off true) s = .next ((read64 rd off fun v => emit (.readData rd off v)).run s) := by
  have h : (at64 rd off Place.isWide (answer64 rd off)).run s = (read64 rd off fun v => emit (.readData rd off v)).run s := by
    rw [at64_run h8 ho (by rw [hp]; exact Place.isWide_reg hw hl), answer64, readAccess_run hr]
  exact congrArg _ h

theorem exec_highWordWrite (h : ReadsPlace s rd off (.reg l)) (hl : l.high = true) (v : Nat) :
    exec (.highWordWrite rd off v) s = .next ((write32 rd off v).run s) :=
  congrArg _ (at32_write h hl v)

theorem exec_aligned64Write (hr : Reaches s rd) (h8 : off % 8 = 0) (ho : off < windowSize rd) (hp : s.place rd off = .reg l)
    (hw : l.row.wide = true) (hl : l.high = false) (v : Nat) :
    exec (.aligned64Write rd off v) s = .next ((write64 rd off v).run s) := by
  have h : (at64 rd off Place.isWide (access rd (write64 rd off v))).run s = (write64 rd off v).run s := by
    rw [at64_run h8 ho (by rw [hp]; exact Place.isWide_reg hw hl), access_run hr]
  exact congrArg _ h
end

end Sys2Proof.Machine
end

section
/-!
# Register reads, and the writes of a high word and of both words
-/
namespace Sys2Proof.Machine
open Sys2Proof

section
variable {s : State} {rd off : Nat} {l : Loc}

/-- A command that reads a low word: its answer, the shadow that it loads, and what it clears where the register has access RC (R12, R18). -/
theorem lowRead_completes {c : Instr} (hc : exec c s = .next ((read32 rd off fun v => emit (.readData rd off v)).run s))
    (hp : s.place rd off = .reg l) (hl : l.high = false) (hg : l.reg ≠ rBrdGpio) :
    Completes c s fun t =>
      t.out = .readData rd off (s.shown rd l % 2 ^ 32) :: s.out ∧
      (l.row.wide = true → mget? t.dev.readers.shadow rd = some ⟨l.reg, s.shown rd l / 2 ^ 32⟩) ∧
      (l.row.acc = .rc → t.reg l.reg = regReset l.reg) ∧ Frame (clearedBy l) s t := by
  rw [read32_low hp hg hl] at hc
  refine ⟨_, hc, ?_, fun hw => takeLow_shadow hw rd _ s, fun ha => clearRc_reg ha _, ?_⟩
  · exact congrArg _ (takeLow_out rd l _ s)
  · exact ((takeLow_local rd l _).frame s).trans (emit_frame _ _ _)

end

theorem lowWordRead : Stated.LowWordRead := by
  intro s rd off l h hl hg hacc
  obtain ⟨t, ht, hout, hshadow, -, hframe⟩ := lowRead_completes (exec_lowWordRead h hl) h.2.2.2 hl hg
  exact ⟨t, ht, hout, hshadow, hframe.mono fun _ ho => by simp [clearedBy, hacc] at ho⟩

theorem highWordRead : Stated.HighWordRead := by
  intro s rd off l h hl hg
  have hc := exec_highWordRead h hl
  rw [read32_high h.2.2.2 hg hl] at hc
  by_cases hpair : ∃ x, mget? s.dev.readers.shadow rd = some x ∧ x.reg = l.reg
  · obtain ⟨x, hx, hxr⟩ := hpair
    rw [readHigh_paired hx hxr] at hc
    refine ⟨_, hc, rfl, emit_frame _ _ s, fun y hy _ => ?_, fun hno => absurd hxr (hno x hx)⟩
    obtain rfl : x = y := Option.some.inj (hx.symm.trans hy)
    exact ⟨rfl, rfl⟩
  · have hno : ∀ x, mget? s.dev.readers.shadow rd = some x → x.reg ≠ l.reg := fun x hx hr => hpair ⟨x, hx, hr⟩
    rw [readHigh_unpaired hno] at hc
    refine ⟨_, hc, rfl, ?_, fun x hx hr => absurd hr (hno x hx), fun _ => ⟨rfl, mem_sins.mpr (.inl rfl)⟩⟩
    exact (onReaders_frame _ _ s).trans (emit_frame _ _ _)

theorem rcRead : Stated.RcRead := by
  refine ⟨fun s rd off l hr h8 ho hp hw hl hg => ?_, fun s rd off l h hw hl hg => ?_⟩
  · have hc := exec_rcRead_wide hr h8 ho hp hw hl
    rw [read64_wide hp hg hw hl] at hc
    refine ⟨_, hc, ?_, ?_, fun ha => clearRc_reg ha s, ?_⟩
    · exact congrArg _ (clearRc_out l s)
    · exact congrArg (·.readers.shadow) (clearRc_dev l s)
    · exact ((clearRc_local l).frame s).trans (emit_frame _ _ _)
  · obtain ⟨t, ht, hout, hshadow, hclear, hframe⟩ := lowRead_completes (exec_rcRead_low h hw hl) h.2.2.2 hl hg
    exact ⟨t, ht, hout, hshadow hw, hclear, hframe⟩

/-- Settles O41, by what each read runs once it has reached its register. -/
theorem registerReads : Obligations.RegisterReads := ⟨lowWordRead, highWordRead, rcRead⟩

section
variable {s : State} {rd off : Nat} {l : Loc}

theorem highWordWrite_completes (h : ReadsPlace s rd off (.reg l)) (hl : l.high = true) (hm : s.mayWrite rd l = true) (v : Nat) :
    Completes (.highWordWrite rd off v) s fun t =>
      mget? t.dev.readers.stage rd = some ⟨l.reg, v % 2 ^ 32⟩ ∧ (∀ x, mget? t.dev.readers.shadow rd = some x → x.reg ≠ l.reg) ∧
      Frame (fun _ => false) s t ∧ t.out = s.out := by
  have hc := exec_highWordWrite h hl v
  rw [write32_high h.2.2.2 hl hm] at hc
  refine ⟨_, hc, mget?_mput _ _ _, fun _ => invalidate_shadow s rd l.reg, ?_, rfl⟩
  exact (onReaders_frame _ _ s).trans (onReaders_frame _ _ _)

theorem aligned64Write_completes (h8 : off % 8 = 0) (h : WritesPlace s rd off l) (hw : l.row.wide = true) (hl : l.high = false) (v : Nat) :
    Completes (.aligned64Write rd off v) s fun t =>
      t = (commit rd l (v % 2 ^ 64)).run (afterCommit s rd l.reg) ∧
      ((∀ x, PlainWrite rd l x) →
        t.reg l.reg = w64 (codeValue l (s.reg l.reg).toNat (v % 2 ^ 64)) ∧ mget? t.dev.readers.stage rd = none ∧
        Frame (fun o => o == l.reg) s t ∧ t.out = s.out) := by
  obtain ⟨hr, ho, hp, hm, hd⟩ := h
  have hc := exec_aligned64Write hr h8 ho hp hw hl v
  rw [write64_taken hp hw hl hm hd] at hc
  refine ⟨_, hc, by rw [afterCommit_eq_written hw], fun hplain => ?_⟩
  rw [commit_plain (hplain _), State.written_reg]
  exact ⟨State.reg_setReg _ _ _, written_stage hw s rd,
    (s.written_frame rd l _).trans (setReg_frame _ (beq_self_eq_true l.reg)), s.written_out rd l⟩
end

/-- Settles O8, by what each write runs once it has reached its register. -/
theorem highWordAnd64BitWrite : Obligations.HighWordAnd64BitWrite := by
  refine ⟨fun s rd off v l h hl hm => highWordWrite_completes h hl hm v,
    fun s rd off v l h8 h hw hl => aligned64Write_completes h8 h hw hl v,
    fun s rd off v l h hm => ⟨fun hl => ?_, fun h8 hw hl => ?_⟩⟩
  · exact ⟨_, exec_highWordWrite h hl v, by rw [write32_ignored h.2.2.2 hm]; exact ignored_invalidate s rd l.reg⟩
  · obtain ⟨hr, -, ho, hp⟩ := h
    exact ⟨_, exec_aligned64Write hr h8 ho hp hw hl v, by rw [write64_ignored hp hw hl hm]; exact ignored_invalidate s rd l.reg⟩

end Sys2Proof.Machine
end

section
/-!
# Enabling a queue, and its ring bases (R177, R179)
-/
namespace Sys2Proof.Machine
open Sys2Proof

/-! ### Checks of units, and the record of a refusal (R144, R146) -/

section
variable {s : State}

/-- The whole-access check reads no state of the readers. -/
theorem State.lockCheck_written (rd : Nat) (l : Loc) (b first last need : Nat) :
    (s.written rd l).lockCheck b first last need = s.lockCheck b first last need := by
  obtain ⟨r, hr⟩ := s.written_eq rd l
  rw [hr]; rfl

theorem State.firstRefusal_written (rd : Nat) (l : Loc) (b : Nat) (us : List AccUnit) :
    (s.written rd l).firstRefusal b us = s.firstRefusal b us := by
  induction us with
  | nil => rfl
  | cons u us ih => simp only [State.firstRefusal, State.lockCheck_written, ih]

theorem checkUnits_pass {b : Nat} {us : List AccUnit} (h : s.firstRefusal b us = none) (a : Asker) (bad : Nat → Eff) (ok : Eff) :
    (checkUnits b a us bad ok).run s = ok.run s := by
  simp [checkUnits, h]

theorem checkUnits_refuse {b st : Nat} {us : List AccUnit} {u : AccUnit} {w : Option Nat} (h : s.firstRefusal b us = some (u, st, w))
    (a : Asker) (bad : Nat → Eff) (ok : Eff) :
    (checkUnits b a us bad ok).run s = (bad st).run ((lockRefuse b u.first u.last a st w).run s) := by
  simp [checkUnits, h]
end

/-- The registers that record and count a refusal of basin `b`: LCK_LAST_b, LCK_COUNT_b and the fault collector's. -/
def lockRecord (b off : Nat) : Bool :=
  decide (rLckLast b 0 ≤ off ∧ off ≤ rLckLast b 3) || off == rLckCount b || fltBlock off

theorem lockRefuse_local {b : Nat} (hb : b < 16) (first last : Nat) (a : Asker) (st : Nat) (w : Option Nat) :
    (lockRefuse b first last a st w).Only (Act.Local (lockRecord b)) := by
  have hcount : ∀ base, base = 0x70 ∨ base = 0x80 → (countAt (base + b) 0).Only (Act.Local (lockRecord b)) := fun base hbase =>
    (countAt_only 0 (by omega) (by simp [retires]; omega) (by omega)).wider fun off ho => by simp [lockRecord, ho]
  have hsource := hcount (if st = 0x16 then 0x70 else 0x80) (by split <;> simp)
  have hlast : ∀ i < 4, lockRecord b (rLckLast b i) = true := fun i hi => by simp [lockRecord]; omega
  have hlckCount : lockRecord b (rLckCount b) = true := by simp [lockRecord]
  simp [lockRefuse, hlast, hlckCount, hsource]

/-! ### The state of a queue -/

section
variable (s : State) (rd : Nat) (l : Loc) (q : Nat)
@[simp] theorem State.qOwner_written : (s.written rd l).qOwner q = s.qOwner q := s.written_fld rd l _ _ _
@[simp] theorem State.qDepth_written : (s.written rd l).qDepth q = s.qDepth q := congrArg (2 ^ ·) (s.written_fld rd l _ _ _)
@[simp] theorem State.qState_written : (s.written rd l).qState q = s.qState q := s.written_fld rd l _ _ _
@[simp] theorem State.isOpen_written (b : Nat) : (s.written rd l).isOpen b = s.isOpen b := congrArg (· == 1) (s.written_fld rd l _ _ _)

theorem State.qOwner_lt : s.qOwner q < 16 := bitsOf_lt _ 0 4
end

theorem onQueue_local (r : Nat → Bool) (q : Nat) (g : Queue → Queue) : (onQueue q g).Only (Act.Local r) := Act.local_dev

theorem onQueue_queue (s : State) (q : Nat) (g : Queue → Queue) : ((onQueue q g).run s).queue q = g (s.queue q) :=
  mget_mset ({} : Queue) s.dev.work.queues q _

theorem rQueStatus_not_lockRecord {b q : Nat} (hb : b < 16) (hq : q < 256) : lockRecord b (rQueStatus q) = false := by
  simp [lockRecord, fltBlock, rLckLast, rLckCount, rQueStatus]
  omega

/-! ### Enabling (R177) -/

/-- The rings of a queue as the units of its check: the SQ for right R, then the CQ for right W. -/
def State.rings (s : State) (q : Nat) : List AccUnit :=
  [⟨s.fld (rQueSqBase q) 12 36 * 4096, s.fld (rQueSqBase q) 12 36 * 4096 + 64 * s.qDepth q - 1, rightR⟩,
   ⟨s.fld (rQueCqBase q) 12 36 * 4096, s.fld (rQueCqBase q) 12 36 * 4096 + 16 * s.qDepth q - 1, rightW⟩]

/-- What makes a queue ENABLED with phase 1, both ring positions 0 and nothing owed. -/
def becomeEnabled (q : Nat) : Eff := Eff.all [putReg (rQueStatus q) 5, putReg (rQuePtr q) 0, onQueue q fun _ => {}]

section
variable {s : State} {rd q : Nat} {l : Loc}

theorem State.rings_written : (s.written rd l).rings q = s.rings q := by
  simp [State.rings]

/-- An enable that is not skipped checks the rings: a refusal's status goes to CAUSE, and a pass makes the queue ENABLED. -/
theorem enableQueue_run (ho : s.isOpen (s.qOwner q) = true) (hd : s.qState q = 0) :
    (enableQueue q).run s =
      (checkUnits (s.qOwner q) (s.qAsker q) (s.rings q) (fun st => putFld (rQueStatus q) 4 8 st) (becomeEnabled q)).run s := by
  simp [enableQueue, ho, hd, State.rings, becomeEnabled]

theorem exec_queueEnable (h : Writes s rd (rQueCtrl q) l) :
    exec (.queueEnable rd q) s = .next ((enableQueue q).run (s.written rd l)) :=
  congrArg _ (writeReg_run h _)

theorem becomeEnabled_frame : Frame (fun o => o == rQueStatus q || o == rQuePtr q) s ((becomeEnabled q).run s) :=
  Eff.Only.frame (by simp [becomeEnabled, onQueue_local]) s

theorem becomeEnabled_out : ((becomeEnabled q).run s).out = s.out := by
  simp [becomeEnabled, onQueue, onWork]

theorem becomeEnabled_queue : ((becomeEnabled q).run s).queue q = {} := by
  simp only [becomeEnabled, Eff.run_all_cons, Eff.run_all_nil, onQueue_queue]

theorem becomeEnabled_ptr : ((becomeEnabled q).run s).reg (rQuePtr q) = 0 := by
  simp only [becomeEnabled, Eff.run_all_cons, Eff.run_all_nil]
  rw [((onQueue_local (fun _ => false) q _).frame _).2.2 _ rfl, putReg_run, State.reg_setReg]
  rfl

/-- QUE_STATUS holds 5: STATE 1, PHASE 1 and CAUSE 0. -/
theorem becomeEnabled_status (lo w : Nat) : ((becomeEnabled q).run s).fld (rQueStatus q) lo w = bitsOf 5 lo w := by
  simp only [becomeEnabled, Eff.run_all_cons, Eff.run_all_nil]
  rw [((onQueue_local (fun _ => false) q _).frame _).fld rfl, putReg_run, putReg_run, State.fld_setReg_other (by simp [rQueStatus, rQuePtr]),
    State.fld_setReg, toNat_w64 (by decide)]

theorem queueEnable_passes (h : Writes s rd (rQueCtrl q) l) (ho : s.isOpen (s.qOwner q) = true) (hd : s.qState q = 0)
    (hpass : s.firstRefusal (s.qOwner q) (s.rings q) = none) :
    exec (.queueEnable rd q) s = .next ((becomeEnabled q).run (s.written rd l)) := by
  rw [exec_queueEnable h, enableQueue_run (by simpa using ho) (by simpa using hd),
    checkUnits_pass (by rwa [State.firstRefusal_written, State.qOwner_written, State.rings_written])]

theorem queueEnable_refused {st : Nat} {u : AccUnit} {w : Option Nat} (h : Writes s rd (rQueCtrl q) l)
    (ho : s.isOpen (s.qOwner q) = true) (hd : s.qState q = 0) (href : s.firstRefusal (s.qOwner q) (s.rings q) = some (u, st, w)) :
    ∃ e : Eff, e.Only (Act.Local (lockRecord (s.qOwner q))) ∧
      exec (.queueEnable rd q) s = .next ((putFld (rQueStatus q) 4 8 st).run (e.run (s.written rd l))) := by
  refine ⟨lockRefuse (s.qOwner q) u.first u.last ((s.written rd l).qAsker q) st w, lockRefuse_local (s.qOwner_lt q) _ _ _ _ _, ?_⟩
  rw [exec_queueEnable h, enableQueue_run (by simpa using ho) (by simpa using hd),
    checkUnits_refuse (by rwa [State.firstRefusal_written, State.qOwner_written, State.rings_written]), State.qOwner_written]
end

theorem queueEnable : Stated.QueueEnable := by
  refine ⟨fun s rd q l _ h ho hd hpass => ?_, fun s rd q st l u w hq h ho hd href => ?_⟩
  · have hframe := (s.written_frame rd l _).trans (becomeEnabled_frame (q := q))
    exact ⟨_, queueEnable_passes h ho hd hpass, becomeEnabled_status 0 2, becomeEnabled_status 2 1, becomeEnabled_status 4 8,
      becomeEnabled_ptr, becomeEnabled_queue, hframe, becomeEnabled_out.trans (s.written_out rd l)⟩
  · obtain ⟨e, he, hc⟩ := queueEnable_refused h ho hd href
    have hrecord := (s.written_frame rd l _).trans (he.frame _)
    obtain ⟨hhbm, hgates, -⟩ := (hrecord.mono (q := fun _ => true) fun _ _ => rfl).trans (setReg_frame _ rfl)
    refine ⟨_, hc, ?_, State.fld_putFld st (by decide), hhbm, hgates⟩
    calc _ = (e.run (s.written rd l)).qState q := State.fld_putFld_apart st (by decide) (by decide)
      _ = s.qState q := hrecord.fld (rQueStatus_not_lockRecord (s.qOwner_lt q) hq) 0 2
      _ = 0 := hd

/-! ### Ring bases (R179) -/

theorem exec_queBaseWrite {s : State} {rd q : Nat} {cq : Bool} {l : Loc} (h : Writes s rd (if cq then rQueCqBase q else rQueSqBase q) l)
    (v : Nat) :
    exec (.queBaseWrite rd q cq v) s =
      .next ((if s.qState q = 0 then setBase (if cq then rQueCqBase q else rQueSqBase q) v else .skip).run (s.written rd l)) := by
  refine congrArg _ ((writeReg_run h _).trans ?_)
  rw [Eff.run_read, State.qState_written]

theorem queBaseWrite : Stated.QueBaseWrite := by
  intro s rd q v cq l h
  have hc := exec_queBaseWrite h v
  by_cases hd : s.qState q = 0
  · rw [if_pos hd, setBase, putReg_run] at hc
    exact ⟨_, hc, s.written_out rd l, fun _ => ⟨State.reg_setReg _ _ _, (s.written_frame rd l _).trans (setReg_frame _ (beq_self_eq_true _))⟩,
      fun hn => absurd hd hn⟩
  · rw [if_neg hd, Eff.run_skip] at hc
    exact ⟨_, hc, s.written_out rd l, fun h0 => absurd h0 hd, fun _ => s.written_frame rd l _⟩

/-- Settles O50, by what the check of the rings and a write that reaches a base run. -/
theorem queueEnableAndBases : Obligations.QueueEnableAndBases := ⟨queueEnable, queBaseWrite⟩

end Sys2Proof.Machine
end

section
/-!
# What every step keeps (R4, R10, R427)

A step is an idle step, an effect, or one of the two resets of the main domain; each keeps the canonical form and the
commands that wait, and only a reset lowers the timebase.
-/
namespace Sys2Proof.Machine
open Sys2Proof

theorem step_idle {s : State} (h : s.pending = []) : step s = .next (idle s) := by
  simp [step, h]

theorem step_cons {s : State} {c : Instr} {rest : List Instr} (h : s.pending = c :: rest) :
    step s = exec c { s with pending := rest } := by
  simp [step, h]

/-- Settles O1: a step takes the front command off the queue and runs it. -/
theorem stepRunsFrontCommand : Obligations.StepRunsFrontCommand := fun _ _ => step_cons rfl

/-! ### The canonical form, and the commands that wait -/

theorem exec_sound {c : Instr} {s t : State} (hs : s.sound = true) (h : exec c s = .next t) : t.sound = true := by
  rcases exec_cases c s with ⟨-, e, he⟩ | ⟨-, he⟩ | ⟨i, -, he⟩
  all_goals obtain rfl := Host.Outcome.next.inj (he.symm.trans h)
  · exact e.run_sound hs
  · exact State.chipReset_sound hs
  · exact State.powerFall_sound hs i

/-- Settles O2: an idle step, every effect and both resets keep the data forms. -/
theorem stepKeepsSound : Obligations.StepKeepsSound := by
  intro s t hs hstep
  cases hp : s.pending with
  | nil =>
    obtain rfl := Host.Outcome.next.inj ((step_idle hp).symm.trans hstep)
    exact idle_sound hs
  | cons c rest => exact exec_sound (s := { s with pending := rest }) hs ((step_cons hp).symm.trans hstep)

theorem exec_completes (c : Instr) (s : State) : ∃ t, exec c s = .next t ∧ t.pending = s.pending := by
  rcases exec_cases c s with ⟨-, e, he⟩ | ⟨-, he⟩ | ⟨i, -, he⟩
  · exact ⟨_, he, e.run_pending s⟩
  · exact ⟨_, he, s.chipReset_pending⟩
  · exact ⟨_, he, s.powerFall_pending i⟩

/-- Settles O3: the front command completes, whatever it is, and neither an effect nor a reset touches the queue. -/
theorem queueKeepsOrder : Obligations.QueueKeepsOrder := fun c s => by
  rw [stepRunsFrontCommand]
  exact exec_completes c s

/-! ### The timebase -/

/-- The ticks that an idle step counts once the timebase has started: one, but none or two where the slew under way uses the tick (R285). -/
def State.ticksCounted (s : State) : Nat :=
  if s.dev.fab.slew ≠ 0 ∧ s.dev.fab.slewTick % 256 = 255 then (if 0 < s.dev.fab.slew then 2 else 0) else 1

theorem State.ticksCounted_le (s : State) : s.ticksCounted ≤ 2 := by
  unfold State.ticksCounted
  split
  · split <;> omega
  · omega

theorem idleTick_stopped {s : State} (h : s.dev.clk.started = false) : idleTick s = s := by
  simp [idleTick, h]

theorem idleTick_now {s : State} (h : s.dev.clk.started = true) : (idleTick s).now = (s.now + s.ticksCounted) % 2 ^ 64 := by
  simp [idleTick, h, State.ticksCounted]

theorem idleTick_regs (s : State) : (idleTick s).regs = s.regs := by unfold idleTick; split <;> rfl
theorem idleTick_mem (s : State) : (idleTick s).mem = s.mem := by unfold idleTick; split <;> rfl
theorem idleTick_poison (s : State) : (idleTick s).poison = s.poison := by unfold idleTick; split <;> rfl
theorem idleTick_out (s : State) : (idleTick s).out = s.out := by unfold idleTick; split <;> rfl
theorem idleTick_pending (s : State) : (idleTick s).pending = s.pending := by unfold idleTick; split <;> rfl

theorem idleTick_now_le {s : State} (h : s.now < 2 ^ 64 - 2) : s.now ≤ (idleTick s).now := by
  cases hc : s.dev.clk.started with
  | false => exact Nat.le_of_eq (congrArg State.now (idleTick_stopped hc)).symm
  | true =>
    have := s.ticksCounted_le
    rw [idleTick_now hc, Nat.mod_eq_of_lt (by omega)]
    exact Nat.le_add_right ..

/-! ### The crystals and the keeper's clock in an idle step -/

/-- The registers in which an idle step shows the XTAL state, the KXTAL state and the real-time clock. -/
def idleReg (o : Nat) : Bool := o == rTbsRtc || o == rClkStatus || o == rTbsKeeper

theorem kprCycle_local : kprCycle.Only (Act.Local idleReg) := by
  simp [kprCycle, idleReg]

theorem idleClocks_local : idleClocks.Only (Act.Local idleReg) := by
  have := kprCycle_local
  simp [idleClocks, idleReg] at this ⊢
  simp [this]

/-- An update that neither sends nor changes what an idle tick looks at. -/
def Act.Quiet : Act → Prop
  | .setReg .. | .free => True
  | .dev f => ∀ d, (f d).clk = d.clk ∧ (f d).fab = d.fab
  | _ => False

theorem idleClocks_quiet : idleClocks.Only Act.Quiet := by
  simp [idleClocks, kprCycle, Act.Quiet]

theorem Eff.Only.quiet {e : Eff} (h : e.Only Act.Quiet) (s : State) :
    (e.run s).now = s.now ∧ (e.run s).gates = s.gates ∧ (e.run s).mem = s.mem ∧ (e.run s).poison = s.poison ∧ (e.run s).out = s.out ∧
      (e.run s).dev.clk = s.dev.clk ∧ (e.run s).dev.fab = s.dev.fab :=
  h.keeps (I := fun t => t.now = s.now ∧ t.gates = s.gates ∧ t.mem = s.mem ∧ t.poison = s.poison ∧ t.out = s.out ∧
      t.dev.clk = s.dev.clk ∧ t.dev.fab = s.dev.fab)
    (fun a t ha ht => by
      obtain ⟨hn, hg, hm, hp, ho, hc, hf⟩ := ht
      cases a with
      | setReg => exact ⟨hn, hg, hm, hp, ho, hc, hf⟩
      | free => exact ⟨hn, hg, hm, hp, ho, hc, hf⟩
      | dev f => exact ⟨hn, hg, hm, hp, ho, (ha _).1.trans hc, (ha _).2.trans hf⟩
      | _ => exact ha.elim)
    ⟨rfl, rfl, rfl, rfl, rfl, rfl, rfl⟩

/-- With the keeper unpowered and XTAL not LOST the crystals and the keeper's clock do nothing. -/
theorem idleClocks_still {s : State} (hk : s.dev.keep.powered = false) (hx : s.xtal ≠ 2) : idleClocks.run s = s := by
  have hx' : s.fld rClkStatus 0 2 ≠ 2 := hx
  simp [idleClocks, hk, hx']

/-- Settles O6: what the clocks of an idle step may change, and then its tick. -/
theorem idleCountsOneTick : Obligations.IdleCountsOneTick := by
  intro s hp
  obtain ⟨hnow, hgates, hmem, hpoison, hout, hclk, hfab⟩ := idleClocks_quiet.quiet s
  have hslew : (idleClocks.run s).ticksCounted = s.ticksCounted := by simp only [State.ticksCounted, hfab]
  have htick : s.dev.clk.started = true → (idle s).now = (s.now + s.ticksCounted) % 2 ^ 64 := fun h => by
    rw [idle, idleTick_now (by rw [hclk, h]), hslew, hnow]
  refine ⟨_, step_idle hp, ?_, ?_, ?_, ?_, ?_, ?_, ?_, ?_, ?_, ?_⟩
  · rw [idle, idleTick_pending, Eff.run_pending, hp]
  · rw [idle, idleTick_gates, hgates]
  · rw [idle, idleTick_mem, hmem]
  · rw [idle, idleTick_poison, hpoison]
  · rw [idle, idleTick_out, hout]
  · intro o ho
    rw [State.reg, idle, idleTick_regs]
    exact (idleClocks_local.frame s).2.2 o ho
  · intro hk hx
    rw [idle, idleTick_regs, idleClocks_still hk hx]
  · intro h
    rw [idle, idleTick_stopped (by rw [hclk, h]), hnow]
  · intro h h0
    rw [htick h, State.ticksCounted, if_neg (by simp [h0])]
  · intro h hne
    rw [htick h, State.ticksCounted]
    simp only [hne, ne_eq, not_false_eq_true, true_and, ite_not]

/-- Settles O5: no effect lowers the timebase, and an idle step adds at most two. -/
theorem timebaseNeverFalls : Obligations.TimebaseNeverFalls := by
  intro s t hstep hlt hchip hfall
  cases hp : s.pending with
  | nil =>
    obtain rfl := Host.Outcome.next.inj ((step_idle hp).symm.trans hstep)
    have hnow := (idleClocks_quiet.quiet s).1
    exact hnow ▸ idleTick_now_le (hnow.symm ▸ hlt)
  | cons c rest =>
    rw [step_cons hp] at hstep
    simp only [hp, List.head?_cons, ne_eq, Option.some.injEq] at hchip hfall
    rcases exec_cases c { s with pending := rest } with ⟨-, e, he⟩ | ⟨hc, -⟩ | ⟨i, hc, -⟩
    · obtain rfl := Host.Outcome.next.inj (he.symm.trans hstep)
      exact e.run_now_le { s with pending := rest }
    · exact absurd hc hchip
    · exact absurd hc (hfall i)

/-! ### The state after reset -/

theorem State.reg_of_unlisted {s : State} {off : Nat} (h : mget? s.regs off = none) : s.reg off = regReset off := by
  simp [State.reg, mget, h]

theorem State.reset_reg (off : Nat) : State.reset.reg off = regReset off := State.reg_of_unlisted rfl

/-- Settles O40: at reset nothing is listed, so that every register holds its card's reset value. -/
theorem resetState : Obligations.ResetState := by
  refine ⟨⟨rfl, rfl⟩, ?_, ?_, ?_, fun t ht => ?_, fun off h => ?_, fun _ _ => rfl, fun _ => rfl, rfl⟩
  · rw [State.reset_reg]; decide
  · rw [State.reset_reg]; decide
  · rw [State.reset_reg]; decide
  · rw [State.reset_reg]
    revert t
    decide
  · rw [State.reset_reg, h]

end Sys2Proof.Machine
end

section
/-!
# Low-word and 32-bit writes, the gate registers, holes and split accesses
-/
namespace Sys2Proof.Machine
open Sys2Proof

/-! ### The end of a list of effects

`Eff.run_all_nil` and `Eff.run_skip` hold by `rfl`, so that `simp` leaves them to the kernel, which then unfolds the
state they stand over; these two are rewritten with instead where that state is itself a run. -/

theorem Eff.run_all_done (s : State) : (Eff.all []).run s = s := by rw [Eff.run_all_nil]

theorem Eff.run_skipped (s : State) : Eff.skip.run s = s := by rw [Eff.run_skip]

/-! ### Fields and lists -/

/-- A value that fits its field reads as it was put. -/
theorem State.fld_putFld_lt {s : State} {off lo w x : Nat} (hx : x < 2 ^ w) (hw : lo + w ≤ 64) : ((putFld off lo w x).run s).fld off lo w = x := by
  rw [State.fld_putFld x hw, Nat.mod_eq_of_lt hx]

theorem getD_of_lt {α : Type} {l : List α} {n : Nat} (h : n < l.length) (d : α) : l.getD n d = l[n] := by
  rw [List.getD_eq_getElem?_getD, List.getElem?_eq_getElem h, Option.getD_some]

theorem getD_of_le {α : Type} {l : List α} {n : Nat} (h : l.length ≤ n) (d : α) : l.getD n d = d := by
  rw [List.getD_eq_getElem?_getD, List.getElem?_eq_none h, Option.getD_none]

theorem filterMap_congr_of_mem {α β : Type} {f g : α → Option β} {l : List α} (h : ∀ x ∈ l, f x = g x) : l.filterMap f = l.filterMap g := by
  induction l with
  | nil => rfl
  | cons x xs ih => rw [List.filterMap_cons, List.filterMap_cons, h x (List.mem_cons_self ..), ih fun y hy => h y (List.mem_cons_of_mem _ hy)]

/-! ### Low-word and 32-bit writes (R8, R19) -/

section
variable {s : State} {rd off : Nat} {l : Loc}

theorem exec_lowWordWrite (h : ReadsPlace s rd off (.reg l)) (hw : l.row.wide = true) (hl : l.high = false) (v : Nat) :
    exec (.lowWordWrite rd off v) s = .next ((write32 rd off v).run s) :=
  congrArg _ (at32_write h (Place.isWide_reg hw hl) v)

theorem exec_registerWrite (h : ReadsPlace s rd off (.reg l)) (hw : l.row.wide = false) (hl : l.high = false) (v : Nat) :
    exec (.registerWrite rd off v) s = .next ((write32 rd off v).run s) :=
  congrArg _ (at32_write h (by simp [Place.isWide, Place.isHigh, hw, hl]) v)

theorem State.dryDock_invalidate (w reg : Nat) : ((invalidate w reg).run s).dryDock = s.dryDock := rfl

/-- R19: a low-word write commits both words after its bookkeeping. -/
theorem write32_low_taken (hp : s.place rd off = .reg l) (hw : l.row.wide = true) (hl : l.high = false) (hm : s.mayWrite rd l = true)
    (hd : s.dryDock = false ∨ dryDockBlock l.reg = true) (v : Nat) :
    (write32 rd off v).run s = (commit rd l (v % 2 ^ 32 + s.liveHigh rd l * 2 ^ 32)).run (s.written rd l) := by
  have h : (write32 rd off v).run s = (tryCommit rd l (v % 2 ^ 32 + s.liveHigh rd l * 2 ^ 32)).run (s.written rd l) := by
    simp [write32, hp, hw, hl, hm, State.written]
  rw [h, tryCommit_taken (by rw [State.mayWrite_written, hm]) (by rwa [State.dryDock_written])]

/-- A 32-bit write of a 32-bit register commits its value. -/
theorem write32_narrow_taken (hp : s.place rd off = .reg l) (hw : l.row.wide = false) (hl : l.high = false) (hm : s.mayWrite rd l = true)
    (hd : s.dryDock = false ∨ dryDockBlock l.reg = true) (v : Nat) :
    (write32 rd off v).run s = (commit rd l (v % 2 ^ 32)).run ((invalidate rd l.reg).run s) := by
  have h : (write32 rd off v).run s = (tryCommit rd l (v % 2 ^ 32)).run ((invalidate rd l.reg).run s) := by
    simp [write32, hp, hw, hl, hm]
  rw [h, tryCommit_taken (by rw [invalidate, mayWrite_run_onReaders, hm]) (by rwa [State.dryDock_invalidate])]

/-- A register without a write behaviour of its own is no gate counter, whose live high word stands elsewhere. -/
theorem State.liveHigh_plain {v : Nat} (h : PlainWrite rd l v) (s : State) : s.liveHigh rd l = committedHigh s rd l := by
  have hgate : l.row.base ≠ rGlbGate 0 0 := fun e => by
    have := List.find?_eq_none.mp h.1 (rGlbGate 0 0, raiseTo l.i l.j v) (by simp [writeTable])
    exact this (by simp [e])
  rw [State.liveHigh, if_neg hgate]
  rfl

theorem lowWordWrite_completes (h4 : off % 4 = 0) (h : WritesPlace s rd off l) (hw : l.row.wide = true) (hl : l.high = false) (v : Nat) :
    Completes (.lowWordWrite rd off v) s fun t =>
      t = (commit rd l (v % 2 ^ 32 + s.liveHigh rd l * 2 ^ 32)).run (afterCommit s rd l.reg) ∧
      ((∀ x, PlainWrite rd l x) →
        t.reg l.reg = w64 (codeValue l (s.reg l.reg).toNat (v % 2 ^ 32 + committedHigh s rd l * 2 ^ 32)) ∧
        mget? t.dev.readers.stage rd = none ∧ Frame (fun o => o == l.reg) s t ∧ t.out = s.out) := by
  obtain ⟨hr, ho, hp, hm, hd⟩ := h
  have hc := exec_lowWordWrite ⟨hr, h4, ho, hp⟩ hw hl v
  rw [write32_low_taken hp hw hl hm hd] at hc
  refine ⟨_, hc, by rw [afterCommit_eq_written hw], fun hplain => ?_⟩
  rw [commit_plain (hplain _), State.written_reg, State.liveHigh_plain (hplain v)]
  exact ⟨State.reg_setReg _ _ _, written_stage hw s rd,
    (s.written_frame rd l _).trans (setReg_frame _ (beq_self_eq_true l.reg)), s.written_out rd l⟩

theorem registerWrite_completes (h4 : off % 4 = 0) (h : WritesPlace s rd off l) (hw : l.row.wide = false) (hl : l.high = false) (v : Nat) :
    Completes (.registerWrite rd off v) s fun t =>
      t = (commit rd l (v % 2 ^ 32)).run ((invalidate rd l.reg).run s) ∧
      ((∀ x, PlainWrite rd l x) →
        t.reg l.reg = w64 (codeValue l (s.reg l.reg).toNat (v % 2 ^ 32)) ∧ Frame (fun o => o == l.reg) s t ∧ t.out = s.out) := by
  obtain ⟨hr, ho, hp, hm, hd⟩ := h
  have hc := exec_registerWrite ⟨hr, h4, ho, hp⟩ hw hl v
  rw [write32_narrow_taken hp hw hl hm hd] at hc
  refine ⟨_, hc, rfl, fun hplain => ?_⟩
  rw [commit_plain (hplain _)]
  exact ⟨State.reg_setReg _ _ _, (onReaders_frame _ _ s).trans (setReg_frame _ (beq_self_eq_true l.reg)), rfl⟩
end

/-- Settles O7, by what each write runs once it has reached its register. -/
theorem lowWordWrite : Obligations.LowWordWrite := by
  refine ⟨fun s rd off v l h4 h hw hl => lowWordWrite_completes h4 h hw hl v,
    fun s rd off v l h4 h hw hl => registerWrite_completes h4 h hw hl v,
    fun s rd off v l h hl hm => ⟨fun hw => ?_, fun hw => ?_⟩⟩
  · exact ⟨_, exec_lowWordWrite h hw hl v, by rw [write32_ignored h.2.2.2 hm]; exact ignored_invalidate s rd l.reg⟩
  · exact ⟨_, exec_registerWrite h hw hl v, by rw [write32_ignored h.2.2.2 hm]; exact ignored_invalidate s rd l.reg⟩

/-! ### Writes to the gate registers (R113, R134) -/

theorem State.gate_raiseGate (s : State) (b g v : Nat) :
    (Act.run s (.raiseGate b g v)).gate b g = max (s.gate b g) (min v (2 ^ 64 - 1)) := mget_mset _ _ _ _

theorem State.gate_raiseGate_other {s : State} {b g c h : Nat} (v : Nat) (hne : 256 * c + h ≠ 256 * b + g) :
    (Act.run s (.raiseGate b g v)).gate c h = s.gate c h := mget_mset_other hne _

@[simp] theorem State.written_gate (s : State) (rd : Nat) (l : Loc) (b g : Nat) : (s.written rd l).gate b g = s.gate b g :=
  congrArg (mget 0 · _) (s.written_gates rd l)

theorem SameHbm.trans {s t u : State} (h : SameHbm s t) (k : SameHbm t u) : SameHbm s u :=
  ⟨fun a => (k.1 a).trans (h.1 a), k.2.trans h.2⟩

theorem SameGates.trans {s t u : State} (h : SameGates s t) (k : SameGates t u) : SameGates s u :=
  ⟨fun b g => (k.1 b g).trans (h.1 b g), k.2.1.trans h.2.1, k.2.2.trans h.2.2⟩

theorem RegsBut.trans {r : Nat → Bool} {s t u : State} (h : RegsBut r s t) (k : RegsBut r t u) : RegsBut r s u :=
  fun off ho => (k off ho).trans (h off ho)

/-- A write that raises a gate: the gate's own rise, before the epochs that wait on the gate go on. -/
theorem raiseTo_written (s : State) (rd : Nat) (l : Loc) (b g v : Nat) :
    ∃ u, u.gate b g = max (s.gate b g) (min v (2 ^ 64 - 1)) ∧ (∀ c h, 256 * c + h ≠ 256 * b + g → u.gate c h = s.gate c h) ∧ SameHbm s u ∧
      RegsBut (fun _ => false) s u ∧ u.out = s.out ∧ (raiseTo b g v).run (s.written rd l) = (Eff.all [armOnGate b g, pumpWharf]).run u ∧
      u.gate b g ≤ ((raiseTo b g v).run (s.written rd l)).gate b g := by
  have hmem : SameHbm (s.written rd l) (Act.run (s.written rd l) (.raiseGate b g v)) :=
    Eff.Only.sameHbm (e := .act (.raiseGate b g v)) trivial _
  have hregs : RegsBut (fun _ => false) (s.written rd l) (Act.run (s.written rd l) (.raiseGate b g v)) :=
    Eff.Only.regsBut (e := .act (.raiseGate b g v)) trivial _
  have hw := s.written_frame rd l fun _ => false
  refine ⟨_, ?_, fun c h hne => ?_, hw.1.trans hmem, hw.2.2.trans hregs, (Act.raiseGate_out _ _ _ _).trans (s.written_out rd l), ?_, ?_⟩
  · rw [State.gate_raiseGate, State.written_gate]
  · rw [State.gate_raiseGate_other v hne, State.written_gate]
  · rw [raiseTo, Eff.run_all_cons, Eff.run_act]
  · rw [raiseTo, Eff.run_all_cons]
    exact Eff.run_gate_le _ _ b g

theorem exec_glbGateAdd {s : State} {rd b : Nat} {l : Loc} (h : Writes s rd (rGlbGateAdd b) l) {v : Nat} (hv : bitsOf v 8 24 ≠ 0) :
    exec (.glbGateAdd rd b v) s =
      .next ((raiseTo b (bitsOf v 0 8) (s.gate b (bitsOf v 0 8) + bitsOf v 8 24)).run (s.written rd l)) := by
  have hc : exec (.glbGateAdd rd b v) s = (writeReg rd (rGlbGateAdd b) (gateAddWrite b v)).done s := rfl
  rw [hc, Eff.done_eq, writeReg_run h, gateAddWrite, addGate, Eff.run_read, if_neg hv, State.written_gate]

theorem exec_glbGateWrite {s : State} {rd b g : Nat} {l : Loc} (h : Writes s rd (rGlbGate b g) l) (v : Nat) :
    exec (.glbGateWrite rd b g v) s = .next ((raiseTo b g v).run (s.written rd l)) := by
  have hc : exec (.glbGateWrite rd b g v) s = (writeReg rd (rGlbGate b g) (raiseTo b g v)).done s := rfl
  rw [hc, Eff.done_eq, writeReg_run h]

/-- Settles O9: both writes raise one gate, and then the epochs that wait on it go on. -/
theorem gateWrites : Obligations.GateWrites := by
  refine ⟨fun s rd b v l hs _ h hv => ?_, fun s rd b g v l _ _ _ hv h => ?_⟩
  · obtain ⟨u, hgate, hu⟩ := raiseTo_written s rd l b (bitsOf v 0 8) (s.gate b (bitsOf v 0 8) + bitsOf v 8 24)
    have hlt := State.gate_lt hs b (bitsOf v 0 8)
    exact ⟨_, exec_glbGateAdd h hv, u, hgate.trans (by omega), hu⟩
  · obtain ⟨u, hgate, hu⟩ := raiseTo_written s rd l b g v
    exact ⟨_, exec_glbGateWrite h v, u, hgate.trans (by omega), hu⟩

/-! ### Holes and unsupported accesses (R7, R630) -/

section
variable {s : State} {rd : Nat}

/-- One count at CSR_ACCESS touches the collector's registers alone. -/
theorem csrCount_frame (s : State) (rd : Nat) : Frame fltBlock s ((csrCount rd).run s) :=
  (countAt_only rd (by decide) (by decide) (by decide)).frame s

theorem csrCount_events (h : s.dev.flt.ignored.contains 0x24 = false) (rd : Nat) :
    ((csrCount rd).run s).reg (rFltEvents 0x24) = w64 (satAdd 32 (s.reg (rFltEvents 0x24)).toNat 1) :=
  countAt_events rd (by decide) (by decide) (by decide) h

theorem refuseUr_frame (s : State) (rd : Nat) : Frame (fun o => o == rPciErr) s ((refuseUr rd).run s) :=
  Eff.Only.frame (by simp [refuseUr, countUr]) s

theorem refuseUr_out (s : State) (rd : Nat) : ((refuseUr rd).run s).out = .unsupportedRequest rd :: s.out := rfl

theorem exec_holeRead {off : Nat} (h : ReadsPlace s rd off .hole) :
    exec (.holeAccess rd false off) s = .next ((emit (.readData rd off 0)).run ((csrCount rd).run s)) := by
  refine congrArg _ ((at32_answer h (by decide)).trans ?_)
  simp [read32, h.2.2.2]

theorem exec_holeWrite {off : Nat} (h : ReadsPlace s rd off .hole) :
    exec (.holeAccess rd true off) s = .next ((csrCount rd).run s) := by
  refine congrArg _ ((at32_write h (by decide) 0).trans ?_)
  simp [write32, h.2.2.2]

/-- How a read of an unsupported size or alignment is answered: all ones, or Unsupported Request on PCIe. -/
def answerUnsupported (rd off size : Nat) : Eff := if isPcie rd then refuseUr rd else emit (.readData rd off (2 ^ (8 * size) - 1))

theorem answerUnsupported_frame (s : State) (rd off size : Nat) : Frame (fun o => o == rPciErr) s ((answerUnsupported rd off size).run s) := by
  rw [answerUnsupported, Eff.run_ite]
  split
  · exact refuseUr_frame s rd
  · exact emit_frame _ _ s

theorem answerUnsupported_out (s : State) (rd off size : Nat) : ((answerUnsupported rd off size).run s).out.head? =
    some (if isPcie rd then .unsupportedRequest rd else .readData rd off (2 ^ (8 * size) - 1)) := by
  rw [answerUnsupported, Eff.run_ite]
  split
  · rw [refuseUr_out]; rfl
  · rfl

section
variable {off size : Nat} (h : Reaches s rd) (hs : supported rd off size = false) (hw : off < windowSize rd)
include h hs hw

theorem exec_unsupportedWrite : exec (.unsupportedAccess rd true off size) s = .next ((csrCount rd).run s) := by
  have hrun : (Eff.when (!supported rd off size && decide (off < windowSize rd)) (unsupported rd true off size)).run s =
      (csrCount rd).run s := by
    simp [hs, hw, unsupported, access_run h]
  exact congrArg Host.Outcome.next hrun

theorem exec_unsupportedRead :
    exec (.unsupportedAccess rd false off size) s = .next ((answerUnsupported rd off size).run ((csrCount rd).run s)) := by
  have hrun : (Eff.when (!supported rd off size && decide (off < windowSize rd)) (unsupported rd false off size)).run s =
      (answerUnsupported rd off size).run ((csrCount rd).run s) := by
    simp [hs, hw, unsupported, readAccess_run h, answerUnsupported]
  exact congrArg Host.Outcome.next hrun
end

theorem holeAndUnsupportedAccess : Stated.HoleAndUnsupportedAccess := by
  refine ⟨fun s rd off hi h => ⟨⟨_, exec_holeRead h, rfl, ?_, (csrCount_frame s rd).trans (emit_frame _ _ _)⟩,
      ⟨_, exec_holeWrite h, csrCount_events hi rd, csrCount_frame s rd⟩⟩,
    fun s rd off size hi h hs hw => ⟨⟨_, exec_unsupportedWrite h hs hw, csrCount_events hi rd, csrCount_frame s rd⟩,
      ⟨_, exec_unsupportedRead h hs hw, ?_, ?_, answerUnsupported_out _ rd off size⟩⟩⟩
  · exact csrCount_events hi rd
  · rw [(answerUnsupported_frame _ rd off size).2.2 _ (by decide)]
    exact csrCount_events hi rd
  · exact ((csrCount_frame s rd).mono fun o ho => Bool.or_eq_true_iff.mpr (.inl ho)).trans
      ((answerUnsupported_frame _ rd off size).mono fun o ho => Bool.or_eq_true_iff.mpr (.inr ho))
end

/-! ### Split accesses (R632) -/

section
variable {s : State} {rd off : Nat} {l : Loc}

/-- A read of a 32-bit register without access RC loads no shadow and clears nothing. -/
theorem read32_narrow (hp : s.place rd off = .reg l) (hg : l.reg ≠ rBrdGpio) (hl : l.high = false) (hw : l.row.wide = false)
    (ha : l.row.acc ≠ .rc) (k : Nat → Eff) : (read32 rd off k).run s = (k (s.shown rd l % 2 ^ 32)).run s := by
  rw [read32_low hp hg hl]
  simp [takeLow, hw, clearRc, ha]

theorem read64_split (hp : s.place rd off = .reg l) (hn : l.row.wide = false ∨ l.high = true) (k : Nat → Eff) :
    (read64 rd off k).run s = (read32 rd off fun lo => read32 rd (off + 4) fun hi => k (lo + hi * 2 ^ 32)).run s := by
  rcases hn with h | h <;> simp [read64, hp, h]

theorem write64_split (hp : s.place rd off = .reg l) (hn : l.row.wide = false ∨ l.high = true) (v : Nat) :
    (write64 rd off v).run s = (write32 rd (off + 4) (v / 2 ^ 32)).run ((write32 rd off (v % 2 ^ 32)).run s) := by
  rcases hn with h | h <;> simp [write64, hp, h]

theorem Place.isWide_reg_not (hn : l.row.wide = false ∨ l.high = true) : (!(Place.reg l).isWide) = true := by
  rcases hn with h | h <;> simp [Place.isWide, h]

section
variable (hr : Reaches s rd) (h8 : off % 8 = 0) (ho : off < windowSize rd) (hp : s.place rd off = .reg l) (hn : l.row.wide = false ∨ l.high = true)
include hr h8 ho hp hn

theorem exec_splitRead (v : Nat) : exec (.split64Access rd false off v) s =
    .next ((read32 rd off fun lo => read32 rd (off + 4) fun hi => emit (.readData rd off (lo + hi * 2 ^ 32))).run s) := by
  have h : (at64 rd off (fun p => !p.isWide) (answer64 rd off)).run s = (read64 rd off fun v => emit (.readData rd off v)).run s := by
    rw [at64_run h8 ho (by rw [hp]; exact Place.isWide_reg_not hn), answer64, readAccess_run hr]
  exact congrArg _ (h.trans (read64_split hp hn _))

theorem exec_splitWrite (v : Nat) : exec (.split64Access rd true off v) s =
    .next ((write32 rd (off + 4) (v / 2 ^ 32)).run ((write32 rd off (v % 2 ^ 32)).run s)) := by
  have h : (at64 rd off (fun p => !p.isWide) (access rd (write64 rd off v))).run s = (write64 rd off v).run s := by
    rw [at64_run h8 ho (by rw [hp]; exact Place.isWide_reg_not hn), access_run hr]
  exact congrArg _ (h.trans (write64_split hp hn v))
end

theorem split64Access : Stated.Split64Access := by
  refine ⟨fun s rd off v l m hr h8 ho hp hp' hlw hlh hmw hmh hla hma hlg hmg => ?_,
    fun s rd off v l hr h8 ho hp hn => ⟨_, exec_splitWrite hr h8 ho hp hn v, rfl⟩⟩
  have hc := exec_splitRead hr h8 ho hp (.inl hlw) v
  rw [read32_narrow hp hlg hlh hlw hla, read32_narrow hp' hmg hmh hmw hma] at hc
  exact ⟨_, hc, rfl, emit_frame _ _ s⟩
end

/-- Settles O42, by what an access runs once it has reached its place. -/
theorem holesAndOtherAccesses : Obligations.HolesAndOtherAccesses := ⟨holeAndUnsupportedAccess, split64Access⟩

end Sys2Proof.Machine
end

section
/-!
# Fault events (R577, R578), and a forced event that leaves the collector's registers (R586)
-/
namespace Sys2Proof.Machine
open Sys2Proof

/-! ### What an event at a source and unit runs -/

/-- The count of a source and unit becomes `k`. -/
def putCount (src u : Nat) (k : Count) : Eff := onFlt fun f => { f with counts := mput f.counts (65536 * src + u) k }

/-- What an event does once FLT_EVENTS has counted it: nothing, a count, or a trip. -/
def State.afterEvent (s : State) (src u flags : Nat) (after : Eff) : Eff :=
  if srcReserved src = true ∨ s.fld (rFltSrc src) 0 8 = 0 ∨ s.unitRetired src u = true then .skip
  else if s.fld (rFltSrc src) 0 8 ≤ (countNext s src u).n then
    .andThen (putCount src u ⟨0, (countNext s src u).start⟩) (trip src u flags after)
  else putCount src u (countNext s src u)

section
variable {s : State} {src u flags : Nat} {after : Eff}

theorem countWith_run (hi : s.dev.flt.ignored.contains src = false) :
    (countWith src u flags after).run s = (s.afterEvent src u flags after).run ((bumpReg (rFltEvents src) 32 1).run s) := by
  unfold countWith State.afterEvent
  simp only [Eff.run_read, hi, Bool.false_eq_true, if_false, Eff.run_andThen, Bool.or_eq_true, beq_iff_eq, or_assoc]
  by_cases hno : srcReserved src = true ∨ s.fld (rFltSrc src) 0 8 = 0 ∨ s.unitRetired src u = true
  · rw [if_pos hno, if_pos hno]
  · rw [if_neg hno, if_neg hno]
    by_cases hw : (mget { n := 0, start := 0 } s.dev.flt.counts (65536 * src + u)).n = 0 ∨
        (mget { n := 0, start := 0 } s.dev.flt.counts (65536 * src + u)).start + 2 ^ s.fld (rFltSrc src) 8 6 ≤ s.now
    · simp [countNext, hw, putCount]
    · simp [countNext, hw, putCount]

/-- An update that leaves the counts of the collector. -/
abbrev Act.KeepsCounts : Act → Prop := Act.Keeps fun d => d.flt.counts

theorem raiseMsix_keepsCounts (f v : Nat) : (raiseMsix f v).Only Act.KeepsCounts := by
  simp [raiseMsix, onPending]

theorem reactions_keepsCounts (src rx : Nat) : (reactions src rx).Only Act.KeepsCounts := by
  simp only [reactions, Eff.only_all, List.mem_cons, List.not_mem_nil, or_false]
  rintro e (rfl | rfl | rfl | rfl | rfl | rfl | rfl) <;> refine Eff.only_when.mpr fun _ => ?_
  · exact raiseMsix_keepsCounts _ _
  · exact raiseMsix_keepsCounts _ _
  · simp
  · simp [pinChange, setBit8]
  · simp [causeBasinReset, onDue]
  · split <;> simp [onDue]
  · simp [causeChipReset, onDue]

theorem capture_keepsCounts (c : Capture) : (capture c).Only Act.KeepsCounts := by
  simp only [capture, Eff.only_read]
  intro s
  split <;> split <;> simp [onFlt]

/-- A trip of a source that retires nothing leaves the counts. -/
theorem trip_keepsCounts (h : retires src = false) : (trip src u flags after).Only Act.KeepsCounts := by
  simp [trip, h, setBit8, capture_keepsCounts, reactions_keepsCounts]

end

/-! ### FAULT_EVENT -/

section
variable {s : State} {src u : Nat}

theorem pumpJournal_frame (s : State) : Frame (fun _ => false) s (pumpJournal.run s) := (pumpJournal_local _).frame s

theorem pumpJournal_flt (s : State) : (pumpJournal.run s).dev.flt = s.dev.flt :=
  Eff.Only.devKeeps (p := fun d => d.flt) (pumpJournal_only (fun _ => by simp [onFlash]) fun _ => by simp) s

/-- FAULT_EVENT at a source that retires nothing and restores no tolls counts, and the journal's writer goes on. -/
theorem exec_faultEvent_counts (h : src < 256) (hres : srcReserved src = false) (hu : u < srcUnits src) (hret : retires src = false)
    (h62 : src ≠ 0x62) : exec (.faultEvent src u) s = .next (pumpJournal.run ((countAt src u).run s)) := by
  have h6 : 6 < src ∧ src ≠ 0x33 := by
    simp only [retires, Bool.or_eq_false_iff, decide_eq_false_iff_not, beq_eq_false_iff_ne] at hret
    omega
  have hrun : (effFaultEvent src u).run s = pumpJournal.run ((countAt src u).run s) := by
    simp [effFaultEvent, eventAfter, h, hres, hu, h62, h6.2, show src ≠ 0 by omega, show src ≠ 5 by omega]
  exact congrArg Host.Outcome.next hrun

theorem bumpEvents_trip (hs : src < 256) {w : Nat} (hw : w < 8) (s : State) :
    ((bumpReg (rFltEvents src) 32 1).run s).reg (rFltTrip w) = s.reg (rFltTrip w) := by
  rw [bumpReg_run, State.reg_setReg_other (by simp [rFltTrip, rFltEvents]; omega)]

/-- Without a threshold, or of a retired unit, an event only raises FLT_EVENTS. -/
theorem countAt_unwatched (hi : s.dev.flt.ignored.contains src = false)
    (h : s.fld (rFltSrc src) 0 8 = 0 ∨ s.unitRetired src u = true) :
    (countAt src u).run s = (bumpReg (rFltEvents src) 32 1).run s := by
  rw [countAt, countWith_run hi, State.afterEvent, if_pos (.inr h), Eff.run_skip]

theorem countAt_below (hi : s.dev.flt.ignored.contains src = false) (hres : srcReserved src = false) (h0 : s.fld (rFltSrc src) 0 8 ≠ 0)
    (hr : s.unitRetired src u = false) (h : (countNext s src u).n < s.fld (rFltSrc src) 0 8) :
    (countAt src u).run s = (putCount src u (countNext s src u)).run ((bumpReg (rFltEvents src) 32 1).run s) := by
  rw [countAt, countWith_run hi, State.afterEvent, if_neg (by simp [hres, h0, hr]), if_neg (Nat.not_le.mpr h)]

theorem countAt_trips (hi : s.dev.flt.ignored.contains src = false) (hres : srcReserved src = false) (h0 : s.fld (rFltSrc src) 0 8 ≠ 0)
    (hr : s.unitRetired src u = false) (h : s.fld (rFltSrc src) 0 8 ≤ (countNext s src u).n) :
    (countAt src u).run s = (trip src u 0 (tileBudget src)).run
      ((putCount src u ⟨0, (countNext s src u).start⟩).run ((bumpReg (rFltEvents src) 32 1).run s)) := by
  rw [countAt, countWith_run hi, State.afterEvent, if_neg (by simp [hres, h0, hr]), if_pos h, Eff.run_andThen]

end

theorem faultEventCounts : Stated.FaultEventCounts := by
  intro s src u hs hres hu hi hret h60 h62
  have hj := pumpJournal_frame ((countAt src u).run s)
  refine ⟨_, exec_faultEvent_counts hs hres hu hret h62, ?_, ?_, fun hun => ?_, fun h0 hnr => ⟨fun hlt => ?_, fun hle => ?_⟩⟩
  · rw [hj.2.2 _ rfl, countAt_events u hs hret h60 hi]
  · exact ((countAt_only u hs hret h60).frame s).trans (hj.mono fun _ h => by cases h)
  · rw [pumpJournal_flt, countAt_unwatched hi hun]
    refine ⟨rfl, fun w hw => ?_⟩
    rw [(pumpJournal_frame _).2.2 _ rfl, bumpEvents_trip hs hw]
  · rw [pumpJournal_flt, countAt_below hi hres h0 hnr hlt]
    refine ⟨rfl, fun w hw => ?_⟩
    rw [(pumpJournal_frame _).2.2 _ rfl]
    exact bumpEvents_trip hs hw s
  · rw [pumpJournal_flt, hj.bit rfl, countAt_trips hi hres h0 hnr hle]
    refine ⟨?_, trip_sets u 0 _ hs fun h => by simp [hret] at h⟩
    rw [Eff.Only.devKeeps (p := fun d => d.flt.counts) (trip_keepsCounts hret)]
    rfl

/-! ### A tile that reaches its threshold retires (R578, R588) -/

/-- The registers of the collector but the trips of a word. -/
def notTripWord (w off : Nat) : Bool := off != rFltTrip w

section
variable {s : State} {src u flags : Nat} {after : Eff}

theorem capture_notTrip (c : Capture) (w : Nat) (hw : w < 8) : (capture c).Only (Act.Local (notTripWord w)) :=
  capture_only (src := c.source) (by simp [notTripWord, rFltCapStat, rFltTrip]; omega) c rfl

theorem reactions_notTrip (w rx : Nat) (hw : w < 8) : (reactions src rx).Only (Act.Local (notTripWord w)) :=
  reactions_only (by simp [notTripWord, rFltPin, rFltTrip]; omega) rx

/-- A trip of a source that retires nothing leaves the other trips of its word. -/
theorem trip_bit_other (hs : src < 256) (hret : retires src = false) {j : Nat} (hj : j ≠ src % 32) :
    ((trip src u flags after).run s).bit (rFltTrip (src / 32)) j = s.bit (rFltTrip (src / 32)) j := by
  have hw : src / 32 < 8 := by omega
  unfold trip
  simp only [Eff.run_read, Eff.run_all_cons, Eff.run_all_done, hret, Bool.false_and, Eff.run_when, Bool.false_eq_true, if_false]
  rw [((reactions_notTrip _ _ hw).frame _).bit (by simp [notTripWord])]
  have htol : ∀ t : State, (if (src == 0x60) = true then (putBit rTolStatus 2 true).run t else t).bit (rFltTrip (src / 32)) j =
      t.bit (rFltTrip (src / 32)) j := fun t => by
    split
    · rw [putBit_run, State.bit_setReg_other (by unfold rFltTrip rTolStatus; omega)]
    · rfl
  rw [htol, ((capture_notTrip _ _ hw).frame _).bit (by simp [notTripWord]), setBit8,
    State.bit_putBit_apart _ (Nat.lt_of_lt_of_le (Nat.mod_lt _ (by decide)) (by decide)) hj]

/-- An event at TILE_BUDGET leaves the trips of the tile sources. -/
theorem tileBudget_bit {j : Nat} (hj : j ≠ 0x0B) : ((tileBudget src).run s).bit (rFltTrip 0) j = s.bit (rFltTrip 0) j := by
  have hbump : ((bumpReg (rFltEvents 0x0B) 32 1).run s).bit (rFltTrip 0) j = s.bit (rFltTrip 0) j := by
    rw [bumpReg_run, State.bit_setReg_other (by decide)]
  rw [tileBudget, Eff.run_read, Eff.run_when]
  split
  case isFalse => rfl
  case isTrue =>
    cases hi : s.dev.flt.ignored.contains 0x0B with
    | true => simp only [countWith, Eff.run_read, hi, if_true, Eff.run_skip]
    | false =>
      rw [countWith_run hi, State.afterEvent]
      split
      · exact hbump
      · split
        · exact (trip_bit_other (src := 0x0B) (by decide) (by decide) hj).trans hbump
        · exact hbump

theorem tileBudget_local : (tileBudget src).Only (Act.Local fltBlock) := by
  have h : (countWith 0x0B 0 0 .skip).Only (Act.Local fltBlock) :=
    countWith_only (fun _ h => h) 0 0 _ (by decide) (fun x => absurd x (by decide)) fun x => absurd x (by decide)
  simp [tileBudget, h]

/-- The registers that a tile's retirement changes. -/
def tileRetireReg (u off : Nat) : Bool := off == rStpStatus || off == rPacTile u

theorem retireTile_local (h : src ≤ 6) : (retireUnit src u).Only (Act.Local (tileRetireReg u)) := by
  simp [retireUnit, h, tileLeaves, onSums, journalUnits_only, tileRetireReg]

theorem retireTile_state (h : src ≤ 6) : ((retireUnit src u).run s).tileState u = 2 := by
  simp only [retireUnit, h, if_true, Eff.run_all_cons, Eff.run_all_done]
  rw [State.tileState, ((journalUnits_only (fun _ => false) _ _ _ _ _ _ _).frame _).fld rfl, State.fld_putFld_lt (by decide) (by decide)]

/-- A trip of a tile source retires its tile and sets the source's bit. -/
theorem trip_tile (h : src ≤ 6) (hu : u < 96) :
    ((trip src u 0 (tileBudget src)).run s).tileState u = 2 ∧ ((trip src u 0 (tileBudget src)).run s).bit (rFltTrip 0) src = true := by
  have hw : src / 32 = 0 := by omega
  have hm : src % 32 = src := by omega
  have h60 : src ≠ 0x60 := by omega
  have hpac : fltBlock (rPacTile u) = false := by simp [fltBlock, rPacTile]; omega
  have hreact := fun rx => (reactions_only (r := fltBlock) (src := src) (by simp [fltBlock, rFltPin]; omega) rx)
  have hret : retires src = true := by simp [retires, h]
  unfold trip
  simp only [Eff.run_read, Eff.run_all_cons, Eff.run_all_done, Eff.run_when, hret, beq_self_eq_true, Bool.and_true, if_true, beq_iff_eq, h60,
    if_false, Eff.run_andThen]
  constructor
  · rw [State.tileState, ((hreact _).frame _).fld hpac, (tileBudget_local.frame _).fld hpac]
    exact retireTile_state h
  · rw [((reactions_notTrip 0 _ (by decide)).frame _).bit (by simp [notTripWord]), tileBudget_bit (by omega),
      ((retireTile_local h).frame _).bit (by simp [tileRetireReg, rStpStatus, rPacTile, rFltTrip]; omega),
      ((capture_notTrip _ 0 (by decide)).frame _).bit (by simp [notTripWord]), setBit8, hw, hm, State.bit_putBit _ (by omega)]

end

/-- An event at a tile source reaches what runs on the tile where the source is one that does so (R76), and then it counts. -/
def tileEvent (src u : Nat) : Eff := .andThen (Eff.when (src == 0x00 || src == 0x05) (faultTile u)) (countAt src u)

section
variable {s : State} {src u : Nat}

theorem exec_faultEvent_tile (h : src ≤ 6) (hu : u < 96) : exec (.faultEvent src u) s = .next (pumpJournal.run ((tileEvent src u).run s)) := by
  have hrun : (effFaultEvent src u).run s = pumpJournal.run ((tileEvent src u).run s) := by
    simp [effFaultEvent, tileEvent, eventAfter, srcUnits, show src < 256 by omega, show srcReserved src = false by simp [srcReserved]; omega,
      h, hu, show src ≠ 0x62 by omega, show src ≠ 0x33 by omega]
  exact congrArg Host.Outcome.next hrun

theorem faultTile_local (r : Nat → Bool) (c : Bool) : (Eff.when c (faultTile u)).Only (Act.Local r) := by
  simp [faultTile, onWork, onSums]

theorem faultTile_flt (c : Bool) : ((Eff.when c (faultTile u)).run s).dev.flt = s.dev.flt := by
  cases c <;> rfl

theorem tileEvent_local (h : src ≤ 6) : (tileEvent src u).Only (Act.Local fun _ => true) :=
  ⟨faultTile_local _ _, countWith_only (fun _ _ => rfl) u 0 _ (by omega)
    (fun _ => ⟨(retireTile_local h).wider fun _ _ => rfl, tileBudget_local.wider fun _ _ => rfl⟩) fun _ => rfl⟩

theorem countNext_pos : 1 ≤ (countNext s src u).n := by
  simp only [countNext]
  split <;> simp

/-- A tile source whose threshold is 1 trips at its first event. -/
theorem countAt_tile (h : src ≤ 6) (hi : s.dev.flt.ignored.contains src = false) (hthr : s.fld (rFltSrc src) 0 8 = 1) (hst : s.tileState u ≠ 2) :
    (countAt src u).run s = (trip src u 0 (tileBudget src)).run
      ((putCount src u ⟨0, (countNext s src u).start⟩).run ((bumpReg (rFltEvents src) 32 1).run s)) :=
  countAt_trips hi (by simp [srcReserved]; omega) (by omega) (by simp [State.unitRetired, h, hst]) (hthr ▸ countNext_pos)
end

theorem tileRetiresAtThreshold : Stated.TileRetiresAtThreshold := by
  intro s src u h hu hi hthr hst
  have hj := pumpJournal_frame ((tileEvent src u).run s)
  have hf := (faultTile_local (u := u) (fun _ => false) (src == 0x00 || src == 0x05)).frame s
  have htrip := countAt_tile (s := (Eff.when (src == 0x00 || src == 0x05) (faultTile u)).run s) (u := u) h (by rwa [faultTile_flt])
    (by rwa [hf.fld rfl]) (by rwa [State.tileState, hf.fld rfl])
  obtain ⟨hstate, hbit⟩ := trip_tile (s := (putCount src u _).run ((bumpReg (rFltEvents src) 32 1).run
    ((Eff.when (src == 0x00 || src == 0x05) (faultTile u)).run s))) h hu
  rw [← htrip] at hstate hbit
  refine ⟨_, exec_faultEvent_tile h hu, ?_, ?_, ((tileEvent_local h).frame s).1.trans hj.1, ((tileEvent_local h).frame s).2.1.trans hj.2.1⟩
  · rw [State.tileState, hj.fld rfl]
    exact hstate
  · rw [hj.bit rfl]
    exact hbit

/-- Settles O43, by what an event runs once FLT_EVENTS has counted it. -/
theorem faultEvents : Obligations.FaultEvents := ⟨faultEventCounts, tileRetiresAtThreshold⟩

/-! ### A forced event that leaves the collector (R586) -/

/-- A chip at RUN whose PF0 answers, with FORCE_EN set and the threshold of JOURNAL (source 0x60) at 1. -/
def forceable : State :=
  { regs := [(rFltCtrl, 1#64), (rFltSrc 0x60, 1#64), (rPciLink, 256#64), (rImgStatus, 6#64)]
    dev := { pci := { fns := [(0, { mse := true })] } } }

/-- The place of FLT_FORCE_3. -/
def forceWord : Loc := (locate (rFltForce 3)).getD { row := { name := "", base := 0 }, i := 0, j := 0, reg := 0, high := false }

theorem forceable_writes : Writes forceable 0 (rFltForce 3) forceWord := by decide

/-- The forced event trips JOURNAL, whose trip sets TOL_STATUS.JOURNAL_FAULT as any trip of that source does. -/
theorem forceable_tolStatus : ((writeReg 0 (rFltForce 3) (effFltForce 3 1)).run forceable).bit rTolStatus 2 = true := by decide

/-- Refutes O44: an event forced at JOURNAL with threshold 1 sets TOL_STATUS bit 2, a register outside the collector's, where R586's
statement has only the collector's registers change. -/
theorem not_collectorCommands : ¬ Obligations.CollectorCommands := by
  rintro ⟨hforced, -⟩
  obtain ⟨t, ht, -, -, hregs, -⟩ := hforced forceable 0 3 1 forceWord (by decide) forceable_writes
  obtain rfl : (writeReg 0 (rFltForce 3) (effFltForce 3 1)).run forceable = t := Host.Outcome.next.inj ht
  have hsame := congrArg (fun v => bitOf v.toNat 2) (hregs rTolStatus (by decide))
  exact absurd (forceable_tolStatus.symm.trans hsame) (by decide)

end Sys2Proof.Machine
end

section
/-!
# Effects that send nothing, the hidden state of queues, and lock checks in another state
-/
namespace Sys2Proof.Machine
open Sys2Proof

/-! ### Effects that send nothing -/

/-- An update that sends nothing out. -/
def Act.Silent : Act → Prop
  | .emit _ => False
  | _ => True

section
variable {off : Nat} {v : Word64} {f : Dev → Dev}
@[simp] theorem Act.silent_setReg : Act.Silent (.setReg off v) := trivial
@[simp] theorem Act.silent_dev : Act.Silent (.dev f) := trivial
@[simp] theorem Act.silent_free : Act.Silent .free := trivial
@[simp] theorem Act.silent_store {a : Nat} {bs : List Byte} : Act.Silent (.store a bs) := trivial
@[simp] theorem Act.silent_poison {a : Nat} {on : Bool} : Act.Silent (.poison a on) := trivial
@[simp] theorem Act.silent_raiseGate {b g n : Nat} : Act.Silent (.raiseGate b g n) := trivial
end

theorem Eff.Only.out {e : Eff} (h : e.Only Act.Silent) (s : State) : (e.run s).out = s.out :=
  h.keeps (I := fun t => t.out = s.out) (fun a _ ha ht => by
    cases a with
    | emit => exact ha.elim
    | _ => exact ht) rfl

/-- An effect that changes registers and HBM as it likes, but not what the engines hold. -/
theorem Frame.of_dev (f : Dev → Dev) (r : Nat → Bool) (s : State) : Frame r s (Act.run s (.dev f)) :=
  Eff.Only.frame (e := .act (.dev f)) Act.local_dev s

/-! ### Counters -/

theorem satAdd_lt (w a b : Nat) : satAdd w a b < 2 ^ w := by
  have hle := satAdd_le w a b
  have hpos := Nat.two_pow_pos w
  omega

theorem State.fld_bumpFld {s : State} {off lo w : Nat} (n : Nat) (hw : lo + w ≤ 64) :
    ((bumpFld off lo w n).run s).fld off lo w = satAdd w (s.fld off lo w) n := by
  rw [bumpFld_run, State.fld_setReg, bitsOf_setFld _ _ _ _ hw, Nat.mod_eq_of_lt (satAdd_lt ..)]

theorem bumpFld_out (off lo w n : Nat) (s : State) : ((bumpFld off lo w n).run s).out = s.out := by
  rw [bumpFld_run, Act.setReg_out]

theorem bumpFld_dev (off lo w n : Nat) (s : State) : ((bumpFld off lo w n).run s).dev = s.dev := by
  rw [bumpFld_run, Act.setReg_dev]

theorem bumpFld_frame {r : Nat → Bool} {off : Nat} (h : r off = true) (lo w n : Nat) (s : State) : Frame r s ((bumpFld off lo w n).run s) :=
  setReg_frame _ h

/-! ### The hidden state of queues -/

theorem onQueue_silent (q : Nat) (g : Queue → Queue) : (onQueue q g).Only Act.Silent := Act.silent_dev

theorem onQueue_frame (r : Nat → Bool) (q : Nat) (g : Queue → Queue) (s : State) : Frame r s ((onQueue q g).run s) :=
  (onQueue_local r q g).frame s

theorem onQueue_queue_other {q p : Nat} (h : p ≠ q) (g : Queue → Queue) (s : State) : ((onQueue q g).run s).queue p = s.queue p :=
  mget_mset_other (d := ({} : Queue)) h _

theorem onProg_prog (q : Nat) (g : Prog → Prog) (s : State) : ((onProg q g).run s).prog q = (s.prog q).map g := by
  rw [onProg, State.prog, onQueue_queue]
  rfl

/-- An effect that leaves the queues' hidden state leaves what each queue holds. -/
theorem State.queue_of_work {s t : State} (h : t.dev.work.queues = s.dev.work.queues) (q : Nat) : t.queue q = s.queue q := by
  rw [State.queue, h, State.queue]

theorem State.prog_of_work {s t : State} (h : t.dev.work.queues = s.dev.work.queues) (q : Nat) : t.prog q = s.prog q := by
  rw [State.prog, State.queue_of_work h, State.prog]

/-! ### Lock checks -/

/-- The whole-access check reads registers and the endpoint's state alone. -/
theorem State.firstRefusal_of_same {s t : State} (hr : t.regs = s.regs) (hp : t.dev.pci = s.dev.pci) (b : Nat) (us : List AccUnit) :
    t.firstRefusal b us = s.firstRefusal b us := by
  have hreg : t.reg = s.reg := by funext off; simp only [State.reg, hr]
  have hwindows : t.windows b = s.windows b := by simp only [State.windows, hreg]
  have hmaster : t.busMaster b = s.busMaster b := by simp only [State.busMaster, State.fnExists, State.fn, hp]
  have hlock : t.lockCheck b = s.lockCheck b := by
    funext first last need
    rw [State.lockCheck, State.lockCheck, hwindows, hmaster]
  induction us with
  | nil => rfl
  | cons u us ih => simp only [State.firstRefusal, hlock, ih]

end Sys2Proof.Machine
end

section
/-!
# An operator's check, its wait and its start (R105, R109, R110)
-/
namespace Sys2Proof.Machine
open Sys2Proof

section
variable {s : State} {q op : Nat} {es : List EccEvent} {p : Prog}

/-! ### Static check and wait -/

/-- Every row of the operator table runs `effOpcode` with its opcode. -/
theorem exec_operatorRow {c : Instr} (h : (op, c) ∈ operatorRows q es) (s : State) : exec c s = .next ((effOpcode op q es).run s) := by
  simp only [operatorRows, List.mem_cons, List.not_mem_nil, or_false, Prod.mk.injEq] at h
  rcases h with ⟨rfl, rfl⟩ | ⟨rfl, rfl⟩ | ⟨rfl, rfl⟩ | ⟨rfl, rfl⟩ | ⟨rfl, rfl⟩ | ⟨rfl, rfl⟩ | ⟨rfl, rfl⟩ | ⟨rfl, rfl⟩ | ⟨rfl, rfl⟩ | ⟨rfl, rfl⟩ |
    ⟨rfl, rfl⟩ | ⟨rfl, rfl⟩ | ⟨rfl, rfl⟩ | ⟨rfl, rfl⟩ | ⟨rfl, rfl⟩ | ⟨rfl, rfl⟩ | ⟨rfl, rfl⟩ | ⟨rfl, rfl⟩ | ⟨rfl, rfl⟩ | ⟨rfl, rfl⟩ <;> rfl

theorem progEnd_run (hp : s.prog q = some p) (st : Nat) :
    (progEnd q st).run s = (finishCurrent q { status := st, flags := p.flags % 32, detail := p.pos }).run
      ((onQueue q fun k => { k with prog := none }).run s) := by
  rw [progEnd, Eff.run_read, hp, Eff.run_andThen]

section
variable (hp : s.prog q = some p) (hst : p.stage = .read) (hop : dOpcode p.desc = op)
include hp hst hop

theorem effOpcode_fails {st : Nat} (hc : staticCheck s.chipId s.hasRoute (wholeAt p p.desc) p.desc = some st) :
    (effOpcode op q es).run s = (progEnd q st).run s := by
  simp [effOpcode, hp, hst, hop, hc]

theorem effOpcode_waits (hc : staticCheck s.chipId s.hasRoute (wholeAt p p.desc) p.desc = none)
    (hw : 2 ≤ op ∨ s.opWaitMet (s.qOwner q) p.desc 0 = false) :
    (effOpcode op q es).run s = (onProg q fun p => { p with stage := .gateWait 0 s.now }).run s := by
  have hn : ¬ (op ≤ 1 ∧ s.opWaitMet (s.qOwner q) p.desc 0 = true) := by
    rintro ⟨h1, h2⟩
    rcases hw with h | h
    · omega
    · simp [h] at h2
  simp only [effOpcode, Eff.run_read, hp, hst, hop, hc, if_neg hn]
  simp

theorem effOpcode_completes (hc : staticCheck s.chipId s.hasRoute (wholeAt p p.desc) p.desc = none) (h1 : op ≤ 1)
    (hw : s.opWaitMet (s.qOwner q) p.desc 0 = true) : (effOpcode op q es).run s = (opDone q es).run s := by
  simp [effOpcode, hp, hst, hop, hc, h1, hw]
end

/-- An increment raises its gate by its amount, saturating. -/
theorem addGate_gate (hs : s.sound = true) (b g n : Nat) : min (s.gate b g + n) (2 ^ 64 - 1) ≤ ((addGate b g n).run s).gate b g := by
  have hlt := State.gate_lt hs b g
  rw [addGate, Eff.run_read]
  split
  case isTrue h0 => rw [Eff.run_skip]; omega
  case isFalse =>
    rw [raiseTo, Eff.run_all_cons, Eff.run_act]
    refine Nat.le_trans ?_ (Eff.run_gate_le _ _ b g)
    rw [State.gate_raiseGate]
    exact Nat.le_max_right ..

/-- An operator that completes makes its increment first. -/
theorem opDone_gate (hs : s.sound = true) (hp : s.prog q = some p) (hi : dIncs p.desc = true) :
    min (s.gate (s.qOwner q) (dIncGate p.desc) + dIncAmount p.desc) (2 ^ 64 - 1) ≤ ((opDone q es).run s).gate (s.qOwner q) (dIncGate p.desc) := by
  rw [opDone, Eff.run_read, hp]
  simp only [hi, Eff.run_all_cons, Eff.run_when, if_true]
  exact Nat.le_trans (addGate_gate hs _ _ _) (Nat.le_trans (Eff.run_gate_le _ _ _ _) (Eff.run_gate_le _ _ _ _))

end

theorem operatorBeginsItsWait : Stated.OperatorBeginsItsWait := by
  intro s q op es c p hrow hp hst hop hc hw
  have hrun := exec_operatorRow hrow s
  rw [effOpcode_waits hp hst hop hc hw] at hrun
  exact ⟨_, hrun, by rw [onProg_prog, hp]; rfl, onQueue_frame _ _ _ s, (onQueue_silent _ _).out s⟩

theorem operatorFailsItsCheck : Stated.OperatorFailsItsCheck := by
  intro s q op st es c p hrow hp hst hop hc
  have hrun := exec_operatorRow hrow s
  rw [effOpcode_fails hp hst hop hc, progEnd_run hp] at hrun
  exact ⟨_, hrun, rfl⟩

theorem endAndNopIncrement : Stated.EndAndNopIncrement := by
  intro s q op es c p hs hrow h1 hp hst hop hc hw hi
  have hrun := exec_operatorRow hrow s
  rw [effOpcode_completes hp hst hop hc h1 hw] at hrun
  exact ⟨_, hrun, opDone_gate hs hp hi⟩

/-! ### GATE_TIMEOUT -/

theorem waitExpired_of_le {limit m : Nat} (h0 : limit ≠ 0) (h : limit ≤ m) : waitExpired limit m = true := by
  simp [waitExpired, h0, h]

theorem exec_gateTimeout_prog {s : State} {q m since : Nat} {p : Prog} (hp : s.prog q = some p) (hst : p.stage = .gateWait m since)
    (hw : dWaits p.desc = true) (hx : waitExpired (dWaitLimit p.desc) m = true) :
    exec (.gateTimeout q) s = .next ((progEnd q 0x19).run s) := by
  have hrun : (effGateTimeout q).run s = (progEnd q 0x19).run s := by simp [effGateTimeout, hp, hst, hw, hx]
  exact congrArg Host.Outcome.next hrun

theorem exec_gateTimeout_entry {s : State} {q m since : Nat} {e : Entry} (hp : s.prog q = none) (he : s.current q = some e)
    (hst : e.stage = .gateWait m since) (hx : waitExpired (e.get 20 4) m = true) :
    exec (.gateTimeout q) s = .next ((finish q e.idx { status := 0x19 }).run s) := by
  have hrun : (effGateTimeout q).run s = (finish q e.idx { status := 0x19 }).run s := by simp [effGateTimeout, hp, he, hst, hx]
  exact congrArg Host.Outcome.next hrun

theorem gateTimeout : Stated.GateTimeout := by
  refine ⟨fun s q m since p hp hst hw h0 hm => ?_, fun s q m since e hp he hst h0 hm => ?_⟩
  · have hrun := exec_gateTimeout_prog hp hst hw (waitExpired_of_le h0 hm)
    rw [progEnd_run hp] at hrun
    exact ⟨_, hrun, rfl⟩
  · exact ⟨_, exec_gateTimeout_entry hp he hst (waitExpired_of_le h0 hm), rfl⟩

/-- Settles O49, by the cases of what an operator row runs. -/
theorem operatorWaits : Obligations.OperatorWaits := ⟨operatorBeginsItsWait, operatorFailsItsCheck, endAndNopIncrement, gateTimeout⟩

/-! ### The start on tiles (R105, R163) -/

section
variable {s : State} {q : Nat} {es : List EccEvent}

/-- The data check of an operator that reads nothing for it and whose tensors are RAW goes on at once where its locks pass. -/
theorem dataCheck_plain {d : Nat} (hop : ¬ dOpcode d ∈ [0x0060, 0x0070, 0x0071, 0x0072, 0x0081, 0x0090])
    (hpass : s.firstRefusal (s.qOwner q) ((dTensors d).map fun x => AccUnit.mk x.2.2.extent.1 x.2.2.extent.2 x.2.1.role.rights) = none)
    (hraw : ((dTensors d).filter fun x => x.2.2.compressed) = []) (k : Checked → Eff) : (dataCheck q d es k).run s = (k {}).run s := by
  have hdata : ∀ b ask c, checkData q b d ask es c k = k c := fun b ask c => by
    unfold checkData
    split <;> simp_all
  simp only [dataCheck, Eff.run_read, checkUnits_pass hpass, hraw, List.map_nil, State.captureTables, hdata]

/-- Tiles that an operator of a basin enters are the basin's. -/
theorem enter_lastBasin (b : Nat) (k : Tile) : (k.enter b).lastBasin = some b := rfl

theorem onTile_tile (t : Nat) (g : Tile → Tile) (s : State) (k : Nat) :
    ((onTile t g).run s).tile k = if k = t then g (s.tile t) else s.tile k := by
  split
  case isTrue h => subst h; exact mget_mset ({} : Tile) _ _ _
  case isFalse h => exact mget_mset_other (d := ({} : Tile)) h _

theorem enterTiles_lastBasin (b : Nat) : ∀ (ts : List Nat) (s : State) (k : Nat), (k ∈ ts ∨ (s.tile k).lastBasin = some b) →
    (((Eff.each ts fun t => onTile t (Tile.enter b)).run s).tile k).lastBasin = some b
  | [], _, _, h => by simpa using h
  | t :: ts, s, k, h => by
    rw [Eff.run_each_cons]
    refine enterTiles_lastBasin b ts _ k ?_
    rw [onTile_tile]
    by_cases hk : k = t
    · exact .inr (by rw [if_pos hk, enter_lastBasin])
    · rw [if_neg hk]
      exact h.imp_left fun hm => (List.mem_cons.mp hm).resolve_left hk

theorem enterTiles_local (b : Nat) (ts : List Nat) (r : Nat → Bool) : (Eff.each ts fun t => onTile t (Tile.enter b)).Only (Act.Local r) := by
  simp [onTile, onPace]

theorem enterTiles_silent (b : Nat) (ts : List Nat) : (Eff.each ts fun t => onTile t (Tile.enter b)).Only Act.Silent := by
  simp [onTile, onPace]

theorem enterTiles_queues (b : Nat) (ts : List Nat) (s : State) :
    ((Eff.each ts fun t => onTile t (Tile.enter b)).run s).dev.work.queues = s.dev.work.queues :=
  Eff.Only.devKeeps (p := fun d => d.work.queues) (by simp [onTile, onPace]) s

/-- No sectors read leave the count of sectors read as it is. -/
theorem actRead_none (b : Nat) (s : State) : Frame (fun _ => false) s ((actRead b 0).run s) := by
  have hval : w64 (satAdd 64 (s.reg (rMemActRd b)).toNat (32 * 0)) = s.reg (rMemActRd b) := by
    have hlt := (s.reg (rMemActRd b)).isLt
    rw [satAdd, Nat.min_eq_left (by omega)]
    exact BitVec.ofNat_toNat ..
  obtain ⟨hmem, hgates, -⟩ := Eff.Only.frame (r := fun _ => true) (e := actRead b 0) (by simp [actRead]) s
  refine ⟨hmem, hgates, fun o _ => ?_⟩
  rw [actRead, bumpReg_run, hval]
  by_cases h : o = rMemActRd b
  · rw [h, State.reg_setReg]
  · rw [State.reg_setReg_other h]

/-- What an accepted operator does once it has passed its data check. -/
def startOn (q b seed : Nat) (tiles : List Nat) : Eff := Eff.all
  [ onProg q (fun p => { p with stage := .running { seed := seed, tiles := tiles } }), Eff.each tiles fun t => onTile t (Tile.enter b), actRead b 0 ]

/-- The turn of the tiles' round robin advances. -/
def advanceTiles (turn : Turn) : Eff := onWork fun w => { w with turns := mput w.turns 0 turn }

theorem exec_operatorAccept {m since : Nat} {tiles : List Nat} {p : Prog} {turn : Turn} (hp : s.prog q = some p) (hst : p.stage = .gateWait m since)
    (hw : s.opWaitMet (s.qOwner q) p.desc m = true) (h3 : 3 ≤ dOpcode p.desc)
    (hop : ¬ dOpcode p.desc ∈ [0x0060, 0x0070, 0x0071, 0x0072, 0x0081, 0x0090]) (hfree : s.tilesFree tiles = true)
    (hgrant : s.grant 0 s.tileQueues = some (q, turn))
    (hpass : s.firstRefusal (s.qOwner q) ((dTensors p.desc).map fun x => AccUnit.mk x.2.2.extent.1 x.2.2.extent.2 x.2.1.role.rights) = none)
    (hraw : ((dTensors p.desc).filter fun x => x.2.2.compressed) = []) :
    exec (.operatorAccept q tiles es) s =
      .next ((startOn q (s.qOwner q) (s.reg (rGlbSeed (s.qOwner q))).toNat tiles).run ((advanceTiles turn).run s)) := by
  have hpass' := (State.firstRefusal_of_same (s := s) (t := (advanceTiles turn).run s) rfl rfl (s.qOwner q) _).trans hpass
  have hrun : (effOperatorAccept q tiles es).run s =
      (startOn q (s.qOwner q) (s.reg (rGlbSeed (s.qOwner q))).toNat tiles).run ((advanceTiles turn).run s) := by
    simp only [effOperatorAccept, Eff.run_read, hp, hst, hw, hfree, Bool.not_true, Bool.false_eq_true, if_false,
      if_neg (show ¬ dOpcode p.desc ≤ 1 by omega), if_neg (show ¬ dOpcode p.desc = 2 by omega), granted, hgrant, if_true, Eff.run_andThen]
    exact dataCheck_plain hop hpass' hraw _
  exact congrArg Host.Outcome.next hrun
end

/-- Settles O10: an operator that passes its data check takes its stage, its tiles and the seed. -/
theorem operatorStarts : Obligations.OperatorStarts := by
  intro s q m since tiles es p turn hp hst hw h3 hop hfree hgrant hpass hraw
  have hadv := Frame.of_dev (fun d => { d with work := { d.work with turns := mput d.work.turns 0 turn } }) (fun _ => false) s
  have hrun := exec_operatorAccept (es := es) hp hst hw h3 hop hfree hgrant hpass hraw
  simp only [startOn, Eff.run_all_cons, Eff.run_all_done] at hrun
  refine ⟨_, hrun, ?_, fun k hk => ?_, ?_, ?_⟩
  · rw [State.prog_of_work (s := (onProg q _).run _) (by rw [actRead, bumpReg_run, Act.setReg_dev, enterTiles_queues]), onProg_prog]
    exact congrArg (Option.map _) hp
  · exact enterTiles_lastBasin _ tiles _ k (.inl hk)
  · exact ((hadv.trans (onQueue_frame _ _ _ _)).trans ((enterTiles_local _ _ _).frame _)).trans (actRead_none _ _)
  · rw [actRead, bumpReg_run, Act.setReg_out, (enterTiles_silent _ _).out]
    rfl

end Sys2Proof.Machine
end

section
/-!
# Doorbells (R180 to R182)
-/
namespace Sys2Proof.Machine
open Sys2Proof

/-! ### What an event may change, for any kind of update -/

/-- A condition on updates that the collector's own ones meet: those of its registers, its state, messages, outputs and resets due. -/
structure CollectorActs (r : Act → Prop) : Prop where
  reg : ∀ {off : Nat} {v : Word64}, fltBlock off = true → r (.setReg off v)
  emit : ∀ {o : Output}, r (.emit o)
  flt : ∀ {g : Collector → Collector}, (onFlt g).Only r
  pending : ∀ {g : List Nat → List Nat}, (onPending g).Only r
  due : ∀ {g : Due → Due}, (onDue g).Only r

section
variable {r : Act → Prop} (h : CollectorActs r)
include h

theorem CollectorActs.raiseMsix (f v : Nat) : (raiseMsix f v).Only r := by
  simp [Machine.raiseMsix, h.pending, h.emit]

theorem CollectorActs.setBit {src : Nat} (hs : src < 256) : (setBit8 rFltTrip src).Only r ∧ (setBit8 rFltPin src).Only r :=
  ⟨fun _ => h.reg (by simp [fltBlock, rFltTrip]; omega), fun _ => h.reg (by simp [fltBlock, rFltPin]; omega)⟩

theorem CollectorActs.capture {src : Nat} (hs : src < 256) {c : Capture} (hc : c.source = src) : (capture c).Only r := by
  have hstat : ∀ v, r (.setReg (rFltCapStat (src / 16)) v) := fun v => h.reg (by simp [fltBlock, rFltCapStat]; omega)
  simp only [Machine.capture, Eff.only_read, hc]
  intro s
  split <;> split <;> simp [h.flt, hstat]

theorem CollectorActs.reactions {src : Nat} (hs : src < 256) (rx : Nat) : (reactions src rx).Only r := by
  have hpin := (h.setBit hs).2
  simp only [Machine.reactions, Eff.only_all, List.mem_cons, List.not_mem_nil, or_false]
  rintro e (rfl | rfl | rfl | rfl | rfl | rfl | rfl) <;> refine Eff.only_when.mpr fun _ => ?_
  · exact h.raiseMsix _ _
  · exact h.raiseMsix _ _
  · exact h.emit
  · simp [pinChange, hpin, h.emit]
  · simp [causeBasinReset, h.due]
  · split <;> simp [h.due]
  · simp [causeChipReset, h.due]

theorem CollectorActs.trip {src : Nat} (hs : src < 256) (hr : retires src = false) (h60 : src ≠ 0x60) (u : Nat) (after : Eff) :
    (trip src u 0 after).Only r := by
  simp only [Machine.trip, Eff.only_read, Eff.only_all, List.mem_cons, List.not_mem_nil, or_false, hr, Bool.false_and]
  rintro s e (rfl | rfl | rfl | rfl | rfl)
  · exact (h.setBit hs).1
  · exact h.capture hs rfl
  · exact trivial
  · exact Eff.only_when.mpr fun h0 => absurd (beq_iff_eq.mp h0) h60
  · exact h.reactions hs _

/-- An event at a source that retires nothing and sets no fault of the tolls changes what the collector may change. -/
theorem CollectorActs.countAt {src : Nat} (hs : src < 256) (hr : retires src = false) (h60 : src ≠ 0x60) (u : Nat) : (countAt src u).Only r := by
  have hev : ∀ v, r (.setReg (rFltEvents src) v) := fun v => h.reg (by simp [fltBlock, rFltEvents]; omega)
  simp [Machine.countAt, countWith, h.flt, hev, h.trip hs hr h60]
end

theorem collectorActs_keepsWork : CollectorActs (Act.Keeps fun d => d.work) where
  reg _ := trivial
  emit := trivial
  flt := onDev_only.mpr fun _ => rfl
  pending := onDev_only.mpr fun _ => rfl
  due := onDev_only.mpr fun _ => rfl

/-- An event leaves the work of queues and copy engines. -/
theorem countAt_work {src : Nat} (hs : src < 256) (hr : retires src = false) (h60 : src ≠ 0x60) (u : Nat) (s : State) :
    ((countAt src u).run s).dev.work = s.dev.work :=
  Eff.Only.devKeeps (collectorActs_keepsWork.countAt hs hr h60 u) s

/-! ### The doorbell -/

section
variable {s : State} {f q v : Nat}

theorem queueMessage_local (r : Nat → Bool) (q : Nat) : (queueMessage q).Only (Act.Local r) := fun _ =>
  ⟨onQueue_local r q _, raiseMsix_only r _ _⟩

/-- A queue that enters ERROR: its state and cause, its message, and an event. -/
theorem queueError_run (q cause : Nat) (s : State) : (queueError q cause).run s =
    (countAt (0xB0 + s.qOwner q) 0).run ((queueMessage q).run ((putFld (rQueStatus q) 4 8 cause).run ((putFld (rQueStatus q) 0 2 2).run s))) := by
  rw [queueError, Eff.run_read, Eff.run_all_cons, Eff.run_all_cons, Eff.run_all_cons, Eff.run_all_cons, Eff.run_all_done]

theorem countAt_frame {src : Nat} (hs : src < 256) (hr : retires src = false) (h60 : src ≠ 0x60) (u : Nat) (s : State) :
    Frame fltBlock s ((countAt src u).run s) := (countAt_only u hs hr h60).frame s

theorem queueError_frame (q cause : Nat) (s : State) :
    Frame (fun o => o == rQueStatus q || fltBlock o) s ((queueError q cause).run s) := by
  have hb := s.qOwner_lt (q := q)
  have hstatus : ∀ t : State, ∀ w, Frame (fun o => o == rQueStatus q || fltBlock o) t (Act.run t (.setReg (rQueStatus q) w)) :=
    fun t w => setReg_frame w (by simp)
  rw [queueError_run]
  exact (((hstatus _ _).trans (hstatus _ _)).trans ((queueMessage_local _ q).frame _)).trans
    ((countAt_frame (by omega) (by simp [retires]; omega) (by omega) 0 _).mono fun o ho => by simp [ho])

theorem queueError_fld (hq : q < 256) (cause : Nat) {lo w : Nat} (s : State) : ((queueError q cause).run s).fld (rQueStatus q) lo w =
    ((putFld (rQueStatus q) 4 8 cause).run ((putFld (rQueStatus q) 0 2 2).run s)).fld (rQueStatus q) lo w := by
  have hb := s.qOwner_lt (q := q)
  rw [queueError_run, (countAt_frame (by omega) (by simp [retires]; omega) (by omega) 0 _).fld (by simp [fltBlock, rQueStatus]; omega),
    ((queueMessage_local (fun _ => false) q).frame _).fld rfl]

theorem queueError_state (hq : q < 256) (cause : Nat) (s : State) : ((queueError q cause).run s).qState q = 2 := by
  rw [State.qState, queueError_fld hq, State.fld_putFld_apart _ (by decide) (by decide), State.fld_putFld_lt (by decide) (by decide)]

theorem queueError_cause (hq : q < 256) (cause : Nat) (s : State) : ((queueError q cause).run s).qCause q = cause % 2 ^ 8 := by
  rw [State.qCause, queueError_fld hq, State.fld_putFld _ (by decide)]

theorem exec_doorbell_accepted (h : DoorbellReaches s f q) : exec (.doorbell f true (4096 * q) 4 v) s = .next ((ringDoorbell q v).run s) := by
  obtain ⟨hf, hex, hdl, hmse, hasl, hdry, hq, hpre, hown, hst, hopen, hstep⟩ := h
  have hdiv : 4096 * q / 4096 = q := by omega
  have hrun : (effDoorbell f true (4096 * q) 4 v).run s = (ringDoorbell q v).run s := by
    simp [effDoorbell, hf, hex, hdl, hmse, hasl, hdry, hdiv, hpre, hown, hst, hopen, hstep, show 4096 * q < 0x100000 by omega]
  exact congrArg Host.Outcome.next hrun

theorem exec_doorbell_foreign (hf : isPcie f = true) (hex : s.fnExists f = true) (hdl : s.dlActive = true) (hmse : (s.fn f).mse = true)
    (hasl : s.asleep = false) (hdry : s.dryDock = false) (hq : q < 256) (hpre : s.qPresent q = true) (hown : s.qOwner q ≠ f) :
    exec (.doorbell f true (4096 * q) 4 v) s = .next ((countAt (0xA0 + f) 0).run s) := by
  have hdiv : 4096 * q / 4096 = q := by omega
  have hrun : (effDoorbell f true (4096 * q) 4 v).run s = (countAt (0xA0 + f) 0).run s := by
    simp [effDoorbell, hf, hex, hdl, hmse, hasl, hdry, hdiv, hpre, hown, show 4096 * q < 0x100000 by omega]
  exact congrArg Host.Outcome.next hrun

/-- What an accepted doorbell leaves of a queue. -/
def rung (s : State) (q v : Nat) (k : Queue) : Queue :=
  { k with
    sqTail := if bitOf v 15 then bitsOf v 0 13 else k.sqTail
    cqHead := if bitOf v 31 then bitsOf v 16 13 else k.cqHead
    posted := if bitOf v 31 then k.posted - (bitsOf v 16 13 + s.qDepth q - (s.queue q).cqHead) % s.qDepth q else k.posted }

theorem ringDoorbell_taken (hsq : bitOf v 15 = true → bitsOf v 0 13 < s.qDepth q)
    (hcq : bitOf v 31 = true → bitsOf v 16 13 < s.qDepth q ∧
      (bitsOf v 16 13 + s.qDepth q - (s.queue q).cqHead) % s.qDepth q ≤ (s.queue q).posted) :
    (ringDoorbell q v).run s = (onQueue q (rung s q v)).run s := by
  have h1 : (bitOf v 15 && decide (s.qDepth q ≤ bitsOf v 0 13)) = false := by
    cases hb : bitOf v 15 with
    | false => rfl
    | true => simpa using hsq hb
  have h2 : (bitOf v 31 && (decide (s.qDepth q ≤ bitsOf v 16 13) ||
      decide ((s.queue q).posted < (bitsOf v 16 13 + s.qDepth q - (s.queue q).cqHead) % s.qDepth q))) = false := by
    cases hb : bitOf v 31 with
    | false => rfl
    | true => simpa using hcq hb
  simp only [ringDoorbell, Eff.run_read, h1, h2, Bool.false_eq_true, if_false]
  rfl

theorem ringDoorbell_beyond (hv : bitOf v 15 = true) (hd : s.qDepth q ≤ bitsOf v 0 13) :
    (ringDoorbell q v).run s = (queueError q 1).run s := by
  simp [ringDoorbell, hv, hd]
end

/-- Settles O12, by what a doorbell runs: the queue's indices, its ERROR, or an event. -/
theorem doorbell : Obligations.Doorbell := by
  refine ⟨fun s f q v h hsq hcq => ?_, fun s f q v h hv hd => ?_, fun s f q v hf hex hdl hmse hasl hdry hq hpre hown hi => ?_⟩
  · have hrun := exec_doorbell_accepted (v := v) h
    rw [ringDoorbell_taken hsq hcq] at hrun
    exact ⟨_, hrun, onQueue_queue _ _ _, fun r hr => onQueue_queue_other hr _ s, onQueue_frame _ _ _ s, (onQueue_silent _ _).out s⟩
  · have hrun := exec_doorbell_accepted (v := v) h
    rw [ringDoorbell_beyond hv hd] at hrun
    obtain ⟨-, -, -, -, -, -, hq, -⟩ := h
    exact ⟨_, hrun, queueError_state hq 1 s, queueError_cause hq 1 s, (queueError_frame q 1 s).1, (queueError_frame q 1 s).2.1⟩
  · have hf15 : f ≤ 15 := by simpa [isPcie] using hf
    have hret : retires (0xA0 + f) = false := by simp [retires]; omega
    have hframe := countAt_frame (s := s) (show 0xA0 + f < 256 by omega) hret (by omega) 0
    exact ⟨_, exec_doorbell_foreign hf hex hdl hmse hasl hdry hq hpre hown, countAt_events 0 (by omega) hret (by omega) hi,
      countAt_work (by omega) hret (by omega) 0 s, hframe.1, hframe.2.1⟩

end Sys2Proof.Machine
end

section
/-!
# Reads and writes of HBM without poison (R154, R155)
-/
namespace Sys2Proof.Machine
open Sys2Proof

/-! ### What a write of HBM may change -/

/-- A plain write of HBM stores bytes, clears poison, and changes the codec's and the wharf's hidden state. -/
theorem writeHbm_onlyOf {r : Act → Prop} (hcodec : ∀ g, (onCodec g).Only r) (hwhf : ∀ g, (onWhf g).Only r) (hstore : ∀ a bs, r (.store a bs))
    (hpoison : ∀ p on, r (.poison p on)) (a : Nat) (bs : List Byte) : (writeHbm a bs).Only r := by
  simp [writeHbm, markRawPages, markDirty, hcodec, hwhf, hstore, hpoison]

theorem writeHbm_noGate (a : Nat) (bs : List Byte) : (writeHbm a bs).Only Act.NoGate :=
  writeHbm_onlyOf (fun _ => onDev_only.mpr trivial) (fun _ => onDev_only.mpr trivial) (fun _ _ => trivial) (fun _ _ => trivial) a bs

theorem writeHbm_within (r : Nat → Bool) (a : Nat) (bs : List Byte) : (writeHbm a bs).Only (Act.Within r) :=
  writeHbm_onlyOf (fun _ => onDev_only.mpr trivial) (fun _ => onDev_only.mpr trivial) (fun _ _ => trivial) (fun _ _ => trivial) a bs

theorem writeHbm_silent (a : Nat) (bs : List Byte) : (writeHbm a bs).Only Act.Silent :=
  writeHbm_onlyOf (fun _ => onDev_only.mpr trivial) (fun _ => onDev_only.mpr trivial) (fun _ _ => trivial) (fun _ _ => trivial) a bs

theorem writeHbm_keeps {α : Type} {p : Dev → α} (hcodec : ∀ d c, p { d with codec := c } = p d) (hwhf : ∀ d w, p { d with whf := w } = p d)
    (a : Nat) (bs : List Byte) : (writeHbm a bs).Only (Act.Keeps p) :=
  writeHbm_onlyOf (fun _ => onDev_only.mpr fun _ => hcodec _ _) (fun _ => onDev_only.mpr fun _ => hwhf _ _) (fun _ _ => trivial)
    (fun _ _ => trivial) a bs

/-! ### The bytes that a write leaves -/

/-- One sector piece of a plain write (R154). -/
def storePiece (p : Nat × List Byte) : Eff := .read fun s =>
  if p.2.length = 32 then .andThen (.act (.poison p.1 false)) (.act (.store p.1 p.2))
  else if s.poisoned (sectorOf p.1) then .skip else .act (.store p.1 p.2)

section
variable {s : State}

/-- Without poison every piece is stored, and no poison arises. -/
theorem storePiece_clean (h : s.poison = []) (p : Nat × List Byte) :
    ((storePiece p).run s).mem = memWrite s.mem p.1 (p.2.take (hbmSize - p.1)) ∧ ((storePiece p).run s).poison = [] := by
  unfold storePiece
  rw [Eff.run_read]
  by_cases h32 : p.2.length = 32
  · rw [if_pos h32]
    exact ⟨rfl, by simp [h, sdel]⟩
  · rw [if_neg h32, if_neg (by simp [State.poisoned, h])]
    exact ⟨rfl, h⟩

theorem storePiece_byte (h : s.poison = []) {p : Nat × List Byte} (hb : p.1 + p.2.length ≤ hbmSize) (x : Nat) :
    ((storePiece p).run s).byte x = if p.1 ≤ x ∧ x < p.1 + p.2.length then p.2.getD (x - p.1) 0#8 else s.byte x := by
  rw [State.byte, (storePiece_clean h p).1, List.take_of_length_le (by omega)]
  split
  case isTrue hx =>
    obtain ⟨i, rfl⟩ := Nat.exists_eq_add_of_le hx.1
    rw [mget_memWrite p.2 i (by omega), Nat.add_sub_cancel_left, getD_of_lt (by omega)]
  case isFalse hx => exact mget_memWrite_other p.2 (by omega)

/-- A piece is a slice of the bytes written from `a` on. -/
def IsSlice (a : Nat) (bs : List Byte) (p : Nat × List Byte) : Prop :=
  a ≤ p.1 ∧ p.1 + p.2.length ≤ a + bs.length ∧ ∀ j, j < p.2.length → p.2.getD j 0#8 = bs.getD (p.1 + j - a) 0#8

/-- Slices written in order leave their bytes where they lie, and every other byte. -/
theorem storePieces_byte {a : Nat} {bs : List Byte} (hb : a + bs.length ≤ hbmSize) : ∀ {ps : List (Nat × List Byte)} {s : State},
    s.poison = [] → (∀ p ∈ ps, IsSlice a bs p) →
    ((Eff.each ps storePiece).run s).poison = [] ∧
      ∀ x, ((Eff.each ps storePiece).run s).byte x = if ∃ p ∈ ps, p.1 ≤ x ∧ x < p.1 + p.2.length then bs.getD (x - a) 0#8 else s.byte x
  | [], s, h, _ => ⟨h, fun x => by simp⟩
  | p :: ps, s, h, hs => by
    obtain ⟨ha, hlen, hbytes⟩ := hs p (List.mem_cons_self ..)
    obtain ⟨hp, hrest⟩ := storePieces_byte (s := (storePiece p).run s) hb (storePiece_clean h p).2 fun x hx => hs x (List.mem_cons_of_mem _ hx)
    rw [Eff.run_each_cons]
    refine ⟨hp, fun x => ?_⟩
    rw [hrest, storePiece_byte h (by omega)]
    by_cases hr : ∃ p ∈ ps, p.1 ≤ x ∧ x < p.1 + p.2.length
    · obtain ⟨y, hy, hyx⟩ := hr
      rw [if_pos ⟨y, hy, hyx⟩, if_pos ⟨y, List.mem_cons_of_mem _ hy, hyx⟩]
    · rw [if_neg hr]
      by_cases hx : p.1 ≤ x ∧ x < p.1 + p.2.length
      · rw [if_pos hx, if_pos ⟨p, List.mem_cons_self .., hx⟩, hbytes _ (by omega), Nat.add_sub_cancel' hx.1]
      · rw [if_neg hx, if_neg]
        rintro ⟨y, hy, hyx⟩
        rcases List.mem_cons.mp hy with rfl | hy
        · exact hx hyx
        · exact hr ⟨y, hy, hyx⟩

theorem mem_sectorsOf {a n p : Nat} : p ∈ sectorsOf a n ↔ n ≠ 0 ∧ p % 32 = 0 ∧ a < p + 32 ∧ p < a + n := by
  unfold sectorsOf
  split
  case isTrue h => simp [h]
  case isFalse h =>
    simp only [List.mem_map, List.mem_range]
    constructor
    · rintro ⟨i, hi, rfl⟩
      omega
    · rintro ⟨-, hp, ha, hn⟩
      exact ⟨p / 32 - a / 32, by omega, by omega⟩

theorem pieces_isSlice {a : Nat} {bs : List Byte} : ∀ p ∈ pieces a bs, IsSlice a bs p := by
  intro p hp
  simp only [pieces, List.mem_map] at hp
  obtain ⟨sec, hsec, rfl⟩ := hp
  obtain ⟨hn, -, hlo, hhi⟩ := mem_sectorsOf.mp hsec
  refine ⟨Nat.le_max_left .., ?_, fun j hj => ?_⟩
  · simp only [List.length_take, List.length_drop]
    omega
  · simp only [List.length_take, List.length_drop] at hj
    simp only [List.getD_eq_getElem?_getD, List.getElem?_take, List.getElem?_drop]
    rw [if_pos (by omega)]
    congr 2
    omega

theorem pieces_cover {a : Nat} {bs : List Byte} {x : Nat} :
    (∃ p ∈ pieces a bs, p.1 ≤ x ∧ x < p.1 + p.2.length) ↔ a ≤ x ∧ x < a + bs.length := by
  constructor
  · rintro ⟨p, hp, hx⟩
    obtain ⟨ha, hlen, -⟩ := pieces_isSlice p hp
    omega
  · rintro ⟨ha, hn⟩
    refine ⟨_, List.mem_map_of_mem (mem_sectorsOf (p := x / 32 * 32).mpr ⟨by omega, by omega, by omega, by omega⟩), ?_⟩
    simp only [List.length_take, List.length_drop]
    omega

/-- Without poison a write within HBM leaves its bytes where they belong and every other byte as it was. -/
theorem writeHbm_clean (h : s.poison = []) {a : Nat} {bs : List Byte} (hb : a + bs.length ≤ hbmSize) :
    ((writeHbm a bs).run s).poison = [] ∧
      ∀ x, ((writeHbm a bs).run s).byte x = if a ≤ x ∧ x < a + bs.length then bs.getD (x - a) 0#8 else s.byte x := by
  have hmark : ∀ g : Wharf → Wharf, ∀ (c : Bool) (t : State), ((Eff.when c (onWhf g)).run t).mem = t.mem ∧
      ((Eff.when c (onWhf g)).run t).poison = t.poison := fun g c t => by cases c <;> exact ⟨rfl, rfl⟩
  have hrun : ∃ c g e, (writeHbm a bs).run s = (Eff.when c (onWhf g)).run ((Eff.each (pieces a bs) storePiece).run ((onCodec e).run s)) :=
    ⟨_, _, _, by rw [writeHbm, Eff.run_read, Eff.run_all_cons, Eff.run_all_cons, Eff.run_all_cons, Eff.run_all_done]; rfl⟩
  obtain ⟨c, g, e, hrun⟩ := hrun
  obtain ⟨hp, hbyte⟩ := storePieces_byte (a := a) (s := (onCodec e).run s) hb h pieces_isSlice
  rw [hrun]
  refine ⟨(hmark g c _).2.trans hp, fun x => ?_⟩
  rw [State.byte, (hmark g c _).1]
  refine (hbyte x).trans ?_
  simp only [pieces_cover]
  rfl

/-! ### Reads -/

theorem readSectors_clean (h : s.poison = []) (b : Nat) (secs : List Nat) : (readSectors b secs []).run s = s := by
  rw [readSectors, Eff.run_read, h]
  rfl

theorem anyPoison_clean (h : s.poison = []) (a n : Nat) : s.anyPoison a n = false := by
  simp [State.anyPoison, h]

theorem length_sectorsOf {a n : Nat} (h : n ≠ 0) : (sectorsOf a n).length = (a + n - 1) / 32 - a / 32 + 1 := by
  simp [sectorsOf, h]

theorem length_leBytes : ∀ n x, (leBytes n x).length = n
  | 0, _ => rfl
  | n + 1, x => congrArg (· + 1) (length_leBytes n (x / 256))
end

end Sys2Proof.Machine
end

section
/-!
# The fetch of a queue entry, and the queue commands (R183 to R189)
-/
namespace Sys2Proof.Machine
open Sys2Proof

/-! ### Entries that a queue may start -/

section
variable {s : State} {q : Nat} {e : Entry}

/-- An entry that may start has been fetched and no more. -/
theorem startable_stage (h : s.startable q = some e) : e.stage = .fetched := by
  simp only [State.startable] at h
  split at h
  case isFalse => cases h
  case isTrue =>
    split at h
    case h_2 => cases h
    case h_1 x hx =>
      split at h
      · cases h
      · obtain rfl := Option.some.inj h
        have := List.find?_some hx
        simp only [Bool.and_eq_true, beq_iff_eq] at this
        exact this.2

theorem takeUp_run (h : Starts s q e) {cmd : Nat → Bool} (hc : cmd e.cmd = true) (body : Entry → Eff) :
    (takeUp q cmd body).run s = (body e).run s := by
  obtain ⟨hs, hj, h2, h3⟩ := h
  simp [takeUp, hs, hj, hc, h2, h3]

theorem exec_cmdNop (h : Starts s q e) (hc : e.cmd = 0) (h0 : e.get 16 48 = 0) :
    exec (.cmdNop q) s = .next ((finish q e.idx { status := 0 }).run s) := by
  have hrun : (effCmdNop q).run s = (finish q e.idx { status := 0 }).run s := by
    rw [effCmdNop, takeUp_run h (by simp [hc])]
    simp [h0]
  exact congrArg Host.Outcome.next hrun

/-- A program that passes its checks, put on its queue at offset 0. -/
def beginProgram (q : Nat) (e : Entry) : Eff :=
  .andThen (setStage q e.idx .running) (onQueue q fun k => { k with prog := some { addr := e.get 16 6, len := e.get 24 4 } })

theorem exec_runProgram {es : List EccEvent} (h : Starts s q e) (hc : e.cmd = 1) (h22 : e.get 22 2 = 0) (h28 : e.get 28 36 = 0)
    (h64 : e.get 24 4 % 64 = 0) (h0 : e.get 24 4 ≠ 0) (hmax : e.get 24 4 ≤ 2 ^ 20) (hin : e.get 16 6 + e.get 24 4 ≤ hbmSize)
    (hpass : s.firstRefusal (s.qOwner q) [⟨e.get 16 6, e.get 16 6 + e.get 24 4 - 1, rightR⟩] = none) :
    exec (.runProgram q es) s = .next ((readDesc q es).run ((beginProgram q e).run s)) := by
  have hrun : (effRunProgram q es).run s = (readDesc q es).run ((beginProgram q e).run s) := by
    have hhbm : (inHbm (e.get 16 6) && inHbm (e.get 16 6 + e.get 24 4 - 1)) = true := by
      simp only [inHbm, Bool.and_eq_true, decide_eq_true_eq]
      omega
    have hok : (e.get 22 2 != 0 || e.get 28 36 != 0 || e.get 24 4 % 64 != 0 || decide (e.get 24 4 = 0) || decide (2 ^ 20 < e.get 24 4)) = false := by
      rw [decide_eq_false (Nat.not_lt.mpr hmax)]
      simp [h22, h28, h64, h0]
    rw [effRunProgram, takeUp_run h (by simp [hc]), Eff.run_read, if_neg (by rw [hok]; decide), checkUnits_pass hpass, if_pos hhbm,
      Eff.run_all_cons, Eff.run_all_cons, Eff.run_all_cons, Eff.run_all_done, beginProgram, Eff.run_andThen]
  exact congrArg Host.Outcome.next hrun

theorem beginProgram_local (r : Nat → Bool) : (beginProgram q e).Only (Act.Local r) := ⟨onQueue_local r q _, onQueue_local r q _⟩

theorem beginProgram_prog (s : State) : ((beginProgram q e).run s).prog q = some { addr := e.get 16 6, len := e.get 24 4 } := by
  rw [beginProgram, Eff.run_andThen, State.prog, onQueue_queue]

section
variable (h : Starts s q e) (hcur : s.current q = some e) (hc : e.cmd = 0x20) (h17 : e.get 17 3 = 0) (h32 : e.get 32 32 = 0)
include h hcur hc h17 h32

theorem exec_waitGate : exec (.waitGate q) s = .next ((if s.gateMet (s.qOwner q) (e.get 16 1) (e.get 24 8) = true
    then finish q e.idx { status := 0 } else setStage q e.idx (.gateWait 0 s.now)).run s) := by
  have hrun : (effWaitGate q).run s = (if s.gateMet (s.qOwner q) (e.get 16 1) (e.get 24 8) = true
      then finish q e.idx { status := 0 } else setStage q e.idx (.gateWait 0 s.now)).run s := by
    simp only [effWaitGate, Eff.run_read, hcur, startable_stage h.1]
    rw [takeUp_run h (by simp [hc]), h17, h32]
    rfl
  exact congrArg Host.Outcome.next hrun
end

theorem exec_incGate (h : Starts s q e) (hc : e.cmd = 0x21) (h17 : e.get 17 3 = 0) (h24 : e.get 24 40 = 0) (h0 : e.get 20 4 ≠ 0) :
    exec (.incGate q) s =
      .next ((finish q e.idx { status := 0 }).run ((addGate (s.qOwner q) (e.get 16 1) (e.get 20 4)).run s)) := by
  have hrun : (effIncGate q).run s = (finish q e.idx { status := 0 }).run ((addGate (s.qOwner q) (e.get 16 1) (e.get 20 4)).run s) := by
    rw [effIncGate, takeUp_run h (by simp [hc]), Eff.run_read, h17, h24, if_neg (by decide), if_neg h0, Eff.run_andThen]
  exact congrArg Host.Outcome.next hrun
end

theorem queueCommands : Stated.QueueCommands := by
  refine ⟨fun s q e h hc h0 => ⟨_, exec_cmdNop h hc h0, rfl⟩, fun s q e es h hc h22 h28 h64 h0 hmax hin hpass => ?_,
    fun s q e h hcur hc h17 h32 => ⟨fun hm => ?_, fun hm => ?_⟩, fun s q e hs h hc h17 h24 h0 => ?_⟩
  · exact ⟨_, exec_runProgram h hc h22 h28 h64 h0 hmax hin hpass, _, beginProgram_prog s, (beginProgram_local _).frame s, rfl, rfl⟩
  · have hrun := exec_waitGate h hcur hc h17 h32
    rw [if_pos hm] at hrun
    exact ⟨_, hrun, rfl⟩
  · have hrun := exec_waitGate h hcur hc h17 h32
    rw [if_neg (by simp [hm])] at hrun
    exact ⟨_, hrun, by rw [setStage, onQueue_queue], onQueue_frame _ _ _ s, (onQueue_silent _ _).out s⟩
  · exact ⟨_, exec_incGate h hc h17 h24 h0, Nat.le_trans (addGate_gate hs _ _ _) (Eff.run_gate_le _ _ _ _), rfl⟩

/-! ### The fetch of an entry (R183, R189) -/

section
variable {s : State} {q : Nat}

/-- The slot of the ring that a queue fetches next, and its address. -/
def State.fetchIdx (s : State) (q : Nat) : Nat := (s.queue q).nextFetch % s.qDepth q

def State.fetchAddr (s : State) (q : Nat) : Nat := s.fld (rQueSqBase q) 12 36 * 4096 + 64 * s.fetchIdx q

theorem fetchBytes_hbm (hp : s.poison = []) {a n : Nat} (ha : inHbm a = true) (refused : Eff) (k : FetchEnd) :
    (fetchBytes q a n false [] refused k).run s =
      (k (some (s.bytes a n))).run ((actRead (s.qOwner q) (sectorsOf a n).length).run s) := by
  have hpoison : ((actRead (s.qOwner q) (sectorsOf a n).length).run s).anyPoison a n = false := anyPoison_clean hp a n
  have hbytes : ((actRead (s.qOwner q) (sectorsOf a n).length).run s).bytes a n = s.bytes a n := rfl
  rw [fetchBytes, Eff.run_read, if_pos ha, Eff.run_all_cons, Eff.run_all_cons, Eff.run_all_cons, Eff.run_all_done, if_neg (by decide),
    readSectors_clean hp, Eff.run_read, hpoison, if_neg (by decide), hbytes]

/-- A queue that has nothing to judge and nothing to post goes on as it is. -/
theorem settleQueue_still (hu : s.unfit q = none) {e : Entry} {es : List Entry} (ho : (s.queue q).owed = e :: es) (hf : e.fin = none) :
    (settleQueue q).run s = s := by
  have hpost : ∀ t : State, (t.queue q).owed = e :: es → (post q).run t = t := fun t ht => by
    simp only [post, Eff.run_read, ht, List.length_cons, postLoop, hf, Eff.run_skip]
  rw [settleQueue, Eff.run_read, Eff.run_andThen, ho, List.length_cons, settleLoop, Eff.run_read, hu]
  exact hpost s ho

/-- What a queue owes once it has taken up an entry: those before it started, the new one has not ended. -/
theorem State.unfit_none {l : List Entry} {e : Entry} (ho : (s.queue q).owed = l ++ [e]) (hl : ∀ x ∈ l, x.fin.isNone = true ∧ x.stage = .running)
    (hj : s.judge q e = none) : s.unfit q = none := by
  rw [State.unfit, ho, List.findSome?_eq_none_iff]
  intro x hx
  rcases List.mem_append.mp hx with hx | hx
  · rw [if_pos (by simp [(hl x hx).2])]
  · obtain rfl := List.mem_singleton.mp hx
    simp [hj]

theorem mayFetch_owed (h : s.mayFetch q = true) : ∀ x ∈ (s.queue q).owed, x.fin.isNone = true ∧ x.stage = .running := by
  simp only [State.mayFetch, Bool.and_eq_true, Bool.or_eq_true, List.isEmpty_iff, List.all_eq_true, beq_iff_eq] at h
  obtain ⟨-, h | ⟨-, h⟩⟩ := h
  · simp [h]
  · exact h

/-- The entry that the ring holds at the slot fetched next. -/
def State.fetchEntry (s : State) (q : Nat) : Entry := { idx := s.fetchIdx q, bytes := leNat (s.bytes (s.fetchAddr q) 64) }

/-- A queue moves on past the entry fetched, and holds it as the last it owes. -/
def takeEntry (q idx depth : Nat) (e : Entry) : Eff :=
  .andThen (onQueue q fun k => { k with nextFetch := (idx + 1) % depth }) (onQueue q fun k => { k with owed := k.owed ++ [e] })

theorem takeEntry_queue (idx depth : Nat) (e : Entry) (s : State) : ((takeEntry q idx depth e).run s).queue q =
    { s.queue q with nextFetch := (idx + 1) % depth, owed := (s.queue q).owed ++ [e] } := by
  rw [takeEntry, Eff.run_andThen, onQueue_queue, onQueue_queue]

/-- The head of a list that may fetch, with the new entry behind it, has not ended. -/
theorem exists_head_append {l : List Entry} {e : Entry} (hl : ∀ x ∈ l, x.fin.isNone = true ∧ x.stage = .running) (he : e.fin = none) :
    ∃ x xs, l ++ [e] = x :: xs ∧ x.fin = none := by
  cases l with
  | nil => exact ⟨e, [], rfl, he⟩
  | cons x xs => exact ⟨x, xs ++ [e], rfl, Option.isNone_iff_eq_none.mp (hl x (List.mem_cons_self ..)).1⟩

theorem exec_sqFetch (ht : s.tagFetch q = none) (hm : s.mayFetch q = true) (hp : s.poison = []) (ha : inHbm (s.fetchAddr q) = true)
    (hcmd : cmdListed (s.qKind q) (s.fetchEntry q).cmd = true) (hhdr : (s.fetchEntry q).headerOk = true)
    (hreq : (s.fetchEntry q).requireOk = false) :
    exec (.sqFetch q []) s = .next ((takeEntry q (s.fetchIdx q) (s.qDepth q) (s.fetchEntry q)).run
      ((actRead (s.qOwner q) (sectorsOf (s.fetchAddr q) 64).length).run s)) := by
  have howed := mayFetch_owed hm
  have hqueue := takeEntry_queue (q := q) (s.fetchIdx q) (s.qDepth q) (s.fetchEntry q)
    ((actRead (s.qOwner q) (sectorsOf (s.fetchAddr q) 64).length).run s)
  obtain ⟨x, xs, hx, hfin⟩ := exists_head_append (e := s.fetchEntry q) howed rfl
  have hkind : ((takeEntry q (s.fetchIdx q) (s.qDepth q) (s.fetchEntry q)).run
      ((actRead (s.qOwner q) (sectorsOf (s.fetchAddr q) 64).length).run s)).qKind q = s.qKind q :=
    State.fld_setReg_other (by simp [rQueCfg, rMemActRd]; have := s.qOwner_lt (q := q); omega) _ _ _
  have hjudge : ((takeEntry q (s.fetchIdx q) (s.qDepth q) (s.fetchEntry q)).run
      ((actRead (s.qOwner q) (sectorsOf (s.fetchAddr q) 64).length).run s)).judge q (s.fetchEntry q) = none := by
    simp [State.judge, hkind, hcmd, hhdr, hreq]
  have hsettle := settleQueue_still (State.unfit_none (congrArg Queue.owed hqueue) howed hjudge) ((congrArg Queue.owed hqueue).trans hx) hfin
  have hrun : (effSqFetch q []).run s = (takeEntry q (s.fetchIdx q) (s.qDepth q) (s.fetchEntry q)).run
      ((actRead (s.qOwner q) (sectorsOf (s.fetchAddr q) 64).length).run s) := by
    simp only [effSqFetch, Eff.run_read, ht, hm, if_true]
    rw [fetchBytes_hbm hp (by exact ha), Eff.run_andThen, taken, Eff.run_andThen]
    rw [takeEntry, Eff.run_andThen] at hsettle
    exact hsettle
  exact congrArg Host.Outcome.next hrun

theorem takeEntry_local (r : Nat → Bool) (q idx depth : Nat) (e : Entry) : (takeEntry q idx depth e).Only (Act.Local r) :=
  ⟨onQueue_local r q _, onQueue_local r q _⟩

/-- An entry of a ring covers two sectors. -/
theorem length_sectorsOf_entry (q : Nat) (s : State) : (sectorsOf (s.fetchAddr q) 64).length = 2 := by
  rw [length_sectorsOf (by decide), State.fetchAddr]
  omega
end

theorem sqFetch : Stated.SqFetch := by
  intro s q hq ht hm hp ha e hcmd hhdr hreq
  have hrun := exec_sqFetch ht hm hp ha hcmd hhdr hreq
  have hqueue := takeEntry_queue (q := q) (s.fetchIdx q) (s.qDepth q) (s.fetchEntry q) ((actRead (s.qOwner q) 2).run s)
  have hframe := (takeEntry_local (fun _ => false) q (s.fetchIdx q) (s.qDepth q) (s.fetchEntry q)).frame ((actRead (s.qOwner q) 2).run s)
  rw [length_sectorsOf_entry] at hrun
  refine ⟨_, hrun, ?_, ?_, ?_, ?_, rfl⟩
  · rw [hqueue]; rfl
  · rw [hqueue]; rfl
  · rw [hframe.2.2 _ rfl]
    exact State.reg_setReg _ _ _
  · exact (setReg_frame (r := fun o => o == rMemActRd (s.qOwner q)) _ (beq_self_eq_true _)).trans (hframe.mono fun _ h => by cases h)

/-- Settles O51, by what the fetch and each command run. -/
theorem queueEntries : Obligations.QueueEntries := ⟨sqFetch, queueCommands⟩

end Sys2Proof.Machine
end

section
/-!
# Completions, messages and outbound reads (R190, R195, R208, R608)
-/
namespace Sys2Proof.Machine
open Sys2Proof

/-! ### A completion is posted -/

section
variable {s : State} {q : Nat} {e : Entry} {f : Fin}

/-- The bytes of an entry's completion. -/
def State.completion (s : State) (q : Nat) (e : Entry) (f : Fin) : List Byte :=
  completionBytes e.idx ((e.idx + 1) % s.qDepth q) e.tag (s.fld (rQueStatus q) 2 1) f

theorem length_completion : (s.completion q e f).length = 16 := by
  simp [State.completion, completionBytes, length_leBytes]

/-- The ring's position moves on, and the phase turns where it wraps. -/
def advanceCq (s : State) (q idx : Nat) : Eff := .andThen
  (putReg (rQuePtr q) ((idx + 1) % s.qDepth q + (s.fld (rQuePtr q) 16 13 + 1) % s.qDepth q * 2 ^ 16))
  (Eff.when (s.fld (rQuePtr q) 16 13 + 1 == s.qDepth q) (putFld (rQueStatus q) 2 1 (1 - s.fld (rQueStatus q) 2 1)))

/-- The queue no longer owes the completion posted. -/
def countPosted (q idx status : Nat) : Eff := onQueue q fun k =>
  { k with posted := k.posted + 1, owed := k.owed.drop 1, lastOk := status == 0, lastStatus := status, lastIdx := some idx }

theorem postOne_run (ha : s.cqSlot q < hbmSize) : (postOne q e f).run s =
    (messageAtPost q e.irq).run ((countPosted q e.idx f.status).run ((bumpReg (rQueDone q) 64 1).run ((advanceCq s q e.idx).run
      ((writeHbm (s.cqSlot q) (s.completion q e f)).run
        ((actWrite (s.qOwner q) (sectorsOf (s.cqSlot q) (s.completion q e f).length).length).run s))))) := by
  have hout : outbound (s.cqSlot q) = false := by
    simp only [outbound, decide_eq_false_iff_not]
    unfold hbmSize at ha
    omega
  have hin : inHbm (s.cqSlot q) = true := by simpa [inHbm] using ha
  rw [postOne, Eff.run_read]
  simp only [hout, Bool.false_and, Bool.false_eq_true, if_false]
  rw [Eff.run_all_cons, Eff.run_all_cons, Eff.run_all_cons, Eff.run_all_cons, Eff.run_all_cons, Eff.run_all_cons, Eff.run_all_done, writeAny,
    if_pos hin, Eff.run_andThen, advanceCq, Eff.run_andThen]
  rfl

theorem advanceCq_local (s : State) (q idx : Nat) : (advanceCq s q idx).Only (Act.Local fun o => o == rQuePtr q || o == rQueStatus q) := by
  simp [advanceCq]

theorem messageAtPost_local (r : Nat → Bool) (irq : Bool) : (messageAtPost q irq).Only (Act.Local r) := by
  simp [messageAtPost, onQueue_local, queueMessage_local]

/-- What a queue owes, how many completions it has posted, and whether it is closing. -/
def postState (q : Nat) (d : Dev) : List Entry × Nat × Bool :=
  let k := mget {} d.work.queues q
  (k.owed, k.posted, k.closing)

theorem onQueue_keepsPostState {g : Queue → Queue} (h : ∀ k, (g k).owed = k.owed ∧ (g k).posted = k.posted ∧ (g k).closing = k.closing) :
    (onQueue q g).Only (Act.Keeps (postState q)) := by
  refine onDev_only.mpr fun d => ?_
  obtain ⟨ho, hp, hc⟩ := h (mget {} d.work.queues q)
  simp only [postState, mget_mset, ho, hp, hc]

theorem queueMessage_keepsPostState : (queueMessage q).Only (Act.Keeps (postState q)) := fun _ =>
  ⟨onQueue_keepsPostState fun _ => ⟨rfl, rfl, rfl⟩, by simp [raiseMsix, onPending, postState]⟩

theorem messageAtPost_keepsPostState (irq : Bool) : (messageAtPost q irq).Only (Act.Keeps (postState q)) := fun s => by
  refine ⟨onQueue_keepsPostState fun _ => ⟨rfl, rfl, rfl⟩, ?_⟩
  split
  · exact queueMessage_keepsPostState
  · trivial

theorem postState_eq {s t : State} (h : postState q t.dev = postState q s.dev) :
    (t.queue q).owed = (s.queue q).owed ∧ (t.queue q).posted = (s.queue q).posted ∧ (t.queue q).closing = (s.queue q).closing := by
  exact ⟨congrArg (·.1) h, congrArg (·.2.1) h, congrArg (·.2.2) h⟩

/-- What posting one completion leaves, for a ring in HBM without poison. -/
theorem postOne_leaves (hq : q < 256) (hp : s.poison = []) (ha : s.cqSlot q + 16 ≤ hbmSize) :
    let t := (postOne q e f).run s
    (∀ x, t.byte x = if s.cqSlot q ≤ x ∧ x < s.cqSlot q + 16 then (s.completion q e f).getD (x - s.cqSlot q) 0#8 else s.byte x) ∧
    t.reg (rQueDone q) = w64 (satAdd 64 (s.reg (rQueDone q)).toNat 1) ∧ SameGates s t ∧
    (t.queue q).owed = (s.queue q).owed.drop 1 ∧ (t.queue q).posted = (s.queue q).posted + 1 ∧ (t.queue q).closing = (s.queue q).closing := by
  intro t
  have howner := s.qOwner_lt (q := q)
  have hlen := length_completion (s := s) (q := q) (e := e) (f := f)
  have hrun : t = _ := postOne_run (e := e) (f := f) (show s.cqSlot q < hbmSize by omega)
  have hact : ∀ n, Frame (fun o => o == rMemActWr (s.qOwner q)) s ((actWrite (s.qOwner q) n).run s) := fun n =>
    Eff.Only.frame (by simp [actWrite]) s
  have hwrite := fun n => writeHbm_clean (s := (actWrite (s.qOwner q) n).run s) hp (a := s.cqSlot q) (bs := s.completion q e f) (by omega)
  have hcq := fun u => (advanceCq_local s q e.idx).frame u
  have hbump : ∀ u : State, Frame (fun o => o == rQueDone q) u ((bumpReg (rQueDone q) 64 1).run u) := fun u => Eff.Only.frame (by simp) u
  have hposted := fun u => onQueue_frame (fun _ => false) q
    (fun k => { k with posted := k.posted + 1, owed := k.owed.drop 1, lastOk := f.status == 0, lastStatus := f.status, lastIdx := some e.idx }) u
  have hmsg := fun u => (messageAtPost_local (fun _ => false) (q := q) e.irq).frame u
  refine ⟨fun x => ?_, ?_, ?_, ?_⟩
  · rw [hrun, (hmsg _).1.1, countPosted, (hposted _).1.1, (hbump _).1.1, (hcq _).1.1, (hwrite _).2 x, hlen]
    rfl
  · rw [hrun, (hmsg _).2.2 _ rfl, countPosted, (hposted _).2.2 _ rfl, bumpReg_run, State.reg_setReg,
      (hcq _).2.2 _ (by simp [rQuePtr, rQueStatus, rQueDone]),
      (writeHbm_within (fun _ => false) _ _).regsBut _ _ rfl, (hact _).2.2 _ (by simp [rMemActWr, rQueDone]; omega)]
  · rw [hrun]
    exact ((((((hact _).2.1.trans ((writeHbm_noGate _ _).sameGates _)).trans (hcq _).2.1).trans (hbump _).2.1).trans (hposted _).2.1).trans
      (hmsg _).2.1)
  · have hkeep : ∀ u : State, u.dev.work = s.dev.work → ((countPosted q e.idx f.status).run u).queue q =
        { s.queue q with posted := (s.queue q).posted + 1, owed := (s.queue q).owed.drop 1, lastOk := f.status == 0,
                         lastStatus := f.status, lastIdx := some e.idx } := fun u hu => by
      rw [countPosted, onQueue_queue, State.queue_of_work (congrArg Work.queues hu)]
    obtain ⟨ho, hpo, hc⟩ := postState_eq (Eff.Only.devKeeps (messageAtPost_keepsPostState (q := q) e.irq)
      ((countPosted q e.idx f.status).run ((bumpReg (rQueDone q) 64 1).run ((advanceCq s q e.idx).run
      ((writeHbm (s.cqSlot q) (s.completion q e f)).run
        ((actWrite (s.qOwner q) (sectorsOf (s.cqSlot q) (s.completion q e f).length).length).run s))))))
    have hwork := hkeep ((bumpReg (rQueDone q) 64 1).run ((advanceCq s q e.idx).run
      ((writeHbm (s.cqSlot q) (s.completion q e f)).run
        ((actWrite (s.qOwner q) (sectorsOf (s.cqSlot q) (s.completion q e f).length).length).run s)))) (by
      rw [bumpReg_run, Act.setReg_dev, Eff.Only.devKeeps (p := fun d => d.work) (by simp [advanceCq]),
        Eff.Only.devKeeps (p := fun d => d.work) (writeHbm_keeps (fun _ _ => rfl) (fun _ _ => rfl) _ _)]
      rfl)
    rw [hrun, ho, hpo, hc, hwork]
    exact ⟨rfl, rfl, rfl⟩

/-- A queue that owes one completion, and may post it, posts it. -/
theorem post_one (ho : (s.queue q).owed = [e]) (hf : e.fin = some f) (hst : e.stage ≠ .abortTag) (hd : s.drops q = false) (hc : s.canPost q = true)
    (ht : (((postOne q e f).run s).queue q).owed = []) (hcl : (((postOne q e f).run s).queue q).closing = false) :
    (post q).run s = (postOne q e f).run s := by
  have hlast : (postLoop q 2).run ((postOne q e f).run s) = (postOne q e f).run s := by
    rw [postLoop, Eff.run_read, ht]
    simp only [hcl, Eff.run_when, Bool.false_eq_true, if_false]
  have hgo : (e.stage != .abortTag && s.canPost q) = true := by simp [hst, hc]
  rw [post, Eff.run_read, ho, List.length_singleton, postLoop, Eff.run_read, ho]
  simp only [hf, hd, hgo, if_true, Bool.false_eq_true, if_false]
  exact hlast
end

theorem completionPosted : Stated.CompletionPosted := by
  intro s q e f hq ho hf hst hd hc hcl ha hp
  obtain ⟨hbyte, hdone, hgates, howed, hposted, hclosing⟩ := postOne_leaves (e := e) (f := f) hq hp ha
  rw [ho] at howed
  have hrun : exec (.deferredCompletion q) s = .next ((postOne q e f).run s) :=
    congrArg Host.Outcome.next (post_one ho hf hst hd hc howed (hclosing.trans hcl))
  refine ⟨_, hrun, fun i hi => ?_, fun x hx => ?_, hdone, howed, hposted, hgates⟩
  · rw [hbyte, if_pos (by omega), Nat.add_sub_cancel_left]
    rfl
  · rw [hbyte, if_neg (by omega)]

/-! ### Messages, and the ends of outbound reads -/

section
variable {s : State} {q : Nat}

theorem raiseMsix_open {f v : Nat} (hex : s.fnExists f = true) (ho : s.msixOpen f v = true) :
    (raiseMsix f v).run s = (emit (.msix f v)).run s := by
  have hdl : s.dlActive = true := by
    simp only [State.msixOpen, Bool.and_eq_true] at ho
    exact ho.2
  simp [raiseMsix, hex, hdl, ho]

theorem raiseMsix_shut {f v : Nat} (hex : s.fnExists f = true) (hdl : s.dlActive = true) (ho : s.msixOpen f v = false) :
    (raiseMsix f v).run s = (onPending fun p => sins p (64 * f + v)).run s := by
  simp [raiseMsix, hex, hdl, ho]

theorem raiseMsix_queues (f v : Nat) (s : State) : ((raiseMsix f v).run s).dev.work.queues = s.dev.work.queues :=
  Eff.Only.devKeeps (p := fun d => d.work.queues) (by simp [raiseMsix, onPending]) s

theorem exec_coalesceAge {t0 : Nat} (ho : (s.queue q).oldest = some t0) (h0 : s.fld (rQueCoal q) 8 16 ≠ 0)
    (h : t0 + s.fld (rQueCoal q) 8 16 * 1024 ≤ s.now) : exec (.coalesceAge q) s = .next ((queueMessage q).run s) := by
  have hrun : (effCoalesceAge q).run s = (queueMessage q).run s := by
    rw [effCoalesceAge, Eff.run_read, ho]
    exact congrArg (Eff.run · s) (if_pos ⟨h0, h⟩)
  exact congrArg Host.Outcome.next hrun

theorem queueMessage_queue (s : State) : ((queueMessage q).run s).queue q = { s.queue q with sinceMsg := 0, oldest := none } := by
  rw [queueMessage, Eff.run_read, Eff.run_andThen, State.queue_of_work (raiseMsix_queues _ _ _), onQueue_queue]

variable {u : ReadUser} {x : OutRead}

/-- The user's outbound read has ended so. -/
def endRead (u : ReadUser) (r : HostRead) : Eff := onReads fun l => l.map fun y => if y.user = u then { y with got := some r } else y

theorem exec_readCompletion {r : HostRead} (hx : s.outRead u = some x) (hg : x.got = none) (hr : r ≠ .poisoned) :
    exec (.readCompletion u r) s = .next ((endRead u r).run s) := by
  have hrun : (effReadCompletion u r).run s = (endRead u r).run s := by
    simp [effReadCompletion, hx, hg, hr, endRead]
  exact congrArg Host.Outcome.next hrun

theorem exec_completionTimeout (hx : s.outRead u = some x) (hg : x.got = none) (ht : s.mayTimeOut x.tick = true) :
    exec (.completionTimeout u) s = .next ((Eff.when (!s.quietRead u) (bumpFld rPciErr 32 16 1)).run ((endRead u .error).run s)) := by
  have hrun : (effCompletionTimeout u).run s = (Eff.when (!s.quietRead u) (bumpFld rPciErr 32 16 1)).run ((endRead u .error).run s) := by
    simp only [effCompletionTimeout, Eff.run_read, hx, hg, ht, Option.isSome_none, Bool.not_true, Bool.or_self, Bool.false_eq_true, if_false,
      Eff.run_andThen]
    rfl
  exact congrArg Host.Outcome.next hrun

theorem endRead_frame (r : Nat → Bool) (h : HostRead) (s : State) : Frame r s ((endRead u h).run s) :=
  Eff.Only.frame (onDev_only.mpr Act.local_dev) s
end

theorem queueMessage_open {s : State} {q : Nat} (hex : s.fnExists (s.qOwner q) = true) (ho : s.msixOpen (s.qOwner q) (s.qVector q) = true) :
    ((queueMessage q).run s).out = .msix (s.qOwner q) (s.qVector q) :: s.out := by
  rw [queueMessage, Eff.run_read, Eff.run_andThen, raiseMsix_open (by exact hex) (by exact ho), emit_run, Act.emit_out, (onQueue_silent q _).out]

theorem queueMessage_shut {s : State} {q : Nat} (hex : s.fnExists (s.qOwner q) = true) (hdl : s.dlActive = true)
    (ho : s.msixOpen (s.qOwner q) (s.qVector q) = false) :
    ((queueMessage q).run s).out = s.out ∧ 64 * s.qOwner q + s.qVector q ∈ ((queueMessage q).run s).dev.pci.pending := by
  rw [queueMessage, Eff.run_read, Eff.run_andThen, raiseMsix_shut (by exact hex) (by exact hdl) (by exact ho)]
  exact ⟨rfl, mem_sins.mpr (.inl rfl)⟩

theorem coalesceAge {s : State} {q t0 : Nat} (ho : (s.queue q).oldest = some t0) (h0 : s.fld (rQueCoal q) 8 16 ≠ 0)
    (h : t0 + s.fld (rQueCoal q) 8 16 * 1024 ≤ s.now) :
    Completes (.coalesceAge q) s fun t =>
      (t.queue q).sinceMsg = 0 ∧ (t.queue q).oldest = none ∧ Frame (fun _ => false) s t ∧
      (s.fnExists (s.qOwner q) = true → s.msixOpen (s.qOwner q) (s.qVector q) = true → t.out = .msix (s.qOwner q) (s.qVector q) :: s.out) ∧
      (s.fnExists (s.qOwner q) = true → s.dlActive = true → s.msixOpen (s.qOwner q) (s.qVector q) = false →
        t.out = s.out ∧ 64 * s.qOwner q + s.qVector q ∈ t.dev.pci.pending) := by
  have hqueue := queueMessage_queue (q := q) s
  exact ⟨_, exec_coalesceAge ho h0 h, by rw [hqueue], by rw [hqueue], (queueMessage_local _ q).frame s, queueMessage_open, queueMessage_shut⟩

/-- An outbound read that times out is an error to its user, and counts where its failure does. -/
theorem completionTimeout {s : State} {u : ReadUser} {x : OutRead} (hx : s.outRead u = some x) (hg : x.got = none) (ht : s.mayTimeOut x.tick = true) :
    Completes (.completionTimeout u) s fun t =>
      t.dev.pci.reads = s.dev.pci.reads.map (fun y => if y.user = u then { y with got := some .error } else y) ∧
      t.fld rPciErr 32 16 = (if s.quietRead u then s.fld rPciErr 32 16 else satAdd 16 (s.fld rPciErr 32 16) 1) ∧
      Frame (fun o => o == rPciErr) s t ∧ t.out = s.out := by
  have hrun := exec_completionTimeout hx hg ht
  cases hquiet : s.quietRead u with
  | true =>
    rw [hquiet, Bool.not_true, Eff.run_when, if_neg (by decide)] at hrun
    refine ⟨_, hrun, rfl, ?_, endRead_frame _ _ s, rfl⟩
    rw [if_pos rfl, (endRead_frame (fun _ => false) .error s).fld rfl]
  | false =>
    rw [hquiet, Bool.not_false, Eff.run_when, if_pos rfl] at hrun
    refine ⟨_, hrun, ?_, ?_, (endRead_frame _ .error s).trans (bumpFld_frame rfl _ _ _ _), bumpFld_out _ _ _ _ _⟩
    · rw [bumpFld_dev]
      rfl
    · rw [State.fld_bumpFld _ (by decide), (endRead_frame (fun _ => false) .error s).fld rfl, if_neg (by decide)]

theorem messagesAndReads : Stated.MessagesAndReads :=
  ⟨fun _ _ _ => coalesceAge, fun s _ r _ hx hg hr => ⟨_, exec_readCompletion hx hg hr, rfl, endRead_frame _ r s, rfl⟩,
    fun _ _ _ => completionTimeout⟩

/-- Settles O52, by what a posting leaves and what each message and read runs. -/
theorem completionsAndMessages : Obligations.CompletionsAndMessages := ⟨completionPosted, messagesAndReads⟩

end Sys2Proof.Machine
end

section
/-!
# Auto-zero of a sensor and re-centering of a pseudo-channel (R569 to R574)
-/
namespace Sys2Proof.Machine
open Sys2Proof

/-- The collector's updates leave every part of the engines' state but its own, the messages that pend and the resets due. -/
theorem collectorActs_keeps {α : Type} {p : Dev → α} (hf : ∀ d x, p { d with flt := x } = p d) (hp : ∀ d x, p { d with pci := { d.pci with pending := x } } = p d)
    (hd : ∀ d x, p { d with due := x } = p d) : CollectorActs (Act.Keeps p) where
  reg _ := trivial
  emit := trivial
  flt := onDev_only.mpr fun d => hf d _
  pending := onDev_only.mpr fun d => hp d _
  due := onDev_only.mpr fun d => hd d _

theorem onCal_frame (r : Nat → Bool) (g : Cal → Cal) (s : State) : Frame r s ((onCal g).run s) := Frame.of_dev _ r s

/-! ### Records (R572) -/

section
variable {n cause : Nat} {s : State}

theorem calFail_local (n cause : Nat) : (calFail n cause).Only (Act.Local fun o => o == rCalRec n 1) := by
  simp [calFail]

theorem calFail_run : (calFail n cause).run s = (bumpFld (rCalRec n 1) 8 24 1).run ((putFld (rCalRec n 1) 0 8 cause).run s) := by
  rw [calFail, Eff.run_andThen]

/-- A bad result: its cause, and one more failure. -/
theorem calFail_record : ((calFail n cause).run s).fld (rCalRec n 1) 0 8 = cause % 2 ^ 8 ∧
    ((calFail n cause).run s).fld (rCalRec n 1) 8 24 = satAdd 24 (s.fld (rCalRec n 1) 8 24) 1 := by
  rw [calFail_run]
  constructor
  · rw [bumpFld_run, State.fld_setReg, bitsOf_setFld_other _ _ _ _ _ _ (by decide) (by decide)]
    exact State.fld_putFld _ (by decide)
  · rw [State.fld_bumpFld _ (by decide), State.fld_putFld_apart _ (by decide) (by decide)]

theorem calAccept_run : (calAccept n).run s = (putReg (rCalRecTime n 1) s.rtc).run ((putReg (rCalRecTime n 0) s.now).run
    ((putFld (rCalRec n 1) 0 8 0).run ((bumpReg (rCalRec n 0) 32 1).run s))) := by
  rw [calAccept, Eff.run_read, Eff.run_all_cons, Eff.run_all_cons, Eff.run_all_cons, Eff.run_all_cons, Eff.run_all_done]

theorem calAccept_local (n : Nat) : (calAccept n).Only (Act.Local fun o => decide (rCalRec n 0 ≤ o ∧ o < rCalRec (n + 1) 0)) := by
  have hlo : ∀ j, j ≤ 1 → rCalRec n 0 ≤ rCalRec n j ∧ rCalRec n j < rCalRec (n + 1) 0 := fun j hj => by unfold rCalRec; omega
  have htime : ∀ j, j ≤ 1 → rCalRec n 0 ≤ rCalRecTime n j ∧ rCalRecTime n j < rCalRec (n + 1) 0 := fun j hj => by
    unfold rCalRec rCalRecTime; omega
  have h1 := hlo 0 (by decide)
  have h2 := hlo 1 (by decide)
  have h3 := htime 0 (by decide)
  have h4 := htime 1 (by decide)
  simp only [calAccept, Eff.only_read, Eff.only_all, List.mem_cons, List.not_mem_nil, or_false]
  rintro s e (rfl | rfl | rfl | rfl) <;> simp [h1, h2, h3, h4]

theorem calAccept_silent (n : Nat) : (calAccept n).Only Act.Silent := by
  simp [calAccept]

theorem calAccept_keeps {α : Type} (p : Dev → α) (n : Nat) : (calAccept n).Only (Act.Keeps p) := by
  simp [calAccept]

/-- An accepted result: one more, and no failure the last. -/
theorem calAccept_record : ((calAccept n).run s).reg (rCalRec n 0) = w64 (satAdd 32 (s.reg (rCalRec n 0)).toNat 1) ∧
    ((calAccept n).run s).fld (rCalRec n 1) 0 8 = 0 := by
  have h0 : ∀ j, rCalRec n 0 ≠ rCalRecTime n j := fun j => by unfold rCalRec rCalRecTime; omega
  have h1 : ∀ j, rCalRec n 1 ≠ rCalRecTime n j := fun j => by unfold rCalRec rCalRecTime; omega
  rw [calAccept_run]
  constructor
  · rw [putReg_run, State.reg_setReg_other (h0 1), putReg_run, State.reg_setReg_other (h0 0), putFld_run,
      State.reg_setReg_other (by unfold rCalRec; omega), bumpReg_run, State.reg_setReg]
  · rw [putReg_run, State.fld_setReg_other (h1 1), putReg_run, State.fld_setReg_other (h1 0), State.fld_putFld_lt (by decide) (by decide)]

end

/-- An event at a calibration source changes the collector's registers, and leaves the calibrations. -/
theorem calEvent (src u : Nat) (h : src = 0x09 ∨ src = 0x13) (s : State) :
    Frame fltBlock s ((countAt src u).run s) ∧ ((countAt src u).run s).dev.cal = s.dev.cal := by
  have hret : retires src = false := by rcases h with rfl | rfl <;> rfl
  exact ⟨countAt_frame (by omega) hret (by omega) u s,
    Eff.Only.devKeeps (p := fun d => d.cal)
      ((collectorActs_keeps (fun _ _ => rfl) (fun _ _ => rfl) fun _ _ => rfl).countAt (by omega) hret (by omega) u) s⟩

/-! ### Auto-zero (R570, R574) -/

section
variable {s : State} {k t0 : Nat}

/-- The auto-zero of a sensor is under way no more. -/
def zeroEnds (k : Nat) : Eff := onCal fun c => { c with azRun := mdel c.azRun k }

theorem exec_autoZero_agreed {a : Int} (hr : mget? s.dev.cal.azRun k = some t0) (ht : s.now ≤ t0 + 2 ^ 20) (hlo : -16 ≤ a) (hhi : a ≤ 16) :
    exec (.autoZero k (.codes a a)) s = .next ((zeroGood k a).run ((zeroEnds k).run s)) := by
  have hrun : (effAutoZero k (.codes a a)).run s = (zeroGood k a).run ((zeroEnds k).run s) := by
    rw [effAutoZero, Eff.run_read, hr]
    simp only [ht, decide_true, Eff.run_when, if_true, Eff.run_andThen]
    rw [zeroJudge]
    simp only [Int.sub_self, hlo, hhi, and_self, if_true]
    rfl
  exact congrArg Host.Outcome.next hrun

theorem exec_autoZero_late (hr : mget? s.dev.cal.azRun k = some t0) (ht : t0 + 2 ^ 20 ≤ s.now) :
    exec (.autoZero k .timeout) s = .next ((zeroBad k 1).run ((zeroEnds k).run s)) := by
  have hrun : (effAutoZero k .timeout).run s = (zeroBad k 1).run ((zeroEnds k).run s) := by
    rw [effAutoZero, Eff.run_read, hr]
    simp only [ht, decide_true, Eff.run_when, if_true, Eff.run_andThen]
    rfl
  exact congrArg Host.Outcome.next hrun

/-- The result waits for its boundary. -/
def zeroDue (k : Nat) (a : Int) : Eff := onCal fun c => { c with azDue := mput c.azDue k a, azBad := mdel c.azBad k }

theorem zeroGood_run (a : Int) : (zeroGood k a).run s = (putBit (rCalTs k) 56 false).run ((zeroDue k a).run s) := by
  rw [zeroGood, Eff.run_andThen, zeroDue]

/-- How often the sensor's auto-zeroes have been bad in a row. -/
def putBad (k n : Nat) : Eff := onCal fun c => { c with azBad := mput c.azBad k n }

theorem putBad_azBad (k n : Nat) (s : State) : ((putBad k n).run s).dev.cal.azBad = mput s.dev.cal.azBad k n := rfl

theorem zeroBad_run (cause : Nat) : (zeroBad k cause).run s = (countAt 0x09 k).run
    ((Eff.when (decide (3 ≤ mget 0 s.dev.cal.azBad k + 1)) (putBit (rCalTs k) 56 true)).run
      ((putBad k (mget 0 s.dev.cal.azBad k + 1)).run ((calFail (sensorRec k) cause).run s))) := by
  rw [zeroBad, Eff.run_read, Eff.run_all_cons, Eff.run_all_cons, Eff.run_all_cons, Eff.run_all_cons, Eff.run_all_done, putBad]

/-- A bad auto-zero: its record, its count, and the exclusion that the third in a row brings. -/
theorem zeroBad_leaves {t : State} (hk : k < 98) (hrun : t = (zeroBad k 1).run s) :
    t.fld (rCalRec (sensorRec k) 1) 0 8 = 1 ∧ t.fld (rCalRec (sensorRec k) 1) 8 24 = satAdd 24 (s.fld (rCalRec (sensorRec k) 1) 8 24) 1 ∧
      mget? t.dev.cal.azBad k = some (mget 0 s.dev.cal.azBad k + 1) ∧ (2 ≤ mget 0 s.dev.cal.azBad k → t.bit (rCalTs k) 56 = true) ∧
      SameHbm s t ∧ SameGates s t := by
  rw [zeroBad_run] at hrun
  have hrec : sensorRec k ≤ 1 := by unfold sensorRec; split <;> omega
  have hfail := calFail_record (n := sensorRec k) (cause := 1) (s := s)
  have hfailF := (calFail_local (sensorRec k) 1).frame s
  have hbad := onCal_frame (fun _ => false) (fun c => { c with azBad := mput c.azBad k (mget 0 s.dev.cal.azBad k + 1) })
    ((calFail (sensorRec k) 1).run s)
  have hexcl : ∀ (c : Bool) (u : State), Frame (fun o => o == rCalTs k) u ((Eff.when c (putBit (rCalTs k) 56 true)).run u) :=
    fun c u => Eff.Only.frame (by simp) u
  have hev := fun u => (calEvent 0x09 k (.inl rfl) u).1
  have hcal := fun u => (calEvent 0x09 k (.inl rfl) u).2
  have hts : fltBlock (rCalTs k) = false := by simp [fltBlock, rCalTs]; omega
  have hblock : fltBlock (rCalRec (sensorRec k) 1) = false := by simp [fltBlock, rCalRec]; omega
  have hapart : (rCalRec (sensorRec k) 1 == rCalTs k) = false := by simp [rCalRec, rCalTs]; omega
  have hfld : ∀ lo w, t.fld (rCalRec (sensorRec k) 1) lo w = ((calFail (sensorRec k) 1).run s).fld (rCalRec (sensorRec k) 1) lo w := fun lo w => by
    rw [hrun, (hev _).fld hblock, (hexcl _ _).fld hapart, putBad, hbad.fld rfl]
  refine ⟨(hfld 0 8).trans hfail.1, (hfld 8 24).trans hfail.2, ?_, fun h2 => ?_, ?_, ?_⟩
  · have hwhen : ∀ (c : Bool) (u : State), ((Eff.when c (putBit (rCalTs k) 56 true)).run u).dev.cal = u.dev.cal := fun c u =>
      Eff.Only.devKeeps (p := fun d => d.cal) (by simp) u
    rw [hrun, hcal, hwhen, putBad_azBad, mget?_mput]
  · rw [hrun, (hev _).bit hts, Eff.run_when, if_pos (by simpa using h2), State.bit_putBit _ (by decide)]
  · rw [hrun]
    exact (hfailF.1.trans hbad.1).trans ((hexcl _ _).1.trans (hev _).1)
  · rw [hrun]
    exact (hfailF.2.1.trans hbad.2.1).trans ((hexcl _ _).2.1.trans (hev _).2.1)
end

theorem autoZero : Stated.AutoZero := by
  refine ⟨fun s k t0 a hk hr ht hlo hhi => ⟨_, exec_autoZero_agreed hr ht hlo hhi, ?_⟩, fun s k t0 hk hr ht => ⟨_, exec_autoZero_late hr ht, ?_⟩⟩
  · rw [zeroGood_run]
    refine ⟨?_, State.bit_putBit _ (by decide), ?_⟩
    · rw [putBit_run, Act.setReg_dev]
      exact mget?_mput _ _ _
    · exact ((onCal_frame _ _ s).trans (onCal_frame _ _ _)).trans (setReg_frame _ (by simp))
  · obtain ⟨hst, hfails, hbad, hexcl, hmem, hgate⟩ := zeroBad_leaves (s := (zeroEnds k).run s) hk rfl
    have hends := onCal_frame (fun _ => false) (fun c => { c with azRun := mdel c.azRun k }) s
    exact ⟨hst, hfails, hbad, hexcl, hends.1.trans hmem, hends.2.1.trans hgate⟩

/-! ### Re-centering (R569, R570) -/

section
variable {s : State} {pc : Nat}

/-- A re-centering falls due. -/
def recenterDue (pc now : Nat) : Eff := onCal fun c => { c with recAt := mput c.recAt pc now, recentre := mput c.recentre pc (now, none) }

theorem exec_hbmRecenter (hpc : pc < 32) (htr : s.dev.img.trained = true) (hd : s.dryDock = false)
    (ht : mget 0 s.dev.cal.recAt pc + 2 ^ 34 ≤ s.now) (hr : mget? s.dev.cal.recentre pc = none) (ha : mget? s.dev.cal.accepted pc = none) :
    exec (.hbmRecenter pc) s = .next ((recenterDue pc s.now).run s) := by
  have hrun : (effHbmRecenter pc).run s = (recenterDue pc s.now).run s := by
    simp only [effHbmRecenter, Eff.run_read, htr, hd, hr, ha]
    rw [if_neg (by simp; omega)]
    rfl
  exact congrArg Host.Outcome.next hrun

/-- An accepted result comes into force. -/
def delaysInForce (pc : Nat) (d : List Int) : Eff := onCal fun c => { c with accepted := mdel c.accepted pc, delays := mput c.delays pc d }

theorem exec_refreshWindow {c : Bool} {ds d : List Int} (ha : mget? s.dev.cal.accepted pc = some d) :
    exec (.allBankRefreshWindow pc c ds) s = .next ((calAccept (80 + pc)).run ((delaysInForce pc d).run s)) := by
  have hrun : (effRefreshWindow pc c ds).run s = (calAccept (80 + pc)).run ((delaysInForce pc d).run s) := by
    simp only [effRefreshWindow, Eff.run_read, ha, Eff.run_andThen]
    rfl
  exact congrArg Host.Outcome.next hrun

theorem exec_recenterTimeout {t0 : Nat} {f : Option (List Int)} (hr : mget? s.dev.cal.recentre pc = some (t0, f)) (ht : t0 + 2 ^ 20 ≤ s.now) :
    exec (.hbmRecenterTimeout pc) s = .next ((recenterBad pc 1).run s) := by
  have hrun : (effHbmRecenterTimeout pc).run s = (recenterBad pc 1).run s := by
    rw [effHbmRecenterTimeout, Eff.run_read, hr]
    simp only [ht, decide_true, Eff.run_when, if_true]
  exact congrArg Host.Outcome.next hrun

theorem recenterBad_run (pc cause : Nat) (s : State) : (recenterBad pc cause).run s = (countAt 0x13 pc).run ((calFail (80 + pc) cause).run
    ((onCal fun c => { c with recentre := mdel c.recentre pc }).run s)) := by
  rw [recenterBad, Eff.run_all_cons, Eff.run_all_cons, Eff.run_all_cons, Eff.run_all_done]

/-- A re-centering that is discarded: its record's cause and failures. -/
theorem recenterBad_leaves (hpc : pc < 32) (s : State) :
    let t := (recenterBad pc 1).run s
    mget? t.dev.cal.recentre pc = none ∧ t.fld (rCalRec (80 + pc) 1) 0 8 = 1 ∧
      t.fld (rCalRec (80 + pc) 1) 8 24 = satAdd 24 (s.fld (rCalRec (80 + pc) 1) 8 24) 1 ∧ SameHbm s t ∧ SameGates s t := by
  intro t
  have hends := onCal_frame (fun _ => false) (fun c => { c with recentre := mdel c.recentre pc }) s
  have hfail := calFail_record (n := 80 + pc) (cause := 1) (s := (onCal fun c => { c with recentre := mdel c.recentre pc }).run s)
  have hfailF := (calFail_local (80 + pc) 1).frame ((onCal fun c => { c with recentre := mdel c.recentre pc }).run s)
  have hev := calEvent 0x13 pc (.inr rfl) ((calFail (80 + pc) 1).run ((onCal fun c => { c with recentre := mdel c.recentre pc }).run s))
  rw [← recenterBad_run] at hev
  have hblock : fltBlock (rCalRec (80 + pc) 1) = false := by simp [fltBlock, rCalRec]; omega
  refine ⟨?_, (hev.1.fld hblock _ _).trans hfail.1, (hev.1.fld hblock _ _).trans hfail.2, (hends.1.trans hfailF.1).trans hev.1.1,
    (hends.2.1.trans hfailF.2.1).trans hev.1.2.1⟩
  have hkeep : (calFail (80 + pc) 1).Only (Act.Keeps fun d => d.cal) := by simp [calFail]
  rw [show t.dev.cal = _ from hev.2, hkeep.devKeeps]
  exact mget?_mdel _ _
end

theorem hbmRecentering : Stated.HbmRecentering := by
  refine ⟨fun s pc hpc htr hd ht hr ha => ⟨_, exec_hbmRecenter hpc htr hd ht hr ha, mget?_mput _ _ _, mget?_mput _ _ _, onCal_frame _ _ s, rfl⟩,
    fun s pc c ds d hpc ha => ⟨_, exec_refreshWindow ha, ?_, calAccept_record.1, calAccept_record.2, (calAccept_silent _).out _, ?_⟩,
    fun s pc t0 f hpc hr ht => ⟨_, exec_recenterTimeout hr ht, recenterBad_leaves hpc s⟩⟩
  · rw [(calAccept_keeps (fun d => d.cal) _).devKeeps]
    exact mget?_mput _ _ _
  · have hlocal := (calAccept_local (80 + pc)).frame ((delaysInForce pc d).run s)
    rw [show 80 + pc + 1 = 81 + pc by omega] at hlocal
    exact (onCal_frame _ _ s).trans hlocal

/-- Settles O46, by what each calibration step runs and what its record takes. -/
theorem sensorAndChannelCalibration : Obligations.SensorAndChannelCalibration := ⟨autoZero, hbmRecentering⟩

end Sys2Proof.Machine
end

section
/-!
# Effects of the tolls and the meter on registers and engines alone
-/
namespace Sys2Proof.Machine
open Sys2Proof

/-- The registers above the first page, which holds GLB_ROLE. -/
def aboveGlb (off : Nat) : Bool := decide (0x1000 ≤ off)

/-- An update of registers above the first page, of the engines' state or of the outputs, that leaves the tolls started or not, and the board. -/
def Act.Toll (a : Act) : Prop := a.Local aboveGlb ∧ a.Keeps fun d => (d.tol.started, d.board)

/-- An effect of such updates alone: no byte of HBM, no gate, not the timebase. -/
abbrev Eff.Calm (e : Eff) : Prop := e.Only Act.Toll

theorem Eff.Calm.frame {e : Eff} (h : e.Calm) (s : State) : Frame aboveGlb s (e.run s) :=
  Eff.Only.frame (h.mono fun _ x => x.1) s

theorem Eff.Calm.keeps {e : Eff} (h : e.Calm) (s : State) :
    (e.run s).dev.tol.started = s.dev.tol.started ∧ (e.run s).dev.board = s.dev.board :=
  Prod.mk.inj (Eff.Only.devKeeps (p := fun d => (d.tol.started, d.board)) (h.mono fun _ x => x.2) s)

theorem Eff.Only.and {p q : Act → Prop} : ∀ {e : Eff}, e.Only p → e.Only q → e.Only fun a => p a ∧ q a
  | .skip, _, _ => trivial
  | .act _, hp, hq => ⟨hp, hq⟩
  | .andThen _ _, hp, hq => ⟨hp.1.and hq.1, hp.2.and hq.2⟩
  | .read _, hp, hq => fun s => (hp s).and (hq s)

/-! ### Updates of one engine -/

section
variable {off : Nat} {v : Word64}
@[simp] theorem Act.toll_setReg : Act.Toll (.setReg off v) ↔ 0x1000 ≤ off := by
  simp [Act.Toll, aboveGlb]
@[simp] theorem Act.toll_emit {o : Output} : Act.Toll (.emit o) := ⟨Act.local_emit, trivial⟩
@[simp] theorem Act.toll_free : Act.Toll .free := ⟨Act.local_free, trivial⟩
@[simp] theorem Act.toll_dev {f : Dev → Dev} : Act.Toll (.dev f) ↔ ∀ d, (f d).tol.started = d.tol.started ∧ (f d).board = d.board := by
  simp [Act.Toll]
@[simp] theorem onFlash_calm {g : Flash → Flash} : (onFlash g).Calm := onDev_only.mpr (Act.toll_dev.mpr fun _ => ⟨rfl, rfl⟩)
@[simp] theorem onKeep_calm {g : Keeper → Keeper} : (onKeep g).Calm := onDev_only.mpr (Act.toll_dev.mpr fun _ => ⟨rfl, rfl⟩)
@[simp] theorem onMtr_calm {g : Mtr → Mtr} : (onMtr g).Calm := onDev_only.mpr (Act.toll_dev.mpr fun _ => ⟨rfl, rfl⟩)
@[simp] theorem onTol_calm {g : Tol → Tol} : (onTol g).Calm ↔ ∀ d : Dev, (g d.tol).started = d.tol.started := by
  simp [onTol]
@[simp] theorem journal_calm {j : JReq} : (journal j).Calm := onDev_only.mpr (Act.toll_dev.mpr fun _ => ⟨rfl, rfl⟩)
@[simp] theorem issueOp_calm {o : FlashOp} {l : List FlashOp} : (issueOp o l).Calm := issueOp_only (fun _ => onFlash_calm) o l
@[simp] theorem beginRecord_calm {j : JReq} : (beginRecord j).Calm := beginRecord_only (fun _ => onFlash_calm) j
@[simp] theorem pumpJournal_calm : pumpJournal.Calm :=
  pumpJournal_only (fun _ => onFlash_calm) fun _ => onDev_only.mpr (Act.toll_dev.mpr fun _ => ⟨rfl, rfl⟩)
@[simp] theorem writeRecord_calm {j : JReq} : (writeRecord j).Calm := ⟨journal_calm, pumpJournal_calm⟩
end

section
variable {r : Nat → Bool}
@[simp] theorem onFlash_local {g : Flash → Flash} : (onFlash g).Only (Act.Local r) := Act.local_dev
@[simp] theorem onKeep_local {g : Keeper → Keeper} : (onKeep g).Only (Act.Local r) := Act.local_dev
@[simp] theorem onMtr_local {g : Mtr → Mtr} : (onMtr g).Only (Act.Local r) := Act.local_dev
@[simp] theorem onTol_local {g : Tol → Tol} : (onTol g).Only (Act.Local r) := Act.local_dev
end

/-- There is a state, so that what does not speak of it holds of it. -/
@[simp] theorem State.forall_const {p : Prop} : (∀ _ : State, p) ↔ p := ⟨fun h => h {}, fun h _ => h⟩

/-- The registers of an array lie above the first page where its first one does. -/
@[simp] theorem firstPage_le_add {a b : Nat} (h : 0x1000 ≤ a) : 0x1000 ≤ a + b := Nat.le_add_right_of_le h

/-! ### Events -/

theorem retireUnit_local (src u : Nat) : (retireUnit src u).Only (Act.Local aboveGlb) := by
  simp [rStpStatus, retireUnit, tileLeaves, onSums, journalUnits_only, onDue, aboveGlb]

theorem countAt_local {src : Nat} (h : src < 256) (u : Nat) : (countAt src u).Only (Act.Local aboveGlb) :=
  countWith_only (fun off h => by simp only [mem_fltBlock] at h; simp [aboveGlb]; omega) u 0 _ h
    (fun _ => ⟨retireUnit_local src u, tileBudget_local.wider fun off h => by
      simp only [mem_fltBlock] at h; simp [aboveGlb]; omega⟩) fun _ => rfl

theorem Act.Keeps.comp {α β : Type} {p : Dev → α} (f : α → β) {a : Act} (h : a.Keeps p) : a.Keeps fun d => f (p d) := by
  cases a with
  | dev g => exact fun d => congrArg f (h d)
  | _ => trivial

theorem collectorActs_keepsTolls : CollectorActs (Act.Keeps fun d => (d.tol, d.board)) :=
  collectorActs_keeps (fun _ _ => rfl) (fun _ _ => rfl) fun _ _ => rfl

/-- An event leaves the tolls' own state, and the board. -/
theorem countWith_keepsTolls {src : Nat} (hs : src < 256) (u flags : Nat) {after : Eff} (ha : after.Only (Act.Keeps fun d => (d.tol, d.board))) :
    (countWith src u flags after).Only (Act.Keeps fun d => (d.tol, d.board)) := by
  have hr := collectorActs_keepsTolls.reactions hs
  have hc := fun flags (s : State) => collectorActs_keepsTolls.capture hs (c := ⟨s.now, src, flags, u, s.fld (rFltSrc src) 0 8, s.fld (rFltSrc src) 16 6⟩) rfl
  simp [countWith, trip, onFlt, setBit8, hr, hc, retireUnit, tileLeaves, onSums, journalUnits, journal, onDue, ha]

@[simp] theorem countAt_calm {src : Nat} (h : src < 256) (u : Nat) : (countAt src u).Calm := by
  have hbudget : (tileBudget src).Only (Act.Keeps fun d => (d.tol, d.board)) :=
    Eff.only_read.mpr fun _ => Eff.only_when.mpr fun _ => countWith_keepsTolls (after := .skip) (by decide) 0 0 trivial
  exact (countAt_local h u).and ((countWith_keepsTolls h u 0 hbudget).mono fun _ k => k.comp fun x => (x.1.started, x.2))

/-! ### Tolls (chapter 14) -/

@[simp] theorem addToll_calm {off n : Nat} : (addToll off n).Calm ↔ 0x1000 ≤ off := by simp [addToll]
@[simp] theorem putSigned_calm {off w : Nat} {z : Int} : (putSigned off w z).Calm ↔ 0x1000 ≤ off := by simp [putSigned]
@[simp] theorem putSFld_calm {off lo w : Nat} {z : Int} : (putSFld off lo w z).Calm ↔ 0x1000 ≤ off := by simp [putSFld]
@[simp] theorem finishGap_calm (slot fin : Nat) (d : Bool) : (finishGap slot fin d).Calm := by simp [finishGap]
@[simp] theorem endGap_calm (slot : Nat) : (endGap slot).Calm := by simp [endGap]
@[simp] theorem handOff_calm (rtc : Nat) (us : List Nat) (f : Nat) : (handOff rtc us f).Calm := by simp [handOff, rTolPending]
@[simp] theorem divide_calm (as : List Nat) : (divide as).Calm := by simp [divide, rTolPending]
@[simp] theorem closeInterval_calm : closeInterval.Calm := by simp [closeInterval]
@[simp] theorem takeDemand_calm (m k d secs : Nat) : (takeDemand m k d secs).Calm := by simp [takeDemand]
@[simp] theorem demandBoundary_calm (secs : Nat) : (demandBoundary secs).Calm := by simp [demandBoundary]
@[simp] theorem takeSnapshot_calm (kind : Nat) {k : List Byte → Eff} (h : ∀ b, (k b).Calm) : (takeSnapshot kind k).Calm := by
  simp [takeSnapshot, h]
@[simp] theorem writeTolls_calm (reason : Nat) (b : List Byte) : (writeTolls reason b).Calm := by simp [writeTolls]
@[simp] theorem snapFor_calm (who : Nat) : (snapFor who).Calm := by simp [snapFor]
@[simp] theorem archive_calm (slot : Nat) (b : List Byte) : (archive slot b).Calm := by simp [archive]
@[simp] theorem billTail_calm : billTail.Calm := ⟨onKeep_calm, takeSnapshot_calm 1 fun b => by simp⟩
@[simp] theorem billNow_calm (secs : Nat) : (billNow secs).Calm := by simp [billNow]
@[simp] theorem fixBand_calm (secs : Nat) : (fixBand secs).Calm := by simp [fixBand, rTolStatus]
@[simp] theorem activateCalendar_calm (secs : Nat) : (activateCalendar secs).Calm := by simp [activateCalendar]
@[simp] theorem minuteWork_calm (secs : Nat) : (minuteWork secs).Calm := by simp [minuteWork]
@[simp] theorem applyTolOp_calm (o : TolOp) : (applyTolOp o).Calm := by cases o <;> simp [applyTolOp]
@[simp] theorem tolOp_calm (o : TolOp) : (tolOp o).Calm := by simp [tolOp]
@[simp] theorem applyHeld_calm : applyHeld.Calm := by simp [applyHeld, rStpStatus]

/-! ### The meter's windows (chapter 13) -/

@[simp] theorem endDownGap_calm : endDownGap.Calm := by
  simp only [endDownGap, Eff.only_read]
  intro s
  split <;> simp
@[simp] theorem showEff_calm (c : Nat) : (showEff c).Calm := by simp [showEff]
@[simp] theorem logNow_calm (kind which value : Nat) : (logNow kind which value).Calm := by simp [logNow, logEvent, rMtrEvtHead]
@[simp] theorem showT_calm (k : Nat) (raw : Int) : (showT k raw).Calm := by simp [showT]
@[simp] theorem withStandIn_calm (sensor : Nat) {k : Int → Eff} (h : ∀ z, (k z).Calm) : (withStandIn sensor k).Calm := by
  simp [withStandIn, h]
@[simp] theorem showPower_calm {off : Nat → Nat} (h : ∀ k, 0x1000 ≤ off k) (p q t : Iv) : (showPower off p q t).Calm := by simp [showPower, h]
@[simp] theorem showHarmonics_calm (c : Nat) (rho : Rat) (xs : List Rat) : (showHarmonics c rho xs).Calm := by simp [showHarmonics, rMtrStatus]
@[simp] theorem zeroChannel_calm (c : Nat) : (zeroChannel c).Calm := by simp [zeroChannel]
@[simp] theorem judgeChannel_calm (w c : Nat) : (judgeChannel w c).Calm := by simp [judgeChannel]
@[simp] theorem retireChannels_calm : retireChannels.Calm := by simp [retireChannels]
@[simp] theorem temperatureTerms_calm (raw : Option Nat) : (temperatureTerms raw).Calm := by cases raw <;> simp [temperatureTerms, rMtrTemp]
@[simp] theorem zeroInForce_calm (k n : Nat) : (zeroInForce k n).Calm := by
  simp only [zeroInForce, Eff.only_read]
  intro s
  split <;> simp [calAccept]
@[simp] theorem cfWindow_calm (w : Nat) (a : Iv) : (cfWindow w a).Calm := by simp [cfWindow, rMtrCfFrac, rMtrCfQueue]
@[simp] theorem crossCheck_calm (n : Nat) (us : List Nat) : (crossCheck n us).Calm := by
  simp only [crossCheck, Eff.only_read]
  intro s
  split <;> simp
@[simp] theorem measureWindow_calm : measureWindow.Calm := by
  simp only [measureWindow, Eff.only_read]
  intro s
  split
  · trivial
  · simp only [Eff.only_ite, onMtr_calm, implies_true, true_and]
    split <;> simp [rMtrCalResult]
@[simp] theorem applyWindow_calm : applyWindow.Calm := by
  simp only [applyWindow, Eff.only_read]
  intro s
  split <;> simp [rMtrCalResult]

/-- The end of a window changes registers and engines alone. -/
@[simp] theorem endWindow_calm (w : Nat) (last : Option Rat) (raw : Option Nat) (gap : Bool) : (endWindow w last raw gap).Calm := by
  simp [endWindow, rMtrStatus, rMtrWin, rMtrWinTick, rMtrFreq]
  refine fun s => ⟨fun a _ => showPower_calm (fun k => by simp) _ _ _, ?_⟩
  split <;> simp

@[simp] theorem effWindowEnd_calm (raw : Nat) : (effWindowEnd raw).Calm := by
  simp only [effWindowEnd, Eff.only_read]
  intro s
  split
  · trivial
  · split <;> simp
@[simp] theorem measureDue_calm : measureDue.Calm := by simp [measureDue]

/-! ### The fall of PFAIL_N (R503) -/

@[simp] theorem cutShort_calm (o : FlashOp) : (cutShort o).Calm := by cases o <;> simp [cutShort]
@[simp] theorem abandonFlash_calm : abandonFlash.Calm := by
  simp only [abandonFlash, Eff.only_read]
  intro s
  split <;> simp

/-- A toll master that has started stops cleanly: what that leaves before CLEAN_STOP is set. -/
def stopCleanly (s : State) : Eff := Eff.all
  [ Eff.when s.testing applyHeld, closeInterval, abandonFlash,
    .read fun t => match newestTolls t.dev.flash.records with
      | some r => beginRecord (t.delta r)
      | none => .skip ]

theorem stopCleanly_calm (s : State) : (stopCleanly s).Calm := by
  simp only [stopCleanly, Eff.only_all, List.mem_cons, List.not_mem_nil, or_false]
  rintro e (rfl | rfl | rfl | rfl)
  · simp
  · simp
  · simp
  · rw [Eff.only_read]
    intro t
    split <;> simp

theorem pfailTolls_run {s : State} (ht : s.isToll = true) (hs : s.dev.tol.started = true) :
    pfailTolls.run s = (onKeep fun k => { k with cleanStop := true }).run ((stopCleanly s).run s) := by
  simp only [pfailTolls, Eff.run_read, ht, hs, Bool.and_self, if_true, stopCleanly, Eff.run_all_cons, Eff.run_all_done] <;> rfl

theorem pfailTolls_other {s : State} (ht : s.isToll = false) : pfailTolls.run s = (onKeep fun k => { k with cleanStop := false }).run s := by
  simp only [pfailTolls, Eff.run_read, ht, Bool.false_and, Bool.false_eq_true, if_false]

section
variable {s : State}

/-- The fall of PFAIL_N is seen and counted. -/
def seePfail : Eff := .andThen (onBoard fun b => { b with pfailHigh := false }) (bumpFld rBrdPwr 16 16 1)

theorem exec_pfailFall (hp : s.dev.board.pfailHigh = true) (hr : s.dev.board.poreset = false) : exec .pfailFall s =
    .next (pfailTolls.run ((Eff.when (seePfail.run s).isToll measureDue).run (seePfail.run s))) := by
  have hrun : effPfailFall.run s = pfailTolls.run ((Eff.when (seePfail.run s).isToll measureDue).run (seePfail.run s)) := by
    rw [effPfailFall, Eff.run_read, Eff.run_when, if_pos hp, Eff.run_andThen, Eff.run_when, if_pos (by simp [hr]), Eff.run_andThen, Eff.run_andThen,
      Eff.run_read, ← Eff.run_andThen (onBoard _), seePfail]
  exact congrArg Host.Outcome.next hrun

theorem seePfail_frame (s : State) : Frame (fun o => o == rBrdPwr) s (seePfail.run s) :=
  (Frame.of_dev _ _ s).trans (bumpFld_frame (by simp) _ _ _ _)

theorem seePfail_isToll (s : State) : (seePfail.run s).isToll = s.isToll := (seePfail_frame s).bit (by decide) _

theorem seePfail_board (s : State) : (seePfail.run s).dev = { s.dev with board := { s.dev.board with pfailHigh := false } } := by
  rw [seePfail, Eff.run_andThen, bumpFld_dev]
  rfl

theorem seePfail_count (s : State) : (seePfail.run s).fld rBrdPwr 16 16 = satAdd 16 (s.fld rBrdPwr 16 16) 1 := by
  rw [seePfail, Eff.run_andThen, State.fld_bumpFld _ (by decide)]
  rfl

theorem seePfail_out (s : State) : (seePfail.run s).out = s.out := by
  rw [seePfail, Eff.run_andThen, bumpFld_out]
  rfl
end

end Sys2Proof.Machine
end

section
/-!
# PCI_OUT_HI, the power-fail warning and pending messages (R503, R605, R628, R667)
-/
namespace Sys2Proof.Machine
open Sys2Proof

/-! ### PCI_OUT_HI (R605) -/

/-- No outbound user is active. -/
def State.outIdle (s : State) : Bool :=
  !s.dev.pci.vfEnable && (s.liveQueues fun q => s.qOwner q == 0 && s.qState q == 1).isEmpty && (List.range 8).all fun d => s.drvState d == 0

theorem State.outIdle_iff {s : State} : s.outIdle = true ↔ s.dev.pci.vfEnable = false ∧
    (∀ q < 256, s.qPresent q = true → s.qOwner q = 0 → s.qState q ≠ 1) ∧ ∀ d < 8, s.drvState d = 0 := by
  have hlive : (s.liveQueues fun q => s.qOwner q == 0 && s.qState q == 1) = [] ↔ ∀ q < 256, s.qPresent q = true → s.qOwner q = 0 → s.qState q ≠ 1 := by
    simp only [State.liveQueues, List.filter_eq_nil_iff, List.mem_range, Bool.and_eq_true, beq_iff_eq, bne_iff_ne, not_and]
    exact ⟨fun h q hq hp ho h1 => h q hq ⟨hp, by omega⟩ ho h1, fun h q hq hp => h q hq hp.1⟩
  simp only [State.outIdle, Bool.and_eq_true, Bool.not_eq_true', List.isEmpty_iff, hlive, List.all_eq_true, List.mem_range, beq_iff_eq, and_assoc]

theorem outHiWrite_run (v : Nat) (s : State) :
    (outHiWrite v).run s = if s.outIdle then (putReg rPciOutHi (v &&& 0xFFFF800000000000)).run s else s := by
  rw [outHiWrite, Eff.run_read, Eff.run_when]
  rfl

theorem State.outIdle_written (s : State) (rd : Nat) (l : Loc) : (s.written rd l).outIdle = s.outIdle := by
  have hpci : (s.written rd l).dev.pci = s.dev.pci := by
    obtain ⟨r, hr⟩ := s.written_eq rd l
    rw [hr]
  have hq : ∀ q, (s.written rd l).qPresent q = s.qPresent q ∧ (s.written rd l).qOwner q = s.qOwner q ∧ (s.written rd l).qState q = s.qState q :=
    fun q => by simp [State.qPresent, State.qOwner, State.qState]
  have hd : ∀ d, (s.written rd l).drvState d = s.drvState d := fun d => by simp [State.drvState]
  simp only [State.outIdle, State.liveQueues, hpci, hq, hd]

theorem pciOutHiWrite : Stated.PciOutHiWrite := by
  intro s rd v l h
  have hc : exec (.pciOutHiWrite rd v) s = (writeReg rd rPciOutHi (outHiWrite v)).done s := rfl
  rw [Eff.done_eq, writeReg_run h, outHiWrite_run, State.outIdle_written] at hc
  refine ⟨_, hc, ?_⟩
  by_cases hi : s.outIdle = true
  · rw [if_pos hi, if_pos (State.outIdle_iff.mp hi)]
    exact ⟨(s.written_frame rd l _).trans (setReg_frame _ (by simp)), by rw [putReg_run, Act.setReg_out, State.written_out], State.reg_setReg _ _ _⟩
  · rw [if_neg hi, if_neg fun hx => hi (State.outIdle_iff.mpr hx)]
    exact ⟨s.written_frame rd l _, s.written_out rd l, s.written_reg rd l _⟩

/-! ### PFAIL_N (R503, R628) -/

theorem pfailFall_other {s : State} (hp : s.dev.board.pfailHigh = true) (hr : s.dev.board.poreset = false) (ht : s.isToll = false) :
    Completes .pfailFall s fun t => t.dev.board.pfailHigh = false ∧ t.fld rBrdPwr 16 16 = satAdd 16 (s.fld rBrdPwr 16 16) 1 ∧
      Frame (fun o => o == rBrdPwr) s t ∧ t.out = s.out := by
  have hrun := exec_pfailFall hp hr
  rw [seePfail_isToll, ht, Eff.run_when, if_neg (by decide), pfailTolls_other ((seePfail_isToll s).trans ht)] at hrun
  refine ⟨_, hrun, congrArg (fun d => d.board.pfailHigh) (seePfail_board s), ?_, (seePfail_frame s).trans (Frame.of_dev _ _ _), seePfail_out s⟩
  exact seePfail_count s

theorem onKeep_board (g : Keeper → Keeper) (s : State) : ((onKeep g).run s).dev.board = s.dev.board := rfl

theorem onKeep_keep (g : Keeper → Keeper) (s : State) : ((onKeep g).run s).dev.keep = g s.dev.keep := rfl

theorem onKeep_frame (r : Nat → Bool) (g : Keeper → Keeper) (s : State) : Frame r s ((onKeep g).run s) := Frame.of_dev _ r s

theorem pfailFall_toll {s : State} (hp : s.dev.board.pfailHigh = true) (hr : s.dev.board.poreset = false) (ht : s.isToll = true)
    (hs : s.dev.tol.started = true) :
    Completes .pfailFall s fun t => t.dev.board.pfailHigh = false ∧ t.dev.keep.cleanStop = true ∧ SameHbm s t ∧ SameGates s t := by
  have hrun := exec_pfailFall hp hr
  have hcalm := measureDue_calm
  have htoll : (measureDue.run (seePfail.run s)).isToll = true :=
    ((hcalm.frame _).bit (by decide) _).trans ((seePfail_isToll s).trans ht)
  have hstarted : (measureDue.run (seePfail.run s)).dev.tol.started = true :=
    (hcalm.keeps _).1.trans ((congrArg (fun d => d.tol.started) (seePfail_board s)).trans hs)
  rw [seePfail_isToll, ht, Eff.run_when, if_pos rfl, pfailTolls_run htoll hstarted] at hrun
  have hstop := stopCleanly_calm (measureDue.run (seePfail.run s))
  have hframe := (((seePfail_frame s).mono (q := fun _ => true) fun _ _ => rfl).trans ((hcalm.frame _).mono fun _ _ => rfl)).trans
    ((hstop.frame (measureDue.run (seePfail.run s))).mono fun _ _ => rfl)
  have hall := hframe.trans (onKeep_frame _ (fun k => { k with cleanStop := true }) _)
  refine ⟨_, hrun, ?_, by rw [onKeep_keep], hall.1, hall.2.1⟩
  have hboard := (hstop.keeps (measureDue.run (seePfail.run s))).2.trans ((hcalm.keeps _).2.trans (congrArg (fun d => d.board) (seePfail_board s)))
  rw [onKeep_board, hboard]

/-! ### The rise of PFAIL_N, and pending messages -/

/-- PFAIL_N is high, and no clean stop stands. -/
def pfailRises : Eff := .andThen (onBoard fun b => { b with pfailHigh := true }) (onKeep fun k => { k with cleanStop := false })

theorem exec_pfailRise {s : State} (hp : s.dev.board.pfailHigh = false) (hg : s.dev.board.good = 15) :
    exec .pfailRise s = .next (pfailRises.run s) := by
  have hrun : effPfailRise.run s = pfailRises.run s := by
    simp [effPfailRise, hp, hg, pfailRises]
  exact congrArg Host.Outcome.next hrun

/-- A pending message is sent. -/
def sendPending (f v : Nat) : Eff := .andThen (onPending fun p => sdel p (64 * f + v)) (emit (.msix f v))

theorem exec_msixPendingSend {s : State} {f v : Nat} (hv : v < 64) (hf : s.fnExists f = true) (hp : s.dev.pci.pending.contains (64 * f + v) = true)
    (ho : s.msixOpen f v = true) : exec (.msixPendingSend f v) s = .next ((sendPending f v).run s) := by
  have hrun : (effMsixPendingSend f v).run s = (sendPending f v).run s := by
    rw [effMsixPendingSend, Eff.run_read, Eff.run_when, if_pos (by simp [hv, hf, ho]; simpa using hp), sendPending]
  exact congrArg Host.Outcome.next hrun

theorem sendPending_frame (f v : Nat) (s : State) : Frame (fun _ => false) s ((sendPending f v).run s) :=
  Eff.Only.frame (e := sendPending f v) ⟨onDev_only.mpr Act.local_dev, Act.local_emit⟩ s

theorem pfailRises_frame (s : State) : Frame (fun _ => false) s (pfailRises.run s) :=
  Eff.Only.frame (e := pfailRises) ⟨onDev_only.mpr Act.local_dev, onDev_only.mpr Act.local_dev⟩ s

theorem powerFailAndMessages : Stated.PowerFailAndMessages :=
  ⟨fun _ => pfailFall_other, fun _ => pfailFall_toll, fun s hp hg => ⟨_, exec_pfailRise hp hg, rfl, rfl, pfailRises_frame s, rfl⟩,
    fun s f v hv hf hp ho => ⟨_, exec_msixPendingSend hv hf hp ho, rfl, by simp [sendPending, onPending], sendPending_frame f v s⟩⟩

/-- Settles O60, by the idle users of PCI_OUT_HI, and by what a clean stop leaves of memory, gates and the board. -/
theorem endpointAndPowerFail : Obligations.EndpointAndPowerFail := ⟨pciOutHiWrite, powerFailAndMessages⟩

end Sys2Proof.Machine
end

section
/-!
# Snapshots, their seals, and the close by command (R498, R499, R509, R510)
-/
namespace Sys2Proof.Machine
open Sys2Proof

/-- A write's bookkeeping changes the readers alone of the engines' state. -/
theorem State.written_keeps {α : Type} {p : Dev → α} (h : ∀ d r, p { d with readers := r } = p d) (s : State) (rd : Nat) (l : Loc) :
    p (s.written rd l).dev = p s.dev := by
  obtain ⟨r, hr⟩ := s.written_eq rd l
  rw [hr]
  exact h s.dev r

theorem State.written_keep (s : State) (rd : Nat) (l : Loc) : (s.written rd l).dev.keep = s.dev.keep :=
  State.written_keeps (p := fun d => d.keep) (fun _ _ => rfl) s rd l

theorem State.written_isToll (s : State) (rd : Nat) (l : Loc) : (s.written rd l).isToll = s.isToll := s.written_bit rd l _ _

theorem State.written_testing (s : State) (rd : Nat) (l : Loc) : (s.written rd l).testing = s.testing :=
  congrArg Keeper.test (s.written_keep rd l)

section
variable {s : State} {rd v : Nat} {l : Loc}

/-! ### SNAPSHOT and its seal (R509, R510) -/

/-- The buffer of a reader. -/
def bufferOf (rd : Nat) : Nat := if rd = i2cReader then 1 else 0

theorem exec_snapshot (h : Writes s rd rTolCmd l) (ht : s.isToll = true) (hv : v % 4 = 1) :
    exec (.snapshot rd v) s = .next ((tolOp (.snap (bufferOf rd))).run (s.written rd l)) := by
  have hc : exec (.snapshot rd v) s = (Eff.when (v % 4 == 1) (writeReg rd rTolCmd (effSnapshot rd))).done s := rfl
  rw [Eff.done_eq, Eff.run_when, if_pos (by simp [hv]), writeReg_run h, effSnapshot, Eff.run_read, Eff.run_when, State.written_isToll,
    if_pos ht] at hc
  exact hc

/-- Toll updates are made at once but during a battery test, which holds them. -/
theorem tolOp_made (o : TolOp) (h : s.testing = false) : (tolOp o).run s = (applyTolOp o).run s := by
  rw [tolOp, Eff.run_read, h, if_neg (by decide)]

theorem tolOp_held (o : TolOp) (h : s.testing = true) : (tolOp o).run s = (onKeep fun k => { k with held := k.held ++ [o] }).run s := by
  rw [tolOp, Eff.run_read, h, if_pos rfl]

/-- SNAP_SEQ has risen. -/
def State.numbered (s : State) : State := { s with dev := { s.dev with keep := { s.dev.keep with snapSeq := s.dev.keep.snapSeq + 1 } } }

theorem State.numbered_keep (s : State) : s.numbered.dev.keep = { s.dev.keep with snapSeq := s.dev.keep.snapSeq + 1 } := rfl

/-- A snapshot tells of registers, the keeper and the timebase. -/
theorem State.snapshot_congr {s t : State} (hr : s.regs = t.regs) (hk : s.dev.keep = t.dev.keep) (hn : s.now = t.now) (kind seq : Nat) :
    s.snapshot kind seq = t.snapshot kind seq := by
  have hof : ∀ u : State, u.snapshot kind seq = ({ now := u.now, regs := u.regs, dev := { keep := u.dev.keep } } : State).snapshot kind seq :=
    fun _ => rfl
  rw [hof s, hof t, hr, hk, hn]

/-- A reader's buffer takes a snapshot, BUSY. -/
def bufferTakes (who now : Nat) (b : List Byte) : Eff := onTol fun t =>
  { t with bufs := mput t.bufs who (b ++ zeros 64), status := mput t.status who 1, sealing := mput t.sealing who now }

theorem snapFor_run (who : Nat) (s : State) :
    (snapFor who).run s = (bufferTakes who s.now (s.numbered.snapshot 0 (s.dev.keep.snapSeq + 1))).run s.numbered := by
  rw [snapFor, takeSnapshot, Eff.run_read, Eff.run_andThen, Eff.run_read, Eff.run_read]
  rfl

theorem bufferTakes_frame (who now : Nat) (b : List Byte) (s : State) : Frame (fun _ => false) s ((bufferTakes who now b).run s) :=
  Frame.of_dev _ _ s

theorem State.numbered_frame (s : State) : Frame (fun _ => false) s s.numbered := Frame.of_dev
  (fun d => { d with keep := { d.keep with snapSeq := d.keep.snapSeq + 1 } }) _ s

theorem snapshot_taken (h : Writes s rd rTolCmd l) (ht : s.isToll = true) (hv : v % 4 = 1) (hn : s.testing = false) :
    Completes (.snapshot rd v) s fun t => t.dev.keep.snapSeq = s.dev.keep.snapSeq + 1 ∧ mget? t.dev.tol.status (bufferOf rd) = some 1 ∧
      mget? t.dev.tol.sealing (bufferOf rd) = some s.now ∧
      mget? t.dev.tol.bufs (bufferOf rd) = some (s.numbered.snapshot 0 (s.dev.keep.snapSeq + 1) ++ zeros 64) ∧
      Frame (fun _ => false) s t ∧ t.out = s.out := by
  have hrun := exec_snapshot h ht hv
  rw [tolOp_made _ ((s.written_testing rd l).trans hn), applyTolOp, snapFor_run, State.written_now] at hrun
  have hkeep := s.written_keep rd l
  have hsnap : (s.written rd l).numbered.snapshot 0 ((s.written rd l).dev.keep.snapSeq + 1) = s.numbered.snapshot 0 (s.dev.keep.snapSeq + 1) := by
    rw [hkeep]
    exact State.snapshot_congr (s := (s.written rd l).numbered) (t := s.numbered) (s.written_regs rd l) (by rw [State.numbered_keep, State.numbered_keep, hkeep]) (s.written_now rd l) 0 _
  rw [hsnap] at hrun
  exact ⟨_, hrun, congrArg (fun k : Keeper => k.snapSeq + 1) hkeep, mget?_mput _ _ _, mget?_mput _ _ _, mget?_mput _ _ _,
    ((s.written_frame rd l _).trans (State.numbered_frame _)).trans (bufferTakes_frame _ _ _ _), s.written_out rd l⟩

theorem snapshot_held (h : Writes s rd rTolCmd l) (ht : s.isToll = true) (hv : v % 4 = 1) (hn : s.testing = true) :
    Completes (.snapshot rd v) s fun t => t.dev.keep.held = s.dev.keep.held ++ [.snap (bufferOf rd)] ∧ Frame (fun _ => false) s t ∧ t.out = s.out := by
  have hrun := exec_snapshot h ht hv
  rw [tolOp_held _ ((s.written_testing rd l).trans hn)] at hrun
  exact ⟨_, hrun, congrArg (fun k : Keeper => k.held ++ [.snap (bufferOf rd)]) (s.written_keep rd l),
    (s.written_frame rd l _).trans (onKeep_frame _ _ _), s.written_out rd l⟩

/-- A reader's buffer is sealed. -/
def bufferSealed (who : Nat) (b : List Byte) : Eff := onTol fun t =>
  { t with bufs := mput t.bufs who (b ++ sealOf b), status := mput t.status who 2, sealing := mdel t.sealing who }

theorem exec_snapshotSealed {who t0 : Nat} (h : mget? s.dev.tol.sealing who = some t0) :
    exec (.snapshotSealed who) s = .next ((bufferSealed who ((mget [] s.dev.tol.bufs who).take 2584)).run s) := by
  have hrun : (effSnapshotSealed who).run s = (bufferSealed who ((mget [] s.dev.tol.bufs who).take 2584)).run s := by
    rw [effSnapshotSealed, Eff.run_read, h]
    rfl
  exact congrArg Host.Outcome.next hrun

theorem bufferSealed_frame (who : Nat) (b : List Byte) (s : State) : Frame (fun _ => false) s ((bufferSealed who b).run s) := Frame.of_dev _ _ s

/-! ### CLOSE (R498, R499) -/

theorem exec_billingClose (h : Writes s rd rTolCmd l) (ht : s.isToll = true) (hv : v % 4 = 2) (hk : v / 65536 = 0x5EA1) :
    exec (.billingClose rd v) s = .next ((Eff.andThen measureDue (tolOp (.bill s.seconds))).run (s.written rd l)) := by
  have hc : exec (.billingClose rd v) s = (Eff.when (v % 4 == 2) (writeReg rd rTolCmd (effClose v))).done s := rfl
  have hsec : (s.written rd l).seconds = s.seconds := by simp [State.seconds, State.rtc]
  rw [Eff.done_eq, Eff.run_when, if_pos (by simp [hv]), writeReg_run h, effClose, Eff.run_read, Eff.run_when, State.written_isToll, hsec,
    if_pos (by simp [ht, hk])] at hc
  exact hc

theorem measureDue_none (h : s.metering = false ∨ s.windowEnd = none) : measureDue.run s = s := by
  rw [measureDue, Eff.run_read, Eff.run_when, if_neg (by rcases h with h | h <;> simp [h])]

/-- What a close archives and records, CLOSE_SEQ having risen. -/
def closeRecords : Eff := takeSnapshot 1 fun b =>
  let z := b ++ sealOf b
  .read fun s => Eff.all
    [ archive (s.dev.keep.closeSeq % 12) z,
      Eff.each (List.range 36) (fun i => putReg (rTolMd (i / 18) (i % 18)) 0),
      onKeep fun k => { k with periodStart := s.rtc, flags := 0 }, writeTolls 2 z ]

theorem billTail_run (s : State) : billTail.run s = closeRecords.run ((onKeep fun k => { k with closeSeq := k.closeSeq + 1 }).run s) := by
  rw [billTail, Eff.run_andThen, closeRecords]

theorem closeRecords_keeps : closeRecords.Only (Act.Keeps fun d => d.keep.closeSeq) := by
  have hpump : pumpJournal.Only (Act.Keeps fun d => d.keep.closeSeq) := pumpJournal_only (fun _ => by simp [onFlash]) fun _ => by simp
  simp [closeRecords, takeSnapshot, archive, writeTolls, writeRecord, journal, onKeep, hpump]

theorem closeInterval_keeps : closeInterval.Only (Act.Keeps fun d => d.keep.closeSeq) := by
  simp [closeInterval, onKeep, onTol, divide, addToll]

theorem billNow_run (secs : Nat) (s : State) : (billNow secs).run s =
    (onKeep fun k => { k with lastBill := some secs }).run (billTail.run (closeInterval.run s)) := by
  rw [billNow, Eff.run_all_cons, Eff.run_all_cons, Eff.run_all_cons, Eff.run_all_done]

/-- A close by command: CLOSE_SEQ rises, and the close is remembered. -/
theorem billNow_closes (secs : Nat) (s : State) : ((billNow secs).run s).dev.keep.closeSeq = s.dev.keep.closeSeq + 1 ∧
    ((billNow secs).run s).dev.keep.lastBill = some secs := by
  rw [billNow_run, onKeep_keep]
  refine ⟨?_, rfl⟩
  have hseq := Eff.Only.devKeeps closeRecords_keeps ((onKeep fun k => { k with closeSeq := k.closeSeq + 1 }).run (closeInterval.run s))
  have hinterval := Eff.Only.devKeeps closeInterval_keeps s
  rw [billTail_run, hseq, onKeep_keep, hinterval]

theorem State.windowEnd_congr {s t : State} (hm : s.dev.mtr = t.dev.mtr) : s.windowEnd = t.windowEnd := by
  have hof : ∀ u : State, u.windowEnd = ({ dev := { mtr := u.dev.mtr } } : State).windowEnd := fun _ => rfl
  rw [hof s, hof t, hm]

theorem billingClose_made (h : Writes s rd rTolCmd l) (ht : s.isToll = true) (hv : v % 4 = 2) (hk : v / 65536 = 0x5EA1) (hn : s.testing = false)
    (hw : s.metering = false ∨ s.windowEnd = none) :
    Completes (.billingClose rd v) s fun t => t = (Eff.all [closeInterval, billTail, onKeep fun k => { k with lastBill := some s.seconds }]).run
        ((writeReg rd rTolCmd .skip).run s) ∧
      t.dev.keep.closeSeq = s.dev.keep.closeSeq + 1 ∧ t.dev.keep.lastBill = some s.seconds ∧ SameHbm s t ∧ SameGates s t := by
  have hrun := exec_billingClose h ht hv hk
  have hmtr : (s.written rd l).dev.mtr = s.dev.mtr := State.written_keeps (p := fun d => d.mtr) (fun _ _ => rfl) s rd l
  have hw' : (s.written rd l).metering = false ∨ (s.written rd l).windowEnd = none := by
    rw [State.windowEnd_congr hmtr, State.metering, State.written_bit, State.written_bit]
    exact hw
  rw [Eff.run_andThen, measureDue_none hw', tolOp_made _ ((s.written_testing rd l).trans hn), applyTolOp] at hrun
  obtain ⟨hseq, hlast⟩ := billNow_closes s.seconds (s.written rd l)
  have hframe := (s.written_frame rd l _).trans ((billNow_calm s.seconds).frame (s.written rd l))
  refine ⟨_, hrun, by rw [writeReg_run h, Eff.run_skip, billNow], ?_, hlast, hframe.1, hframe.2.1⟩
  rw [hseq, State.written_keep]

end

/-- Settles O21, by the steps of a snapshot and of a close on the state that the write leaves. -/
theorem snapshots : Obligations.Snapshots :=
  ⟨fun _ _ _ _ => snapshot_taken, fun _ _ _ _ => snapshot_held,
    fun s who _ h => ⟨_, exec_snapshotSealed h, mget?_mput _ _ _, mget?_mput _ _ _, mget?_mdel _ _, bufferSealed_frame who _ s, rfl⟩,
    fun _ _ _ _ => billingClose_made,
    fun _ _ _ _ h ht hv hk => ⟨_, exec_billingClose h ht hv hk, by rw [writeReg_run h, Eff.run_skip]⟩⟩

end Sys2Proof.Machine
end

section
/-!
# Resets of the main domain (R529 to R533)
-/
namespace Sys2Proof.Machine
open Sys2Proof

/-! ### Before the reset -/

theorem settleKeeper_calm : settleKeeper.Calm := by
  simp [settleKeeper]

theorem settleKeeper_cause (s : State) (lo w : Nat) : (settleKeeper.run s).fld rGlbResetCause lo w = s.fld rGlbResetCause lo w :=
  (settleKeeper_calm.frame s).fld (by decide) lo w

theorem recordReset_local (last src : Nat) : (recordReset last src).Only (Act.Local fun o => o == rGlbResetCause) := by
  simp [recordReset]

/-- What the keeper records of a CHIP_RESET. -/
theorem recordReset_cause (last src : Nat) (s : State) :
    ((recordReset last src).run s).fld rGlbResetCause 0 4 = last % 16 ∧
    (last = 3 → ((recordReset last src).run s).fld rGlbResetCause 4 8 = src % 256) ∧
    ((recordReset last src).run s).fld rGlbResetCause 16 16 = satAdd 16 (s.fld rGlbResetCause 16 16) 1 := by
  have hrun : (recordReset last src).run s = (Eff.when (last == 3) (onKeep fun k =>
        { k with storm := k.storm || decide (8 ≤ s.recentResets.length), resets := s.rtc :: s.recentResets })).run
      ((bumpFld rGlbResetCause 16 16 1).run ((Eff.when (last == 3) (putFld rGlbResetCause 4 8 src)).run ((putFld rGlbResetCause 0 4 last).run s))) := by
    rw [recordReset, Eff.run_read, Eff.run_all_cons, Eff.run_all_cons, Eff.run_all_cons, Eff.run_all_cons, Eff.run_all_done]
  have hkeep : ∀ (c : Bool) (g : Keeper → Keeper) (u : State) (lo w : Nat),
      ((Eff.when c (onKeep g)).run u).fld rGlbResetCause lo w = u.fld rGlbResetCause lo w := fun c g u lo w =>
    Frame.fld (r := fun _ => false) (Eff.Only.frame (by simp) u) rfl lo w
  have hbump : ∀ (u : State) (lo w : Nat), lo + w ≤ 16 → ((bumpFld rGlbResetCause 16 16 1).run u).fld rGlbResetCause lo w = u.fld rGlbResetCause lo w :=
    fun u lo w hlo => by
      rw [bumpFld_run, State.fld_setReg, bitsOf_setFld_other _ _ _ _ _ _ (by decide) (.inl hlo), State.fld]
  have hsrc : ∀ (c : Bool) (u : State) (lo w : Nat), lo + w ≤ 4 ∨ 12 ≤ lo →
      ((Eff.when c (putFld rGlbResetCause 4 8 src)).run u).fld rGlbResetCause lo w = u.fld rGlbResetCause lo w := fun c u lo w hlo => by
    rw [Eff.run_when]
    split
    · exact State.fld_putFld_apart _ (by decide) hlo
    · rfl
  rw [hrun]
  refine ⟨?_, fun h3 => ?_, ?_⟩
  · rw [hkeep, hbump _ _ _ (by decide), hsrc _ _ _ _ (.inl (by decide))]
    exact State.fld_putFld last (by decide)
  · rw [hkeep, hbump _ _ _ (by decide), Eff.run_when, if_pos (by simp [h3])]
    exact State.fld_putFld src (by decide)
  · rw [hkeep, State.fld_bumpFld _ (by decide), hsrc _ _ _ _ (.inr (by decide)), State.fld_putFld_apart _ (by decide) (.inr (by decide))]

/-! ### The reset -/

section
variable {s : State} {chip : Bool}

theorem State.mainReset_hit {o : Nat} (h : resetsAt (if chip then [.pc] else [.pc, .p]) o = true) : (s.mainReset chip).reg o = regReset o :=
  State.reg_of_unlisted (mget?_filter_out (fun _ => by simp [h]) s.regs)

theorem State.mainReset_kept {o : Nat} (h : resetsAt (if chip then [.pc] else [.pc, .p]) o = false) : (s.mainReset chip).reg o = s.reg o := by
  rw [State.reg, State.reg, mget, mget]
  exact congrArg (Option.getD · _) (mget?_filter (fun _ => by simp [h]) s.regs)

theorem State.mainReset_fld {o : Nat} (h : resetsAt (if chip then [.pc] else [.pc, .p]) o = false) (lo w : Nat) :
    (s.mainReset chip).fld o lo w = s.fld o lo w := by
  rw [State.fld, State.mainReset_kept h, State.fld]

theorem State.mainReset_gate (b g : Nat) : (s.mainReset chip).gate b g = 0 := rfl

theorem State.mainReset_hbm : SameHbm s (s.mainReset chip) := ⟨fun _ => rfl, rfl⟩

/-- The registers that CHIP_RESET leaves for the link and the straps. -/
def linkReg (o : Nat) : Bool := o == rClkStatus || o == rPciLink || o == rBrdI2c || o == rBrdPmb

theorem keepLink_link (xtal link : Nat) : (keepLink xtal link).Only (Act.Local linkReg) := by
  simp [keepLink, strapAddresses, linkReg]

theorem keepLink_dev (xtal link : Nat) (s : State) : ((keepLink xtal link).run s).dev = s.dev :=
  Eff.Only.devKeeps (p := fun d => d) (by simp [keepLink, strapAddresses]) s

theorem keepLink_pciLink (xtal : Nat) {link : Nat} (h : link < 2 ^ 9) (s : State) : ((keepLink xtal link).run s).fld rPciLink 0 9 = link := by
  have hstrap : ∀ u : State, (strapAddresses.run u).fld rPciLink 0 9 = u.fld rPciLink 0 9 := fun u =>
    Frame.fld (r := fun o => o == rBrdI2c || o == rBrdPmb) (Eff.Only.frame (by simp [strapAddresses]) u) (by decide) 0 9
  rw [keepLink, Eff.run_all_cons, Eff.run_all_cons, Eff.run_all_cons, Eff.run_all_done, hstrap, State.fld_putFld _ (by decide), Nat.mod_eq_of_lt h]

/-- The state in which a CHIP_RESET finds the main domain: settled and recorded. -/
def State.recorded (s : State) (last src : Nat) : State := (recordReset last src).run (settleKeeper.run s)

theorem State.chipReset_due {last src : Nat} (h : s.dev.due.chip = some (last, src)) :
    s.chipReset = (keepLink s.xtal (s.fld rPciLink 0 9)).run ((s.recorded last src).mainReset true) := by
  rw [State.chipReset, h]
  rfl

theorem State.recorded_hbm (last src : Nat) : SameHbm s (s.recorded last src) :=
  (settleKeeper_calm.frame s).1.trans ((recordReset_local last src).frame _).1

theorem State.recorded_cause (last src : Nat) : (s.recorded last src).fld rGlbResetCause 0 4 = last % 16 ∧
    (last = 3 → (s.recorded last src).fld rGlbResetCause 4 8 = src % 256) ∧
    (s.recorded last src).fld rGlbResetCause 16 16 = satAdd 16 (s.fld rGlbResetCause 16 16) 1 := by
  have h := recordReset_cause last src (settleKeeper.run s)
  rw [settleKeeper_cause] at h
  exact h

theorem chipReset_completes {last src : Nat} (h : s.dev.due.chip = some (last, src)) :
    Completes .chipReset s fun t => (∀ b g, t.gate b g = 0) ∧ t.now = 0 ∧
      (∀ o, resetsAt [.pc] o = true → o ≠ rClkStatus → o ≠ rPciLink → o ≠ rBrdI2c → o ≠ rBrdPmb → t.reg o = regReset o) ∧
      t.fld rGlbResetCause 0 4 = last % 16 ∧ (last = 3 → t.fld rGlbResetCause 4 8 = src % 256) ∧
      t.fld rGlbResetCause 16 16 = satAdd 16 (s.fld rGlbResetCause 16 16) 1 ∧ t.fld rPciLink 0 9 = s.fld rPciLink 0 9 ∧
      t.dev.due.chip = none ∧ t.dev.work.queues = [] ∧ SameHbm s t ∧ t.pending = s.pending := by
  have hframe := (keepLink_link s.xtal (s.fld rPciLink 0 9)).frame ((s.recorded last src).mainReset true)
  have hdev := keepLink_dev s.xtal (s.fld rPciLink 0 9) ((s.recorded last src).mainReset true)
  have hcause : ∀ lo w, ((keepLink s.xtal (s.fld rPciLink 0 9)).run ((s.recorded last src).mainReset true)).fld rGlbResetCause lo w =
      (s.recorded last src).fld rGlbResetCause lo w := fun lo w =>
    (hframe.fld (by decide) lo w).trans (State.mainReset_fld (by decide) lo w)
  obtain ⟨hlast, hsrc, hcount⟩ := s.recorded_cause last src
  refine ⟨_, congrArg Host.Outcome.next (State.chipReset_due h), fun b g => ?_, hframe.2.1.2.1, fun o ho h1 h2 h3 h4 => ?_,
    (hcause 0 4).trans hlast, fun h3 => (hcause 4 8).trans (hsrc h3), (hcause 16 16).trans hcount, keepLink_pciLink _ (bitsOf_lt _ _ _) _,
    ?_, ?_, ((State.recorded_hbm last src).trans State.mainReset_hbm).trans hframe.1, ?_⟩
  · rw [hframe.2.1.1, State.mainReset_gate]
  · rw [hframe.2.2 o (by simp [linkReg, h1, h2, h3, h4]), State.mainReset_hit (chip := true) ho]
  · rw [hdev]
    rfl
  · rw [hdev]
    rfl
  · rw [Eff.run_pending, State.mainReset_pending, State.recorded, Eff.run_pending, Eff.run_pending]

/-! ### PORESET -/

/-- What PORESET does before it resets. -/
def beforePoreset (low : Bool) : Eff := Eff.all [settleKeeper, putFld rGlbResetCause 0 4 2, Eff.when low (emit (.faultPin false))]

theorem beforePoreset_run (low : Bool) (s : State) : (beforePoreset low).run s =
    (Eff.when low (emit (.faultPin false))).run ((putFld rGlbResetCause 0 4 2).run (settleKeeper.run s)) := by
  rw [beforePoreset, Eff.run_all_cons, Eff.run_all_cons, Eff.run_all_cons, Eff.run_all_done]

theorem State.poreset_eq : s.poreset = ((beforePoreset s.faultN).run s).mainReset false := rfl

theorem beforePoreset_hbm (low : Bool) (s : State) : SameHbm s ((beforePoreset low).run s) := by
  have hcalm : SameHbm s (settleKeeper.run s) := (settleKeeper_calm.frame s).1
  have hrest : ∀ u, SameHbm u ((Eff.when low (emit (.faultPin false))).run ((putFld rGlbResetCause 0 4 2).run u)) := fun u =>
    Eff.Only.sameHbm (e := .andThen (putFld rGlbResetCause 0 4 2) (Eff.when low (emit (.faultPin false)))) (by simp [Act.NoHbm]) u
  rw [beforePoreset_run]
  exact hcalm.trans (hrest _)

theorem beforePoreset_cause (low : Bool) (s : State) : ((beforePoreset low).run s).fld rGlbResetCause 0 4 = 2 := by
  have hemit : ∀ u : State, ((Eff.when low (emit (.faultPin false))).run u).fld rGlbResetCause 0 4 = u.fld rGlbResetCause 0 4 := fun u =>
    Frame.fld (r := fun _ => false) (Eff.Only.frame (by simp) u) rfl 0 4
  rw [beforePoreset_run, hemit, State.fld_putFld_lt (by decide) (by decide)]

/-- A PWR_GOOD input that falls is low. -/
theorem Board.lower_good (b : Board) (i : Nat) : bitOf (b.lower i).good i = false := by
  have hfield : b.good % 2 ^ (i + 1) / 2 ^ i = bitsOf b.good i 1 := by
    rw [bitsOf, Nat.shiftRight_eq_div_pow, Nat.pow_succ, Nat.mod_mul_right_div_self, Nat.pow_one]
  have hset := testBit_set_field b.good i 1 0 i
  rw [if_pos (by omega), Nat.zero_mod, Nat.zero_mul, Nat.add_zero, Nat.zero_testBit] at hset
  rw [bitOf_eq_testBit, Board.lower, hfield]
  exact hset

/-- The board has an input lower. -/
def lowerInput (i : Nat) : Eff := onDev fun d => { d with board := d.board.lower i }

theorem State.powerFall_run {i : Nat} (hi : i < 4) (hg : bitOf s.dev.board.good i = true) (hp : s.dev.board.poreset = false) :
    s.powerFall i = (lowerInput i).run (((beforePoreset s.faultN).run s).mainReset false) := by
  rw [State.powerFall, if_neg (by simp [hg]; omega)]
  simp only [hp, Bool.false_eq_true, if_false]
  rw [State.poreset_eq, lowerInput]

theorem pwrGoodFall_completes {i : Nat} (hi : i < 4) (hg : bitOf s.dev.board.good i = true) (hp : s.dev.board.poreset = false) :
    Completes (.pwrGoodFall i) s fun t => (∀ b g, t.gate b g = 0) ∧ t.now = 0 ∧ (∀ o, resetsAt [.pc, .p] o = true → t.reg o = regReset o) ∧
      t.fld rGlbResetCause 0 4 = 2 ∧ t.dev.board.poreset = true ∧ bitOf t.dev.board.good i = false ∧ t.dev.work.queues = [] ∧ SameHbm s t ∧
      t.pending = s.pending ∧ (s.faultN = true → .faultPin false ∈ t.out) := by
  have hcause : (((beforePoreset s.faultN).run s).mainReset false).fld rGlbResetCause 0 4 = 2 :=
    (State.mainReset_fld (by decide) 0 4).trans (beforePoreset_cause _ s)
  refine ⟨_, congrArg Host.Outcome.next (State.powerFall_run hi hg hp), fun b g => rfl, rfl, fun o ho => State.mainReset_hit (chip := false) ho, hcause, rfl,
    Board.lower_good _ i, rfl, (beforePoreset_hbm _ s).trans (State.mainReset_hbm (chip := false)), ?_, fun hlow => ?_⟩
  · rw [Eff.run_pending, State.mainReset_pending, Eff.run_pending]
  · rw [hlow]
    have hout : ((beforePoreset true).run s).out = .faultPin false :: ((putFld rGlbResetCause 0 4 2).run (settleKeeper.run s)).out := by
      rw [beforePoreset_run, Eff.run_when, if_pos rfl, emit_run, Act.emit_out]
    show Output.faultPin false ∈ ((beforePoreset true).run s).out
    rw [hout]
    exact List.mem_cons_self ..

/-! ### PWR_GOOD's rise and the release of PORESET -/

theorem exec_pwrGoodRise {i : Nat} (hi : i < 4) (hg : bitOf s.dev.board.good i = false) :
    exec (.pwrGoodRise i) s = .next ((onDev fun d => { d with board := { d.board with good := d.board.good + 2 ^ i } }).run s) := by
  have hrun : (effPwrGoodRise i).run s = (onDev fun d => { d with board := { d.board with good := d.board.good + 2 ^ i } }).run s := by
    rw [effPwrGoodRise, Eff.run_read, Eff.run_when, if_pos (by simp [hi, hg])]
  exact congrArg Host.Outcome.next hrun

/-- The end of PORESET: the straps are sampled, and the cause is told. -/
def releasePoreset (straps : Nat) (off : Bool) : Eff := Eff.all
  [ onDev (fun d => { d with board := { d.board with poreset := false } }), putReg rBrdStrap (straps % 16), strapAddresses,
    putFld rGlbResetCause 0 4 (if off then 1 else 2), endCurrentOnly ]

theorem exec_poresetRelease {straps : Nat} {off : Bool} (hp : s.dev.board.poreset = true) (hg : s.dev.board.good = 15) :
    exec (.poresetRelease straps off) s = .next ((releasePoreset straps off).run s) := by
  have hrun : (effPoresetRelease straps off).run s = (releasePoreset straps off).run s := by
    rw [effPoresetRelease, Eff.run_read, Eff.run_when, if_pos (by simp [hp, hg]), releasePoreset]
  exact congrArg Host.Outcome.next hrun

theorem closeTamper_none {u : State} (h : u.dev.keep.tamperOpen = none) : closeTamper.run u = u := by
  rw [closeTamper, Eff.run_read, h]
  exact Eff.run_skipped u

theorem strapAddresses_local : strapAddresses.Only (Act.Local fun o => o == rBrdI2c || o == rBrdPmb) := by
  simp [strapAddresses]

theorem strapAddresses_i2c (u : State) : (strapAddresses.run u).fld rBrdI2c 0 7 = 0x58 + u.fld rBrdStrap 0 2 := by
  have hlt := bitsOf_lt (u.reg rBrdStrap).toNat 0 2
  have hstrap : u.fld rBrdStrap 0 2 < 4 := hlt
  rw [strapAddresses, Eff.run_read, Eff.run_andThen, putReg_run, State.fld_setReg_other (by decide), putReg_run, State.fld_setReg]
  simp only [bitsOf, w64, BitVec.toNat_ofNat, Nat.shiftRight_zero]
  omega

/-- The straps as PORESET's release samples them. -/
def sampleStraps (straps : Nat) (s : State) : State :=
  (putReg rBrdStrap (straps % 16)).run ((onDev fun d => { d with board := { d.board with poreset := false } }).run s)

theorem releasePoreset_run {straps : Nat} {off : Bool} (h : s.dev.keep.tamperOpen = none) : (releasePoreset straps off).run s =
    (onKeep fun k => { k with burst := false, tamperRun := 0 }).run ((putFld rGlbResetCause 0 4 (if off then 1 else 2)).run
      (strapAddresses.run (sampleStraps straps s))) := by
  have hopen : ((putFld rGlbResetCause 0 4 (if off then 1 else 2)).run (strapAddresses.run (sampleStraps straps s))).dev.keep.tamperOpen = none := by
    have hkeep := Eff.Only.devKeeps (p := fun d => d.keep) (e := strapAddresses) (by simp [strapAddresses]) (sampleStraps straps s)
    rw [putFld_run, Act.setReg_dev, hkeep]
    exact h
  rw [sampleStraps] at hopen ⊢
  rw [releasePoreset, Eff.run_all_cons, Eff.run_all_cons, Eff.run_all_cons, Eff.run_all_cons, Eff.run_all_cons, Eff.run_all_done, endCurrentOnly,
    Eff.run_andThen, closeTamper_none hopen]

/-- The registers that PORESET's release sets. -/
def releaseReg (o : Nat) : Bool := o == rBrdStrap || o == rGlbResetCause || o == rBrdI2c || o == rBrdPmb

theorem poresetRelease_completes {straps : Nat} {off : Bool} (hp : s.dev.board.poreset = true) (hg : s.dev.board.good = 15)
    (h : s.dev.keep.tamperOpen = none) :
    Completes (.poresetRelease straps off) s fun t => t.dev.board.poreset = false ∧ t.reg rBrdStrap = w64 (straps % 16) ∧
      t.fld rGlbResetCause 0 4 = (if off then 1 else 2) ∧ t.fld rBrdI2c 0 7 = 0x58 + straps % 4 ∧ Frame releaseReg s t ∧ t.out = s.out := by
  have hrun := exec_poresetRelease (straps := straps) (off := off) hp hg
  rw [releasePoreset_run h] at hrun
  have hsample : Frame releaseReg s (sampleStraps straps s) := (Frame.of_dev _ _ s).trans (setReg_frame _ (by decide))
  have hstrap := strapAddresses_local.frame (sampleStraps straps s)
  have hcause : ∀ u, Frame (fun o => o == rGlbResetCause) u ((putFld rGlbResetCause 0 4 (if off then 1 else 2)).run u) :=
    fun u => setReg_frame _ (by decide)
  have hkeep := fun u => onKeep_frame (fun _ => false) (fun k => { k with burst := false, tamperRun := 0 }) u
  refine ⟨_, hrun, ?_, ?_, ?_, ?_, ?_, ?_⟩
  · rw [onKeep_board, putFld_run, Act.setReg_dev,
      Eff.Only.devKeeps (p := fun d => d.board) (e := strapAddresses) (by simp [strapAddresses]) (sampleStraps straps s)]
    rfl
  · rw [(hkeep _).2.2 _ rfl, (hcause _).2.2 _ (by decide), hstrap.2.2 _ (by decide)]
    exact State.reg_setReg _ _ _
  · rw [(hkeep _).fld rfl, State.fld_putFld _ (by decide)]
    cases off <;> rfl
  · rw [(hkeep _).fld rfl, (hcause _).fld (by decide), strapAddresses_i2c, sampleStraps, putReg_run, State.fld_setReg]
    simp only [bitsOf, w64, BitVec.toNat_ofNat, Nat.shiftRight_zero]
    omega
  · exact ((hsample.trans (hstrap.mono fun o ho => by simp only [releaseReg, Bool.or_eq_true, beq_iff_eq] at ho ⊢; omega)).trans
      ((hcause _).mono fun o ho => by simp only [releaseReg, Bool.or_eq_true, beq_iff_eq] at ho ⊢; omega)).trans ((hkeep _).mono fun _ ho => by cases ho)
  · rw [Eff.Only.out (e := onKeep _) Act.silent_dev, putFld_run, Act.setReg_out, Eff.Only.out (e := strapAddresses) (by simp [strapAddresses])]
    rfl
end

/-- Settles O23, by what settles before a reset, what the reset filters, and what is set after it. -/
theorem mainResets : Obligations.MainResets :=
  ⟨fun _ _ _ => chipReset_completes, fun _ _ => pwrGoodFall_completes,
    fun s _ hi hg _ => ⟨_, exec_pwrGoodRise hi hg, rfl, Frame.of_dev _ _ s, rfl⟩,
    fun _ _ _ => poresetRelease_completes⟩

end Sys2Proof.Machine
end

section
/-!
# Basin resets (R165, R166, R173)
-/
namespace Sys2Proof.Machine
open Sys2Proof

/-! ### A basin reset falls due, and begins -/

section
variable {s : State} {rd v b : Nat} {l : Loc}

/-- A basin's reset is due. -/
def resetDue (b : Nat) : Eff := onDue fun d => { d with basins := sins d.basins b }

theorem causeBasinReset_open (hb : 1 ≤ b) (h15 : b ≤ 15) (ho : s.isOpen b = true) : (causeBasinReset b).run s = (resetDue b).run s := by
  rw [causeBasinReset, Eff.run_read, if_pos (by simp [ho, hb, h15]), resetDue]

theorem exec_lckBasinReset (h : Writes s rd rLckBasinReset l) (hk : bitsOf v 16 16 = 0xB45E) (hb : 1 ≤ bitsOf v 0 4)
    (ho : s.isOpen (bitsOf v 0 4) = true) : exec (.lckBasinReset rd v) s = .next ((resetDue (bitsOf v 0 4)).run (s.written rd l)) := by
  have hc : exec (.lckBasinReset rd v) s = (writeReg rd rLckBasinReset (effLckBasinReset v)).done s := rfl
  have hlt := bitsOf_lt v 0 4
  rw [Eff.done_eq, writeReg_run h, effLckBasinReset, if_pos hk,
    causeBasinReset_open hb (by omega) (by rw [State.isOpen, State.written_fld]; exact ho)] at hc
  exact hc

theorem resetDue_frame (b : Nat) (s : State) : Frame (fun _ => false) s ((resetDue b).run s) := Frame.of_dev _ _ s

/-- The due reset of a basin is taken up: the basin is RESETTING. -/
def takeReset (b : Nat) : Eff := .andThen (onDue fun d => { d with basins := sdel d.basins b }) (putFld (rLckBasin b) 0 2 2)

theorem takeReset_frame (b : Nat) (s : State) : Frame (fun o => o == rLckBasin b) s ((takeReset b).run s) :=
  (Frame.of_dev _ _ s).trans (setReg_frame _ (by simp))

theorem takeReset_dev (b : Nat) (s : State) :
    ((takeReset b).run s).dev = { s.dev with due := { s.dev.due with basins := sdel s.dev.due.basins b } } := by
  rw [takeReset, Eff.run_andThen, putFld_run, Act.setReg_dev]
  rfl

/-- The live queues and the sets of a basin, as they were before a change of an LCK_BASIN register. -/
theorem basinParts_of_frame {s t : State} (hb : b < 16) (h : Frame (fun o => o == rLckBasin b) s t) (c : Nat) :
    (t.liveQueues fun q => t.qOwner q == c) = (s.liveQueues fun q => s.qOwner q == c) ∧
    ((List.range 16).filter fun k => t.setPresent k && t.setOwner k == c) = ((List.range 16).filter fun k => s.setPresent k && s.setOwner k == c) := by
  have hq : ∀ q, t.qPresent q = s.qPresent q ∧ t.qOwner q = s.qOwner q ∧ t.qState q = s.qState q := fun q => by
    have hcfg : (rQueCfg q == rLckBasin b) = false := by simp [rQueCfg, rLckBasin]; omega
    have hstatus : (rQueStatus q == rLckBasin b) = false := by simp [rQueStatus, rLckBasin]; omega
    exact ⟨h.bit hcfg _, h.fld hcfg _ _, h.fld hstatus _ _⟩
  have hk : ∀ k, t.setPresent k = s.setPresent k ∧ t.setOwner k = s.setOwner k := fun k => by
    have hcfg : (rWhfSetCfg k == rLckBasin b) = false := by simp [rWhfSetCfg, rLckBasin]; omega
    exact ⟨h.bit hcfg _, h.fld hcfg _ _⟩
  simp only [State.liveQueues, hq, hk, and_self]

/-- The reset is due no more. -/
def resetTaken (b : Nat) : Eff := onDue fun d => { d with basins := sdel d.basins b }

theorem exec_basinReset (hd : s.dev.due.basins.contains b = true) (hc : s.dev.due.chip = none) (ho : s.isOpen b = true) :
    exec (.basinReset b) s = .next ((basinReset b).run ((resetTaken b).run s)) := by
  have hrun : (effBasinReset b).run s = (basinReset b).run ((resetTaken b).run s) := by
    rw [effBasinReset, Eff.run_read, Eff.run_when, if_pos (by rw [hd, hc]; rfl), Eff.run_andThen, Eff.run_when, if_pos ho, resetTaken]
  exact congrArg Host.Outcome.next hrun

theorem basinReset_run (hb : b < 16) (s : State) : (basinReset b).run ((resetTaken b).run s) =
    (putFld (rLckBasin b) 3 29 ((s.zeroWindows b).map fun w => (w.last + 1 - w.first) / 4096).sum).run
      ((basinResetTail ((takeReset b).run s) b).run ((takeReset b).run s)) := by
  have hframe : Frame (fun o => o == rLckBasin b) ((resetTaken b).run s) ((takeReset b).run s) := setReg_frame _ (by simp)
  obtain ⟨hq, hk⟩ := basinParts_of_frame hb hframe b
  have hw : ((resetTaken b).run s).zeroWindows b = s.zeroWindows b := rfl
  rw [basinReset, Eff.run_read, ← hq, ← hk, hw, Eff.run_all_cons, Eff.run_all_cons, Eff.run_all_cons, Eff.run_all_cons, Eff.run_all_cons,
    Eff.run_all_cons, Eff.run_all_cons, Eff.run_all_done, basinResetTail, Eff.run_all_cons, Eff.run_all_cons, Eff.run_all_cons, Eff.run_all_cons,
    Eff.run_all_cons, Eff.run_all_done, takeReset, resetTaken, Eff.run_andThen]

/-! ### The basin reopens (R166) -/

/-- A window's bytes become zero. -/
def zeroWindow (w : Window) : Eff := Eff.all
  [ .act (.zeroRange w.first (w.last + 1 - w.first)), markRaw w.first (w.last + 1 - w.first), markDirty w.first (w.last + 1 - w.first) ]

/-- An update of HBM, or of what the engines hold of it. -/
def Act.HbmOnly : Act → Prop
  | .zeroRange .. | .dev _ => True
  | _ => False

theorem zeroWindow_only (w : Window) : (zeroWindow w).Only Act.HbmOnly := by
  simp [zeroWindow, markRaw, markDirty, onCodec, onWhf, Act.HbmOnly]

theorem Act.HbmOnly.other {a : Act} (h : a.HbmOnly) : a.Within (fun _ => false) ∧ a.NoGate ∧ a.Silent := by
  cases a with
  | zeroRange => exact ⟨trivial, trivial, trivial⟩
  | dev => exact ⟨trivial, trivial, trivial⟩
  | _ => exact h.elim

theorem mget_zeroed (m : List Host.Cell) (a n x : Nat) :
    mget 0#8 (m.filter fun e => !(decide (a ≤ e.1) && decide (e.1 < a + n))) x = if a ≤ x ∧ x < a + n then 0#8 else mget 0#8 m x := by
  split
  case isTrue h => rw [mget, mget?_filter_out (fun _ => by simp [h])]; rfl
  case isFalse h => rw [mget, mget?_filter fun _ => by simp; omega, mget]

/-- A byte lies in a window. -/
def Window.has (w : Window) (a : Nat) : Prop := w.first ≤ a ∧ a ≤ w.last

theorem zeroWindow_run (w : Window) (s : State) : (zeroWindow w).run s = (markDirty w.first (w.last + 1 - w.first)).run
    ((markRaw w.first (w.last + 1 - w.first)).run (Act.run s (.zeroRange w.first (w.last + 1 - w.first)))) := by
  rw [zeroWindow, Eff.run_all_cons, Eff.run_all_cons, Eff.run_all_cons, Eff.run_all_done, Eff.run_act]

theorem zeroWindow_byte (w : Window) (s : State) (a : Nat) :
    (w.has a → ((zeroWindow w).run s).byte a = 0#8) ∧ (¬ w.has a → ((zeroWindow w).run s).byte a = s.byte a) := by
  have hbyte : ((zeroWindow w).run s).byte a = if w.first ≤ a ∧ a < w.first + (w.last + 1 - w.first) then 0#8 else s.byte a := by
    rw [zeroWindow_run]
    exact mget_zeroed s.mem w.first (w.last + 1 - w.first) a
  rw [hbyte, Window.has]
  exact ⟨fun h => if_pos (by omega), fun h => if_neg (by omega)⟩

theorem zeroWindow_poison (w : Window) (s : State) {a : Nat} (h : a ∈ ((zeroWindow w).run s).poison) : a ∈ s.poison ∧ ¬ w.has a := by
  rw [zeroWindow_run] at h
  obtain ⟨hin, hout⟩ := List.mem_filter.mp (show a ∈ s.poison.filter _ from h)
  refine ⟨hin, fun hw => ?_⟩
  simp only [Window.has] at hw
  simp at hout
  omega

/-- What zeroing windows one after another leaves. -/
theorem zeroWindows_leave (ws : List Window) (s : State) (a : Nat) :
    let t := (Eff.each ws zeroWindow).run s
    ((∃ w ∈ ws, w.has a) → t.byte a = 0#8 ∧ a ∉ t.poison) ∧ ((∀ w ∈ ws, ¬ w.has a) → t.byte a = s.byte a) ∧
      (a ∈ t.poison → a ∈ s.poison) ∧ (s.byte a = 0#8 → t.byte a = 0#8) := by
  induction ws generalizing s with
  | nil => simp
  | cons w ws ih =>
    intro t
    obtain ⟨hin, hout, hpoison, hzero⟩ := ih ((zeroWindow w).run s)
    have hrun : t = (Eff.each ws zeroWindow).run ((zeroWindow w).run s) := Eff.run_each_cons w ws zeroWindow s
    rw [← hrun] at hin hout hpoison hzero
    obtain ⟨hw, hnw⟩ := zeroWindow_byte w s a
    have hbyte0 : s.byte a = 0#8 → ((zeroWindow w).run s).byte a = 0#8 := fun h0 => by
      by_cases hm : w.has a
      · exact hw hm
      · exact (hnw hm).trans h0
    refine ⟨fun ⟨x, hx, hxa⟩ => ?_, fun hno => ?_, fun hp => (zeroWindow_poison w s (hpoison hp)).1, fun h0 => hzero (hbyte0 h0)⟩
    · rcases List.mem_cons.mp hx with rfl | hx
      · exact ⟨hzero (hw hxa), fun hp => (zeroWindow_poison x s (hpoison hp)).2 hxa⟩
      · exact hin ⟨x, hx, hxa⟩
    · rw [hout fun x hx => hno x (List.mem_cons_of_mem _ hx), hnw (hno w (List.mem_cons_self ..))]

/-- The basin is OPEN, its zeroing done. -/
def openAgain (b : Nat) : Eff := .andThen (putFld (rLckBasin b) 3 29 0) (putFld (rLckBasin b) 0 2 1)

theorem exec_basinReopen (hst : s.fld (rLckBasin b) 0 2 = 2) (hw : ∀ w ∈ s.zeroWindows b, s.cowWait w.first (w.last + 1 - w.first) = false) :
    exec (.basinReopen b) s = .next ((openAgain b).run ((Eff.each (s.zeroWindows b) zeroWindow).run s)) := by
  have hany : ((s.zeroWindows b).any fun w => s.cowWait w.first (w.last + 1 - w.first)) = false := List.any_eq_false.mpr fun w h => by simp [hw w h]
  have hrun : (effBasinReopen b).run s = (openAgain b).run ((Eff.each (s.zeroWindows b) zeroWindow).run s) := by
    rw [effBasinReopen, Eff.run_read, Eff.run_when, if_pos (by simp [hst, hany]), Eff.run_all_cons, Eff.run_all_cons, Eff.run_all_cons, Eff.run_all_done,
      openAgain, Eff.run_andThen]
    rfl
  exact congrArg Host.Outcome.next hrun

theorem exec_basinReopen_waits (hw : ∃ w ∈ s.zeroWindows b, s.cowWait w.first (w.last + 1 - w.first) = true) :
    exec (.basinReopen b) s = .next s := by
  have hrun : (effBasinReopen b).run s = s := by
    rw [effBasinReopen, Eff.run_read, Eff.run_when, if_neg]
    simpa using fun _ => hw
  exact congrArg Host.Outcome.next hrun

theorem openAgain_leaves (b : Nat) (s : State) : ((openAgain b).run s).isOpen b = true ∧ ((openAgain b).run s).fld (rLckBasin b) 3 29 = 0 := by
  rw [openAgain, Eff.run_andThen, State.isOpen, State.fld_putFld _ (by decide), State.fld_putFld_apart _ (by decide) (.inr (by decide)),
    State.fld_putFld _ (by decide)]
  exact ⟨rfl, rfl⟩

theorem openAgain_frame (b : Nat) (s : State) : Frame (fun o => o == rLckBasin b) s ((openAgain b).run s) :=
  Eff.Only.frame (by simp [openAgain]) s

theorem basinReopen_completes (hst : s.fld (rLckBasin b) 0 2 = 2)
    (hw : ∀ w ∈ s.zeroWindows b, s.cowWait w.first (w.last + 1 - w.first) = false) :
    Completes (.basinReopen b) s fun t => t.isOpen b = true ∧ t.fld (rLckBasin b) 3 29 = 0 ∧
      (∀ w ∈ s.zeroWindows b, ∀ a, w.first ≤ a → a ≤ w.last → t.byte a = 0#8 ∧ a ∉ t.poison) ∧
      (∀ a, (∀ w ∈ s.zeroWindows b, a < w.first ∨ w.last < a) → t.byte a = s.byte a) ∧
      SameGates s t ∧ RegsBut (fun o => o == rLckBasin b) s t ∧ t.out = s.out := by
  have hframe := openAgain_frame b ((Eff.each (s.zeroWindows b) zeroWindow).run s)
  have honly : (Eff.each (s.zeroWindows b) zeroWindow).Only Act.HbmOnly := Eff.only_each.mpr fun w _ => zeroWindow_only w
  obtain ⟨hopen, hleft⟩ := openAgain_leaves b ((Eff.each (s.zeroWindows b) zeroWindow).run s)
  refine ⟨_, exec_basinReopen hst hw, hopen, hleft, fun w hmem a hlo hhi => ?_, fun a hout => ?_, ?_, ?_, ?_⟩
  · obtain ⟨hz, -⟩ := zeroWindows_leave (s.zeroWindows b) s a
    rw [hframe.1.1, hframe.1.2]
    exact hz ⟨w, hmem, hlo, hhi⟩
  · obtain ⟨-, hkeep, -⟩ := zeroWindows_leave (s.zeroWindows b) s a
    rw [hframe.1.1]
    exact hkeep fun w hmem hin => by rcases hout w hmem with h | h <;> simp only [Window.has] at hin <;> omega
  · exact (Eff.Only.sameGates (honly.mono fun _ h => h.other.2.1) s).trans hframe.2.1
  · exact fun off ho => (hframe.2.2 off ho).trans (Eff.Only.regsBut (honly.mono fun _ h => h.other.1) s off rfl)
  · rw [Eff.Only.out (e := openAgain b) (by simp [openAgain]), Eff.Only.out (honly.mono fun _ h => h.other.2.2)]
end

/-- Settles O22, by what is due, what a reset hands to its tail, and what zeroing windows in order leaves. -/
theorem basinResets : Obligations.BasinResets := by
  refine ⟨fun s rd v l h hk hb ho => ⟨_, exec_lckBasinReset h hk hb ho, mem_sins.mpr (.inl rfl), (s.written_frame rd l _).trans (resetDue_frame _ _),
      s.written_out rd l⟩,
    fun s b hb hd hc ho => ⟨_, exec_basinReset hd hc ho, (takeReset b).run s, ?_, ?_, takeReset_frame b s, ?_, basinReset_run hb s⟩,
    fun _ _ _ _ hw => ⟨_, exec_basinReopen_waits hw, rfl⟩, fun _ _ _ hst hw => basinReopen_completes hst hw⟩
  · rw [takeReset, Eff.run_andThen, State.fld_putFld_lt (by decide) (by decide)]
  · rw [takeReset_dev]
  · rw [takeReset, Eff.run_andThen, putFld_run, Act.setReg_out]
    rfl

end Sys2Proof.Machine
end

section
/-!
# Reset commands, BLOCK_RESET and the disabling of a queue (R205, R207, R531, R559, R579)
-/
namespace Sys2Proof.Machine
open Sys2Proof

section
variable {s : State} {rd q v : Nat} {l : Loc}

/-! ### GO and DRYDOCK (R531, R559) -/

/-- A CHIP_RESET is due. -/
def chipDue (last src : Nat) : Eff := onDue fun d => { d with chip := some (last, src) }

theorem onDev_congr {f g : Dev → Dev} (h : f s.dev = g s.dev) : (onDev f).run s = (onDev g).run s := by
  rw [onDev_run, onDev_run, Act.run, Act.run, h]

theorem causeChipReset_run (last src : Nat) (h : s.dev.due.chip = none) : (causeChipReset last src).run s = (chipDue last src).run s := by
  refine onDev_congr ?_
  simp only [h]

theorem State.written_due (s : State) (rd : Nat) (l : Loc) : (s.written rd l).dev.due = s.dev.due :=
  State.written_keeps (p := fun d => d.due) (fun _ _ => rfl) s rd l

theorem exec_go (h : Writes s rd rGlbChipReset l) (hk : bitsOf v 16 16 = 0xC41F) (h0 : bitOf v 0 = true) (h1 : bitOf v 1 = false)
    (hc : s.dev.due.chip = none) : exec (.go rd v) s = .next ((chipDue 4 0).run (s.written rd l)) := by
  have hx : exec (.go rd v) s = (Eff.when (!bitOf v 1) (writeReg rd rGlbChipReset (chipResetWrite v))).done s := rfl
  rw [Eff.done_eq, Eff.run_when, if_pos (by simp [h1]), writeReg_run h, chipResetWrite, if_neg (by simp [hk]), if_neg (by simp [h1]), if_pos h0,
    causeChipReset_run 4 0 (by rw [State.written_due, hc])] at hx
  exact hx

/-- Dry-dock is requested. -/
def requestDryDock : Eff := onKeep fun k => { k with dryReq := true }

theorem exec_drydock (h : Writes s rd rGlbChipReset l) (hk : bitsOf v 16 16 = 0xC41F) (h1 : bitOf v 1 = true)
    (hc : s.dev.due.chip = none) : exec (.drydock rd v) s = .next ((chipDue 6 0).run (requestDryDock.run (s.written rd l))) := by
  have hx : exec (.drydock rd v) s = (Eff.when (bitOf v 1) (writeReg rd rGlbChipReset (chipResetWrite v))).done s := rfl
  rw [Eff.done_eq, Eff.run_when, if_pos h1, writeReg_run h, chipResetWrite, if_neg (by simp [hk]), if_pos h1, Eff.run_andThen,
    causeChipReset_run 6 0 (by exact (congrArg Due.chip (State.written_due s rd l)).trans hc)] at hx
  exact hx

/-! ### BLOCK_RESET (R205, R579) -/

/-- A block's reset is due no more. -/
def blockTaken (k : Block) : Eff := onDue fun d => { d with blocks := d.blocks.filter fun x => x != k }

theorem exec_blockReset {k : Block} (hd : s.dev.due.blocks.contains k = true) (hc : s.dev.due.chip = none) :
    exec (.blockReset k) s = .next ((blockReset k).run ((blockTaken k).run s)) := by
  have hrun : (effBlockReset k).run s = (blockReset k).run ((blockTaken k).run s) := by
    rw [effBlockReset, Eff.run_read, Eff.run_when, if_pos (by rw [hd, hc]; rfl), Eff.run_andThen, blockTaken]
  exact congrArg Host.Outcome.next hrun

/-- A reset returns the registers that it reaches to their reset values. -/
theorem State.reg_resetRegs {hit : Nat → Bool} {off : Nat} (h : hit off = true) (s : State) : (Act.run s (.resetRegs hit)).reg off = regReset off :=
  State.reg_of_unlisted (mget?_filter_out (fun _ => by simp [h]) s.regs)

/-- The BLOCK_RESETs of the copy engines, the serving engine and the wharf end with their registers' reset. -/
theorem blockReset_regs {k : Block} (hk : k = .dma ∨ k = .serve ∨ k = .wharf) {o : Nat} (ho : ofBlock k o = true) (s : State) :
    ((blockReset k).run s).reg o = regReset o := by
  have hlast : ∃ u, (blockReset k).run s = Act.run u (.resetRegs (ofBlock k)) := by
    rcases hk with rfl | rfl | rfl
    · rw [blockReset, Eff.run_all_cons, Eff.run_all_cons, Eff.run_all_cons, Eff.run_all_cons, Eff.run_all_done, Eff.run_act]
      exact ⟨_, rfl⟩
    · rw [blockReset, Eff.run_all_cons, Eff.run_all_cons, Eff.run_all_cons, Eff.run_all_done, Eff.run_act]
      exact ⟨_, rfl⟩
    · rw [blockReset, wharfBlockReset, Eff.run_all_cons, Eff.run_all_cons, Eff.run_all_cons, Eff.run_all_done, Eff.run_act]
      exact ⟨_, rfl⟩
  obtain ⟨u, hu⟩ := hlast
  rw [hu, State.reg_resetRegs ho]

/-! ### DISABLE of a queue (R207) -/

theorem State.written_queue (s : State) (rd : Nat) (l : Loc) (q : Nat) : (s.written rd l).queue q = s.queue q :=
  State.queue_of_work (congrArg Work.queues (State.written_keeps (p := fun d => d.work) (fun _ _ => rfl) s rd l)) q

/-- The entries taken up that have started end, and those that have not are discarded; what an engine runs is left to it. -/
def endStarted (engine : Option Nat) (es : List Entry) : List Entry :=
  (es.filter fun e => e.fin.isSome || e.stage != .fetched).map fun e =>
    if e.fin.isSome || engine == some e.idx then e else { e with fin := some { status := 0x1C }, stage := .running }

/-- The entry that an engine runs for a queue. -/
def State.engineEntry (s : State) (q : Nat) : Option Nat := if s.engineRuns q then (s.current q).map (·.idx) else none

/-- A queue that is closing, with its fetch position at the accepted tail. -/
def closingQueue (s : State) (q : Nat) (k : Queue) : Queue :=
  { k with closing := true, owed := endStarted (s.engineEntry q) k.owed, nextFetch := k.sqTail }

/-- The steps of DISABLE that concern the queue alone. -/
def closeQueue (q : Nat) : Eff := Eff.all [beginClosing q, endTaken q false, onQueue q fun k => { k with nextFetch := k.sqTail }]

theorem closeQueue_local (r : Nat → Bool) (q : Nat) : (closeQueue q).Only (Act.Local r) := by
  simp [closeQueue, beginClosing, endTaken, onQueue_local]

theorem closeQueue_silent (q : Nat) : (closeQueue q).Only Act.Silent := by
  simp [closeQueue, beginClosing, endTaken, onQueue_silent]

theorem beginClosing_engine (q : Nat) (s : State) : ((beginClosing q).run s).engineEntry q = s.engineEntry q := by
  have hq : ((beginClosing q).run s).queue q = { s.queue q with closing := true } := onQueue_queue _ _ _
  have hcur : ((beginClosing q).run s).current q = s.current q := by rw [State.current, hq, State.current]
  have hruns : ((beginClosing q).run s).engineRuns q = s.engineRuns q := by
    rw [State.engineRuns, State.prog, hq, State.engineRuns, State.prog]
    rfl
  rw [State.engineEntry, hcur, hruns, State.engineEntry]

theorem closeQueue_queue (q : Nat) (s : State) : ((closeQueue q).run s).queue q = closingQueue s q (s.queue q) := by
  have hq : ((beginClosing q).run s).queue q = { s.queue q with closing := true } := onQueue_queue _ _ _
  have hend : ((endTaken q false).run ((beginClosing q).run s)).queue q =
      { s.queue q with closing := true, owed := endStarted (s.engineEntry q) (s.queue q).owed } := by
    rw [endTaken, Eff.run_read, onQueue_queue, hq, ← beginClosing_engine q s]
    rfl
  rw [closeQueue, Eff.run_all_cons, Eff.run_all_cons, Eff.run_all_cons, Eff.run_all_done, onQueue_queue, hend, closingQueue]

theorem exec_queueDisable (h : Writes s rd (rQueCtrl q) l) (hv : bitOf v 1 = true) (hst : s.qState q ≠ 0) : exec (.queueDisable rd q v) s =
    .next ((Eff.all [dropRead (.sq q), stopRuns q, pumpWharf, post q]).run ((closeQueue q).run (s.written rd l))) := by
  have hx : exec (.queueDisable rd q v) s = (Eff.when (bitOf v 1) (writeReg rd (rQueCtrl q) (queueCtrl q v))).done s := rfl
  rw [Eff.done_eq, Eff.run_when, if_pos hv, writeReg_run h, queueCtrl, if_pos hv, disableQueue, Eff.run_read, State.qState_written, if_neg hst] at hx
  rw [hx, closeQueue]
  simp only [Eff.run_all_cons, Eff.run_all_done]

theorem endStarted_fin {engine : Option Nat} {es : List Entry} {e : Entry} (h : e ∈ endStarted engine es) :
    e.fin.isSome = true ∨ engine ≠ none := by
  obtain ⟨x, -, hx⟩ := List.mem_map.mp h
  split at hx
  case isTrue hc =>
    obtain rfl := hx
    rcases Bool.or_eq_true_iff.mp hc with hf | he
    · exact .inl hf
    · exact .inr fun h0 => by simp [h0] at he
  case isFalse => exact .inl (by rw [← hx]; rfl)

theorem State.engineEntry_some (h : s.engineEntry q ≠ none) : s.engineRuns q = true ∧ s.current q ≠ none := by
  rw [State.engineEntry] at h
  split at h
  case isTrue hr => exact ⟨hr, fun h0 => h (by rw [h0]; rfl)⟩
  case isFalse => exact absurd rfl h

theorem State.engineEntry_written : (s.written rd l).engineEntry q = s.engineEntry q := by
  have hq := s.written_queue rd l q
  have hruns : (s.written rd l).runsOf q = s.runsOf q := by
    rw [State.runsOf, State.written_keeps (p := fun d => d.work) (fun _ _ => rfl) s rd l, State.runsOf]
  rw [State.engineEntry, State.engineEntry, State.engineRuns, State.engineRuns, State.current, State.current, State.prog, State.prog, hq, hruns]

theorem queueDisable_closes (h : Writes s rd (rQueCtrl q) l) (hv : bitOf v 1 = true) (hst : s.qState q ≠ 0) :
    Completes (.queueDisable rd q v) s (Reaching (fun u => (u.queue q).closing = true ∧ (u.queue q).nextFetch = (s.queue q).sqTail ∧
        (∀ e ∈ (u.queue q).owed, e.fin.isSome = true ∨ (s.engineRuns q = true ∧ s.current q ≠ none)) ∧ Frame (fun _ => false) s u ∧ u.out = s.out)
      (Eff.all [dropRead (.sq q), stopRuns q, pumpWharf, post q])) := by
  have hqueue := closeQueue_queue q (s.written rd l)
  rw [State.written_queue] at hqueue
  refine ⟨_, exec_queueDisable h hv hst, _, ⟨?_, ?_, fun e he => ?_, ?_, ?_⟩, rfl⟩
  · rw [hqueue, closingQueue]
  · rw [hqueue, closingQueue]
  · rw [hqueue, closingQueue] at he
    rcases endStarted_fin he with hf | hf
    · exact .inl hf
    · exact .inr (State.engineEntry_some (State.engineEntry_written ▸ hf))
  · exact (s.written_frame rd l _).trans ((closeQueue_local _ q).frame _)
  · rw [(closeQueue_silent q).out, State.written_out]

/-! ### A queue that owes nothing is DISABLED at once -/

theorem Eff.run_each_still {α : Type} {xs : List α} {f : α → Eff} (h : ∀ x ∈ xs, (f x).run s = s) : (Eff.each xs f).run s = s := by
  induction xs with
  | nil => rw [Eff.run_each_nil]
  | cons x xs ih => rw [Eff.run_each_cons, h x (List.mem_cons_self ..), ih fun y hy => h y (List.mem_cons_of_mem _ hy)]

theorem State.wset_empty (h : s.dev.whf = {}) (k : Nat) : s.wset k = {} := by
  rw [State.wset, h]
  rfl

/-- Where no set is defined the wharf has nothing to do. -/
theorem pumpWharf_still (h : s.dev.whf = {}) : pumpWharf.run s = s := by
  have hset : ∀ k, (advanceSet [] k).run s = s := fun k => by
    simp [advanceSet, State.wset_empty h]
  exact Eff.run_each_still fun _ _ => Eff.run_each_still fun k _ => hset k

theorem abortProg_none (h : s.prog q = none) : (abortProg q).run s = s := by
  simp [abortProg, h]

/-- The runs that stop with a queue: those of the sets and of the serving engine lose it. -/
def stopSets (q : Nat) : Eff := onWhf fun w => { w with sets := w.sets.map fun e => (e.1, { e.2 with
      epoch := e.2.epoch.map fun r => if r.q = q then { r with posted := true, fail := r.fail.or (some 0x1C) } else r
      restore := e.2.restore.map fun r => if r.q = q then { r with posted := true, fail := r.fail.or (some 0x1C) } else r
      adopt := e.2.adopt.map fun r => if r.q = q then { r with posted := true, fail := r.fail.or (some 0x1C) } else r }) }

/-- The serving engine's steps that a queue asked for go on without it. -/
def dropSteps (q : Nat) : Eff := onSrv fun v => { v with basins := v.basins.map fun e => (e.1, { e.2 with
      step := e.2.step.map fun r => if (r.entry.map fun x => x.1 == q).getD false then { r with entry := none } else r }) }

theorem stopRuns_idle (hw : s.dev.whf = {}) (hp : s.prog q = none) (hr : s.runsOf q = []) :
    (stopRuns q).run s = (dropSteps q).run ((stopSets q).run s) := by
  have hprog : ((dropSteps q).run ((stopSets q).run s)).prog q = none := hp
  rw [dropSteps, stopSets] at hprog
  rw [stopRuns, Eff.run_read, hr, Eff.run_all_cons, Eff.run_all_cons, Eff.run_all_cons, Eff.run_all_cons, Eff.run_all_cons, Eff.run_all_done,
    Eff.run_each_nil, Eff.run_each_still (s := s) (xs := List.range 16), abortProg_none hprog, dropSteps, stopSets]
  intro k _
  simp [State.wset_empty hw]

theorem stopSets_whf (h : s.dev.whf = {}) : ((stopSets q).run s).dev.whf = {} := by
  have hrun : ((stopSets q).run s).dev.whf = { s.dev.whf with sets := s.dev.whf.sets.map fun e => (e.1, { e.2 with
      epoch := e.2.epoch.map fun r => if r.q = q then { r with posted := true, fail := r.fail.or (some 0x1C) } else r
      restore := e.2.restore.map fun r => if r.q = q then { r with posted := true, fail := r.fail.or (some 0x1C) } else r
      adopt := e.2.adopt.map fun r => if r.q = q then { r with posted := true, fail := r.fail.or (some 0x1C) } else r }) } := rfl
  rw [hrun, h]
  rfl

theorem post_empty (ho : (s.queue q).owed = []) (hc : (s.queue q).closing = true) :
    (post q).run s = (onQueue q Queue.parked).run ((putFld (rQueStatus q) 0 2 0).run s) := by
  rw [post, Eff.run_read, postLoop, Eff.run_read, ho]
  simp only [hc, Eff.run_when, if_true, Eff.run_andThen]

/-- The engines' part of DISABLE where no set is defined and no engine runs for the queue. -/
theorem disableTail_idle (hw : s.dev.whf = {}) (hp : s.prog q = none) (hr : s.runsOf q = []) (ho : (s.queue q).owed = [])
    (hc : (s.queue q).closing = true) : (Eff.all [dropRead (.sq q), stopRuns q, pumpWharf, post q]).run s =
    (onQueue q Queue.parked).run ((putFld (rQueStatus q) 0 2 0).run ((dropSteps q).run ((stopSets q).run ((dropRead (.sq q)).run s)))) := by
  have hwhf : ((dropSteps q).run ((stopSets q).run ((dropRead (.sq q)).run s))).dev.whf = {} := stopSets_whf (s := (dropRead (.sq q)).run s) hw
  rw [Eff.run_all_cons, Eff.run_all_cons, Eff.run_all_cons, Eff.run_all_cons, Eff.run_all_done,
    stopRuns_idle (s := (dropRead (.sq q)).run s) hw hp hr, pumpWharf_still hwhf, post_empty (by exact ho) (by exact hc)]

theorem disableTail_local (q : Nat) : (Eff.all [dropRead (.sq q), stopSets q, dropSteps q, putFld (rQueStatus q) 0 2 0, onQueue q Queue.parked]).Only
    (Act.Local fun _ => true) := by
  simp [dropRead, onReads, stopSets, onWhf, dropSteps, onSrv, onQueue_local]

theorem disableTail_queue (q : Nat) (s : State) :
    ((putFld (rQueStatus q) 0 2 0).run ((dropSteps q).run ((stopSets q).run ((dropRead (.sq q)).run s)))).queue q = s.queue q :=
  State.queue_of_work (by rw [putFld_run, Act.setReg_dev]; rfl) q

theorem queueDisable_idle (h : Writes s rd (rQueCtrl q) l) (hv : bitOf v 1 = true) (hst : s.qState q ≠ 0)
    (ho : (s.queue q).owed = []) (hr : s.engineRuns q = false) (hw : s.dev.whf = {}) :
    Completes (.queueDisable rd q v) s fun t => t.qState q = 0 ∧ t.queue q = (s.queue q).parked ∧ SameHbm s t ∧ SameGates s t := by
  have hqueue := closeQueue_queue q (s.written rd l)
  rw [State.written_queue] at hqueue
  simp only [State.engineRuns, Bool.or_eq_false_iff, Option.isSome_eq_false_iff, Option.isNone_iff_eq_none, Bool.not_eq_false', List.isEmpty_iff] at hr
  obtain ⟨hprog, hruns⟩ := hr
  have hkeep : ((closeQueue q).run (s.written rd l)).dev.whf = {} ∧ ((closeQueue q).run (s.written rd l)).dev.work.engines = s.dev.work.engines := by
    have hpart := Eff.Only.devKeeps (p := fun d => (d.whf, d.work.engines)) (e := closeQueue q) (by
      simp [closeQueue, beginClosing, endTaken, onQueue, onWork]) (s.written rd l)
    rw [State.written_keeps (p := fun d => (d.whf, d.work.engines)) (fun _ _ => rfl), hw] at hpart
    exact Prod.mk.inj hpart
  have hidle := disableTail_idle (s := (closeQueue q).run (s.written rd l)) (q := q) hkeep.1
    (by rw [State.prog, hqueue]; exact hprog) (by rw [State.runsOf, hkeep.2]; exact hruns)
    (by rw [hqueue, closingQueue, ho]; rfl) (by rw [hqueue, closingQueue])
  have hrun := exec_queueDisable h hv hst
  have hframe := ((s.written_frame rd l _).trans ((closeQueue_local _ q).frame _)).trans
    ((disableTail_local q).frame ((closeQueue q).run (s.written rd l)))
  simp only [Eff.run_all_cons, Eff.run_all_done] at hframe
  rw [hidle] at hrun
  refine ⟨_, hrun, ?_, ?_, hframe.1, hframe.2.1⟩
  · rw [State.qState, (onQueue_frame (fun _ => false) _ _ _).fld rfl, State.fld_putFld_lt (by decide) (by decide)]
  · rw [onQueue_queue, disableTail_queue, hqueue]
    rfl
end

/-- Settles O24, by what each command makes due, what ends a block's reset, and what DISABLE does to the queue itself. -/
theorem resetCommands : Obligations.ResetCommands := by
  refine ⟨fun s rd v l h hk h0 h1 hc => ⟨_, exec_go h hk h0 h1 hc, rfl, congrArg Keeper.dryReq (s.written_keep rd l),
      (s.written_frame rd l _).trans (Frame.of_dev _ _ _), s.written_out rd l⟩,
    fun s rd v l h hk h1 hc => ⟨_, exec_drydock h hk h1 hc, rfl, rfl,
      ((s.written_frame rd l _).trans (onKeep_frame _ _ _)).trans (Frame.of_dev _ _ _), s.written_out rd l⟩,
    fun s k hd hc => ⟨_, exec_blockReset hd hc, _, rfl, Frame.of_dev _ _ s, rfl, rfl, fun hk o ho => blockReset_regs hk ho _⟩,
    fun _ _ _ _ _ _ h hv hst => queueDisable_closes h hv hst, fun _ _ _ _ _ _ h hv hst ho hr hw _ => queueDisable_idle h hv hst ho hr hw⟩

end Sys2Proof.Machine
end

section
/-!
# Resets of the PCIe block, function resets and the trained link (R602, R603, R612, R613)
-/
namespace Sys2Proof.Machine
open Sys2Proof

/-! ### Basin resets that fall due together -/

section
variable {s : State}

theorem causeBasinReset_local (r : Nat → Bool) (b : Nat) : (causeBasinReset b).Only (Act.Local r) := by
  simp [causeBasinReset, onDue]

theorem causeBasinReset_silent (b : Nat) : (causeBasinReset b).Only Act.Silent := by
  simp [causeBasinReset, onDue]

theorem causeBasinReset_keepsPci (b : Nat) : (causeBasinReset b).Only (Act.Keeps fun d => d.pci) := by
  simp [causeBasinReset, onDue]

theorem causeBasinReset_mono {b c : Nat} (h : c ∈ s.dev.due.basins) : c ∈ ((causeBasinReset b).run s).dev.due.basins := by
  rw [causeBasinReset, Eff.run_read]
  split
  · exact mem_sins.mpr (.inr h)
  · exact h

theorem causeBasinReset_due {b : Nat} (hb : 1 ≤ b) (h15 : b ≤ 15) (ho : s.isOpen b = true) : b ∈ ((causeBasinReset b).run s).dev.due.basins := by
  rw [causeBasinReset_open hb h15 ho]
  exact mem_sins.mpr (.inl rfl)

theorem causeBasinReset_isOpen (b c : Nat) : ((causeBasinReset b).run s).isOpen c = s.isOpen c := by
  rw [State.isOpen, ((causeBasinReset_local (fun _ => false) b).frame s).fld rfl, State.isOpen]

theorem causeBasinResets_mono (bs : List Nat) {c : Nat} (h : c ∈ s.dev.due.basins) :
    c ∈ ((Eff.each bs causeBasinReset).run s).dev.due.basins := by
  induction bs generalizing s with
  | nil => exact h
  | cons b bs ih =>
    rw [Eff.run_each_cons]
    exact ih (causeBasinReset_mono h)

/-- Every OPEN tenant basin of a list has its reset due. -/
theorem causeBasinResets_due (bs : List Nat) {c : Nat} (hc : c ∈ bs) (h1 : 1 ≤ c) (h15 : c ≤ 15) (ho : s.isOpen c = true) :
    c ∈ ((Eff.each bs causeBasinReset).run s).dev.due.basins := by
  induction bs generalizing s with
  | nil => cases hc
  | cons b bs ih =>
    rw [Eff.run_each_cons]
    rcases List.mem_cons.mp hc with rfl | hc
    · exact causeBasinResets_mono bs (causeBasinReset_due h1 h15 ho)
    · exact ih hc (by rw [causeBasinReset_isOpen]; exact ho)

/-! ### VF Enable and configuration space -/

/-- The VFs cease to exist. -/
def endVfs : Eff := onPci fun p =>
  { p with
    vfEnable := false
    fns := p.fns.filter fun e => e.1 == 0
    vecs := p.vecs.filter fun e => decide (e.1 < 64)
    pending := p.pending.filter fun k => decide (k < 64) }

/-- Every tenant basin's reset is caused. -/
def resetTenants : Eff := Eff.each ((List.range 16).filter fun b => b != 0) causeBasinReset

theorem clearVfEnable_on (h : s.dev.pci.vfEnable = true) : clearVfEnable.run s = resetTenants.run (endVfs.run s) := by
  rw [clearVfEnable, Eff.run_read, Eff.run_when, if_pos h, Eff.run_andThen, endVfs, resetTenants]

theorem clearVfEnable_local (r : Nat → Bool) : clearVfEnable.Only (Act.Local r) := by
  simp [clearVfEnable, onPci, causeBasinReset_local]

theorem clearVfEnable_keepsBoard : clearVfEnable.Only (Act.Keeps fun d => d.board) := by
  simp [clearVfEnable, onPci, causeBasinReset, onDue]

theorem clearVfEnable_keepsReads : clearVfEnable.Only (Act.Keeps fun d => d.pci.reads) := by
  simp [clearVfEnable, onPci, causeBasinReset, onDue]

theorem resetTenants_local (r : Nat → Bool) : resetTenants.Only (Act.Local r) := by
  simp [resetTenants, causeBasinReset_local]

theorem resetTenants_silent : resetTenants.Only Act.Silent := by
  simp [resetTenants, causeBasinReset_silent]

theorem resetTenants_keepsPci : resetTenants.Only (Act.Keeps fun d => d.pci) := by
  simp [resetTenants, causeBasinReset_keepsPci]

theorem resetTenants_pci : (resetTenants.run s).dev.pci = s.dev.pci := resetTenants_keepsPci.devKeeps s

theorem configReset_run : configReset.run s = (onPci fun p => { reads := p.reads }).run (clearVfEnable.run s) := by
  rw [configReset, Eff.run_andThen]

theorem configReset_pci : (configReset.run s).dev.pci = { reads := s.dev.pci.reads } := by
  have hreads := clearVfEnable_keepsReads.devKeeps s
  rw [configReset_run]
  exact congrArg (fun l => ({ reads := l } : Pci)) hreads

theorem configReset_local (r : Nat → Bool) : configReset.Only (Act.Local r) := ⟨clearVfEnable_local r, onDev_only.mpr Act.local_dev⟩

theorem configReset_board : (configReset.run s).dev.board = s.dev.board := by
  rw [configReset_run]
  exact clearVfEnable_keepsBoard.devKeeps s

/-- An outbound read in flight ends in an error where its basin is one of some. -/
def State.failedRead (s : State) (p : Nat → Bool) (r : OutRead) : OutRead :=
  if r.got.isNone && p (s.readBasin r.user) then { r with got := some .error } else r

theorem endReads_pci (p : Nat → Bool) :
    ((endReads p).run s).dev.pci = { s.dev.pci with reads := s.dev.pci.reads.map (s.failedRead p) } := rfl

theorem endReads_local (r : Nat → Bool) (p : Nat → Bool) : (endReads p).Only (Act.Local r) := fun _ => onDev_only.mpr Act.local_dev

theorem endReads_all : ∀ r ∈ ((endReads fun _ => true).run s).dev.pci.reads, r.got.isSome = true := by
  rw [endReads_pci]
  intro r hr
  obtain ⟨x, -, hx⟩ := List.mem_map.mp hr
  rw [State.failedRead] at hx
  cases hg : x.got with
  | none => rw [← hx, if_pos (by simp [hg])]; rfl
  | some y => rw [← hx, if_neg (by simp [hg]), hg]; rfl

/-! ### PCIe resets (R612) -/

/-- What a PCIe reset does after configuration space and the outbound reads. -/
def linkFalls : Eff := Eff.all [dropRings, drivesOff, putFld rPciLink 0 9 0, bumpFld rPciLink 16 16 1]

/-- The state in which a PCIe reset goes on to the queues and drives. -/
def State.pciCleared (s : State) : State := (endReads fun _ => true).run (configReset.run s)

theorem pcieReset_run : pcieReset.run s = linkFalls.run s.pciCleared := by
  rw [pcieReset, linkFalls, State.pciCleared]
  simp only [Eff.run_all_cons, Eff.run_all_done]

theorem pciCleared_reset : ConfigReset s.pciCleared := by
  have hpci := endReads_pci (s := configReset.run s) fun _ => true
  rw [configReset_pci] at hpci
  rw [ConfigReset, State.pciCleared, hpci]
  refine ⟨rfl, rfl, rfl, rfl, rfl, ?_⟩
  rw [← hpci]
  exact endReads_all

theorem pciCleared_frame (r : Nat → Bool) : Frame r s s.pciCleared :=
  ((configReset_local r).frame s).trans ((endReads_local r _).frame _)

theorem pciCleared_board : s.pciCleared.dev.board = s.dev.board := configReset_board

/-- PERST_N is low. -/
def perstFalls : Eff := onBoard fun b => { b with perstHigh := false }

theorem exec_perstNLow (hp : s.dev.board.perstHigh = true) (hr : s.dev.board.poreset = false) :
    exec .perstNLow s = .next (linkFalls.run (perstFalls.run s).pciCleared) := by
  have hrun : effPerstNLow.run s = linkFalls.run (perstFalls.run s).pciCleared := by
    rw [effPerstNLow, Eff.run_read, Eff.run_when, if_pos hp, Eff.run_andThen, Eff.run_when, if_pos (by simp [hr]), pcieReset_run, perstFalls]
  exact congrArg Host.Outcome.next hrun

theorem effLinkLost_run (h : s.dlActive = true) : effLinkLost.run s = linkFalls.run s.pciCleared := by
  rw [effLinkLost, Eff.run_read, Eff.run_when, if_pos h, pcieReset_run]

/-! ### Function-level resets (R613) -/

theorem exec_pf0Flr (h : s.dlActive = true) : exec .pf0Flr s = .next ((Eff.andThen dropRings drivesOff).run
    ((endReads fun b => b == 0).run (configReset.run ((bumpFld rPciFlr 0 16 1).run s)))) := by
  have hrun : effPf0Flr.run s = (Eff.andThen dropRings drivesOff).run
      ((endReads fun b => b == 0).run (configReset.run ((bumpFld rPciFlr 0 16 1).run s))) := by
    rw [effPf0Flr, Eff.run_read, Eff.run_when, if_pos h, Eff.run_andThen]
    simp only [Eff.run_all_cons, Eff.run_all_done]
  exact congrArg Host.Outcome.next hrun

theorem pf0Flr_completes (h : s.dlActive = true) :
    Completes .pf0Flr s (Reaching (fun u => u.dev.pci.vfEnable = false ∧ u.dev.pci.fns = [] ∧ u.dev.pci.vecs = [] ∧
      u.fld rPciFlr 0 16 = satAdd 16 (s.fld rPciFlr 0 16) 1 ∧ Frame (fun o => o == rPciFlr) s u) (.andThen dropRings drivesOff)) := by
  have hpci := endReads_pci (s := configReset.run ((bumpFld rPciFlr 0 16 1).run s)) fun b => b == 0
  rw [configReset_pci] at hpci
  have hframe : ∀ r, Frame r ((bumpFld rPciFlr 0 16 1).run s) ((endReads fun b => b == 0).run (configReset.run ((bumpFld rPciFlr 0 16 1).run s))) :=
    fun r => ((configReset_local r).frame _).trans ((endReads_local r _).frame _)
  refine ⟨_, exec_pf0Flr h, _, ⟨by rw [hpci], by rw [hpci], by rw [hpci], ?_, (bumpFld_frame (by simp) _ _ _ s).trans (hframe _)⟩, rfl⟩
  rw [(hframe fun _ => false).fld rfl, State.fld_bumpFld _ (by decide)]

theorem exec_flr {b : Nat} (h : s.dlActive = true) (h1 : 1 ≤ b) (h15 : b ≤ 15) (hf : s.fnExists b = true) :
    exec (.flr b) s = .next ((causeBasinReset b).run ((resetFn b).run ((bumpFld rPciFlr 16 16 1).run s))) := by
  have hrun : (effFlr b).run s = (causeBasinReset b).run ((resetFn b).run ((bumpFld rPciFlr 16 16 1).run s)) := by
    rw [effFlr, Eff.run_read, Eff.run_when, if_pos (by simp [h, h1, h15, hf]), Eff.run_all_cons, Eff.run_all_cons, Eff.run_all_cons, Eff.run_all_done]
  exact congrArg Host.Outcome.next hrun

theorem resetFn_fns (b : Nat) : mget? ((resetFn b).run s).dev.pci.fns b = none := mget?_mdel _ b

theorem resetFn_vecs {b v : Nat} (hv : v < 64) : mget? ((resetFn b).run s).dev.pci.vecs (64 * b + v) = none :=
  mget?_filter_out (fun _ => by simp; omega) _

theorem resetFn_frame (r : Nat → Bool) (b : Nat) : Frame r s ((resetFn b).run s) := Frame.of_dev _ r s

theorem flr_completes {b : Nat} (h : s.dlActive = true) (h1 : 1 ≤ b) (h15 : b ≤ 15) (hf : s.fnExists b = true) :
    Completes (.flr b) s fun t => t.fld rPciFlr 16 16 = satAdd 16 (s.fld rPciFlr 16 16) 1 ∧ mget? t.dev.pci.fns b = none ∧
      (∀ v, v < 64 → mget? t.dev.pci.vecs (64 * b + v) = none) ∧ (s.isOpen b = true → b ∈ t.dev.due.basins) ∧ Frame (fun o => o == rPciFlr) s t ∧
      t.out = s.out := by
  have hpci := (causeBasinReset_keepsPci b).devKeeps ((resetFn b).run ((bumpFld rPciFlr 16 16 1).run s))
  have hcause := fun r => (causeBasinReset_local r b).frame ((resetFn b).run ((bumpFld rPciFlr 16 16 1).run s))
  have hfn := fun r => resetFn_frame (s := (bumpFld rPciFlr 16 16 1).run s) r b
  refine ⟨_, exec_flr h h1 h15 hf, ?_, ?_, fun v hv => ?_, fun ho => ?_, ?_, ?_⟩
  · rw [(hcause fun _ => false).fld rfl, (hfn fun _ => false).fld rfl, State.fld_bumpFld _ (by decide)]
  · rw [hpci, resetFn_fns]
  · rw [hpci, resetFn_vecs hv]
  · refine causeBasinReset_due h1 h15 ?_
    have hopen : (rLckBasin b == rPciFlr) = false := by simp [rLckBasin, rPciFlr]; omega
    rw [State.isOpen, (hfn fun _ => false).fld rfl, (bumpFld_frame (r := fun o => o == rPciFlr) (by simp) _ _ _ s).fld hopen]
    exact ho
  · exact ((bumpFld_frame (by simp) _ _ _ s).trans (hfn _)).trans (hcause _)
  · rw [(causeBasinReset_silent b).out, (Eff.Only.out (e := resetFn b) Act.silent_dev), bumpFld_out]

theorem exec_vfEnableClear (h : s.dlActive = true) (hv : s.dev.pci.vfEnable = true) : exec .vfEnableClear s = .next (resetTenants.run (endVfs.run s)) := by
  have hrun : effVfEnableClear.run s = resetTenants.run (endVfs.run s) := by
    rw [effVfEnableClear, Eff.run_read, Eff.run_when, if_pos h, clearVfEnable_on hv]
  exact congrArg Host.Outcome.next hrun

theorem endVfs_frame (r : Nat → Bool) : Frame r s (endVfs.run s) := Frame.of_dev _ r s

theorem vfEnableClear_completes (h : s.dlActive = true) (hv : s.dev.pci.vfEnable = true) :
    Completes .vfEnableClear s fun t => t.dev.pci.vfEnable = false ∧ (∀ f, 1 ≤ f → mget? t.dev.pci.fns f = none) ∧
        (∀ b, 1 ≤ b → b < 16 → s.isOpen b = true → b ∈ t.dev.due.basins) ∧ Frame (fun _ => false) s t ∧ t.out = s.out := by
  refine ⟨_, exec_vfEnableClear h hv, ?_, fun f hf => ?_, fun b h1 h16 ho => ?_, (endVfs_frame _).trans ((resetTenants_local _).frame _), ?_⟩
  · rw [resetTenants_pci]
    rfl
  · rw [resetTenants_pci]
    exact mget?_filter_out (fun _ => by simp; omega) s.dev.pci.fns
  · rw [resetTenants]
    exact causeBasinResets_due _ (by simp; omega) h1 (by omega) ho
  · rw [resetTenants_silent.out]
    rfl

/-! ### The trained link (R603) -/

/-- The endpoint as host software has configured it once the link trained. -/
def hostConfigured (c : PciConfig) (p : Pci) : Pci :=
  { reads := p.reads, fns := c.fns, vfEnable := c.vfEnable, numVfs := c.numVfs, mps := c.mps, mrrs := c.mrrs, tag10 := c.tag10, bar4 := c.bar4,
    cto := c.cto }

/-- The link is up, and the functions are as host software has configured them. -/
def linkComesUp (width rate : Nat) (c : PciConfig) : Eff := Eff.all
  [ onBoard fun b => { b with perstHigh := true }, putFld rPciLink 0 9 (width + rate * 32 + 256), onPci (hostConfigured c) ]

theorem exec_linkUp {width rate : Nat} {c : PciConfig} (hr : s.dev.board.poreset = false) (hd : s.dlActive = false) (hw : width ∈ [1, 2, 4, 8, 16])
    (h1 : 1 ≤ rate) (h5 : rate ≤ 5) (hc : c.ok = true) (hdry : s.dryDock = false) :
    exec (.linkUp width rate c) s = .next ((linkComesUp width rate c).run s) := by
  have hrun : (effLinkUp width rate c).run s = (linkComesUp width rate c).run s := by
    have hcond : (!s.dev.board.poreset && !s.dlActive && [1, 2, 4, 8, 16].contains width && decide (1 ≤ rate ∧ rate ≤ 5) && c.ok) = true := by
      simp only [hr, hd, hc, h1, h5, and_self, decide_true, Bool.not_false, Bool.true_and, Bool.and_true]
      exact List.contains_iff_mem.mpr hw
    rw [effLinkUp, Eff.run_read, Eff.run_when, if_pos hcond]
    simp only [hdry, Bool.false_eq_true, if_false, Bool.not_false, Bool.and_true]
    rfl
  exact congrArg Host.Outcome.next hrun

theorem linkComesUp_run (width rate : Nat) (c : PciConfig) (s : State) : (linkComesUp width rate c).run s =
    (onPci (hostConfigured c)).run ((putFld rPciLink 0 9 (width + rate * 32 + 256)).run
      ((onBoard fun b => { b with perstHigh := true }).run s)) := by
  rw [linkComesUp, Eff.run_all_cons, Eff.run_all_cons, Eff.run_all_cons, Eff.run_all_done]

/-- Parts of a field that has been set whole. -/
theorem State.fld_within_putFld {s : State} {off lo w : Nat} (x a k : Nat) (hw : lo + w ≤ 64) (hk : a + k ≤ w) :
    ((putFld off lo w x).run s).fld off (lo + a) k = bitsOf x a k := by
  rw [putFld_run, State.fld_setReg]
  apply Nat.eq_of_testBit_eq
  intro i
  rw [testBit_bitsOf, testBit_bitsOf, testBit_setFld _ _ _ _ _ hw]
  by_cases hi : i < k
  · rw [if_pos (by omega), show lo + a + i - lo = a + i by omega]
  · simp [hi]

theorem onPci_pci (g : Pci → Pci) (s : State) : ((onPci g).run s).dev.pci = g s.dev.pci := rfl

theorem linkComesUp_board (width rate : Nat) (c : PciConfig) (s : State) : ((linkComesUp width rate c).run s).dev.board = { s.dev.board with perstHigh := true } := by
  rw [linkComesUp_run, putFld_run]
  rfl

theorem linkComesUp_frame (width rate : Nat) (c : PciConfig) (s : State) : Frame (fun o => o == rPciLink) s ((linkComesUp width rate c).run s) :=
  Eff.Only.frame (by simp [linkComesUp, onBoard, onPci]) s

theorem linkComesUp_silent (width rate : Nat) (c : PciConfig) : (linkComesUp width rate c).Only Act.Silent := by
  simp [linkComesUp, onBoard, onPci]

theorem linkComesUp_link (width rate : Nat) (c : PciConfig) (s : State) {a k : Nat} (hk : a + k ≤ 9) :
    ((linkComesUp width rate c).run s).fld rPciLink a k = bitsOf (width + rate * 32 + 256) a k := by
  have hpci := fun (g : Pci → Pci) (u : State) => Frame.of_dev (fun d => { d with pci := g d.pci }) (fun _ => false) u
  have h := State.fld_within_putFld (s := (onBoard fun b => { b with perstHigh := true }).run s) (off := rPciLink) (lo := 0) (w := 9)
    (width + rate * 32 + 256) a k (by decide) hk
  rw [Nat.zero_add] at h
  rw [linkComesUp_run, ← h]
  exact (hpci _ _).fld rfl a k

theorem linkUp_completes {width rate : Nat} {c : PciConfig} (hr : s.dev.board.poreset = false) (hd : s.dlActive = false) (hw : width ∈ [1, 2, 4, 8, 16])
    (h1 : 1 ≤ rate) (h5 : rate ≤ 5) (hc : c.ok = true) (hdry : s.dryDock = false) :
    Completes (.linkUp width rate c) s fun t => t.fld rPciLink 0 5 = width ∧ t.fld rPciLink 5 3 = rate ∧ t.dlActive = true ∧ t.dev.board.perstHigh = true ∧
      t.dev.pci.fns = c.fns ∧ t.dev.pci.vfEnable = c.vfEnable ∧ t.dev.pci.numVfs = c.numVfs ∧ t.dev.pci.bar4 = c.bar4 ∧ t.dev.pci.cto = c.cto ∧
      Frame (fun o => o == rPciLink) s t ∧ t.out = s.out := by
  have hlt : width ≤ 16 := by
    simp only [List.mem_cons, List.not_mem_nil, or_false] at hw
    omega
  have hlink := fun {a k : Nat} (hk : a + k ≤ 9) => linkComesUp_link width rate c s hk
  have hpci : ((linkComesUp width rate c).run s).dev.pci = hostConfigured c s.dev.pci := by
    rw [linkComesUp_run, onPci_pci, putFld_run, Act.setReg_dev]
    rfl
  refine ⟨_, exec_linkUp hr hd hw h1 h5 hc hdry, ?_, ?_, ?_, by rw [linkComesUp_board], congrArg Pci.fns hpci, congrArg Pci.vfEnable hpci,
    congrArg Pci.numVfs hpci, congrArg Pci.bar4 hpci, congrArg Pci.cto hpci, linkComesUp_frame width rate c s, (linkComesUp_silent width rate c).out s⟩
  · rw [hlink (by decide), bitsOf, Nat.shiftRight_eq_div_pow]
    omega
  · rw [hlink (by decide), bitsOf, Nat.shiftRight_eq_div_pow]
    omega
  · have h8 : bitsOf (width + rate * 32 + 256) 8 1 = 1 := by
      rw [bitsOf, Nat.shiftRight_eq_div_pow]
      omega
    have hbit := hlink (a := 8) (k := 1) (by decide)
    rw [h8, State.fld, bitsOf] at hbit
    rw [State.dlActive, State.bit, bitOf]
    simpa using hbit
end

/-- Settles O27, by what a PCIe reset clears before the queues and drives, and what each function's reset leaves. -/
theorem pcieResets : Obligations.PcieResets :=
  ⟨fun s hp hr => ⟨_, exec_perstNLow hp hr, _, ⟨pciCleared_reset, congrArg Board.perstHigh pciCleared_board, (Frame.of_dev _ _ s).trans (pciCleared_frame _)⟩, rfl⟩,
    fun _ h => ⟨⟨_, congrArg Host.Outcome.next (effLinkLost_run h), _, ⟨pciCleared_reset, pciCleared_frame _⟩, rfl⟩,
      ⟨_, congrArg Host.Outcome.next (effLinkLost_run h), _, ⟨pciCleared_reset, pciCleared_frame _⟩, rfl⟩,
      pf0Flr_completes h, fun _ h1 h15 hf => flr_completes h h1 h15 hf, vfEnableClear_completes h⟩,
    fun _ _ _ _ => linkUp_completes⟩

end Sys2Proof.Machine
end

section
/-!
# BAR4 (R148, R379, R609)
-/
namespace Sys2Proof.Machine
open Sys2Proof

/-! ### What a refusal records (R146) -/

section
variable {s : State}

/-- What a refusal writes before it counts: the range, the information and the tick of LCK_LAST_b. -/
def lockLast (b first last : Nat) (a : Asker) (status : Nat) (window : Option Nat) : Eff := .read fun s => Eff.all
  [ putReg (rLckLast b 0) (first % 2 ^ 48), putReg (rLckLast b 1) (last % 2 ^ 48),
    putReg (rLckLast b 2) (status + a.agent * 2 ^ 8 + a.source * 2 ^ 12 + window.getD 0 * 2 ^ 24 + b2n window.isSome * 2 ^ 29 + a.requester * 2 ^ 30),
    putReg (rLckLast b 3) s.now ]

theorem lockLast_run (b first last : Nat) (a : Asker) (st : Nat) (w : Option Nat) : (lockLast b first last a st w).run s =
    (putReg (rLckLast b 3) s.now).run ((putReg (rLckLast b 2)
      (st + a.agent * 2 ^ 8 + a.source * 2 ^ 12 + w.getD 0 * 2 ^ 24 + b2n w.isSome * 2 ^ 29 + a.requester * 2 ^ 30)).run
        ((putReg (rLckLast b 1) (last % 2 ^ 48)).run ((putReg (rLckLast b 0) (first % 2 ^ 48)).run s))) := by
  rw [lockLast, Eff.run_read]
  simp only [Eff.run_all_cons, Eff.run_all_done]

theorem lockLast_first (b first last : Nat) (a : Asker) (st : Nat) (w : Option Nat) :
    ((lockLast b first last a st w).run s).reg (rLckLast b 0) = w64 (first % 2 ^ 48) := by
  rw [lockLast_run, putReg_run, State.reg_setReg_other (by simp [rLckLast]), putReg_run, State.reg_setReg_other (by simp [rLckLast]), putReg_run,
    State.reg_setReg_other (by simp [rLckLast]), putReg_run, State.reg_setReg]

theorem lockLast_status (b first last : Nat) (a : Asker) {st : Nat} (hst : st < 2 ^ 8) (w : Option Nat) :
    ((lockLast b first last a st w).run s).fld (rLckLast b 2) 0 8 = st := by
  rw [lockLast_run, putReg_run, State.fld_setReg_other (by simp [rLckLast]), putReg_run, State.fld_setReg, bitsOf, w64, BitVec.toNat_ofNat,
    Nat.shiftRight_zero]
  omega

theorem lockRefuse_run (b first last : Nat) (a : Asker) (st : Nat) (w : Option Nat) : (lockRefuse b first last a st w).run s =
    (countAt ((if st = 0x16 then 0x70 else 0x80) + b) 0).run ((bumpFld (rLckCount b) (if st = 0x16 then 0 else 32) 32 1).run
      ((lockLast b first last a st w).run s)) := by
  rw [lockRefuse, Eff.run_read, lockLast, Eff.run_read]
  simp only [Eff.run_all_cons, Eff.run_all_done]

theorem lockRefuse_last {b : Nat} (hb : b < 16) (first last : Nat) (a : Asker) (st : Nat) (w : Option Nat) (j : Nat) (hj : j < 4) :
    ((lockRefuse b first last a st w).run s).reg (rLckLast b j) = ((lockLast b first last a st w).run s).reg (rLckLast b j) := by
  have hsource : (if st = 0x16 then 0x70 else 0x80) + b < 0x90 := by split <;> omega
  have hlow : 0x70 ≤ (if st = 0x16 then 0x70 else 0x80) + b := by split <;> omega
  rw [lockRefuse_run, (countAt_frame (by omega) (by simp [retires]; omega) (by omega) 0 _).2.2 _ (by simp [fltBlock, rLckLast]; omega), bumpFld_run,
    State.reg_setReg_other (by simp [rLckLast, rLckCount]; omega)]

theorem lockRefuse_whf {b : Nat} (hb : b < 16) (first last : Nat) (a : Asker) (st : Nat) (w : Option Nat) :
    ((lockRefuse b first last a st w).run s).dev.whf = s.dev.whf := by
  have hsource : (if st = 0x16 then 0x70 else 0x80) + b < 0x90 := by split <;> omega
  have hlow : 0x70 ≤ (if st = 0x16 then 0x70 else 0x80) + b := by split <;> omega
  have hacts := collectorActs_keeps (p := fun d => d.whf) (fun _ _ => rfl) (fun _ _ => rfl) fun _ _ => rfl
  have hlast : (lockLast b first last a st w).Only (Act.Keeps fun d => d.whf) := by simp [lockLast]
  rw [lockRefuse_run, (hacts.countAt (by omega) (by simp [retires]; omega) (by omega) 0).devKeeps, bumpFld_dev, hlast.devKeeps]

/-! ### A refused TLP -/

/-- The refusal of a TLP from a requester of no READY drive. -/
def bar4Refuse (rid off len : Nat) : Eff :=
  .andThen (lockRefuse 0 off (off + len - 1) { agent := 5, source := 0xFFF, requester := rid } 0x17 none) (bumpFld rPciErr 48 16 1)

theorem bar4Refuse_whf (rid off len : Nat) : ((bar4Refuse rid off len).run s).dev.whf = s.dev.whf := by
  rw [bar4Refuse, Eff.run_andThen, bumpFld_dev, lockRefuse_whf (by decide)]

theorem bar4Refuse_same (rid off len : Nat) : SameHbm s ((bar4Refuse rid off len).run s) ∧ SameGates s ((bar4Refuse rid off len).run s) := by
  have hframe : Frame (fun o => lockRecord 0 o || o == rPciErr) s ((bar4Refuse rid off len).run s) :=
    (((lockRefuse_local (by decide) ..).frame s).mono fun o ho => by simp [ho]).trans (bumpFld_frame (by simp) ..)
  exact ⟨hframe.1, hframe.2.1⟩

theorem bar4Refuse_count (rid off len : Nat) : ((bar4Refuse rid off len).run s).fld rPciErr 48 16 = satAdd 16 (s.fld rPciErr 48 16) 1 := by
  rw [bar4Refuse, Eff.run_andThen, State.fld_bumpFld _ (by decide), ((lockRefuse_local (by decide) _ _ _ _ _).frame s).fld (by decide)]

theorem bar4Refuse_first (rid off len : Nat) : ((bar4Refuse rid off len).run s).reg (rLckLast 0 0) = w64 (off % 2 ^ 48) := by
  rw [bar4Refuse, Eff.run_andThen, bumpFld_run, State.reg_setReg_other (by decide), lockRefuse_last (by decide) _ _ _ _ _ _ (by decide), lockLast_first]

theorem bar4Refuse_status (rid off len : Nat) : ((bar4Refuse rid off len).run s).fld (rLckLast 0 2) 0 8 = 0x17 := by
  rw [bar4Refuse, Eff.run_andThen, bumpFld_run, State.fld_setReg_other (by decide), State.fld, lockRefuse_last (by decide) _ _ _ _ _ _ (by decide)]
  exact lockLast_status 0 off (off + len - 1) _ (by decide) none

/-! ### What a TLP runs -/

section
variable {rid off n : Nat} {bs : List Byte}

/-- A TLP that the endpoint takes and that asks for some bytes, outside dry-dock and with basin 0 OPEN. -/
structure Bar4Live (s : State) : Prop where
  active : s.dlActive = true
  mse : (s.fn 0).mse = true
  awake : s.asleep = false
  running : s.dryDock = false
  opened : s.isOpen 0 = true

theorem bar4Tlp_write_pass {d : Nat} {w : Window} (h : Bar4Live s) (hd : s.ridSlot rid = some d) (hr : s.drvState d = 1) (hb : bs ≠ [])
    (hw : bar4Check off (off + bs.length - 1) (rightW + rightD) = .pass w) : (bar4Tlp rid true off bs n).run s = (sramPut off bs).run s := by
  rw [bar4Tlp, Eff.run_read]
  simp [h.active, h.mse, h.awake, h.running, h.opened, hd, hr, hb, hw]

theorem bar4Tlp_read_pass {d : Nat} {w : Window} (h : Bar4Live s) (hd : s.ridSlot rid = some d) (hr : s.drvState d = 1) (hn : 0 < n)
    (hw : bar4Check off (off + n - 1) (rightR + rightD) = .pass w) :
    (bar4Tlp rid false off bs n).run s = (emit (.tlpData rid off (s.sram off n))).run s := by
  rw [bar4Tlp, Eff.run_read]
  simp [h.active, h.mse, h.awake, h.running, h.opened, hd, hr, hw, Nat.ne_of_gt hn]

theorem bar4Tlp_write_refused (h : Bar4Live s) (hd : s.ridSlot rid = none) (hb : bs ≠ []) :
    (bar4Tlp rid true off bs n).run s = (bar4Refuse rid off bs.length).run s := by
  rw [bar4Tlp, Eff.run_read]
  simp only [h.active, h.mse, h.awake, h.running, h.opened, hd, List.length_eq_zero_iff, hb, if_true, Bool.not_true, Bool.false_eq_true, if_false,
    Bool.or_false, decide_false, Eff.run_all_cons, Eff.run_all_done, Eff.run_when]
  rfl

theorem bar4Tlp_read_refused (h : Bar4Live s) (hd : s.ridSlot rid = none) (hn : 0 < n) :
    (bar4Tlp rid false off bs n).run s = (refuseUr 0).run ((bar4Refuse rid off n).run s) := by
  rw [bar4Tlp, Eff.run_read]
  simp only [h.active, h.mse, h.awake, h.running, h.opened, hd, Nat.ne_of_gt hn, Bool.not_true, Bool.not_false, Bool.false_eq_true, if_false, if_true,
    Bool.or_false, decide_false, Eff.run_all_cons, Eff.run_all_done, Eff.run_when]
  rfl

theorem bar4Tlp_write_closed (ha : s.dlActive = true) (hm : (s.fn 0).mse = true) (hs : s.asleep = false) (hc : s.dryDock = true ∨ s.isOpen 0 = false) :
    (bar4Tlp rid true off bs n).run s = s := by
  have hclosed : (s.dryDock || !s.isOpen 0) = true := by rcases hc with hc | hc <;> simp [hc]
  rw [bar4Tlp, Eff.run_read]
  simp [ha, hm, hs, hclosed]

theorem bar4Tlp_read_closed (ha : s.dlActive = true) (hm : (s.fn 0).mse = true) (hs : s.asleep = false) (hc : s.dryDock = true ∨ s.isOpen 0 = false)
    (hn : 0 < n) : (bar4Tlp rid false off bs n).run s = (refuseUr 0).run s := by
  have hclosed : (s.dryDock || !s.isOpen 0) = true := by rcases hc with hc | hc <;> simp [hc]
  rw [bar4Tlp, Eff.run_read]
  simp only [ha, hm, hs, hclosed, Nat.ne_of_gt hn, Bool.not_true, Bool.false_eq_true, if_false, if_true, decide_false, Bool.or_false]

theorem exec_bar4Tlp (write : Bool) {t : State} (h : (bar4Tlp rid write off bs n).run s = t) : exec (.bar4Tlp rid write off bs n) s = .next t :=
  congrArg Host.Outcome.next h
end

theorem refuseUr_same (rd : Nat) {t : State} (h : SameHbm s t ∧ SameGates s t) :
    SameHbm s ((refuseUr rd).run t) ∧ SameGates s ((refuseUr rd).run t) := by
  have hframe := refuseUr_frame t rd
  exact ⟨h.1.trans hframe.1, h.2.trans hframe.2.1⟩

theorem refuseUr_dev (rd : Nat) : ((refuseUr rd).run s).dev = s.dev := by
  rw [refuseUr, Eff.run_andThen, countUr, emit_run, Act.emit_dev, bumpFld_dev]

theorem refuseUr_count (rd : Nat) : ((refuseUr rd).run s).fld rPciErr 48 16 = s.fld rPciErr 48 16 := by
  have hemit : ∀ t : State, (Act.run t (.emit (.unsupportedRequest rd))).fld rPciErr 48 16 = t.fld rPciErr 48 16 := fun _ => rfl
  rw [refuseUr, Eff.run_andThen, emit_run, hemit, countUr, bumpFld_run, State.fld_setReg,
    bitsOf_setFld_other _ _ _ _ _ _ (by decide) (by decide), State.fld]

/-- Bytes put into the wharf memories stand there, and the others stay. -/
theorem sramPut_sram (off : Nat) (bs : List Byte) : ((sramPut off bs).run s).dev.whf.sram = memWrite s.dev.whf.sram off bs := rfl
end

/-- Settles O39, by what a TLP runs where its requester is a READY drive, where it is none, and in dry-dock. -/
theorem bar4 : Obligations.Bar4 := by
  refine ⟨fun s rid off n d bs w ha hm hs hdry ho hd hr => ⟨fun hb hw => ?_, fun hn hw => ?_⟩, fun s rid off n bs ha hm hs hdry ho hd hb hn => ⟨?_, ?_⟩,
    fun s rid off n bs ha hm hs hc hb hn => ⟨?_, ?_⟩⟩
  · refine ⟨_, exec_bar4Tlp _ (bar4Tlp_write_pass ⟨ha, hm, hs, hdry, ho⟩ hd hr hb hw), fun i hi => ?_, fun a hout => ?_, Frame.of_dev _ _ s, rfl⟩
    · rw [sramPut_sram, mget_memWrite bs i hi, getD_of_lt hi]
    · rw [sramPut_sram, mget_memWrite_other bs hout]
  · exact ⟨_, exec_bar4Tlp _ (bar4Tlp_read_pass ⟨ha, hm, hs, hdry, ho⟩ hd hr hn hw), rfl, rfl,
      Eff.Only.frame (e := emit _) (emit_only.mpr Act.local_emit) s⟩
  · have hsame := bar4Refuse_same (s := s) rid off bs.length
    exact ⟨_, exec_bar4Tlp _ (bar4Tlp_write_refused ⟨ha, hm, hs, hdry, ho⟩ hd hb), congrArg Wharf.sram (bar4Refuse_whf ..), bar4Refuse_count .., bar4Refuse_status ..,
      bar4Refuse_first .., hsame⟩
  · have hsame := refuseUr_same 0 (bar4Refuse_same (s := s) rid off n)
    refine ⟨_, exec_bar4Tlp _ (bar4Tlp_read_refused ⟨ha, hm, hs, hdry, ho⟩ hd hn), ?_, by rw [refuseUr_out]; rfl, ?_, ?_, hsame⟩
    · rw [refuseUr_dev, bar4Refuse_whf]
    · rw [refuseUr_count, bar4Refuse_count]
    · rw [(refuseUr_frame _ 0).fld (by decide), bar4Refuse_status]
  · exact ⟨_, exec_bar4Tlp _ (bar4Tlp_write_closed ha hm hs hc), rfl⟩
  · exact ⟨_, exec_bar4Tlp _ (bar4Tlp_read_closed ha hm hs hc hn), by rw [refuseUr_dev], by rw [refuseUr_out]; rfl,
      refuseUr_same 0 ⟨(Frame.refl (fun _ => false) s).1, (Frame.refl (fun _ => false) s).2.1⟩⟩

end Sys2Proof.Machine
end

section
/-!
# Codec tables: their commands (R217, R229, R230, R232)
-/
namespace Sys2Proof.Machine
open Sys2Proof

/-! ### What a table command runs -/

section
variable {s : State} {rd b n : Nat} {l : Loc}

/-- A command's word spells its table and its operation. -/
theorem bitsOf_command {op : Nat} (hn : n < 256) (hop : op < 8) :
    bitsOf (bitsOf n 0 8 + op * 256) 0 8 = n ∧ bitsOf (bitsOf n 0 8 + op * 256) 8 3 = op := by
  simp only [bitsOf, Nat.shiftRight_eq_div_pow]
  omega

/-- The operation that a table command names. -/
def tableOp (b n : Nat) : Nat → Eff
  | 1 => tableLoad b n
  | 2 => tableSurveyStart b n
  | 3 => tableSurveyFinish b n
  | 4 => tableInvalidate b n
  | 5 => tableFetch b n
  | _ => .skip

theorem tableCmd_run {op : Nat} (hn : n < 256) (h1 : 1 ≤ op) (h5 : op ≤ 5) (ho : s.isOpen b = true) :
    (tableCmd b (bitsOf n 0 8 + op * 256)).run s = (tableOp b n op).run s := by
  obtain ⟨htable, hop⟩ := bitsOf_command (n := n) (op := op) hn (by omega)
  simp only [tableCmd, Eff.run_read, ho, htable, hop, Bool.not_true, Bool.false_eq_true, if_false]
  obtain rfl | rfl | rfl | rfl | rfl : op = 1 ∨ op = 2 ∨ op = 3 ∨ op = 4 ∨ op = 5 := by omega
  all_goals rfl

theorem effTableCmd_run {op : Nat} (hn : n < 256) (h1 : 1 ≤ op) (h5 : op ≤ 5) (hw : Writes s rd (rCdcCmd b) l) (ho : s.isOpen b = true) :
    (effTableCmd rd b n op).run s = (tableOp b n op).run (s.written rd l) := by
  have hopen : (s.written rd l).isOpen b = true := by rw [State.isOpen, State.written_fld]; exact ho
  rw [effTableCmd, writeReg_run hw, tableCmd_run hn h1 h5 hopen]

theorem State.tblOwned_written (rd : Nat) (l : Loc) (b n : Nat) : (s.written rd l).tblOwned b n = s.tblOwned b n := by
  rw [State.tblOwned, State.written_bit, State.written_fld, State.tblOwned]

theorem State.tblState_written (rd : Nat) (l : Loc) (n : Nat) : (s.written rd l).tblState n = s.tblState n := s.written_fld rd l _ _ _

theorem State.surveys_written (rd : Nat) (l : Loc) (b n : Nat) : (s.written rd l).surveys b n = s.surveys b n := by
  rw [State.surveys, State.written_bit, State.written_fld, State.surveys]

theorem State.staged_written (rd : Nat) (l : Loc) (b : Nat) : (s.written rd l).staged b = s.staged b := by
  simp only [State.staged, State.written_fld]

theorem State.codec_written (rd : Nat) (l : Loc) : (s.written rd l).dev.codec = s.dev.codec := by
  obtain ⟨r, hr⟩ := s.written_eq rd l
  rw [hr]

theorem State.img_written (rd : Nat) (l : Loc) : (s.written rd l).dev.img = s.dev.img := by
  obtain ⟨r, hr⟩ := s.written_eq rd l
  rw [hr]
end

/-! ### The change of a table's state -/

section
variable {s v : State} {b n op st : Nat} {e : Eff}

/-- An effect that changes the basin's survey register at most. -/
structure SurveyOnly (b : Nat) (e : Eff) : Prop where
  within : e.Only (Act.Local fun o => o == rCdcSurvey b)
  silent : e.Only Act.Silent
  engines : e.Only (Act.Keeps fun d => d)

theorem surveyOnly_skip (b : Nat) : SurveyOnly b .skip := ⟨trivial, trivial, trivial⟩

theorem surveyOnly_end (b : Nat) : SurveyOnly b (endSurvey b) :=
  ⟨fun _ => Act.local_setReg.mpr (by simp), fun _ => trivial, fun _ => trivial⟩

theorem surveyOnly_when {c : Bool} (h : SurveyOnly b e) : SurveyOnly b (Eff.when c e) :=
  ⟨Eff.only_when.mpr fun _ => h.within, Eff.only_when.mpr fun _ => h.silent, Eff.only_when.mpr fun _ => h.engines⟩

/-- A table takes a state, something happens to the survey, and the outcome OK is shown. -/
def tableTurns (b n op st : Nat) (e : Eff) : Eff := Eff.all [setTable n st, e, cdcResult b n op 0]

theorem tableTurns_run : (tableTurns b n op st e).run v = (cdcResult b n op 0).run (e.run ((setTable n st).run v)) := by
  rw [tableTurns, Eff.run_all_cons, Eff.run_all_cons, Eff.run_all_cons, Eff.run_all_done]

theorem setTable_run : (setTable n st).run v =
    (putFld (rCdcTbl n) 16 16 (v.fld (rCdcTbl n) 16 16 + 1)).run ((putFld (rCdcTbl n) 5 2 st).run v) := by
  rw [setTable, Eff.run_read, Eff.run_andThen]

theorem setTable_frame : Frame (fun o => o == rCdcTbl n) v ((setTable n st).run v) := Eff.Only.frame (by simp [setTable]) v

theorem tableTurns_dev (he : SurveyOnly b e) : ((tableTurns b n op st e).run v).dev = v.dev := by
  refine Eff.Only.devKeeps (p := fun d => d) ?_ v
  simp [tableTurns, setTable, cdcResult, he.engines]

theorem tableTurns_out (he : SurveyOnly b e) : ((tableTurns b n op st e).run v).out = v.out := by
  refine Eff.Only.out ?_ v
  simp [tableTurns, setTable, cdcResult, he.silent]

theorem tableTurns_frame (he : SurveyOnly b e) :
    Frame (fun o => o == rCdcTbl n || o == rCdcResult b || o == rCdcSurvey b) v ((tableTurns b n op st e).run v) := by
  rw [tableTurns_run]
  exact ((setTable_frame.mono fun o ho => by simp [beq_iff_eq.mp ho]).trans ((he.within.frame _).mono fun o ho => by simp [beq_iff_eq.mp ho])).trans
    (setReg_frame _ (by simp))

theorem tableTurns_frame_skip : Frame (fun o => o == rCdcTbl n || o == rCdcResult b) v ((tableTurns b n op st .skip).run v) := by
  rw [tableTurns_run]
  exact (setTable_frame.mono fun o ho => by simp [beq_iff_eq.mp ho]).trans (setReg_frame _ (by simp))

theorem tableTurns_survey (hb : b < 16) :
    ((tableTurns b n op st e).run v).reg (rCdcSurvey b) = (e.run ((setTable n st).run v)).reg (rCdcSurvey b) := by
  rw [tableTurns_run, cdcResult, putReg_run, State.reg_setReg_other (by simp [rCdcSurvey, rCdcResult]; omega)]

/-- The table has its new state, its GEN is one more, and the outcome shows. -/
theorem tableTurns_now (hb : b < 16) (hn : n < 256) (hst : st < 4) (he : SurveyOnly b e) :
    TableNow v b n op st ((tableTurns b n op st e).run v) := by
  have hfld : ∀ lo w, ((tableTurns b n op st e).run v).fld (rCdcTbl n) lo w = ((setTable n st).run v).fld (rCdcTbl n) lo w := fun lo w => by
    rw [tableTurns_run, cdcResult, putReg_run, State.fld_setReg_other (by simp [rCdcTbl, rCdcResult]; omega),
      (he.within.frame _).fld (by simp [rCdcTbl, rCdcSurvey]; omega)]
  refine ⟨?_, ?_, ?_, tableTurns_out he⟩
  · rw [State.tblState, hfld, setTable_run, State.fld_putFld_apart _ (by decide) (by decide), State.fld_putFld _ (by decide)]
    exact Nat.mod_eq_of_lt hst
  · rw [hfld, setTable_run, State.fld_putFld _ (by decide)]
  · rw [tableTurns_run, cdcResult, putReg_run, State.reg_setReg, Nat.zero_mul, Nat.add_zero]

theorem TableNow.of_same {t : State} (h : TableNow v b n op st t) (hf : v.fld (rCdcTbl n) 16 16 = s.fld (rCdcTbl n) 16 16) (ho : v.out = s.out) :
    TableNow s b n op st t := by
  obtain ⟨hstate, hgen, hresult, hout⟩ := h
  exact ⟨hstate, by rw [hgen, hf], hresult, hout.trans ho⟩
end

/-! ### The operations -/

section
variable {s : State} {rd b n : Nat} {l : Loc}

theorem loadLens_frame (r : Nat → Bool) (n : Nat) (lens : List Nat) (u : State) : Frame r u ((loadLens n lens).run u) := Frame.of_dev _ r u

theorem loadLens_lens (n : Nat) (lens : List Nat) (u : State) : ((loadLens n lens).run u).tblLens n = lens := by
  show (mget? (mput u.dev.codec.tables n lens) n).getD _ = lens
  rw [mget?_mput]
  rfl

/-- The lengths of a table are a part of the engines. -/
theorem State.tblLens_of_dev {s t : State} (h : t.dev = s.dev) (n : Nat) : t.tblLens n = s.tblLens n := by
  rw [State.tblLens, h, State.tblLens]

theorem lensValid_short {lens : List Nat} (h : lensValid lens = true) : lens.any (fun k => decide (15 < k)) = false := by
  simp only [lensValid, Bool.and_eq_true, List.all_eq_true, decide_eq_true_eq] at h
  rw [List.any_eq_false]
  intro k hk
  have hle := h.1.2 k hk
  simp only [decide_eq_true_eq]
  omega

theorem tableLoad_run (ho : s.tblOwned b n = true) (hs : s.tblState n ≠ 2) (hc : s.dev.img.codecFail = false) (hv : lensValid (s.staged b) = true) :
    (tableLoad b n).run s = (tableTurns b n 1 1 .skip).run ((loadLens n (s.staged b)).run s) := by
  rw [tableLoad, Eff.run_read]
  simp only [ho, hs, hc, hv, lensValid_short hv, Bool.not_true, decide_false, Bool.or_false, Bool.false_eq_true, if_false]
  rw [Eff.run_all_cons, Eff.run_all_cons, Eff.run_all_cons, Eff.run_all_done, tableTurns_run, Eff.run_skip]

/-- The basin's histogram is emptied, and its survey register names the table. -/
def surveyOpens (b n : Nat) : Eff := .andThen (clearHist b) (putReg (rCdcSurvey b) (n * 2 ^ 48 + 2 ^ 63))

theorem tableSurveyStart_run (ho : s.tblOwned b n = true) (hs : s.tblState n ≠ 2) (hv : s.bit (rCdcSurvey b) 63 = false) (hc : s.dev.img.codecFail = false) :
    (tableSurveyStart b n).run s = (tableTurns b n 2 2 .skip).run ((surveyOpens b n).run s) := by
  rw [tableSurveyStart, Eff.run_read]
  simp only [ho, hs, hc, hv, Bool.not_true, decide_false, Bool.or_false, Bool.false_eq_true, if_false]
  rw [Eff.run_all_cons, Eff.run_all_cons, Eff.run_all_cons, Eff.run_all_cons, Eff.run_all_done, tableTurns_run, Eff.run_skip, surveyOpens, Eff.run_andThen]

theorem surveyOpens_frame (b n : Nat) (u : State) : Frame (fun o => o == rCdcSurvey b) u ((surveyOpens b n).run u) :=
  (Frame.of_dev _ _ u).trans (setReg_frame _ (by simp))

theorem surveyOpens_reg (b n : Nat) (u : State) : ((surveyOpens b n).run u).reg (rCdcSurvey b) = w64 (n * 2 ^ 48 + 2 ^ 63) := by
  rw [surveyOpens, Eff.run_andThen, putReg_run, State.reg_setReg]

theorem surveyOpens_dev (b n : Nat) (u : State) : ((surveyOpens b n).run u).dev = ((clearHist b).run u).dev := by
  rw [surveyOpens, Eff.run_andThen, putReg_run, Act.setReg_dev]

theorem surveyOpens_out (b n : Nat) (u : State) : ((surveyOpens b n).run u).out = u.out := by
  rw [surveyOpens, Eff.run_andThen, putReg_run, Act.setReg_out]
  rfl

theorem clearHist_count (b : Nat) (u : State) {x : Nat} (hx : x < 256) : mget 0 ((clearHist b).run u).dev.codec.hist (256 * b + x) = 0 := by
  show (mget? (u.dev.codec.hist.filter fun e => e.1 / 256 != b) (256 * b + x)).getD 0 = 0
  rw [mget?_filter_out fun _ => by simp; omega]
  rfl

/-- A survey register that names a table: the survey is active on it, with nothing counted. -/
theorem survey_word (hn : n < 256) : bitOf (w64 (n * 2 ^ 48 + 2 ^ 63)).toNat 63 = true ∧ bitsOf (w64 (n * 2 ^ 48 + 2 ^ 63)).toNat 48 8 = n ∧
    bitsOf (w64 (n * 2 ^ 48 + 2 ^ 63)).toNat 0 48 = 0 := by
  rw [toNat_w64 (by omega)]
  simp only [bitOf, bitsOf, Nat.shiftRight_eq_div_pow, beq_iff_eq]
  omega

theorem tableSurveyFinish_run (ho : s.tblOwned b n = true) (hs : s.surveys b n = true) : (tableSurveyFinish b n).run s =
    (tableTurns b n 3 1 (endSurvey b)).run ((loadLens n (buildLens fun x => mget 0 s.dev.codec.hist (256 * b + x))).run s) := by
  rw [tableSurveyFinish, Eff.run_read]
  simp only [ho, hs, Bool.not_true, Bool.false_eq_true, if_false]
  rw [Eff.run_all_cons, Eff.run_all_cons, Eff.run_all_cons, Eff.run_all_cons, Eff.run_all_done, tableTurns_run]

theorem tableInvalidate_run (ho : s.tblOwned b n = true) :
    (tableInvalidate b n).run s = (tableTurns b n 4 0 (Eff.when (s.surveys b n) (endSurvey b))).run s := by
  rw [tableInvalidate, Eff.run_read]
  simp only [ho, Bool.not_true, Bool.false_eq_true, if_false]
  rfl

theorem State.surveys_of_reg {s t : State} (h : t.reg (rCdcSurvey b) = s.reg (rCdcSurvey b)) (n : Nat) : t.surveys b n = s.surveys b n := by
  rw [State.surveys, State.bit, State.fld, h, State.surveys, State.bit, State.fld]

/-- A survey that has been ended is active on no table. -/
theorem endSurvey_surveys (b n : Nat) (u : State) : ((endSurvey b).run u).surveys b n = false := by
  rw [State.surveys, endSurvey, State.bit_putBit false (by decide)]
  rfl

/-! ### Fetching lengths -/

/-- Registers put in turn, no two the same, each hold their own value. -/
theorem putRegs_reg {f g : Nat → Nat} {xs : List Nat} {w : Nat} (hf : ∀ x ∈ xs, ∀ y ∈ xs, f x = f y → x = y) (hw : w ∈ xs) (u : State) :
    ((Eff.each xs fun x => putReg (f x) (g x)).run u).reg (f w) = w64 (g w) := by
  induction xs generalizing u with
  | nil => cases hw
  | cons x xs ih =>
    rw [Eff.run_each_cons]
    by_cases hin : w ∈ xs
    · exact ih (fun a ha c hc => hf a (List.mem_cons_of_mem _ ha) c (List.mem_cons_of_mem _ hc)) hin _
    · obtain rfl : w = x := (List.mem_cons.mp hw).resolve_right hin
      have hrest : (Eff.each xs fun y => putReg (f y) (g y)).Only (Act.Within fun o => o != f w) := by
        refine Eff.only_each.mpr fun y hy => bne_iff_ne.mpr fun e => hin ?_
        rw [← hf y (List.mem_cons_of_mem _ hy) w hw e]
        exact hy
      rw [hrest.regsBut _ (f w) (by simp), putReg_run, State.reg_setReg]

/-- The word of the staging area that four of a table's lengths make. -/
def fetchWord (lens : List Nat) (w : Nat) : Nat := leNat ((List.range 4).map fun i => BitVec.ofNat 8 (lens.getD (4 * w + i) 0))

theorem tableFetch_run (ho : s.tblOwned b n = true) : (tableFetch b n).run s =
    (cdcResult b n 5 0).run ((Eff.each (List.range 64) fun w => putReg (rCdcStage b w) (fetchWord (s.tblLens n) w)).run s) := by
  rw [tableFetch, Eff.run_read]
  simp only [ho, Bool.not_true, Bool.false_eq_true, if_false]
  rfl

/-! ### A table of another basin -/

theorem tableOp_notOwned {op : Nat} (h1 : 1 ≤ op) (h5 : op ≤ 5) (ho : s.tblOwned b n = false) :
    (tableOp b n op).run s = (cdcResult b n op 1).run s := by
  obtain rfl | rfl | rfl | rfl | rfl : op = 1 ∨ op = 2 ∨ op = 3 ∨ op = 4 ∨ op = 5 := by omega
  · rw [tableOp, tableLoad, Eff.run_read]
    simp only [ho, Bool.not_false, if_true]
  · rw [tableOp, tableSurveyStart, Eff.run_read]
    simp only [ho, Bool.not_false, if_true]
  · rw [tableOp, tableSurveyFinish, Eff.run_read]
    simp only [ho, Bool.not_false, if_true]
  · rw [tableOp, tableInvalidate, Eff.run_read]
    simp only [ho, Bool.not_false, if_true]
  · rw [tableOp, tableFetch, Eff.run_read]
    simp only [ho, Bool.not_false, if_true]

/-! ### The commands -/

theorem exec_tableCmd {c : Instr} {op : Nat} (hc : exec c s = (effTableCmd rd b n op).done s) (hn : n < 256) (h1 : 1 ≤ op) (h5 : op ≤ 5)
    (hw : Writes s rd (rCdcCmd b) l) (ho : s.isOpen b = true) : exec c s = .next ((tableOp b n op).run (s.written rd l)) := by
  rw [hc, Eff.done_eq, effTableCmd_run hn h1 h5 hw ho]

theorem load_completes (h : TableCommand s rd b n) (hs : s.tblState n ≠ 2) (hc : s.dev.img.codecFail = false) (hv : lensValid (s.staged b) = true) :
    Completes (.load rd b n) s fun t => t.tblLens n = s.staged b ∧ TableNow s b n 1 1 t ∧ Frame (fun o => o == rCdcTbl n || o == rCdcResult b) s t := by
  obtain ⟨hb, hn, ⟨l, hw⟩, hopen, hown⟩ := h
  refine ⟨_, exec_tableCmd rfl hn (by decide) (by decide) hw hopen, ?_⟩
  rw [tableOp, tableLoad_run (by rwa [State.tblOwned_written]) (by rwa [State.tblState_written]) (by rwa [State.img_written])
    (by rwa [State.staged_written]), State.staged_written]
  have hload := fun r => loadLens_frame r n (s.staged b) (s.written rd l)
  refine ⟨?_, TableNow.of_same (tableTurns_now hb hn (by decide) (surveyOnly_skip b)) ?_ (s.written_out rd l), ?_⟩
  · rw [State.tblLens_of_dev (tableTurns_dev (surveyOnly_skip b)), loadLens_lens]
  · rw [(hload fun _ => false).fld rfl, State.written_fld]
  · exact ((s.written_frame rd l _).trans (hload _)).trans tableTurns_frame_skip

theorem surveyStart_completes (h : TableCommand s rd b n) (hs : s.tblState n ≠ 2) (hv : s.bit (rCdcSurvey b) 63 = false) (hc : s.dev.img.codecFail = false) :
    Completes (.surveyStart rd b n) s fun t => t.surveys b n = true ∧ t.fld (rCdcSurvey b) 0 48 = 0 ∧
      (∀ x, x < 256 → mget 0 t.dev.codec.hist (256 * b + x) = 0) ∧ TableNow s b n 2 2 t ∧
      Frame (fun o => o == rCdcTbl n || o == rCdcResult b || o == rCdcSurvey b) s t := by
  obtain ⟨hb, hn, ⟨l, hw⟩, hopen, hown⟩ := h
  refine ⟨_, exec_tableCmd rfl hn (by decide) (by decide) hw hopen, ?_⟩
  rw [tableOp, tableSurveyStart_run (by rwa [State.tblOwned_written]) (by rwa [State.tblState_written]) (by rwa [State.written_bit])
    (by rwa [State.img_written])]
  have hreg : ((tableTurns b n 2 2 .skip).run ((surveyOpens b n).run (s.written rd l))).reg (rCdcSurvey b) = w64 (n * 2 ^ 48 + 2 ^ 63) := by
    rw [tableTurns_survey hb, Eff.run_skip, setTable_frame.2.2 _ (by simp [rCdcTbl, rCdcSurvey]; omega), surveyOpens_reg]
  obtain ⟨hactive, htable, hcount⟩ := survey_word hn
  have hopens := surveyOpens_frame b n (s.written rd l)
  refine ⟨?_, ?_, fun x hx => ?_, TableNow.of_same (tableTurns_now hb hn (by decide) (surveyOnly_skip b)) ?_ ?_, ?_⟩
  · rw [State.surveys, State.bit, State.fld, hreg, hactive, htable]
    simp
  · rw [State.fld, hreg, hcount]
  · rw [tableTurns_dev (surveyOnly_skip b), surveyOpens_dev, clearHist_count b _ hx]
  · rw [hopens.fld (by simp [rCdcTbl, rCdcSurvey]; omega), State.written_fld]
  · rw [surveyOpens_out, State.written_out]
  · exact ((s.written_frame rd l _).trans (hopens.mono fun o ho => by simp [beq_iff_eq.mp ho])).trans (tableTurns_frame (surveyOnly_skip b))

theorem surveyFinish_completes (h : TableCommand s rd b n) (hs : s.surveys b n = true) :
    Completes (.surveyFinish rd b n) s fun t => t.tblLens n = buildLens (fun x => mget 0 s.dev.codec.hist (256 * b + x)) ∧ t.surveys b n = false ∧
      TableNow s b n 3 1 t ∧ Frame (fun o => o == rCdcTbl n || o == rCdcResult b || o == rCdcSurvey b) s t := by
  obtain ⟨hb, hn, ⟨l, hw⟩, hopen, hown⟩ := h
  refine ⟨_, exec_tableCmd rfl hn (by decide) (by decide) hw hopen, ?_⟩
  rw [tableOp, tableSurveyFinish_run (by rwa [State.tblOwned_written]) (by rwa [State.surveys_written]), State.codec_written]
  have hload := fun r => loadLens_frame r n (buildLens fun x => mget 0 s.dev.codec.hist (256 * b + x)) (s.written rd l)
  refine ⟨?_, ?_, TableNow.of_same (tableTurns_now hb hn (by decide) (surveyOnly_end b)) ?_ (s.written_out rd l), ?_⟩
  · rw [State.tblLens_of_dev (tableTurns_dev (surveyOnly_end b)), loadLens_lens]
  · rw [State.surveys_of_reg (tableTurns_survey hb), endSurvey_surveys]
  · rw [(hload fun _ => false).fld rfl, State.written_fld]
  · exact ((s.written_frame rd l _).trans (hload _)).trans (tableTurns_frame (surveyOnly_end b))

theorem invalidate_completes (h : TableCommand s rd b n) : Completes (.invalidate rd b n) s fun t =>
    t.surveys b n = false ∧ TableNow s b n 4 0 t ∧ Frame (fun o => o == rCdcTbl n || o == rCdcResult b || o == rCdcSurvey b) s t := by
  obtain ⟨hb, hn, ⟨l, hw⟩, hopen, hown⟩ := h
  refine ⟨_, exec_tableCmd rfl hn (by decide) (by decide) hw hopen, ?_⟩
  rw [tableOp, tableInvalidate_run (by rwa [State.tblOwned_written]), State.surveys_written]
  have honly : SurveyOnly b (Eff.when (s.surveys b n) (endSurvey b)) := surveyOnly_when (surveyOnly_end b)
  refine ⟨?_, TableNow.of_same (tableTurns_now hb hn (by decide) honly) (s.written_fld ..) (s.written_out rd l), (s.written_frame rd l _).trans (tableTurns_frame honly)⟩
  rw [State.surveys_of_reg (tableTurns_survey hb), Eff.run_when]
  cases hsurvey : s.surveys b n
  · rw [if_neg (by simp), State.surveys_of_reg (setTable_frame.2.2 _ (by simp [rCdcTbl, rCdcSurvey]; omega)), State.surveys_written, hsurvey]
  · rw [if_pos rfl, endSurvey_surveys]

theorem fetch_completes (h : TableCommand s rd b n) : Completes (.fetch rd b n) s fun t => t.reg (rCdcResult b) = w64 (n + 5 * 2 ^ 8) ∧
    (∀ w, w < 64 → t.reg (rCdcStage b w) = w64 (fetchWord (s.tblLens n) w)) ∧
    Frame (fun o => o == rCdcResult b || (List.range 64).any (fun w => o == rCdcStage b w)) s t ∧ t.out = s.out := by
  obtain ⟨hb, hn, ⟨l, hw⟩, hopen, hown⟩ := h
  have hlens : (s.written rd l).tblLens n = s.tblLens n := by rw [State.tblLens, State.codec_written, State.tblLens]
  have honly : (Eff.each (List.range 64) fun w => putReg (rCdcStage b w) (fetchWord (s.tblLens n) w)).Only
      (Act.Local fun o => o == rCdcResult b || (List.range 64).any fun w => o == rCdcStage b w) := by
    simp only [Eff.only_each, putReg_only, Act.local_setReg, Bool.or_eq_true, List.any_eq_true]
    exact fun w hw => .inr ⟨w, hw, by simp⟩
  have hsilent : (Eff.each (List.range 64) fun w => putReg (rCdcStage b w) (fetchWord (s.tblLens n) w)).Only Act.Silent := by simp
  refine ⟨_, exec_tableCmd rfl hn (by decide) (by decide) hw hopen, ?_⟩
  rw [tableOp, tableFetch_run (by rwa [State.tblOwned_written]), hlens]
  refine ⟨?_, fun w hw => ?_, ((s.written_frame rd l _).trans (honly.frame _)).trans (setReg_frame _ (by simp)), ?_⟩
  · rw [cdcResult, putReg_run, State.reg_setReg, Nat.zero_mul, Nat.add_zero]
  · rw [cdcResult, putReg_run, State.reg_setReg_other (by simp [rCdcStage, rCdcResult]; omega)]
    exact putRegs_reg (f := rCdcStage b) (fun x _ y _ h => by simp only [rCdcStage] at h; omega) (List.mem_range.mpr hw) _
  · rw [cdcResult, putReg_run, Act.setReg_out, hsilent.out, State.written_out]

theorem notOwned_completes {c : Instr} {op : Nat} (hc : exec c s = (effTableCmd rd b n op).done s) (hn : n < 256) (h1 : 1 ≤ op) (h5 : op ≤ 5)
    (hw : Writes s rd (rCdcCmd b) l) (ho : s.isOpen b = true) (hown : s.tblOwned b n = false) :
    Completes c s fun t => t.reg (rCdcResult b) = w64 (n + op * 2 ^ 8 + 2 ^ 16) ∧ t.dev.codec = s.dev.codec ∧ Frame (fun o => o == rCdcResult b) s t ∧
      t.out = s.out := by
  refine ⟨_, exec_tableCmd hc hn h1 h5 hw ho, ?_⟩
  rw [tableOp_notOwned h1 h5 (by rwa [State.tblOwned_written]), cdcResult, putReg_run]
  exact ⟨by rw [State.reg_setReg, Nat.one_mul], by rw [Act.setReg_dev, State.codec_written], (s.written_frame rd l _).trans (setReg_frame _ (by simp)),
    by rw [Act.setReg_out, State.written_out]⟩
end

/-- Settles O31, by the change of a table's state that four of the commands share. -/
theorem tableCommands : Obligations.TableCommands := by
  refine ⟨fun _ _ _ _ h hs hc hv => load_completes h hs hc hv, fun _ _ _ _ h hs hv hc => surveyStart_completes h hs hv hc,
    fun _ _ _ _ h hs => surveyFinish_completes h hs, fun _ _ _ _ h => ⟨invalidate_completes h, fetch_completes h⟩, ?_⟩
  intro s rd b n l hb hn hw ho hown c hc
  simp only [List.mem_cons, List.not_mem_nil, or_false] at hc
  rcases hc with rfl | rfl | rfl | rfl | rfl <;> dsimp only
  · exact notOwned_completes (op := 1) rfl hn (by decide) (by decide) hw ho hown
  · exact notOwned_completes (op := 2) rfl hn (by decide) (by decide) hw ho hown
  · exact notOwned_completes (op := 3) rfl hn (by decide) (by decide) hw ho hown
  · exact notOwned_completes (op := 4) rfl hn (by decide) (by decide) hw ho hown
  · exact notOwned_completes (op := 5) rfl hn (by decide) (by decide) hw ho hown

end Sys2Proof.Machine
end

section
/-!
# Copies: a block charged to no basin (R201, R202)
-/
namespace Sys2Proof.Machine
open Sys2Proof

/-- A copy of two bytes whose user number stands for the rank work of basin 7936: rMemActWr 7936 is the offset of DMA_BLOCKS. -/
def strayCopy : CopyRun :=
  { q := rankUser 7936, src := 0, dst := 4095, remote := false, destChip := 0, rowBytes := 2, rows := 1, srcStride := 2, dstStride := 2, cmode := 0,
    cls := 0 }

/-- The copy is on engine 0, and the turn for blocks visits basin 7936. -/
def strayState : State := { dev := { work := { engines := [(0, strayCopy)], turns := [(1, { basin := 7936 })] } } }

/-- The turn after the grant of the copy's block. -/
def strayTurn : Turn := { basin := 7936, used := 1, last := [(4 * 7936, rankUser 7936)] }

theorem strayState_grant : strayState.grant 1 strayState.blockQueues = some (strayCopy.q, strayTurn) := by decide +kernel

/-- The block counts 1 in DMA_BLOCKS, and the 32 bytes of the sector written count there too. -/
theorem strayState_blocks : ((effCopyBlock 0 0 0 []).run strayState).reg rDmaBlocks = 33#64 := by decide +kernel

/-- A copy with bytes left to write goes on. -/
theorem copyAdvance_still {u : State} {e : Nat} {c : CopyRun} (hc : u.copyOn e = some c) (hs : c.stop = none) (hp : c.pos < c.total) :
    (copyAdvance e).run u = u := by
  simp only [copyAdvance, Eff.run_read, hc, hs, if_neg (show ¬ (c.total ≤ c.pos ∧ c.inFlight = []) by omega), Eff.run_skip]

/-- Refutes O32: nothing bounds the basin that a copy's user number stands for, and the activity counter of basin 7936 is DMA_BLOCKS, which the
block then raises by 33 where the statement has 1. No run puts such a copy on an engine. -/
theorem not_copies : ¬ Obligations.Copies := by
  rintro ⟨-, -, hblock⟩
  obtain ⟨t, ht, u, ⟨-, -, hcopy, hblocks, -, -, -⟩, htu⟩ := hblock strayState 0 strayCopy strayTurn (by decide) rfl rfl rfl rfl rfl rfl (by decide) (by decide)
    (by decide) rfl strayState_grant
  obtain rfl : (effCopyBlock 0 0 0 []).run strayState = t := Host.Outcome.next.inj ht
  rw [copyAdvance_still hcopy rfl (by decide)] at htu
  rw [← htu, strayState_blocks] at hblocks
  exact absurd hblocks (by decide)

end Sys2Proof.Machine
end

section
/-!
# Clocks: the crystals, lock, the keeper's supply and gating (R408 to R421, R430)
-/
namespace Sys2Proof.Machine
open Sys2Proof

/-! ### Bits and fields of one register -/

section
variable {s : State} {off : Nat}

theorem State.bit_putFld_apart {lo w i : Nat} (x : Nat) (hw : lo + w ≤ 64) (hi : i < lo ∨ lo + w ≤ i) :
    ((putFld off lo w x).run s).bit off i = s.bit off i := by
  rw [putFld_run, State.bit, State.reg_setReg, bitOf_setFld _ _ _ _ _ hw, if_neg (by omega), State.bit]

theorem State.fld_putBit_apart {i l k : Nat} (b : Bool) (hi : i < 64) (h : l + k ≤ i ∨ i < l) :
    ((putBit off i b).run s).fld off l k = s.fld off l k := by
  rw [putBit_run, State.fld_setReg, bitsOf_setFld_other _ _ _ _ _ _ (by omega) (by omega), State.fld]

theorem State.bit_bumpFld_apart {lo w i : Nat} (n : Nat) (hw : lo + w ≤ 64) (hi : i < lo ∨ lo + w ≤ i) :
    ((bumpFld off lo w n).run s).bit off i = s.bit off i := by
  rw [bumpFld_run, State.bit, State.reg_setReg, bitOf_setFld _ _ _ _ _ hw, if_neg (by omega), State.bit]

theorem State.fld_bumpFld_apart {lo w l k : Nat} (n : Nat) (hw : lo + w ≤ 64) (h : l + k ≤ lo ∨ lo + w ≤ l) :
    ((bumpFld off lo w n).run s).fld off l k = s.fld off l k := by
  rw [bumpFld_run, State.fld_setReg, bitsOf_setFld_other _ _ _ _ _ _ hw h, State.fld]

theorem putFld_frame {r : Nat → Bool} (h : r off = true) (lo w x : Nat) : Frame r s ((putFld off lo w x).run s) := setReg_frame _ h

theorem putBit_frame {r : Nat → Bool} (h : r off = true) (i : Nat) (b : Bool) : Frame r s ((putBit off i b).run s) := setReg_frame _ h

theorem putFld_out (lo w x : Nat) : ((putFld off lo w x).run s).out = s.out := by rw [putFld_run, Act.setReg_out]

theorem putBit_out (i : Nat) (b : Bool) : ((putBit off i b).run s).out = s.out := by rw [putBit_run, Act.setReg_out]

theorem putFld_dev (lo w x : Nat) : ((putFld off lo w x).run s).dev = s.dev := by rw [putFld_run, Act.setReg_dev]

theorem putBit_dev (i : Nat) (b : Bool) : ((putBit off i b).run s).dev = s.dev := by rw [putBit_run, Act.setReg_dev]
end

/-! ### Forced pins (R417, R419) -/

section
variable {s : State}

/-- The pins are forced, the PLL out of lock, the loss counted and its tick shown, with IRO spans anew. -/
def pinsFall : Eff := .read fun s => Eff.all
  [ putBit rClkStatus 4 true, putBit rClkStatus 3 false, bumpFld rClkStatus 16 16 1, putReg rClkLossTick s.now, discardSpan ]

theorem pinsFall_run : pinsFall.run s = discardSpan.run ((putReg rClkLossTick s.now).run ((bumpFld rClkStatus 16 16 1).run
    ((putBit rClkStatus 3 false).run ((putBit rClkStatus 4 true).run s)))) := by
  rw [pinsFall, Eff.run_read]
  simp only [Eff.run_all_cons, Eff.run_all_done]

theorem forcePins_run : forcePins.run s = openMeterGap.run (pinsFall.run s) := by
  rw [forcePins, Eff.run_read, pinsFall_run]
  simp only [Eff.run_all_cons, Eff.run_all_done]

theorem discardSpan_from (u : State) : (discardSpan.run u).dev.clk.spanFrom = u.now := rfl

theorem discardSpan_reg (u : State) (off : Nat) : (discardSpan.run u).reg off = u.reg off := rfl

theorem pinsFall_only : pinsFall.Only (Act.Local fun o => o == rClkStatus || o == rClkLossTick) ∧ pinsFall.Only Act.Silent := by
  constructor <;> simp [pinsFall, discardSpan, onClk]

/-- CLK_STATUS as the fall of the pins leaves it. -/
theorem pinsFall_status (u : State) : (pinsFall.run u).reg rClkStatus =
    ((bumpFld rClkStatus 16 16 1).run ((putBit rClkStatus 3 false).run ((putBit rClkStatus 4 true).run u))).reg rClkStatus := by
  rw [pinsFall_run, discardSpan_reg, putReg_run, State.reg_setReg_other (by decide)]

theorem pinsFall_xtal (u : State) : (pinsFall.run u).xtal = u.xtal := by
  rw [State.xtal, State.fld, pinsFall_status, ← State.fld, State.fld_bumpFld_apart _ (by decide) (by decide), State.fld_putBit_apart _ (by decide) (by decide),
    State.fld_putBit_apart _ (by decide) (by decide), State.xtal]

theorem pinsFall_bit (u : State) : (pinsFall.run u).bit rClkStatus 2 = u.bit rClkStatus 2 := by
  rw [State.bit, pinsFall_status, ← State.bit, State.bit_bumpFld_apart _ (by decide) (by decide), State.bit_putBit_apart _ (by decide) (by decide),
    State.bit_putBit_apart _ (by decide) (by decide)]

/-- The pins are forced after their fall, from a state that has the HBM, gates, outputs and losses of another. -/
theorem pinsFall_forced {u : State} {r : Nat → Bool} (hf : Frame r s u) (hl : u.fld rClkStatus 16 16 = s.fld rClkStatus 16 16) (ho : u.out = s.out) :
    PinsForced s (pinsFall.run u) := by
  obtain ⟨hlocal, hsilent⟩ := pinsFall_only
  have hframe := hlocal.frame u
  have hnow : u.now = s.now := hf.2.1.2.1
  refine ⟨?_, ?_, ?_, ?_, ?_, hf.1.trans hframe.1, hf.2.1.trans hframe.2.1, (hsilent.out u).trans ho⟩
  · rw [State.bit, pinsFall_status, ← State.bit, State.bit_bumpFld_apart _ (by decide) (by decide), State.bit_putBit_apart _ (by decide) (by decide),
      State.bit_putBit _ (by decide)]
  · rw [State.bit, pinsFall_status, ← State.bit, State.bit_bumpFld_apart _ (by decide) (by decide), State.bit_putBit _ (by decide)]
  · rw [State.fld, pinsFall_status, ← State.fld, State.fld_bumpFld _ (by decide), State.fld_putBit_apart _ (by decide) (by decide),
      State.fld_putBit_apart _ (by decide) (by decide), hl]
  · rw [pinsFall_run, discardSpan_reg, putReg_run, State.reg_setReg, hnow]
  · rw [pinsFall_run, discardSpan_from, putReg_run, Act.setReg_now, bumpFld_run, Act.setReg_now, putBit_run, Act.setReg_now, putBit_run, Act.setReg_now, hnow]

/-! ### The crystal and the lock -/

/-- XTAL is LOST, and the reference becomes the IRO. -/
def xtalFalls : Eff := .andThen (putFld rClkStatus 0 2 2) (putBit rClkStatus 2 true)

theorem xtalFalls_frame : Frame (fun o => o == rClkStatus) s (xtalFalls.run s) := Eff.Only.frame (by simp [xtalFalls]) s

theorem exec_xtalMissingEdge_good (hp : s.dev.board.poreset = false) (hx : s.xtal = 1) :
    exec .xtalMissingEdge s = .next ((Eff.andThen openMeterGap (countAt 0x40 0)).run (pinsFall.run (xtalFalls.run s))) := by
  have hrun : effXtalMissingEdge.run s = (countAt 0x40 0).run (openMeterGap.run (pinsFall.run (xtalFalls.run s))) := by
    rw [effXtalMissingEdge, Eff.run_read, hp, if_neg (by decide), if_pos hx, Eff.run_all_cons, Eff.run_all_cons, Eff.run_all_cons, Eff.run_all_cons,
      Eff.run_all_done, forcePins_run, xtalFalls, Eff.run_andThen]
  exact congrArg Host.Outcome.next hrun

theorem exec_xtalMissingEdge_rejudging (hp : s.dev.board.poreset = false) (hx : s.xtal = 3) :
    exec .xtalMissingEdge s = .next ((putFld rClkStatus 0 2 2).run s) := by
  have hrun : effXtalMissingEdge.run s = (putFld rClkStatus 0 2 2).run s := by
    rw [effXtalMissingEdge, Eff.run_read, hp, if_neg (by decide), if_neg (by omega), if_pos hx]
  exact congrArg Host.Outcome.next hrun

theorem exec_pllLockLoss (h : s.bit rClkStatus 3 = true) :
    exec .pllLockLoss s = .next ((Eff.andThen openMeterGap (countAt 0x41 0)).run (pinsFall.run s)) := by
  have hrun : effPllLockLoss.run s = (countAt 0x41 0).run (openMeterGap.run (pinsFall.run s)) := by
    rw [effPllLockLoss, Eff.run_read, Eff.run_when, if_pos h, Eff.run_andThen, forcePins_run]
  exact congrArg Host.Outcome.next hrun

theorem State.xtal_putFld {x : Nat} (hx : x < 4) : ((putFld rClkStatus 0 2 x).run s).xtal = x := by
  rw [State.xtal, State.fld_putFld _ (by decide)]
  exact Nat.mod_eq_of_lt hx

theorem xtalMissingEdge_good (hp : s.dev.board.poreset = false) (hx : s.xtal = 1) :
    Completes .xtalMissingEdge s (Reaching (fun u => u.xtal = 2 ∧ u.bit rClkStatus 2 = true ∧ PinsForced s u) (.andThen openMeterGap (countAt 0x40 0))) := by
  refine ⟨_, exec_xtalMissingEdge_good hp hx, _, ⟨?_, ?_, pinsFall_forced xtalFalls_frame ?_ ?_⟩, rfl⟩
  · rw [pinsFall_xtal, xtalFalls, Eff.run_andThen, State.xtal, State.fld_putBit_apart _ (by decide) (by decide)]
    exact State.xtal_putFld (by decide)
  · rw [pinsFall_bit, xtalFalls, Eff.run_andThen, State.bit_putBit _ (by decide)]
  · rw [xtalFalls, Eff.run_andThen, State.fld_putBit_apart _ (by decide) (by decide), State.fld_putFld_apart _ (by decide) (by decide)]
  · rw [xtalFalls, Eff.run_andThen, putBit_out, putFld_out]

theorem exec_xtalGood {iro : Nat} (hp : s.dev.board.poreset = false) (hx : s.xtal = 0 ∨ s.xtal = 3) (h1 : 1 ≤ s.phase) (hlo : 256902 ≤ iro)
    (hhi : iro ≤ 267386) : exec (.xtalGood iro) s = .next ((putFld rClkStatus 0 2 1).run s) := by
  have hcond : (!s.dev.board.poreset && (s.xtal == 0 || s.xtal == 3) && xtalInTolerance iro && decide (1 ≤ s.phase)) = true := by
    rcases hx with hx | hx <;> simp [hp, hx, h1, xtalInTolerance, hlo, hhi]
  have hrun : (effXtalGood iro).run s = (putFld rClkStatus 0 2 1).run s := by rw [effXtalGood, Eff.run_read, Eff.run_when, if_pos hcond]
  exact congrArg Host.Outcome.next hrun

theorem exec_xtalGood_not {iro : Nat} (h : iro < 256902 ∨ 267386 < iro ∨ s.xtal = 2) : exec (.xtalGood iro) s = .next s := by
  have hcond : ¬ (!s.dev.board.poreset && (s.xtal == 0 || s.xtal == 3) && xtalInTolerance iro && decide (1 ≤ s.phase)) = true := by
    simp only [xtalInTolerance, Bool.and_eq_true, Bool.or_eq_true, beq_iff_eq, decide_eq_true_eq]
    omega
  have hrun : (effXtalGood iro).run s = s := by rw [effXtalGood, Eff.run_read, Eff.run_when, if_neg hcond]
  exact congrArg Host.Outcome.next hrun

/-- The timebase starts (R427). -/
def timebaseStarts : Eff := onClk fun c => { c with started := true, spanFrom := 0 }

theorem exec_pllLock_first (hp : s.dev.board.poreset = false) (hl : s.bit rClkStatus 3 = false) (hs : s.dev.clk.started = false) (h1 : s.phase = 1)
    (hx : s.xtal = 1) :
    exec .pllLock s = .next ((putFld rImgStatus 0 4 2).run (timebaseStarts.run ((putBit rClkStatus 3 true).run s))) := by
  have hrun : effPllLock.run s = (putFld rImgStatus 0 4 2).run (timebaseStarts.run ((putBit rClkStatus 3 true).run s)) := by
    rw [effPllLock, Eff.run_read, hp, hl, hs, h1, if_neg (by decide), if_pos (by decide), if_pos hx, Eff.run_all_cons, Eff.run_all_cons, Eff.run_all_cons,
      Eff.run_all_done, Eff.run_when, if_pos (by decide), timebaseStarts]
  exact congrArg Host.Outcome.next hrun

theorem timebaseStarts_frame (r : Nat → Bool) (u : State) : Frame r u (timebaseStarts.run u) := Frame.of_dev _ r u

theorem timebaseStarts_started (u : State) : (timebaseStarts.run u).dev.clk.started = true := rfl

theorem timebaseStarts_out (u : State) : (timebaseStarts.run u).out = u.out := rfl

theorem pllLock_first (hp : s.dev.board.poreset = false) (hl : s.bit rClkStatus 3 = false) (hs : s.dev.clk.started = false) (h1 : s.phase = 1)
    (hx : s.xtal = 1) : Completes .pllLock s fun t => t.bit rClkStatus 3 = true ∧ t.dev.clk.started = true ∧ t.phase = 2 ∧
      Frame (fun o => o == rClkStatus || o == rImgStatus) s t ∧ t.out = s.out := by
  refine ⟨_, exec_pllLock_first hp hl hs h1 hx, ?_, ?_, ?_,
    ((putBit_frame (by decide) _ _).trans (timebaseStarts_frame _ _)).trans (putFld_frame (by decide) _ _ _), ?_⟩
  · rw [putFld_run, State.bit_setReg_other (by decide), (timebaseStarts_frame (fun _ => false) _).bit rfl, State.bit_putBit _ (by decide)]
  · rw [putFld_dev, timebaseStarts_started]
  · rw [State.phase, State.fld_putFld_lt (by decide) (by decide)]
  · rw [putFld_out, timebaseStarts_out, putBit_out]

theorem exec_pllLock_again (hp : s.dev.board.poreset = false) (hl : s.bit rClkStatus 3 = false) (hs : s.dev.clk.started = true) :
    exec .pllLock s = .next ((Eff.when (s.bit rClkStatus 2) (putBit rTbsStatus 0 true)).run ((putBit rClkStatus 3 true).run s)) := by
  have hrun : effPllLock.run s = (Eff.when (s.bit rClkStatus 2) (putBit rTbsStatus 0 true)).run ((putBit rClkStatus 3 true).run s) := by
    rw [effPllLock, Eff.run_read, hp, hl, hs, if_neg (by decide), if_neg (by simp), if_pos rfl, Eff.run_all_cons, Eff.run_all_cons, Eff.run_all_done]
  exact congrArg Host.Outcome.next hrun

theorem pllLock_again (hp : s.dev.board.poreset = false) (hl : s.bit rClkStatus 3 = false) (hs : s.dev.clk.started = true) :
    Completes .pllLock s fun t => t.bit rClkStatus 3 = true ∧ (s.bit rClkStatus 2 = true → t.bit rTbsStatus 0 = true) ∧
      Frame (fun o => o == rClkStatus || o == rTbsStatus) s t ∧ t.out = s.out := by
  have hmark : (Eff.when (s.bit rClkStatus 2) (putBit rTbsStatus 0 true)).Only (Act.Local fun o => o == rTbsStatus) := by simp
  have hsilent : (Eff.when (s.bit rClkStatus 2) (putBit rTbsStatus 0 true)).Only Act.Silent := by simp
  refine ⟨_, exec_pllLock_again hp hl hs, ?_, fun h2 => ?_, (putBit_frame (by decide) _ _).trans ((hmark.frame _).mono fun o ho => by simp [ho]), ?_⟩
  · rw [(hmark.frame _).bit (by decide), State.bit_putBit _ (by decide)]
  · rw [h2, Eff.run_when, if_pos rfl, State.bit_putBit _ (by decide)]
  · rw [hsilent.out, putBit_out]
end

/-- Settles O18, by what forcing the pins leaves in CLK_STATUS and by the cases of a lock. -/
theorem rootClock : Obligations.RootClock :=
  ⟨fun _ => xtalMissingEdge_good,
    fun _ hp hx => ⟨_, exec_xtalMissingEdge_rejudging hp hx, State.xtal_putFld (by decide), putFld_frame (by decide) _ _ _, putFld_out _ _ _⟩,
    fun s h => ⟨_, exec_pllLockLoss h, _, ⟨pinsFall_xtal s, pinsFall_forced (Frame.refl (fun _ => false) s) rfl rfl⟩, rfl⟩,
    fun _ _ hp hx h1 hlo hhi => ⟨_, exec_xtalGood hp hx h1 hlo hhi, State.xtal_putFld (by decide), putFld_frame (by decide) _ _ _, putFld_out _ _ _⟩,
    fun _ _ h => ⟨_, exec_xtalGood_not h, rfl⟩, fun _ => pllLock_first, fun _ => pllLock_again⟩

/-! ### The keeper's crystal and supplies (R418, R421, R430) -/

section
variable {s : State}

/-- KXTAL is LOST, and the real-time clock is marked as wrong. -/
def kxtalFalls : Eff := .andThen (putFld rTbsKeeper 2 2 2) (putBit rTbsKeeper 5 true)

theorem kxtalFalls_frame (s : State) : Frame (fun o => o == rTbsKeeper) s (kxtalFalls.run s) := Eff.Only.frame (by simp [kxtalFalls]) s

theorem kxtalFalls_silent : kxtalFalls.Only Act.Silent := by simp [kxtalFalls]

theorem kxtalFalls_kxtal : (kxtalFalls.run s).kxtal = 2 := by
  rw [kxtalFalls, Eff.run_andThen, State.kxtal, State.fld_putBit_apart _ (by decide) (by decide), State.fld_putFld_lt (by decide) (by decide)]

theorem kxtalFalls_wrong : (kxtalFalls.run s).bit rTbsKeeper 5 = true := by
  rw [kxtalFalls, Eff.run_andThen, State.bit_putBit _ (by decide)]

/-- The panel is FORCED, with every segment off. -/
def panelForced : Eff := Eff.all
  [ putFld rLcdStatus 0 3 4, Eff.each (List.range 5) (fun w => putReg (rLcdSegRam w) 0), onDev fun d => { d with lcd := { d.lcd with lit := false } } ]

theorem panelForced_run : panelForced.run s = (onDev fun d => { d with lcd := { d.lcd with lit := false } }).run
    ((Eff.each (List.range 5) fun w => putReg (rLcdSegRam w) 0).run ((putFld rLcdStatus 0 3 4).run s)) := by
  rw [panelForced, Eff.run_all_cons, Eff.run_all_cons, Eff.run_all_cons, Eff.run_all_done]

/-- The registers of the panel's state and segments. -/
def panelRegs (o : Nat) : Bool := o == rLcdStatus || decide (rLcdSegRam 0 ≤ o ∧ o ≤ rLcdSegRam 4)

theorem panelRegs_segRam {w : Nat} (h : w < 5) : panelRegs (rLcdSegRam w) = true := by
  simp [panelRegs, rLcdSegRam]
  omega

/-- Segment words put in turn change the segment registers alone. -/
theorem segWords_only {r : Nat → Bool} (hr : ∀ w, w < 5 → r (rLcdSegRam w) = true) (g : Nat → Nat) :
    (Eff.each (List.range 5) fun w => putReg (rLcdSegRam w) (g w)).Only (Act.Local r) ∧
      (Eff.each (List.range 5) fun w => putReg (rLcdSegRam w) (g w)).Only Act.Silent ∧
      (Eff.each (List.range 5) fun w => putReg (rLcdSegRam w) (g w)).Only (Act.Keeps fun d => d) :=
  ⟨Eff.only_each.mpr fun w hw => putReg_only.mpr (Act.local_setReg.mpr (hr w (List.mem_range.mp hw))), by simp, by simp⟩

theorem segWords_reg (g : Nat → Nat) {w : Nat} (hw : w < 5) (u : State) :
    ((Eff.each (List.range 5) fun w => putReg (rLcdSegRam w) (g w)).run u).reg (rLcdSegRam w) = w64 (g w) :=
  putRegs_reg (f := rLcdSegRam) (fun x _ y _ h => by simp only [rLcdSegRam] at h; omega) (List.mem_range.mpr hw) u

theorem segWords_frame (g : Nat → Nat) (u : State) :
    Frame (fun o => decide (rLcdSegRam 0 ≤ o ∧ o ≤ rLcdSegRam 4)) u ((Eff.each (List.range 5) fun w => putReg (rLcdSegRam w) (g w)).run u) :=
  (segWords_only (fun w hw => by simp [rLcdSegRam]; omega) g).1.frame u

theorem panelForced_frame (s : State) : Frame panelRegs s (panelForced.run s) := by
  rw [panelForced_run]
  exact ((putFld_frame (by decide) _ _ _).trans ((segWords_only (fun _ => panelRegs_segRam) _).1.frame _)).trans (Frame.of_dev _ _ _)

theorem panelForced_silent : panelForced.Only Act.Silent := by simp [panelForced]

theorem panelForced_state : (panelForced.run s).lcdState = 4 := by
  rw [panelForced_run, State.lcdState, onDev_run, (Frame.of_dev _ (fun _ => false) _).fld rfl, (segWords_frame _ _).fld (by decide), State.fld_putFld_lt (by decide) (by decide)]

theorem panelForced_segments {w : Nat} (hw : w < 5) : (panelForced.run s).reg (rLcdSegRam w) = 0#64 := by
  rw [panelForced_run, onDev_run, (Frame.of_dev _ (fun _ => false) _).2.2 _ rfl, segWords_reg _ hw]
  rfl

theorem panelForced_lit : (panelForced.run s).dev.lcd.lit = false := by
  rw [panelForced_run]
  rfl

theorem effKxtalMissingEdge_run (hp : s.dev.keep.powered = true) (hk : s.kxtal = 1) : effKxtalMissingEdge.run s =
    (Eff.when (decide (2 ≤ s.phase)) (countAt 0x42 0)).run ((Eff.when (s.lcdState != 0) panelForced).run (kxtalFalls.run s)) := by
  rw [effKxtalMissingEdge, Eff.run_read, hp, if_neg (by decide), if_pos hk, Eff.run_all_cons, Eff.run_all_cons, Eff.run_all_cons, Eff.run_all_cons,
    Eff.run_all_done, kxtalFalls, Eff.run_andThen, panelForced]

theorem exec_kxtalMissingEdge_lit (hp : s.dev.keep.powered = true) (hk : s.kxtal = 1) (hl : s.lcdState ≠ 0) (h2 : s.phase < 2) :
    exec .kxtalMissingEdge s = .next (panelForced.run (kxtalFalls.run s)) := by
  have hrun := effKxtalMissingEdge_run hp hk
  rw [Eff.run_when, if_neg (by simp; omega), Eff.run_when, if_pos (by simp [hl])] at hrun
  exact congrArg Host.Outcome.next hrun

theorem exec_kxtalMissingEdge_dark (hp : s.dev.keep.powered = true) (hk : s.kxtal = 1) (hl : s.lcdState = 0) (h2 : 2 ≤ s.phase) :
    exec .kxtalMissingEdge s = .next ((countAt 0x42 0).run (kxtalFalls.run s)) := by
  have hrun := effKxtalMissingEdge_run hp hk
  rw [Eff.run_when, if_pos (by simp [h2]), Eff.run_when, if_neg (by simp [hl])] at hrun
  exact congrArg Host.Outcome.next hrun

theorem kxtalMissingEdge_lit (hp : s.dev.keep.powered = true) (hk : s.kxtal = 1) (hl : s.lcdState ≠ 0) (h2 : s.phase < 2) :
    Completes .kxtalMissingEdge s fun t => t.kxtal = 2 ∧ t.bit rTbsKeeper 5 = true ∧ t.lcdState = 4 ∧ (∀ w, w < 5 → t.reg (rLcdSegRam w) = 0#64) ∧
      t.dev.lcd.lit = false ∧ SameHbm s t ∧ SameGates s t ∧ t.out = s.out := by
  have hpanel := panelForced_frame (kxtalFalls.run s)
  have hfalls := kxtalFalls_frame s
  refine ⟨_, exec_kxtalMissingEdge_lit hp hk hl h2, ?_, ?_, panelForced_state, fun w hw => panelForced_segments hw, panelForced_lit,
    hfalls.1.trans hpanel.1, hfalls.2.1.trans hpanel.2.1, ?_⟩
  · rw [State.kxtal, hpanel.fld (by decide)]
    exact kxtalFalls_kxtal
  · rw [hpanel.bit (by decide), kxtalFalls_wrong]
  · rw [panelForced_silent.out, kxtalFalls_silent.out]

theorem kxtalMissingEdge_dark (hp : s.dev.keep.powered = true) (hk : s.kxtal = 1) (hl : s.lcdState = 0) (h2 : 2 ≤ s.phase)
    (hi : s.dev.flt.ignored.contains 0x42 = false) : Completes .kxtalMissingEdge s fun t => t.kxtal = 2 ∧ t.bit rTbsKeeper 5 = true ∧
      t.reg (rFltEvents 0x42) = w64 (satAdd 32 (s.reg (rFltEvents 0x42)).toNat 1) ∧ SameHbm s t ∧ SameGates s t := by
  have hcount := countAt_frame (src := 0x42) (by decide) rfl (by decide) 0 (kxtalFalls.run s)
  have hfalls := kxtalFalls_frame s
  have hdev : (kxtalFalls.run s).dev = s.dev := Eff.Only.devKeeps (p := fun d => d) (by simp [kxtalFalls]) s
  refine ⟨_, exec_kxtalMissingEdge_dark hp hk hl h2, ?_, ?_, ?_, hfalls.1.trans hcount.1, hfalls.2.1.trans hcount.2.1⟩
  · rw [State.kxtal, hcount.fld (by decide)]
    exact kxtalFalls_kxtal
  · rw [hcount.bit (by decide), kxtalFalls_wrong]
  · rw [countAt_events 0 (by decide) rfl (by decide) (by rw [hdev, hi]), hfalls.2.2 _ (by decide)]

theorem exec_kxtalGood {kro : Nat} (hp : s.dev.keep.powered = true) (hk : s.kxtal = 0 ∨ s.kxtal = 3) (hlo : 3686 ≤ kro) (hhi : kro ≤ 4506) :
    exec (.kxtalGood kro) s = .next (lcdEval.run ((putFld rTbsKeeper 2 2 1).run s)) := by
  have hcond : (s.dev.keep.powered && (s.kxtal == 0 || s.kxtal == 3) && decide (3686 ≤ kro ∧ kro ≤ 4506)) = true := by
    rcases hk with hk | hk <;> simp [hp, hk, hlo, hhi]
  have hrun : (effKxtalGood kro).run s = lcdEval.run ((putFld rTbsKeeper 2 2 1).run s) := by
    rw [effKxtalGood, Eff.run_read, Eff.run_when, if_pos hcond, Eff.run_andThen]
  exact congrArg Host.Outcome.next hrun

theorem exec_kxtalGood_not {kro : Nat} (h : kro < 3686 ∨ 4506 < kro ∨ s.kxtal = 2) : exec (.kxtalGood kro) s = .next s := by
  have hcond : ¬ (s.dev.keep.powered && (s.kxtal == 0 || s.kxtal == 3) && decide (3686 ≤ kro ∧ kro ≤ 4506)) = true := by
    simp only [Bool.and_eq_true, Bool.or_eq_true, beq_iff_eq, decide_eq_true_eq]
    omega
  have hrun : (effKxtalGood kro).run s = s := by rw [effKxtalGood, Eff.run_read, Eff.run_when, if_neg hcond]
  exact congrArg Host.Outcome.next hrun

theorem exec_keeperSupplyChange (hp : s.dev.keep.powered = true) (v a : Bool) :
    exec (.keeperSupplyChange v a) s = .next ((putBit rTbsKeeper 1 a).run ((putBit rTbsKeeper 0 v).run s)) := by
  have hrun : (effKeeperSupplyChange v a).run s = (putBit rTbsKeeper 1 a).run ((putBit rTbsKeeper 0 v).run s) := by
    rw [effKeeperSupplyChange, Eff.run_read, Eff.run_when, if_pos hp, Eff.run_andThen]
  exact congrArg Host.Outcome.next hrun

theorem keeperSupplyChange_completes (hp : s.dev.keep.powered = true) (v a : Bool) :
    Completes (.keeperSupplyChange v a) s fun t => t.bit rTbsKeeper 0 = v ∧ t.bit rTbsKeeper 1 = a ∧ Frame (fun o => o == rTbsKeeper) s t ∧ t.out = s.out :=
  ⟨_, exec_keeperSupplyChange hp v a, by rw [State.bit_putBit_apart _ (by decide) (by decide), State.bit_putBit _ (by decide)],
    State.bit_putBit _ (by decide), (putBit_frame (by decide) _ _).trans (putBit_frame (by decide) _ _), by rw [putBit_out, putBit_out]⟩

/-! ### Keeper power-on (R430) -/

/-- The keeper island's registers and hidden state are reset. -/
def islandResets : Eff := .andThen (.act (.resetRegs (resetsAt [.k]))) (.andThen (onKeep fun _ => { powered := true }) (onLcd fun _ => {}))

/-- The supplies, the panel's and the fused trim are shown. -/
def islandShows (v a h : Bool) : Eff := Eff.all
  [ putBit rTbsKeeper 0 v, putBit rTbsKeeper 1 a, putBit rLcdStatus 9 (!h),
    putReg rTbsRtcTrim (Config.rtcTrim % 256 + (if Config.rtcTrim % 256 = 128 then 129 else Config.rtcTrim % 256) * 65536) ]

theorem islandShows_run (v a h : Bool) (u : State) : (islandShows v a h).run u =
    (putReg rTbsRtcTrim (Config.rtcTrim % 256 + (if Config.rtcTrim % 256 = 128 then 129 else Config.rtcTrim % 256) * 65536)).run
      ((putBit rLcdStatus 9 (!h)).run ((putBit rTbsKeeper 1 a).run ((putBit rTbsKeeper 0 v).run u))) := by
  rw [islandShows, Eff.run_all_cons, Eff.run_all_cons, Eff.run_all_cons, Eff.run_all_cons, Eff.run_all_done]

theorem exec_keeperPowerOn (v a h : Bool) : exec (.keeperPowerOn v a h) s = .next ((islandShows v a h).run (islandResets.run s)) := by
  have hrun : (effKeeperPowerOn v a h).run s = (islandShows v a h).run (islandResets.run s) := by
    rw [effKeeperPowerOn, islandShows_run, islandResets]
    simp only [Eff.run_all_cons, Eff.run_all_done, Eff.run_andThen]
  exact congrArg Host.Outcome.next hrun

theorem islandResets_reg {o : Nat} (ho : resetsAt [.k] o = true) : (islandResets.run s).reg o = regReset o := State.reg_resetRegs ho s

theorem islandResets_keep : (islandResets.run s).dev.keep = { powered := true } := rfl

theorem islandResets_out : (islandResets.run s).out = s.out := rfl

theorem islandResets_frame : Frame (resetsAt [.k]) s (islandResets.run s) := by
  have hreset : (Eff.act (.resetRegs (resetsAt [.k]))).Only (Act.Local (resetsAt [.k])) := ⟨fun _ ho => ho, trivial, trivial⟩
  exact ((hreset.frame s).trans (Frame.of_dev _ _ _)).trans (Frame.of_dev _ _ _)

theorem islandShows_frame (v a h : Bool) (u : State) :
    Frame (fun o => o == rTbsKeeper || o == rLcdStatus || o == rTbsRtcTrim) u ((islandShows v a h).run u) := Eff.Only.frame (by simp [islandShows]) u

theorem islandShows_keeper (v a h : Bool) (u : State) :
    ((islandShows v a h).run u).reg rTbsKeeper = ((putBit rTbsKeeper 1 a).run ((putBit rTbsKeeper 0 v).run u)).reg rTbsKeeper := by
  rw [islandShows_run, putReg_run, State.reg_setReg_other (by decide), putBit_run, State.reg_setReg_other (by decide)]

theorem keeperPowerOn_completes (v a h : Bool) : Completes (.keeperPowerOn v a h) s fun t => t.dev.keep = { powered := true } ∧ t.bit rTbsKeeper 0 = v ∧
    t.bit rTbsKeeper 1 = a ∧ t.rtcValid = false ∧ t.bit rLcdStatus 9 = !h ∧
    (∀ o, resetsAt [.k] o = true → o ≠ rTbsKeeper → o ≠ rLcdStatus → o ≠ rTbsRtcTrim → t.reg o = regReset o) ∧
    Frame (fun o => resetsAt [.k] o || o == rTbsKeeper || o == rLcdStatus || o == rTbsRtcTrim) s t ∧ t.out = s.out := by
  have hdev : ((islandShows v a h).run (islandResets.run s)).dev = (islandResets.run s).dev :=
    Eff.Only.devKeeps (p := fun d => d) (by simp [islandShows]) _
  have hout : (islandShows v a h).Only Act.Silent := by simp [islandShows]
  have hshows := islandShows_frame v a h (islandResets.run s)
  have hkeeper := islandShows_keeper v a h (islandResets.run s)
  refine ⟨_, exec_keeperPowerOn v a h, by rw [hdev, islandResets_keep], ?_, ?_, ?_, ?_, fun o ho h1 h2 h3 => ?_,
    (islandResets_frame.mono fun o ho => by simp [ho]).trans (hshows.mono fun o ho => by simp only [Bool.or_assoc] at ho ⊢; simp [ho]), ?_⟩
  · rw [State.bit, hkeeper, ← State.bit, State.bit_putBit_apart _ (by decide) (by decide), State.bit_putBit _ (by decide)]
  · rw [State.bit, hkeeper, ← State.bit, State.bit_putBit _ (by decide)]
  · rw [State.rtcValid, State.bit, hkeeper, ← State.bit, State.bit_putBit_apart _ (by decide) (by decide), State.bit_putBit_apart _ (by decide) (by decide),
      State.bit, islandResets_reg (by decide)]
    rfl
  · rw [islandShows_run, putReg_run, State.bit_setReg_other (by decide), State.bit_putBit _ (by decide)]
  · rw [hshows.2.2 o (by simp [h1, h2, h3]), islandResets_reg ho]
  · rw [hout.out, islandResets_out]
end

/-! ### Gating (R414 to R416) -/

section
variable {s : State} {v : Nat}

/-- A node that a write may gate: one asked for that is not in use, or PMB where the chip is not toll master. -/
def State.gateable (s : State) (v n : Nat) : Prop := 3 ≤ n ∧ ((bitOf v n = true ∧ s.nodeInUse n = false) ∨ (n = 8 ∧ s.isToll = false))

/-- A node evaluated joins the gated ones, where it is gateable, or leaves them as they are. -/
theorem gateNode_gated (acc : List Nat × Option (Nat × Nat)) (n : Nat) :
    (gateNode s v acc n).1 = acc.1 ∨ ((gateNode s v acc n).1 = n :: acc.1 ∧ s.gateable v n) := by
  unfold gateNode
  by_cases hv : bitOf v n = true
  · rw [if_neg (by simp [hv])]
    by_cases hheld : n = 8 ∧ s.isToll = false
    · rw [if_pos (.inr (by simpa using hheld))]
      exact .inr ⟨rfl, by omega, .inr hheld⟩
    · by_cases hn : n < 3
      · rw [if_pos hn, if_neg (by simpa using hheld)]
        exact .inl rfl
      · rw [if_neg hn]
        by_cases hchild : ((nodeChildren n).any fun c => !acc.1.contains c) = true
        · rw [if_pos hchild, if_neg (by simpa using hheld)]
          exact .inl rfl
        · rw [if_neg hchild]
          by_cases huse : s.nodeInUse n = true
          · rw [if_pos huse, if_neg (by simpa using hheld)]
            exact .inl rfl
          · rw [if_neg huse, if_pos (.inl rfl)]
            exact .inr ⟨rfl, by omega, .inl ⟨hv, by simpa using huse⟩⟩
  · rw [if_pos (by simpa using hv)]
    by_cases hheld : n = 8 ∧ s.isToll = false
    · rw [if_pos (by simpa using hheld)]
      exact .inr ⟨rfl, by omega, .inr hheld⟩
    · rw [if_neg (by simpa using hheld)]
      exact .inl rfl

/-- Evaluating nodes in turn adds to the gated ones some of them, each gateable. -/
theorem gateNodes_gated (ns : List Nat) (acc : List Nat × Option (Nat × Nat)) :
    ∃ zs, zs.Sublist ns.reverse ∧ (∀ z ∈ zs, s.gateable v z) ∧ (ns.foldl (gateNode s v) acc).1 = zs ++ acc.1 := by
  induction ns generalizing acc with
  | nil => exact ⟨[], List.Sublist.refl _, by simp, rfl⟩
  | cons n ns ih =>
    obtain ⟨zs, hsub, hgate, hzs⟩ := ih (gateNode s v acc n)
    rw [List.foldl_cons, hzs, List.reverse_cons]
    rcases gateNode_gated (s := s) (v := v) acc n with h | ⟨h, hn⟩
    · exact ⟨zs, hsub.trans (List.sublist_append_left ..), hgate, by rw [h]⟩
    · refine ⟨zs ++ [n], hsub.append (List.Sublist.refl _), fun z hz => ?_, by rw [h, List.append_assoc]; rfl⟩
      rcases List.mem_append.mp hz with hz | hz
      · exact hgate z hz
      · rwa [List.mem_singleton.mp hz]

/-- The refusal shown in CLK_GATE_STATUS. -/
def refusalWord (p : Nat × Nat) : Nat := p.1 * 65536 + p.2 * 2 ^ 24

/-- The word of CLK_GATE_STATUS: the gated nodes and the refusal. -/
def gateWord (r : List Nat × Option (Nat × Nat)) : Nat := (r.1.map fun n => 2 ^ n).sum + (r.2.map refusalWord).getD 0

theorem refusalWord_mod (p : Nat × Nat) : refusalWord p % 2 ^ 16 = 0 := by
  rw [refusalWord]
  omega

theorem gateWord_mod (r : List Nat × Option (Nat × Nat)) : gateWord r % 2 ^ 16 = (r.1.map fun n => 2 ^ n).sum % 2 ^ 16 := by
  have hrefusal : (r.2.map refusalWord).getD 0 % 2 ^ 16 = 0 := by
    cases r.2 with
    | none => rfl
    | some p => rw [Option.map_some, Option.getD_some, refusalWord_mod]
  rw [gateWord, Nat.add_mod, hrefusal, Nat.add_zero, Nat.mod_mod]

theorem two_pow_dvd_sum {k : Nat} : ∀ {zs : List Nat}, (∀ z ∈ zs, k ≤ z) → ∃ m, (zs.map fun n => 2 ^ n).sum = 2 ^ k * m
  | [], _ => ⟨0, rfl⟩
  | z :: zs, h => by
    obtain ⟨m, hm⟩ := two_pow_dvd_sum (zs := zs) fun y hy => h y (List.mem_cons_of_mem _ hy)
    refine ⟨2 ^ (z - k) + m, ?_⟩
    rw [List.map_cons, List.sum_cons, hm, Nat.mul_add, ← Nat.pow_add, Nat.add_sub_cancel' (h z (List.mem_cons_self ..))]

/-- A bit of a sum of rising powers of two is one of their exponents. -/
theorem mem_of_testBit_sum {n : Nat} : ∀ {zs : List Nat}, zs.Pairwise (· < ·) → ((zs.map fun n => 2 ^ n).sum).testBit n = true → n ∈ zs
  | [], _, h => by simp at h
  | z :: zs, hz, h => by
    obtain ⟨hlt, hrest⟩ := List.pairwise_cons.mp hz
    obtain ⟨m, hm⟩ := two_pow_dvd_sum (k := z + 1) (zs := zs) hlt
    have hpow : 2 ^ z < 2 ^ (z + 1) := Nat.pow_lt_pow_right (by decide) (Nat.lt_succ_self z)
    rw [List.map_cons, List.sum_cons, hm, Nat.add_comm, Nat.testBit_two_pow_mul_add m hpow] at h
    by_cases hn : n < z + 1
    · rw [if_pos hn, Nat.testBit_two_pow, decide_eq_true_eq] at h
      exact h ▸ List.mem_cons_self ..
    · rw [if_neg hn] at h
      refine List.mem_cons_of_mem _ (mem_of_testBit_sum hrest ?_)
      rw [hm, Nat.testBit_two_pow_mul, h, decide_eq_true (by omega)]
      rfl

/-- A bit of the low half of the word is set for a gated node alone. -/
theorem gateWord_bit {r : List Nat × Option (Nat × Nat)} (hr : r.1.Pairwise (· < ·)) {n : Nat} (hn : n < 16) (h : (gateWord r).testBit n = true) : n ∈ r.1 := by
  have hbit := Nat.testBit_mod_two_pow (gateWord r) 16 n
  rw [gateWord_mod, Nat.testBit_mod_two_pow, h] at hbit
  rw [decide_eq_true hn, Bool.true_and, Bool.true_and] at hbit
  exact mem_of_testBit_sum hr hbit

/-- The model's case distinction on a refusal, as a map. -/
theorem refusal_match (f : Nat → Nat → Nat) (o : Option (Nat × Nat)) :
    (match o with
      | some (code, n) => f code n
      | none => 0) = (o.map fun p => f p.1 p.2).getD 0 := by
  cases o <;> rfl

theorem gateWord_eq (r : List Nat × Option (Nat × Nat)) :
    gateWord r = (r.1.map fun n => 2 ^ n).sum + (r.2.map fun p => p.1 * 65536 + p.2 * 2 ^ 24).getD 0 := rfl

theorem effClkGate_run : (effClkGate v).run s =
    (putReg rClkGateStatus (gateWord ([8, 7, 6, 5, 4, 3, 2, 1, 0].foldl (gateNode s v) ([], none)))).run ((putReg rClkGate (v % 512)).run s) := by
  rw [effClkGate, Eff.run_read, Eff.run_andThen]
  generalize [8, 7, 6, 5, 4, 3, 2, 1, 0].foldl (gateNode s v) ([], none) = r
  rw [gateWord_eq]
  exact congrArg (fun n => (putReg rClkGateStatus ((r.1.map fun n => 2 ^ n).sum + n)).run ((putReg rClkGate (v % 512)).run s))
    (refusal_match (fun code n => code * 65536 + n * 2 ^ 24) r.2)

theorem testBit_of_w64 {x n : Nat} (h : (w64 x).toNat.testBit n = true) : x.testBit n = true := by
  rw [w64, BitVec.toNat_ofNat, Nat.testBit_mod_two_pow, Bool.and_eq_true] at h
  exact h.2

theorem effClkGate_status : ((effClkGate v).run s).reg rClkGateStatus =
    w64 (gateWord ([8, 7, 6, 5, 4, 3, 2, 1, 0].foldl (gateNode s v) ([], none))) := by
  rw [effClkGate_run, putReg_run, State.reg_setReg]

/-- CLK_GATE_STATUS shows a gateable node alone as gated. -/
theorem effClkGate_gated {n : Nat} (hn : n < 9) (h : ((effClkGate v).run s).bit rClkGateStatus n = true) : s.gateable v n := by
  obtain ⟨zs, hsub, hgate, hzs⟩ := gateNodes_gated (s := s) (v := v) [8, 7, 6, 5, 4, 3, 2, 1, 0] ([], none)
  rw [List.append_nil] at hzs
  have hsorted : zs.Pairwise (· < ·) := List.Pairwise.sublist hsub (by decide)
  rw [State.bit, effClkGate_status, bitOf_eq_testBit] at h
  have hmem := gateWord_bit (by rw [hzs]; exact hsorted) (show n < 16 by omega) (testBit_of_w64 h)
  rw [hzs] at hmem
  exact hgate n hmem

theorem State.nodeInUse_of_regs {s t : State} (h : t.regs = s.regs) (n : Nat) : t.nodeInUse n = s.nodeInUse n := by
  have hreg : t.reg = s.reg := by funext off; simp only [State.reg, h]
  simp only [State.nodeInUse, State.srvState, State.setState, State.drvState, State.isToll, State.fld, State.bit, hreg]

theorem clkGate_completes {rd : Nat} {l : Loc} (h : Writes s rd rClkGate l) :
    Completes (.clkGate rd v) s fun t => t.reg rClkGate = w64 (v % 512) ∧ (∀ n, n < 3 → t.bit rClkGateStatus n = false) ∧
      (∀ n, n < 9 → t.bit rClkGateStatus n = true → (bitOf v n = true ∧ s.nodeInUse n = false) ∨ (n = 8 ∧ s.isToll = false)) ∧
      Frame (fun o => o == rClkGate || o == rClkGateStatus) s t ∧ t.out = s.out := by
  have hrun : (writeReg rd rClkGate (effClkGate v)).run s = (effClkGate v).run (s.written rd l) := writeReg_run h _
  have hgated := fun {n : Nat} (hn : n < 9) => effClkGate_gated (s := s.written rd l) (v := v) hn
  refine ⟨_, congrArg Host.Outcome.next hrun, ?_, fun n hn => ?_, fun n hn hbit => ?_, (s.written_frame rd l _).trans ?_, ?_⟩
  · rw [effClkGate_run, putReg_run, State.reg_setReg_other (by decide), putReg_run, State.reg_setReg]
  · cases hbit : ((effClkGate v).run (s.written rd l)).bit rClkGateStatus n with
    | false => rfl
    | true =>
      have hle := (hgated (by omega) hbit).1
      omega
  · have hgate := (hgated hn hbit).2
    rwa [State.nodeInUse_of_regs (s.written_regs rd l), State.written_isToll] at hgate
  · rw [effClkGate_run]
    exact (setReg_frame _ (by decide)).trans (setReg_frame _ (by decide))
  · rw [effClkGate_run, putReg_run, Act.setReg_out, putReg_run, Act.setReg_out, State.written_out]
end

/-- Settles O19, by the fall of KXTAL, the reset of the keeper island, and the nodes that an evaluation may gate. -/
theorem keeperClock : Obligations.KeeperClock :=
  ⟨fun _ => kxtalMissingEdge_lit, fun _ => kxtalMissingEdge_dark,
    fun _ _ hp hk hlo hhi => ⟨_, exec_kxtalGood hp hk hlo hhi, _,
      ⟨by rw [State.kxtal, State.fld_putFld_lt (by decide) (by decide)], putFld_frame (by decide) _ _ _, putFld_out _ _ _⟩, rfl⟩,
    fun _ _ h => ⟨_, exec_kxtalGood_not h, rfl⟩, fun _ v a hp => keeperSupplyChange_completes hp v a, fun _ v a h => keeperPowerOn_completes v a h,
    fun _ _ _ _ => clkGate_completes⟩

end Sys2Proof.Machine
end

section
/-!
# The front panel (R513, R517 to R519, R525, R526)
-/
namespace Sys2Proof.Machine
open Sys2Proof

/-! ### The panel's state, segments and hidden state change together -/

section
variable {s : State} {st n : Nat} {g : Lcd → Lcd}

/-- The panel takes a state, drives segment data, and its hidden state changes. -/
def panelTo (st n : Nat) (g : Lcd → Lcd) : Eff := Eff.all [putFld rLcdStatus 0 3 st, putSegments n, onLcd g]

theorem panelTo_run : (panelTo st n g).run s = (onLcd g).run ((putSegments n).run ((putFld rLcdStatus 0 3 st).run s)) := by
  rw [panelTo, Eff.run_all_cons, Eff.run_all_cons, Eff.run_all_cons, Eff.run_all_done]

theorem onLcd_frame (r : Nat → Bool) (g : Lcd → Lcd) (u : State) : Frame r u ((onLcd g).run u) := Frame.of_dev _ r u

theorem onLcd_lcd (g : Lcd → Lcd) (u : State) : ((onLcd g).run u).dev.lcd = g u.dev.lcd := rfl

theorem onLcd_out (g : Lcd → Lcd) (u : State) : ((onLcd g).run u).out = u.out := rfl

theorem panelTo_frame : Frame panelRegs s ((panelTo st n g).run s) := by
  rw [panelTo_run]
  exact ((putFld_frame (by decide) _ _ _).trans ((segWords_only (fun _ => panelRegs_segRam) _).1.frame _)).trans (onLcd_frame _ _ _)

theorem panelTo_out : ((panelTo st n g).run s).out = s.out := by
  have hsegments : ((putSegments n).run ((putFld rLcdStatus 0 3 st).run s)).out = ((putFld rLcdStatus 0 3 st).run s).out :=
    (segWords_only (r := fun _ => true) (fun _ _ => rfl) _).2.1.out _
  rw [panelTo_run, onLcd_out, hsegments, putFld_out]

theorem panelTo_lcd : ((panelTo st n g).run s).dev.lcd = g s.dev.lcd := by
  have hsegments : ((putSegments n).run ((putFld rLcdStatus 0 3 st).run s)).dev = ((putFld rLcdStatus 0 3 st).run s).dev :=
    (segWords_only (r := fun _ => true) (fun _ _ => rfl) _).2.2.devKeeps _
  rw [panelTo_run, onLcd_lcd, hsegments, putFld_dev]

/-- LCD_STATUS but its STATE is as before. -/
theorem panelTo_status : ((panelTo st n g).run s).reg rLcdStatus = ((putFld rLcdStatus 0 3 st).run s).reg rLcdStatus := by
  rw [panelTo_run, (onLcd_frame (fun _ => false) _ _).2.2 _ rfl]
  exact (segWords_frame _ _).2.2 _ (by decide)

theorem panelTo_state (h : st < 8) : ((panelTo st n g).run s).lcdState = st := by
  rw [State.lcdState, State.fld, panelTo_status, ← State.fld, State.fld_putFld _ (by decide)]
  exact Nat.mod_eq_of_lt h

theorem panelTo_bit {i : Nat} (hi : 3 ≤ i) : ((panelTo st n g).run s).bit rLcdStatus i = s.bit rLcdStatus i := by
  rw [State.bit, panelTo_status, ← State.bit, State.bit_putFld_apart _ (by decide) (by omega)]

theorem panelTo_segments {w : Nat} (hw : w < 5) : ((panelTo st n g).run s).reg (rLcdSegRam w) = w64 (bitsOf n (32 * w) 32) := by
  rw [panelTo_run, (onLcd_frame (fun _ => false) _ _).2.2 _ rfl]
  exact segWords_reg _ hw _

theorem panelTo_blank {w : Nat} (hw : w < 5) : ((panelTo st 0 g).run s).reg (rLcdSegRam w) = 0#64 := by
  rw [panelTo_segments hw, bitsOf, Nat.zero_shiftRight, Nat.zero_mod]
  rfl

/-- The panel goes DARK: its hidden state. -/
def darkened (l : Lcd) : Lcd := { l with blanks := 0, lit := false, rail := false }

theorem lcdDark_eq : lcdDark = panelTo 0 0 darkened := rfl

theorem lcdDark_state : (lcdDark.run s).lcdState = 0 := panelTo_state (by decide)

theorem lcdDark_segments {w : Nat} (hw : w < 5) : (lcdDark.run s).reg (rLcdSegRam w) = 0#64 := panelTo_blank hw

theorem lcdDark_frame : Frame panelRegs s (lcdDark.run s) := panelTo_frame

theorem lcdDark_out : (lcdDark.run s).out = s.out := panelTo_out
end

/-! ### The rail (R514, R515, R526) -/

section
variable {s : State} {vlcd aon : Nat}

/-- The rail is up, with its hold shown. -/
def railUp (held : Bool) : Eff := .andThen (putBit rLcdStatus 3 held) (onLcd fun l => { l with rail := true })

theorem railUp_completes {c : Instr} {held : Bool} (h : exec c s = .next ((railUp held).run s)) :
    Completes c s fun t => t.dev.lcd.rail = true ∧ t.bit rLcdStatus 3 = held ∧ Frame (fun o => o == rLcdStatus) s t ∧ t.out = s.out := by
  refine ⟨_, h, ?_⟩
  rw [railUp, Eff.run_andThen]
  exact ⟨rfl, by rw [(onLcd_frame (fun _ => false) _ _).bit rfl, State.bit_putBit _ (by decide)], (putBit_frame (by decide) _ _).trans (onLcd_frame _ _ _),
    by rw [onLcd_out, putBit_out]⟩

theorem exec_lcdRailSettled_external (h1 : s.lcdState = 1) (hr : s.dev.lcd.rail = false) (hi : s.lcdInternal = false) (hlo : 2700 ≤ vlcd)
    (hhi : vlcd ≤ 5000) : exec (.lcdRailSettled vlcd aon) s = .next ((railUp false).run s) := by
  have hrun : (effLcdRailSettled vlcd aon).run s = (railUp false).run s := by
    rw [effLcdRailSettled, Eff.run_read, hi]
    obtain ⟨t, held⟩ := s.lcdTarget aon
    dsimp only
    rw [if_neg (by decide), Eff.run_when, if_pos (by simp [h1, hr, hlo, hhi])]
    rfl
  exact congrArg Host.Outcome.next hrun

theorem exec_lcdRailSettled_internal (h1 : s.lcdState = 1) (hr : s.dev.lcd.rail = false) (hi : s.lcdInternal = true)
    (hhi : 20 * vlcd ≤ 21 * (s.lcdTarget aon).1) (hlo : 19 * (s.lcdTarget aon).1 ≤ 20 * vlcd) :
    exec (.lcdRailSettled vlcd aon) s = .next ((railUp (s.lcdTarget aon).2).run s) := by
  have hrun : (effLcdRailSettled vlcd aon).run s = (railUp (s.lcdTarget aon).2).run s := by
    rw [effLcdRailSettled, Eff.run_read, hi]
    generalize s.lcdTarget aon = p at hhi hlo ⊢
    obtain ⟨t, held⟩ := p
    dsimp only at hhi hlo ⊢
    rw [if_pos rfl, Eff.run_when, if_pos (by simp [h1, hr, hlo, hhi])]
    rfl
  exact congrArg Host.Outcome.next hrun

/-- A rail failure's retry is held off. -/
def holdsRetry : Eff := onLcd fun l => { l with retry := true }

theorem exec_lcdRailTimeout (h1 : s.lcdState = 1) (hr : s.dev.lcd.rail = false) (ho : s.railOverdue = true) :
    exec .lcdRailTimeout s = .next (railEvent.run (holdsRetry.run (lcdDark.run s))) := by
  have hrun : effLcdRailTimeout.run s = railEvent.run (holdsRetry.run (lcdDark.run s)) := by
    rw [effLcdRailTimeout, Eff.run_read, Eff.run_when, if_pos (by simp [h1, hr, ho]), Eff.run_all_cons, Eff.run_all_cons, Eff.run_all_cons, Eff.run_all_done,
      holdsRetry]
  exact congrArg Host.Outcome.next hrun

theorem lcdRailTimeout_completes (h1 : s.lcdState = 1) (hr : s.dev.lcd.rail = false) (ho : s.railOverdue = true) :
    Completes .lcdRailTimeout s (Reaching (fun u => u.lcdState = 0 ∧ u.dev.lcd.retry = true ∧ (∀ w, w < 5 → u.reg (rLcdSegRam w) = 0#64) ∧ SameHbm s u ∧
      SameGates s u) railEvent) := by
  have hhold := fun r => onLcd_frame r (fun l => { l with retry := true }) (lcdDark.run s)
  refine ⟨_, exec_lcdRailTimeout h1 hr ho, holdsRetry.run (lcdDark.run s), ⟨?_, rfl, fun w hw => ?_, lcdDark_frame.1.trans (hhold fun _ => false).1,
    lcdDark_frame.2.1.trans (hhold fun _ => false).2.1⟩, rfl⟩
  · rw [holdsRetry, State.lcdState, (hhold fun _ => false).fld rfl]
    exact lcdDark_state
  · rw [holdsRetry, (hhold fun _ => false).2.2 _ rfl, lcdDark_segments hw]

theorem exec_vlcdOutOfRange (h3 : s.lcdState = 3) (hi : s.lcdInternal = false) : exec .vlcdOutOfRange s = .next (railEvent.run (lcdDark.run s)) := by
  have hrun : effVlcdOutOfRange.run s = railEvent.run (lcdDark.run s) := by
    rw [effVlcdOutOfRange, Eff.run_read, Eff.run_when, if_pos (by simp [h3, hi]), Eff.run_andThen]
  exact congrArg Host.Outcome.next hrun

/-! ### Frames (R513, R518) -/

/-- A blank frame's hidden state. -/
def blanked (n : Nat) (l : Lcd) : Lcd := { l with blanks := n, lit := false }

/-- The hidden state of a frame that shows content. -/
def shownNow (l : Lcd) : Lcd := { l with blanks := 0, lit := true }

theorem exec_lcdFrame_rising (hp : s.dev.keep.powered = true) (h1 : s.lcdState = 1) (hr : s.dev.lcd.rail = true) :
    exec .lcdFrame s = .next ((panelTo 2 0 (blanked 2)).run s) := by
  have hrun : effLcdFrame.run s = (panelTo 2 0 (blanked 2)).run s := by
    simp only [effLcdFrame, Eff.run_read, hp, h1, hr, Bool.not_true, Bool.false_eq_true, if_false, Eff.run_when, if_true]
    rfl
  exact congrArg Host.Outcome.next hrun

theorem exec_lcdFrame_blank (hp : s.dev.keep.powered = true) (h2 : s.lcdState = 2) (hb : 1 < s.dev.lcd.blanks) :
    exec .lcdFrame s = .next ((onLcd fun l => { l with blanks := l.blanks - 1 }).run s) := by
  have hrun : effLcdFrame.run s = (onLcd fun l => { l with blanks := l.blanks - 1 }).run s := by
    simp only [effLcdFrame, Eff.run_read, hp, h2, Bool.not_true, Bool.false_eq_true, if_false, if_neg (show ¬ s.dev.lcd.blanks ≤ 1 by omega)]
  exact congrArg Host.Outcome.next hrun

theorem showContent_run : showContent.run s = (panelTo 3 (s.dev.lcd.page ||| s.statusBits) shownNow).run s := by
  rw [showContent, Eff.run_read]
  rfl

theorem exec_lcdFrame_shows (hp : s.dev.keep.powered = true) (h : (s.lcdState = 2 ∧ s.dev.lcd.blanks ≤ 1) ∨ s.lcdState = 3) :
    exec .lcdFrame s = .next ((panelTo 3 (s.dev.lcd.page ||| s.statusBits) shownNow).run s) := by
  have hrun : effLcdFrame.run s = showContent.run s := by
    rcases h with ⟨h2, hb⟩ | h3
    · simp only [effLcdFrame, Eff.run_read, hp, h2, hb, Bool.not_true, Bool.false_eq_true, if_false, if_true]
    · simp only [effLcdFrame, Eff.run_read, hp, h3, Bool.not_true, Bool.false_eq_true, if_false]
  exact congrArg Host.Outcome.next (hrun.trans showContent_run)

/-! ### VDD_AON (R517, R519) -/

theorem exec_aonLow (hp : s.dev.keep.powered = true) (hl : s.lcdState ≠ 0) :
    exec .aonLow s = .next (lcdDark.run ((putBit rLcdStatus 9 true).run s)) := by
  have hrun : effAonLow.run s = lcdDark.run ((putBit rLcdStatus 9 true).run s) := by
    rw [effAonLow, Eff.run_read, Eff.run_when, if_pos hp, Eff.run_andThen, Eff.run_when, if_pos (by simp [hl])]
  exact congrArg Host.Outcome.next hrun

theorem aonLow_completes (hp : s.dev.keep.powered = true) (hl : s.lcdState ≠ 0) : Completes .aonLow s fun t => t.lcdState = 0 ∧ t.bit rLcdStatus 9 = true ∧
    (∀ w, w < 5 → t.reg (rLcdSegRam w) = 0#64) ∧ SameHbm s t ∧ SameGates s t ∧ t.out = s.out := by
  have hbit := putBit_frame (s := s) (r := fun o => o == rLcdStatus) (off := rLcdStatus) (by decide) 9 true
  have hdark := lcdDark_frame (s := (putBit rLcdStatus 9 true).run s)
  refine ⟨_, exec_aonLow hp hl, lcdDark_state, ?_, fun w hw => lcdDark_segments hw, hbit.1.trans hdark.1, hbit.2.1.trans hdark.2.1, ?_⟩
  · rw [lcdDark_eq, panelTo_bit (by decide), State.bit_putBit _ (by decide)]
  · rw [lcdDark_out, putBit_out]

theorem lcdEval_rises (h0 : s.lcdState = 0) (hw : s.lcdWanted = true) (h9 : s.bit rLcdStatus 9 = false) (hk : s.kxtal = 1) (hr : s.dev.lcd.retry = false) :
    lcdEval.run s = lcdRise.run s := by
  rw [lcdEval, Eff.run_read, if_pos h0, Eff.run_when, if_pos (by simp [hw, h9, hk, hr])]

theorem lcdEval_dark (h0 : s.lcdState ≠ 0) (hw : s.lcdWanted = false) : lcdEval.run s = lcdDark.run s := by
  rw [lcdEval, Eff.run_read, if_neg h0, Eff.run_when, if_pos (by simp [hw])]

theorem lcdRise_run : lcdRise.run s = (onLcd fun l => { l with since := s.now }).run ((putFld rLcdStatus 0 3 1).run s) := by
  rw [lcdRise, Eff.run_read, Eff.run_andThen]

theorem aonRise_completes (hp : s.dev.keep.powered = true) (h0 : s.lcdState = 0) (hw : s.lcdWanted = true) (hk : s.kxtal = 1) (hr : s.dev.lcd.retry = false) :
    Completes .aonRise s fun t => t.lcdState = 1 ∧ t.bit rLcdStatus 9 = false ∧ Frame (fun o => o == rLcdStatus) s t ∧ t.out = s.out := by
  have hbit := putBit_frame (s := s) (r := fun o => o == rLcdStatus) (off := rLcdStatus) (by decide) 9 false
  have hwanted : ((putBit rLcdStatus 9 false).run s).lcdWanted = true := by
    rw [State.lcdWanted, hbit.bit (by decide), hbit.bit (by decide), putBit_dev]
    exact hw
  have hrises := lcdEval_rises (s := (putBit rLcdStatus 9 false).run s)
    (by rw [State.lcdState, State.fld_putBit_apart _ (by decide) (by decide)]; exact h0) hwanted (State.bit_putBit _ (by decide))
    (by rw [State.kxtal, hbit.fld (by decide)]; exact hk) (by rw [putBit_dev, hr])
  have hrun : effAonRise.run s = lcdRise.run ((putBit rLcdStatus 9 false).run s) := by
    rw [effAonRise, Eff.run_read, Eff.run_when, if_pos hp, Eff.run_andThen, hrises]
  refine ⟨_, congrArg Host.Outcome.next hrun, ?_⟩
  have hsince := fun (r : Nat → Bool) (u : State) => onLcd_frame r (fun l => { l with since := ((putBit rLcdStatus 9 false).run s).now }) u
  rw [lcdRise_run]
  refine ⟨?_, ?_, (hbit.trans (putFld_frame (by decide) _ _ _)).trans (hsince _ _), ?_⟩
  · rw [State.lcdState, (hsince (fun _ => false) _).fld rfl, State.fld_putFld_lt (by decide) (by decide)]
  · rw [(hsince (fun _ => false) _).bit rfl, State.bit_putFld_apart _ (by decide) (by decide), State.bit_putBit _ (by decide)]
  · rw [onLcd_out, putFld_out, putBit_out]
end

theorem panelStates : Stated.PanelStates := by
  refine ⟨fun s vlcd aon h1 hr hi hlo hhi => railUp_completes (exec_lcdRailSettled_external h1 hr hi hlo hhi),
    fun s vlcd aon h1 hr hi hhi hlo => railUp_completes (exec_lcdRailSettled_internal h1 hr hi hhi hlo), fun s hp h1 hr => ?_, fun s hp h2 hb => ?_,
    fun s hp h => ?_, fun _ => lcdRailTimeout_completes, fun s h3 hi => ?_, fun _ => aonLow_completes, fun _ => aonRise_completes⟩
  · exact ⟨_, exec_lcdFrame_rising hp h1 hr, panelTo_state (by decide), fun w hw => panelTo_blank hw, by rw [panelTo_lcd]; rfl, panelTo_frame.1,
      panelTo_frame.2.1, panelTo_out⟩
  · have hframe := onLcd_frame (fun _ => false) (fun l => { l with blanks := l.blanks - 1 }) s
    exact ⟨_, exec_lcdFrame_blank hp h2 hb, by rw [State.lcdState, hframe.fld rfl]; exact h2, rfl, hframe, rfl⟩
  · exact ⟨_, exec_lcdFrame_shows hp h, panelTo_state (by decide), by rw [panelTo_lcd]; rfl, panelTo_frame.1, panelTo_frame.2.1, panelTo_out,
      fun w hw => panelTo_segments hw⟩
  · exact ⟨_, exec_vlcdOutOfRange h3 hi, _, ⟨lcdDark_state, fun w hw => lcdDark_segments hw, lcdDark_frame.1, lcdDark_frame.2.1⟩, rfl⟩

/-! ### LCD_CTRL and LCD_HOLD (R517, R525) -/

section
variable {s : State} {rd v : Nat} {l : Loc}

theorem lcdCtrlBlank_completes (h : Writes s rd rLcdCtrl l) (hv : v % 2 = 1) (h0 : s.lcdState ≠ 0) :
    Completes (.lcdCtrlBlank rd v) s fun t => t.reg rLcdCtrl = 1#64 ∧ t.lcdState = 0 ∧ (∀ w, w < 5 → t.reg (rLcdSegRam w) = 0#64) ∧ SameHbm s t ∧
      SameGates s t ∧ t.out = s.out := by
  have hset := setReg_frame (s := s.written rd l) (r := fun o => o == rLcdCtrl) (off := rLcdCtrl) (w64 1) (by decide)
  have hdark : lcdEval.run ((putReg rLcdCtrl 1).run (s.written rd l)) = lcdDark.run ((putReg rLcdCtrl 1).run (s.written rd l)) := by
    refine lcdEval_dark ?_ ?_
    · rw [putReg_run, State.lcdState, hset.fld (by decide), State.written_fld]
      exact h0
    · rw [putReg_run, State.lcdWanted, State.bit, State.bit, State.reg_setReg]
      simp [bitOf, w64]
  have hrun : (writeReg rd rLcdCtrl (effLcdCtrl v)).run s = lcdDark.run ((putReg rLcdCtrl 1).run (s.written rd l)) := by
    rw [writeReg_run h, effLcdCtrl, Eff.run_andThen, hv, hdark]
  have hwritten := s.written_frame rd l fun _ => false
  have hframe := lcdDark_frame (s := (putReg rLcdCtrl 1).run (s.written rd l))
  refine ⟨_, congrArg Host.Outcome.next hrun, ?_, lcdDark_state, fun w hw => lcdDark_segments hw, (hwritten.1.trans hset.1).trans hframe.1,
    (hwritten.2.1.trans hset.2.1).trans hframe.2.1, ?_⟩
  · rw [hframe.2.2 _ (by decide), putReg_run, State.reg_setReg]
    rfl
  · rw [lcdDark_out, putReg_run, Act.setReg_out, State.written_out]

/-- The held entry is shown, for some seconds. -/
def holdEntry (v : Nat) : Eff := Eff.all
  [ putFld rLcdStatus 4 4 (v % 16), putBit rLcdStatus 8 true, putFld rLcdStatus 16 12 (v / 16 % 4096), onLcd fun l => { l with shown := 0 } ]

theorem holdEntry_run (v : Nat) : (holdEntry v).run s = (onLcd fun l => { l with shown := 0 }).run ((putFld rLcdStatus 16 12 (v / 16 % 4096)).run
    ((putBit rLcdStatus 8 true).run ((putFld rLcdStatus 4 4 (v % 16)).run s))) := by
  rw [holdEntry, Eff.run_all_cons, Eff.run_all_cons, Eff.run_all_cons, Eff.run_all_cons, Eff.run_all_done]

theorem State.pageOpen_written (rd : Nat) (l : Loc) (e : Nat) : (s.written rd l).pageOpen e = s.pageOpen e := by
  have hboard : (s.written rd l).dev.board = s.dev.board := State.written_keeps (p := fun d => d.board) (fun _ _ => rfl) s rd l
  simp only [State.pageOpen, State.pageList, State.page, State.mainUp, State.written_fld, hboard]

theorem exec_lcdHold (h : Writes s rd rLcdHold l) (hkey : v / 65536 = 0xD15A) (h1 : 1 ≤ v / 16 % 4096) (hmax : v / 16 % 4096 ≤ 3600)
    (hopen : s.pageOpen (v % 16) = true) : exec (.lcdHold rd v) s = .next ((holdEntry v).run (s.written rd l)) := by
  have hrun : (writeReg rd rLcdHold (effLcdHold v)).run s = (holdEntry v).run (s.written rd l) := by
    rw [writeReg_run h, effLcdHold, Eff.run_read, if_neg (by simp [hkey]), if_neg (by omega), if_pos (by simp [State.pageOpen_written, hopen, hmax]), holdEntry]
  exact congrArg Host.Outcome.next hrun

theorem lcdHold_completes (h : Writes s rd rLcdHold l) (hkey : v / 65536 = 0xD15A) (h1 : 1 ≤ v / 16 % 4096) (hmax : v / 16 % 4096 ≤ 3600)
    (hopen : s.pageOpen (v % 16) = true) : Completes (.lcdHold rd v) s fun t => t.entry = v % 16 ∧ t.holding = true ∧
      t.fld rLcdStatus 16 12 = v / 16 % 4096 ∧ t.dev.lcd.shown = 0 ∧ Frame (fun o => o == rLcdStatus) s t ∧ t.out = s.out := by
  have hshown := fun r (u : State) => onLcd_frame r (fun l => { l with shown := 0 }) u
  refine ⟨_, exec_lcdHold h hkey h1 hmax hopen, ?_⟩
  rw [holdEntry_run]
  refine ⟨?_, ?_, ?_, rfl, ((((s.written_frame rd l _).trans (putFld_frame (by decide) _ _ _)).trans (putBit_frame (by decide) _ _)).trans
    (putFld_frame (by decide) _ _ _)).trans (hshown _ _), ?_⟩
  · rw [State.entry, (hshown (fun _ => false) _).fld rfl, State.fld_putFld_apart _ (by decide) (by decide), State.fld_putBit_apart _ (by decide) (by decide),
      State.fld_putFld _ (by decide)]
    exact Nat.mod_mod _ _
  · rw [State.holding, (hshown (fun _ => false) _).bit rfl, State.bit_putFld_apart _ (by decide) (by decide), State.bit_putBit _ (by decide)]
  · rw [(hshown (fun _ => false) _).fld rfl, State.fld_putFld _ (by decide)]
    exact Nat.mod_mod _ _
  · rw [onLcd_out, putFld_out, putBit_out, putFld_out, State.written_out]

theorem exec_lcdHold_end (h : Writes s rd rLcdHold l) (hkey : v / 65536 = 0xD15A) (h0 : v / 16 % 4096 = 0) :
    exec (.lcdHold rd v) s = .next ((putFld rLcdStatus 16 12 0).run ((putBit rLcdStatus 8 false).run (s.written rd l))) := by
  have hrun : (writeReg rd rLcdHold (effLcdHold v)).run s = (putFld rLcdStatus 16 12 0).run ((putBit rLcdStatus 8 false).run (s.written rd l)) := by
    rw [writeReg_run h, effLcdHold, Eff.run_read, if_neg (by simp [hkey]), if_pos h0, Eff.run_andThen]
  exact congrArg Host.Outcome.next hrun
end

theorem panelCommands : Stated.PanelCommands := by
  refine ⟨fun s rd v l => lcdCtrlBlank_completes, fun s rd v l => lcdHold_completes, fun s rd v l h hkey h0 => ?_⟩
  refine ⟨_, exec_lcdHold_end h hkey h0, ?_, ?_, ((s.written_frame rd l _).trans (putBit_frame (by decide) _ _)).trans (putFld_frame (by decide) _ _ _), ?_⟩
  · rw [State.holding, State.bit_putFld_apart _ (by decide) (by decide), State.bit_putBit _ (by decide)]
  · rw [State.fld_putFld_lt (by decide) (by decide)]
  · rw [putFld_out, putBit_out, State.written_out]

/-- Settles O57, by the three things that every change of the panel's state does together. -/
theorem frontPanel : Obligations.FrontPanel := ⟨panelStates, panelCommands⟩

end Sys2Proof.Machine
end

section
/-!
# Meter samples, window ends and pulses (R440 to R449, R462, R464, R477)
-/
namespace Sys2Proof.Machine
open Sys2Proof

/-! ### The registers after MTR_WIN -/

/-- The registers whose offsets lie above MTR_WIN. -/
def afterWin (off : Nat) : Bool := decide (0xB0010 ≤ off)

/-- The registers of an array lie above MTR_WIN where its first one does. -/
@[simp] theorem afterWin_add {a b : Nat} (h : afterWin a = true) : afterWin (a + b) = true := by
  simp only [afterWin, decide_eq_true_eq] at h ⊢
  omega

theorem fltBlock_afterWin {off : Nat} (h : fltBlock off = true) : afterWin off = true := by
  simp only [mem_fltBlock] at h
  simp [afterWin]
  omega

/-- An effect on engines and on registers above MTR_WIN alone. -/
abbrev Eff.AfterWin (e : Eff) : Prop := e.Only (Act.Local afterWin)

theorem countAt_afterWin {src : Nat} (h : src < 256) (hlow : 0x33 < src) (h60 : src ≠ 0x60) (u : Nat) : (countAt src u).AfterWin := by
  have hretire : (retireUnit src u).AfterWin := by
    rw [retireUnit, if_neg (by omega), if_neg (by omega)]
    split <;> simp [journalUnits_only]
  have hbudget : (tileBudget src).AfterWin := fun s => Eff.only_when.mpr fun hb => by
    simp only [Bool.and_eq_true, decide_eq_true_eq] at hb
    omega
  exact countWith_only (fun _ => fltBlock_afterWin) u 0 _ h (fun _ => ⟨hretire, hbudget⟩) fun x => absurd x h60

@[simp] theorem putSigned_afterWin {off w : Nat} {z : Int} : (putSigned off w z).AfterWin ↔ afterWin off = true := by simp [putSigned]
@[simp] theorem putSFld_afterWin {off lo w : Nat} {z : Int} : (putSFld off lo w z).AfterWin ↔ afterWin off = true := by simp [putSFld]
@[simp] theorem showEff_afterWin (c : Nat) : (showEff c).AfterWin := by
  simp [showEff, show afterWin 0xB0140 = true by decide]
@[simp] theorem logNow_afterWin (kind which value : Nat) : (logNow kind which value).AfterWin := by
  simp [logNow, logEvent, rMtrEvtHead, show afterWin 0xB2000 = true by decide, show afterWin 0xB2800 = true by decide]
@[simp] theorem showT_afterWin (k : Nat) (raw : Int) : (showT k raw).AfterWin := by
  simp [showT, show afterWin 0xE0100 = true by decide]
@[simp] theorem withStandIn_afterWin (sensor : Nat) {k : Int → Eff} (h : ∀ z, (k z).AfterWin) : (withStandIn sensor k).AfterWin := by
  simp [withStandIn, h]
@[simp] theorem judgeChannel_afterWin (w c : Nat) : (judgeChannel w c).AfterWin := by
  simp [judgeChannel, show afterWin 0xB0100 = true by decide, countAt_afterWin (src := 0x50) (by decide) (by decide) (by decide)]
@[simp] theorem retireChannels_afterWin : retireChannels.AfterWin := by
  simp [retireChannels, show afterWin 0xB0100 = true by decide]
@[simp] theorem temperatureTerms_afterWin (raw : Option Nat) : (temperatureTerms raw).AfterWin := by
  cases raw <;> simp [temperatureTerms, show afterWin 0xB001C = true by decide]
@[simp] theorem zeroInForce_afterWin (k n : Nat) : (zeroInForce k n).AfterWin := by
  simp only [zeroInForce, Eff.only_read]
  intro s
  split <;> simp [calAccept, show afterWin 0xE0100 = true by decide, show afterWin 0xE1000 = true by decide, show afterWin 0xE1008 = true by decide]
@[simp] theorem crossCheck_afterWin (n : Nat) (us : List Nat) : (crossCheck n us).AfterWin := by
  simp only [crossCheck, Eff.only_read]
  intro s
  split <;> simp [countAt_afterWin (src := 0x52) (by decide) (by decide) (by decide), show afterWin 0xB0690 = true by decide, show afterWin 0xB0694 = true by decide]
@[simp] theorem measureWindow_afterWin : measureWindow.AfterWin := by
  simp only [measureWindow, Eff.only_read]
  intro s
  split
  · trivial
  · simp only [Eff.only_ite, onMtr_local, implies_true, true_and]
    split <;> simp [show afterWin 0xB0814 = true by decide, show afterWin 0xB0818 = true by decide]
@[simp] theorem applyWindow_afterWin : applyWindow.AfterWin := by
  simp only [applyWindow, Eff.only_read]
  intro s
  split <;> simp [show afterWin 0xB0814 = true by decide, show afterWin 0xB0130 = true by decide, show afterWin 0xB0150 = true by decide,
    show afterWin 0xB0158 = true by decide]

/-! ### Window ends (R447 to R449) -/

theorem Eff.run_all_append (es fs : List Eff) (s : State) : (Eff.all (es ++ fs)).run s = (Eff.all fs).run ((Eff.all es).run s) := by
  induction es generalizing s with
  | nil => rfl
  | cons e es ih => rw [List.cons_append, Eff.run_all_cons, ih, Eff.run_all_cons]

theorem Eff.run_all_split (pre : List Eff) (a b : Eff) (post : List Eff) (s : State) :
    (Eff.all (pre ++ a :: b :: post)).run s = (Eff.all post).run (b.run (a.run ((Eff.all pre).run s))) := by
  rw [Eff.run_all_append, Eff.run_all_cons, Eff.run_all_cons]

/-- The end of a window sets MTR_WIN once, and what follows leaves it. -/
theorem endWindow_split (w : Nat) (last : Option Rat) (raw : Option Nat) (gap : Bool) (s : State) : ∃ pre post,
    (endWindow w last raw gap).run s = (Eff.all post).run ((putFld rMtrWin 32 11 w).run ((putFld rMtrWin 0 32 (s.fld rMtrWin 0 32 + 1)).run
      ((Eff.all pre).run s))) ∧ (Eff.all post).Only (Act.Local fun o => o != rMtrWin) := by
  have hwider := fun {e : Eff} (he : e.AfterWin) => he.wider (q := fun o => o != rMtrWin) fun o ho => by
    simp only [afterWin, decide_eq_true_eq] at ho
    simp [rMtrWin]
    omega
  rw [endWindow, Eff.run_read]
  refine ⟨[_, _, _, _, _, _, _, _, _], _, Eff.run_all_split [_, _, _, _, _, _, _, _, _] _ _ _ s, ?_⟩
  simp [hwider (logNow_afterWin _ _ _), hwider (judgeChannel_afterWin _ _), hwider retireChannels_afterWin, hwider (crossCheck_afterWin _ _),
    hwider measureWindow_afterWin, hwider applyWindow_afterWin, hwider (temperatureTerms_afterWin _), hwider (zeroInForce_afterWin _ _),
    hwider (showEff_afterWin _), rMtrWin]
  split <;> simp [rMtrWinTick, rMtrStatus, rMtrFreq]

theorem endWindow_win (w : Nat) (last : Option Rat) (raw : Option Nat) (gap : Bool) (s : State) :
    ((endWindow w last raw gap).run s).fld rMtrWin 0 32 = (s.fld rMtrWin 0 32 + 1) % 2 ^ 32 ∧
      ((endWindow w last raw gap).run s).fld rMtrWin 32 11 = w % 2 ^ 11 := by
  obtain ⟨pre, post, hrun, hpost⟩ := endWindow_split w last raw gap s
  have hkeep := fun u => (hpost.frame u).fld (off := rMtrWin) (by simp)
  rw [hrun, hkeep, hkeep]
  exact ⟨by rw [State.fld_putFld_apart _ (by decide) (by decide), State.fld_putFld _ (by decide)], State.fld_putFld _ (by decide)⟩

section
variable {s : State}

theorem exec_windowEnd {raw w : Nat} {x : Option Rat} (hm : s.metering = true) (hw : s.windowEnd = some (w, x)) :
    exec (.windowEnd raw) s = .next ((endWindow w x (some raw) false).run s) := by
  have hrun : (effWindowEnd raw).run s = (endWindow w x (some raw) false).run s := by
    simp only [effWindowEnd, Eff.run_read, hm, hw, Bool.not_true, Bool.false_eq_true, if_false]
  exact congrArg Host.Outcome.next hrun

theorem exec_windowEnd_none {raw : Nat} (hm : s.metering = true) (hw : s.windowEnd = none) : exec (.windowEnd raw) s = .next s := by
  have hrun : (effWindowEnd raw).run s = s := by
    simp only [effWindowEnd, Eff.run_read, hm, hw, Bool.not_true, Bool.false_eq_true, if_false, Eff.run_skip]
  exact congrArg Host.Outcome.next hrun

/-! ### Samples (R440, R441, R477) -/

/-- What a bit of a block adds to a channel's run, level, stuck run and ones. -/
def takeStep (block : Nat) : Nat × Bool × Bool × Nat → Nat → Nat × Bool × Bool × Nat := fun a i =>
  let b := bitOf block i
  let run := if b == a.2.1 then a.1 + 1 else 1
  (run, b, a.2.2.1 || decide (256 ≤ run), a.2.2.2 + b2n b)

theorem takeStep_ones (block : Nat) (is : List Nat) (a : Nat × Bool × Bool × Nat) :
    (is.foldl (takeStep block) a).2.2.2 = a.2.2.2 + (is.filter (bitOf block)).length := by
  induction is generalizing a with
  | nil => rfl
  | cons i is ih =>
    rw [List.foldl_cons, ih, List.filter_cons]
    cases hb : bitOf block i with
    | false => simp [takeStep, hb, b2n]
    | true =>
      simp only [takeStep, hb, b2n, if_true, List.length_cons]
      omega

/-- What taking a block leaves in a channel. -/
theorem MChan.take_spec (m : MChan) (block : Nat) : (m.take block).newer = block ∧ (m.take block).older = m.newer ∧ (m.take block).recent = m.recent ∧
    (m.take block).marks.head?.map Prod.fst = some ((List.range 512).filter (bitOf block)).length := by
  have hones := takeStep_ones block (List.range 512) (m.run, m.level, false, 0)
  rw [Nat.zero_add] at hones
  dsimp only [MChan.take]
  refine ⟨rfl, rfl, rfl, ?_⟩
  rw [keptSamples, List.take_succ_cons, List.head?_cons, Option.map_some]
  delta takeStep at hones
  dsimp only at hones
  rw [hones]

/-- A discarded sample is taken, and no more. -/
theorem MChan.sample_discarded (m : MChan) (l : Layer) (hpf : Bool) (tau phi : Int) (voltage : Bool) (full : Nat) {skip : Nat} (h : 0 < skip) (block : Nat) :
    m.sample l hpf tau phi voltage full skip block = m.take block := by
  rw [MChan.sample]
  exact if_pos h

theorem mget_map {α : Type} (d : α) (f : Nat → α) (c : Nat) (cs : List Nat) (h : c ∈ cs) : mget d (cs.map fun c => (c, f c)) c = f c := by
  induction cs with
  | nil => exact absurd h List.not_mem_nil
  | cons x cs ih =>
    by_cases hx : x = c
    · simp [mget, mget?, hx]
    · simpa [mget, mget?, hx] using ih ((List.mem_cons.mp h).resolve_left fun e => hx e.symm)

theorem onMtr_frame (r : Nat → Bool) (g : Mtr → Mtr) (u : State) : Frame r u ((onMtr g).run u) := Frame.of_dev _ r u

theorem onMtr_mtr (g : Mtr → Mtr) (u : State) : ((onMtr g).run u).dev.mtr = g u.dev.mtr := rfl

theorem onMtr_out (g : Mtr → Mtr) (u : State) : ((onMtr g).run u).out = u.out := rfl

/-- The channels in service, each with a block taken. -/
def State.taken (s : State) (blocks : List Nat) : Map MChan :=
  (s.mtrUsed.filter s.inService).map fun c => (c, (mget {} s.dev.mtr.chans c).take (blocks.getD c 0))

/-- The meter once every channel in service has taken a discarded sample. -/
def State.discarded (s : State) (blocks : List Nat) : Mtr :=
  { s.dev.mtr with chans := s.taken blocks, skip := s.dev.mtr.skip - 1, tick := s.now, measure := none }

theorem State.taken_chan {blocks : List Nat} {c : Nat} (hc : c ∈ s.mtrUsed) (hs : s.inService c = true) :
    mget {} (s.taken blocks) c = (mget {} s.dev.mtr.chans c).take (blocks.getD c 0) := by
  have hmem : c ∈ s.mtrUsed.filter s.inService := List.mem_filter.mpr ⟨hc, hs⟩
  rw [State.taken]
  generalize s.mtrUsed.filter s.inService = cs at hmem
  rw [mget_map (α := MChan) _ _ _ _ hmem]

/-- No channel's kept values grow while samples are discarded and none is kept yet. -/
theorem State.taken_grown {blocks : List Nat} (h : ∀ c, (mget {} s.dev.mtr.chans c).recent = []) :
    ((s.mtrUsed.filter s.inService).any fun c => (mget {} (s.taken blocks) c).recent != (mget {} s.dev.mtr.chans c).recent ||
      decide (0 < (mget {} s.dev.mtr.chans c).recent.length)) = false := by
  rw [List.any_eq_false]
  intro c hc
  obtain ⟨hused, hin⟩ := List.mem_filter.mp hc
  have hrecent := ((mget {} s.dev.mtr.chans c).take_spec (blocks.getD c 0)).2.2.1
  rw [State.taken_chan hused hin, hrecent, h c]
  decide

theorem exec_meterSample_discarded {blocks : List Nat} (hm : s.metering = true) (hw : s.windowEnd = none) (hk : s.dev.mtr.skip = 3)
    (hq : s.dev.mtr.measure = none) (hr : ∀ c, (mget {} s.dev.mtr.chans c).recent = []) :
    exec (.meterSample blocks []) s = .next ((onMtr fun _ => s.discarded blocks).run s) := by
  have htaken : ((s.mtrUsed.filter s.inService).map fun c => (c, (mget {} s.dev.mtr.chans c).sample (s.layer c) (s.hpf c) (s.terms c).1 (s.terms c).2
      (decide (c < 3)) (s.fullScale c) s.dev.mtr.skip (blocks.getD c 0))) = s.taken blocks := by
    simp only [State.taken, MChan.sample_discarded _ _ _ _ _ _ _ (show 0 < s.dev.mtr.skip by omega)]
  have hrun : (effMeterSample blocks []).run s = (onMtr fun _ => s.discarded blocks).run s := by
    rw [effMeterSample, Eff.run_read, hm, if_neg (by decide), Eff.run_andThen, measureDue_none (.inr hw), Eff.run_read]
    simp only [htaken, State.taken_grown hr, hq, Option.map_none, Bool.not_and_self, Bool.false_eq_true, if_false, Eff.run_all_cons, Eff.run_all_done,
      Eff.run_when, show ¬ s.dev.mtr.skip = 0 by omega, decide_false, State.discarded]
  exact congrArg Host.Outcome.next hrun
end

theorem meterSamples : Stated.MeterSamples := by
  refine ⟨fun s blocks hm hw hk hq hr => ?_, fun s raw w x hm hw _ => ?_, fun s raw hm hw => ⟨_, exec_windowEnd_none hm hw, rfl⟩⟩
  · refine ⟨_, exec_meterSample_discarded hm hw hk hq hr, ?_, rfl, fun c hc hin => ?_, Frame.of_dev _ _ s, rfl⟩
    · show s.dev.mtr.skip - 1 = 2
      omega
    · obtain ⟨hnewer, holder, -, hones⟩ := (mget {} s.dev.mtr.chans c).take_spec (blocks.getD c 0)
      rw [onMtr_mtr, State.discarded, State.taken_chan hc hin]
      exact ⟨hnewer, holder, hones⟩
  · have hframe := (endWindow_calm w x (some raw) false).frame s
    obtain ⟨hcount, hlength⟩ := endWindow_win w x (some raw) false s
    exact ⟨_, exec_windowEnd hm hw, hcount, hlength, hframe.1, hframe.2.1, rfl⟩

/-! ### Pulses (R462, R464) -/

section
variable {s : State}

/-- A pulse of CF_OUT starts: the queue falls, the count rises, and the output is high. -/
def pulseStarts : Eff := .read fun s => Eff.all
  [ putReg rMtrCfQueue ((s.reg rMtrCfQueue).toNat - 1), bumpReg rMtrCfCount 64 1, onMtr fun m => { m with high := true, lastPulse := some s.now } ]

theorem pulseStarts_run : pulseStarts.run s = (onMtr fun m => { m with high := true, lastPulse := some s.now }).run
    ((bumpReg rMtrCfCount 64 1).run ((putReg rMtrCfQueue ((s.reg rMtrCfQueue).toNat - 1)).run s)) := by
  rw [pulseStarts, Eff.run_read, Eff.run_all_cons, Eff.run_all_cons, Eff.run_all_cons, Eff.run_all_done]

theorem ratOf_natCast (n : Nat) : ratOf n = (n : Rat) := (Rat.mkRat_one n).trans (Rat.intCast_natCast n)

theorem exec_cfPulseStart (hm : s.metering = true) (hh : s.dev.mtr.high = false) (hq : s.reg rMtrCfQueue ≠ 0#64)
    (hs : ∀ t0, s.dev.mtr.lastPulse = some t0 → (t0 : Rat) + s.dev.mtr.spacing ≤ s.now) : exec .cfPulseStart s = .next (pulseStarts.run s) := by
  have hrun : effCfPulseStart.run s = pulseStarts.run s := by
    rw [effCfPulseStart, Eff.run_read, pulseStarts, Eff.run_read]
    cases hl : s.dev.mtr.lastPulse with
    | none => simp [hm, hh, hq, hl]
    | some t0 =>
      have hready : ratOf t0 + s.dev.mtr.spacing ≤ ratOf s.now := by
        rw [ratOf_natCast, ratOf_natCast]
        exact hs t0 hl
      simp [hm, hh, hq, hl, hready]
  exact congrArg Host.Outcome.next hrun

theorem cfPulseStart_completes (hm : s.metering = true) (hh : s.dev.mtr.high = false) (hq : s.reg rMtrCfQueue ≠ 0#64)
    (hs : ∀ t0, s.dev.mtr.lastPulse = some t0 → (t0 : Rat) + s.dev.mtr.spacing ≤ s.now) :
    Completes .cfPulseStart s fun t => t.reg rMtrCfQueue = w64 ((s.reg rMtrCfQueue).toNat - 1) ∧
      t.reg rMtrCfCount = w64 (satAdd 64 (s.reg rMtrCfCount).toNat 1) ∧ t.dev.mtr.high = true ∧ t.dev.mtr.lastPulse = some s.now ∧
      Frame (fun o => o == rMtrCfQueue || o == rMtrCfCount) s t ∧ t.out = s.out := by
  have hpulse := fun r u => onMtr_frame r (fun m => { m with high := true, lastPulse := some s.now }) u
  refine ⟨_, exec_cfPulseStart hm hh hq hs, ?_⟩
  rw [pulseStarts_run]
  refine ⟨?_, ?_, rfl, rfl, ((setReg_frame _ (by decide)).trans (setReg_frame _ (by decide))).trans (hpulse _ _), ?_⟩
  · rw [(hpulse (fun _ => false) _).2.2 _ rfl, bumpReg_run, State.reg_setReg_other (by decide), putReg_run, State.reg_setReg]
  · rw [(hpulse (fun _ => false) _).2.2 _ rfl, bumpReg_run, State.reg_setReg, putReg_run, State.reg_setReg_other (by decide)]
  · rw [onMtr_out, bumpReg_run, Act.setReg_out, putReg_run, Act.setReg_out]

theorem exec_cfPulseEnd (hh : s.dev.mtr.high = true) (hw : s.dev.mtr.lastPulse.getD 0 + s.fld rMtrCfCfg 20 7 * 800000 ≤ s.now) :
    exec .cfPulseEnd s = .next ((onMtr fun m => { m with high := false }).run s) := by
  have hrun : effCfPulseEnd.run s = (onMtr fun m => { m with high := false }).run s := by
    rw [effCfPulseEnd, Eff.run_read, Eff.run_when, if_pos (by simp [hh, hw])]
  exact congrArg Host.Outcome.next hrun

theorem exec_pulseInAccept {n : Nat} {level : Bool} (hn : n < 2) (ho : s.dev.mtr.on = true) (hl : level ≠ s.bit (rMtrPinCfg n) 23) :
    exec (.pulseInAccept n level) s = .next ((bumpReg (rMtrPinCount n) 64 1).run s) := by
  have hrun : (effPulseInAccept n level).run s = (bumpReg (rMtrPinCount n) 64 1).run s := by
    rw [effPulseInAccept, Eff.run_read, Eff.run_when, if_pos (by simp [hn, ho, hl])]
  exact congrArg Host.Outcome.next hrun
end

theorem pulses : Stated.Pulses :=
  ⟨fun _ => cfPulseStart_completes, fun s hh hw => ⟨_, exec_cfPulseEnd hh hw, rfl, onMtr_frame _ _ s, rfl⟩,
    fun s n level hn ho hl => ⟨_, exec_pulseInAccept hn ho hl, by rw [bumpReg_run, State.reg_setReg], setReg_frame _ (by simp),
      by rw [bumpReg_run, Act.setReg_out]⟩⟩

/-- Settles O58, by a discarded sample of each channel, the one setting of MTR_WIN in a window's end, and the pulses. -/
theorem meterSamplesAndPulses : Obligations.MeterSamplesAndPulses := ⟨meterSamples, pulses⟩

end Sys2Proof.Machine
end
section
/-! # The own time mark (O30) -/

namespace Sys2Proof.Machine
open Sys2Proof

section
variable {s : State} {d : MarkData}

theorem exec_ownTimeMark_due (hs : s.dev.clk.started = true) (hn : (s.reg rIbnMark).toNat < s.now / 65536) :
    exec (.ownTimeMark d) s = .next ((ownMarkTail d (s.now / 65536)).run ((putReg rIbnMark (s.now / 65536)).run s)) := by
  have hrun : (effOwnTimeMark d).run s = (ownMarkTail d (s.now / 65536)).run ((putReg rIbnMark (s.now / 65536)).run s) := by
    rw [effOwnTimeMark, Eff.run_read, if_neg (by simp [hs, Nat.not_le.mpr hn]), Eff.run_all_cons]
    rfl
  exact congrArg Host.Outcome.next hrun

theorem exec_ownTimeMark_none (h : s.dev.clk.started = false ∨ s.now / 65536 ≤ (s.reg rIbnMark).toNat) : exec (.ownTimeMark d) s = .next s := by
  have hrun : (effOwnTimeMark d).run s = s := by
    rw [effOwnTimeMark, Eff.run_read, if_pos (by rcases h with h | h <;> simp [h]), Eff.run_skip]
  exact congrArg Host.Outcome.next hrun

/-! ### Pace counts (R80, R663) -/

theorem rPacTile_ne {i j : Nat} (h : i ≠ j) : rPacTile i ≠ rPacTile j := by
  unfold rPacTile
  omega

/-- The pace count of one tile appears in its register. -/
def paceShown (e : Nat × Nat) : Eff := .read fun s => Eff.when (decide (e.1 < 96)) (putFld (rPacTile e.1) 0 18 (s.paceCount e.1 e.2))

theorem paceShown_run {e : Nat × Nat} (h : e.1 < 96) (s : State) : (paceShown e).run s = (putFld (rPacTile e.1) 0 18 (s.paceCount e.1 e.2)).run s := by
  rw [paceShown, Eff.run_read, Eff.run_when, if_pos (decide_eq_true h)]

theorem paceShown_trim {e : Nat × Nat} (h : e.1 < 96) (k : Nat) (s : State) : ((paceShown e).run s).fld (rPacTile k) 22 4 = s.fld (rPacTile k) 22 4 := by
  rw [paceShown_run h]
  by_cases hk : k = e.1
  · subst hk
    exact State.fld_putFld_apart _ (by omega) (by omega)
  · rw [putFld_run, State.fld_setReg_other (rPacTile_ne hk)]

theorem paceShown_others {e : Nat × Nat} (h : e.1 < 96) {k : Nat} (hk : k ≠ e.1) (s : State) :
    ((paceShown e).run s).fld (rPacTile k) 0 18 = s.fld (rPacTile k) 0 18 := by
  rw [paceShown_run h, putFld_run, State.fld_setReg_other (rPacTile_ne hk)]

theorem paceShown_each_others {xs : List (Nat × Nat)} (hx : ∀ e ∈ xs, e.1 < 96) {k : Nat} (hk : k ∉ xs.map (·.1)) (s : State) :
    ((Eff.each xs paceShown).run s).fld (rPacTile k) 0 18 = s.fld (rPacTile k) 0 18 := by
  induction xs generalizing s with
  | nil => rfl
  | cons x xs ih =>
    obtain ⟨hne, hxs⟩ := not_or.mp fun h => hk (List.mem_cons.mpr h)
    rw [Eff.run_each_cons, ih (fun e he => hx e (List.mem_cons_of_mem _ he)) hxs, paceShown_others (hx x List.mem_cons_self) hne]

theorem paceShown_each {xs : List (Nat × Nat)} (hx : ∀ e ∈ xs, e.1 < 96) (hnd : (xs.map (·.1)).Nodup) {e : Nat × Nat} (he : e ∈ xs) (s : State) :
    ((Eff.each xs paceShown).run s).fld (rPacTile e.1) 0 18 = s.paceCount e.1 e.2 := by
  induction xs generalizing s with
  | nil => exact absurd he List.not_mem_nil
  | cons x xs ih =>
    obtain ⟨hnew, hnd⟩ := List.nodup_cons.mp hnd
    have hxs : ∀ e ∈ xs, e.1 < 96 := fun e he => hx e (List.mem_cons_of_mem _ he)
    rw [Eff.run_each_cons]
    rcases List.mem_cons.mp he with rfl | he
    · rw [paceShown_each_others hxs hnew, paceShown_run (hx e List.mem_cons_self), State.fld_putFld _ (by omega), Nat.mod_eq_of_lt]
      exact Nat.lt_of_le_of_lt (Nat.min_le_left _ _) (by decide)
    · rw [ih hxs hnd he, State.paceCount, paceShown_trim (hx x List.mem_cons_self), State.paceCount]

/-- What follows the pace counts at a mark with no sensor reading: PAC_TEMP and JUNCTION_HOT. -/
theorem hottest_local : (Eff.read fun s => match hottest s.tileTemps with
    | some (k, t) => Eff.all [putReg rPacTemp (unsigned 12 t + k * 2 ^ 12), Eff.when (decide (440 ≤ t)) (countAt 0x0A 0)]
    | none => .skip).Only (Act.Local fun o => o == rPacTemp || fltBlock o) := by
  refine Eff.only_read.mpr fun s => ?_
  split
  · simp only [Eff.only_all, List.mem_cons, List.not_mem_nil, or_false]
    rintro e (rfl | rfl)
    · simp
    · exact Eff.only_when.mpr fun _ => (countAt_only 0 (by decide) (by decide) (by decide)).wider fun o ho => by simp [ho]
  · trivial

theorem markPace_shows {n : Nat} (hn : n % 16 ≠ 0) (hraw : d.raw = []) (hpace : d.pace.map (·.1) = List.range 96) {e : Nat × Nat} (he : e ∈ d.pace) :
    ((markPace d n).run s).fld (rPacTile e.1) 0 18 = s.paceCount e.1 e.2 := by
  have hx : ∀ e ∈ d.pace, e.1 < 96 := fun e he => List.mem_range.mp (hpace ▸ List.mem_map_of_mem he)
  have hapart : rPacTile e.1 ≠ rPacTemp ∧ fltBlock (rPacTile e.1) = false := by
    have := hx e he
    simp [fltBlock, rPacTile, rPacTemp]
    omega
  have hmarks : (n % 16 == 0) = false := by simpa using hn
  rw [markPace, Eff.run_all_cons, Eff.run_all_cons, Eff.run_all_cons, Eff.run_all_cons, Eff.run_all_done, hraw, Eff.run_each_nil, Eff.run_when, hmarks,
    if_neg (by decide)]
  have hkeep : (rPacTile e.1 == rPacTemp || fltBlock (rPacTile e.1)) = false := by simp [hapart]
  exact ((hottest_local.frame _).fld hkeep 0 18).trans (paceShown_each hx (hpace ▸ List.nodup_range) he s)
end

/-- Settles O30: the step's own write to IBN_MARK, and the pace counts one by one, none of which touches a trim. -/
theorem ownTimeMark : Obligations.OwnTimeMark := by
  unfold Obligations.OwnTimeMark
  refine ⟨fun s d hs hn => ⟨_, exec_ownTimeMark_due hs hn, (putReg rIbnMark (s.now / 65536)).run s, ⟨?_, ?_, ?_⟩, rfl⟩,
    fun s d h => ⟨_, exec_ownTimeMark_none h, rfl⟩, fun s d n hn hraw hpace e he => markPace_shows hn hraw hpace he⟩
  · rw [putReg_run, State.reg_setReg]
  · exact setReg_frame _ (by simp)
  · rw [putReg_run, Act.setReg_out]

end Sys2Proof.Machine
end
section
/-! # Groups of ranks (O33) -/

namespace Sys2Proof.Machine
open Sys2Proof

/-! ### A CLOSE at which a stoppage starts (R328, R592) -/

/-- A chip at RUN whose PF0 answers, with basin 0 OPEN, group 0 of it OPEN with nothing outstanding, and a stoppage of tile 0, in service, due. -/
def closeable : State :=
  { regs := [(rLckBasin 0, 1#64), (rPacTile 0, 0#64), (rRnkGrp 0 0, 1#64), (rPciLink, 256#64), (rImgStatus, 6#64)]
    dev := { pci := { fns := [(0, { mse := true })] }, pace := { stopDue := [(0, 0)] } } }

/-- The place of RNK_CMD_0. -/
def groupCommand : Loc := (locate (rRnkCmd 0)).getD { row := { name := "", base := 0 }, i := 0, j := 0, reg := 0, high := false }

theorem closeable_writes : Writes closeable 0 (rRnkCmd 0) groupCommand := by decide

/-- CLOSE drops the group's node sums, and the operator boundary that this is starts the stoppage: STP_STATUS names tile 0. -/
theorem closeable_stoppage : ((writeReg 0 (rRnkCmd 0) (rankCmd 0 (bitsOf 0 0 4 + 32) [])).run closeable).reg rStpStatus = 1#64 := by decide +kernel

/-- Refutes O33: CLOSE of a group with nothing outstanding still brings an operator boundary, where a tile stoppage that is due starts; the statement
has no register but RNK_GRP and RNK_STATUS change. -/
theorem not_rankGroups : ¬ Obligations.RankGroups := by
  rintro ⟨-, hclose, -⟩
  obtain ⟨t, ht, -, -, -, hframe, -⟩ :=
    (hclose closeable 0 0 0 groupCommand (by decide) (by decide) closeable_writes (by decide)).1 (by decide) (by decide)
  obtain rfl : (writeReg 0 (rRnkCmd 0) (rankCmd 0 (bitsOf 0 0 4 + 32) [])).run closeable = t := Host.Outcome.next.inj ht
  have hkept := hframe.2.2 rStpStatus (by decide)
  rw [closeable_stoppage] at hkept
  exact absurd hkept (by decide)

end Sys2Proof.Machine
end
section
/-! # Collectives (O34) -/

namespace Sys2Proof.Machine
open Sys2Proof

section
variable {s t : State}

/-! ### What a state's readings depend on -/

/-- The whole-access check of a basin reads its windows and the endpoint's state alone. -/
theorem State.firstRefusal_of_windows {b : Nat} (hr : ∀ k, k < 64 → t.reg (rLckWin b k) = s.reg (rLckWin b k)) (hp : t.dev.pci = s.dev.pci) (us : List AccUnit) :
    t.firstRefusal b us = s.firstRefusal b us := by
  have hwindows : t.windows b = s.windows b := by
    refine filterMap_congr_of_mem fun w hw => ?_
    have := List.mem_range.mp hw
    rw [hr (2 * w) (by omega), hr (2 * w + 1) (by omega)]
  have hmaster : t.busMaster b = s.busMaster b := by simp only [State.busMaster, State.fnExists, State.fn, hp]
  have hlock : t.lockCheck b = s.lockCheck b := by
    funext first last need
    rw [State.lockCheck, State.lockCheck, hwindows, hmaster]
  induction us with
  | nil => rfl
  | cons u us ih => simp only [State.firstRefusal, hlock, ih]

theorem State.bytes_of_mem (h : t.mem = s.mem) (a n : Nat) : t.bytes a n = s.bytes a n := by simp only [State.bytes, State.byte, h]

theorem State.num_of_mem (h : t.mem = s.mem) (a n : Nat) : t.num a n = s.num a n := by rw [State.num, State.bytes_of_mem h, State.num]

theorem State.readElems_of_mem (h : t.mem = s.mem) (hc : t.dev.codec = s.dev.codec) (x : TDesc) (lens : List Nat) : t.readElems x lens = s.readElems x lens := by
  have hcoded : t.coded = s.coded := by funext p; simp only [State.coded, hc]
  have hbyte : t.byte = s.byte := by funext a; simp only [State.byte, h]
  have hpage : t.expandPage lens = s.expandPage lens := by
    funext a
    simp only [State.expandPage, hcoded, hbyte, State.bytes_of_mem h]
  simp only [State.readElems, hpage, State.num_of_mem h]

/-! ### The rank engine's state -/

theorem onRankBasin_basin (b : Nat) (f : RankBasin → RankBasin) (s : State) : ((onRankBasin b f).run s).rankBasin b = f (s.rankBasin b) :=
  mget_mset _ _ _ _

theorem onGrp_grp (b g : Nat) (f : RankGrp → RankGrp) (s : State) : ((onGrp b g f).run s).grp b g = f (s.grp b g) :=
  mget_mset _ _ _ _

theorem onRankBasin_frame (r : Nat → Bool) (b : Nat) (f : RankBasin → RankBasin) (s : State) : Frame r s ((onRankBasin b f).run s) := Frame.of_dev _ r s

theorem onGrp_frame (r : Nat → Bool) (b g : Nat) (f : RankGrp → RankGrp) (s : State) : Frame r s ((onGrp b g f).run s) := Frame.of_dev _ r s

theorem State.rankBasin_of_rnk (h : t.dev.rnk = s.dev.rnk) (b : Nat) : t.rankBasin b = s.rankBasin b := by rw [State.rankBasin, h, State.rankBasin]

theorem State.grp_of_groups (h : t.dev.rnk.groups = s.dev.rnk.groups) (b g : Nat) : t.grp b g = s.grp b g := by rw [State.grp, h, State.grp]

/-- The collective of a slot, once an update that keeps slots and numbers has been made to all. -/
theorem find_map_coll {f : RankColl → RankColl} {p : RankColl → Bool} (hp : ∀ c, p (f c) = p c) (cs : List RankColl) :
    (cs.map f).find? p = (cs.find? p).map f := by
  have hcomp : p ∘ f = p := funext hp
  rw [List.find?_map, hcomp]

theorem endSums_none {b : Nat} (h : ∀ x ∈ (s.rankBasin b).sums, x.tile = none) : (endSums b).run s = s := by
  have hnone : ((s.rankBasin b).sums.filter fun x => x.tile.isSome) = [] :=
    List.filter_eq_nil_iff.mpr fun x hx => by simp [h x hx]
  rw [endSums, Eff.run_read, hnone, Eff.run_each_nil]

theorem actRead_frame (b n : Nat) (s : State) : Frame (fun o => o == rMemActRd b) s ((actRead b n).run s) := setReg_frame _ (by simp)

theorem actRead_dev (b n : Nat) (s : State) : ((actRead b n).run s).dev = s.dev := by rw [actRead, bumpReg_run, Act.setReg_dev]

theorem actRead_out (b n : Nat) (s : State) : ((actRead b n).run s).out = s.out := by rw [actRead, bumpReg_run, Act.setReg_out]

/-! ### The next descriptor is read (R309, R312) -/

/-- The basin's FIFO after its head has been taken, as RNK_STATUS_b shows it. -/
def State.fifoTaken (s : State) (b : Nat) : State := (showFifo b).run ((onRankBasin b fun k => { k with fifo := k.fifo.drop 1 }).run s)

theorem State.fifoTaken_frame (b : Nat) : Frame (fun o => o == rRnkStatus b) s (s.fifoTaken b) :=
  (onRankBasin_frame _ b _ s).trans (putFld_frame (by simp) _ _ _)

theorem State.fifoTaken_out (b : Nat) : (s.fifoTaken b).out = s.out := putFld_out _ _ _

theorem State.fifoTaken_dev (b : Nat) : (s.fifoTaken b).dev = ((onRankBasin b fun k => { k with fifo := k.fifo.drop 1 }).run s).dev := putFld_dev _ _ _

theorem State.fifoTaken_basin (b : Nat) : (s.fifoTaken b).rankBasin b = { s.rankBasin b with fifo := (s.rankBasin b).fifo.drop 1 } := by
  rw [State.rankBasin_of_rnk (congrArg Dev.rnk (s.fifoTaken_dev b)), onRankBasin_basin]

theorem State.fifoTaken_shown {b a : Nat} {rest : List Nat} (hf : (s.rankBasin b).fifo = a :: rest) (hl : rest.length < 64) :
    (s.fifoTaken b).fld (rRnkStatus b) 16 7 = rest.length := by
  have hlen : (((onRankBasin b fun k => { k with fifo := k.fifo.drop 1 }).run s).rankBasin b).fifo.length = rest.length := by
    rw [onRankBasin_basin, hf, List.drop_one, List.tail_cons]
  rw [State.fifoTaken, showFifo, Eff.run_read, State.fld_putFld _ (by omega), hlen, Nat.mod_eq_of_lt (by omega)]

theorem State.fifoTaken_refusal {b : Nat} (hb : b < 16) (us : List AccUnit) : (s.fifoTaken b).firstRefusal b us = s.firstRefusal b us := by
  have hpci : (s.fifoTaken b).dev.pci = s.dev.pci := by rw [State.fifoTaken_dev]; rfl
  refine State.firstRefusal_of_windows (fun k hk => (s.fifoTaken_frame b).2.2 _ ?_) hpci us
  simp only [rLckWin, rRnkStatus, beq_eq_false_iff_ne]
  omega

theorem collFetch_clean {b a : Nat} (hb : b < 16) (ha : a + 192 ≤ hbmSize) (hpass : s.firstRefusal b [⟨a, a + 191, rightR⟩] = none) (hp : s.poison = []) :
    (collFetch b a []).run s = (collRead b (s.num a 192) []).run ((actRead b (sectorsOf a 192).length).run (s.fifoTaken b)) := by
  have hpoison : (s.fifoTaken b).poison = [] := (s.fifoTaken_frame b).1.2.trans hp
  have hin : (inHbm a && inHbm (a + 191)) = true := by simp [inHbm]; omega
  have hnum : ((actRead b (sectorsOf a 192).length).run (s.fifoTaken b)).num a 192 = s.num a 192 := State.num_of_mem rfl a 192
  rw [collFetch, Eff.run_all_cons, Eff.run_all_cons, Eff.run_all_cons, Eff.run_all_done]
  refine (checkUnits_pass ((s.fifoTaken_refusal hb _).trans hpass) _ _ _).trans ?_
  rw [if_pos hin, Eff.run_all_cons, Eff.run_all_cons, Eff.run_all_cons, Eff.run_all_done]
  rw [readSectors_clean hpoison, Eff.run_read,
    anyPoison_clean ((actRead_frame b _ _).1.2.trans hpoison), if_neg (by decide), hnum]

theorem effCollective_fetches {cop b a : Nat} {rest : List Nat} (hb : b < 16) (ho : s.isOpen b = true) (hs : ∀ x ∈ (s.rankBasin b).sums, x.tile = none)
    (hc : (s.rankBasin b).cur = none) (hf : (s.rankBasin b).fifo = a :: rest) (hcop : s.num a 2 = cop) (ha : a + 192 ≤ hbmSize)
    (hpass : s.firstRefusal b [⟨a, a + 191, rightR⟩] = none) (hp : s.poison = []) :
    (effCollective cop b []).run s = (Eff.all [collRead b (s.num a 192) [], placeSums b, rankFlush b]).run
      ((actRead b (sectorsOf a 192).length).run (s.fifoTaken b)) := by
  rw [effCollective, Eff.run_read, ho, if_neg (by decide), Eff.run_all_cons, endSums_none hs, Eff.run_all_cons, Eff.run_read]
  simp only [hc, hf]
  rw [Eff.run_when, if_pos (by simp [hcop]), collFetch_clean hb ha hpass hp, ← Eff.run_all_cons]

/-! ### The descriptor under way is accepted (R309) -/

/-- The collective of a slot in an instance is accepted, with the seed it captures. -/
def RankColl.accept (v q seed : Nat) (y : RankColl) : RankColl := if y.vslot = v ∧ y.seq = q then { y with accepted := true, seed := seed } else y

/-- A rank's input. -/
def State.rankInput (s : State) (d rank : Nat) : RankData :=
  if cUses d rank 0 then { fmt := fmtOf (cTensor d 0).etype, base := if cCop d = 5 then rank * (cTensor d 0).count else 0, elems := (s.readElems (cTensor d 0) []).toList }
  else {}

/-- The sectors that a rank's input is read from. -/
def State.inputSectors (s : State) (d rank : Nat) : List Nat := if cUses d rank 0 then s.tensorSectors (cTensor d 0) else []

/-- The state once the descriptor under way has left its place and its input has been read. -/
def State.inputRead (s : State) (b : Nat) (k : RankCur) : State :=
  (actRead b (s.inputSectors k.desc (s.grpFirst b k.group + k.vslot)).length).run ((dropCur b).run s)

/-- The state once the collective is accepted and its input is in the tree. -/
def State.inputGiven (s : State) (b : Nat) (k : RankCur) : State :=
  (onInst b k.group k.seq fun i => { i with ops := cOps k.desc, vals := mput i.vals (nodeKey 0 (s.grpFirst b k.group + k.vslot)) (s.rankInput k.desc (s.grpFirst b k.group + k.vslot)) }).run
    ((onGrp b k.group fun x => { x with colls := x.colls.map (RankColl.accept k.vslot k.seq (s.reg (rGlbSeed b)).toNat) }).run (s.inputRead b k))

theorem State.inputRead_frame (b : Nat) (k : RankCur) : Frame (fun o => o == rMemActRd b) s (s.inputRead b k) :=
  (onRankBasin_frame _ b _ s).trans (actRead_frame b _ _)

theorem State.inputRead_dev (b : Nat) (k : RankCur) : (s.inputRead b k).dev = ((dropCur b).run s).dev := actRead_dev b _ _

theorem State.inputRead_out (b : Nat) (k : RankCur) : (s.inputRead b k).out = s.out := actRead_out b _ _

theorem State.inputRead_input (b : Nat) (k : RankCur) (d rank : Nat) : (s.inputRead b k).rankInput d rank = s.rankInput d rank := by
  have hcodec : (s.inputRead b k).dev.codec = s.dev.codec := by rw [State.inputRead_dev]; rfl
  have hread := State.readElems_of_mem (s := s) (t := s.inputRead b k) rfl hcodec (cTensor d 0) []
  rw [State.rankInput, hread, State.rankInput]

theorem State.inputRead_seed {b : Nat} (hb : b < 16) (k : RankCur) : (s.inputRead b k).reg (rGlbSeed b) = s.reg (rGlbSeed b) := by
  refine (s.inputRead_frame b k).2.2 _ ?_
  simp only [rGlbSeed, rMemActRd, beq_eq_false_iff_ne]
  omega

theorem acceptColl_clean {b : Nat} {k : RankCur} (hb : b < 16) (hp : s.poison = [])
    (hpass : s.firstRefusal b (([0, 1].filter (cUses k.desc (s.grpFirst b k.group + k.vslot) ·)).map fun n =>
      AccUnit.mk (cTensor k.desc n).extent.1 (cTensor k.desc n).extent.2 (if n = 0 then rightR else rightW)) = none)
    (hpast : ((s.grp b k.group).colls.filter fun x => x.vslot == k.vslot && x.accepted).length < 16) :
    (acceptColl b k []).run s = (advanceInst b k.group k.seq).run (s.inputGiven b k) := by
  have hpoison : (s.inputRead b k).poison = [] := (s.inputRead_frame b k).1.2.trans hp
  have hclean : ∀ secs : List Nat, (secs.any (s.inputRead b k).poisoned) = false := fun secs => by simp [State.poisoned, hpoison]
  have hinput := s.inputRead_input b k k.desc (s.grpFirst b k.group + k.vslot)
  rw [acceptColl, Eff.run_read]
  refine (checkUnits_pass hpass _ _ _).trans ?_
  rw [if_neg (Nat.not_le.mpr hpast), Eff.run_all_cons, Eff.run_all_cons, Eff.run_all_cons, Eff.run_all_cons, Eff.run_all_done,
    readSectors_clean (s := (dropCur b).run s) hp]
  change (Eff.read _).run (s.inputRead b k) = _
  rw [Eff.run_read, hclean, if_neg (by decide), Eff.run_all_cons, Eff.run_all_cons, Eff.run_all_cons, Eff.run_all_done, State.inputRead_seed hb]
  rw [State.inputGiven, ← hinput]
  rfl

theorem effCollective_accepts {cop b : Nat} {k : RankCur} (hb : b < 16) (ho : s.isOpen b = true) (hs : ∀ x ∈ (s.rankBasin b).sums, x.tile = none)
    (hc : (s.rankBasin b).cur = some k) (hg : s.grpState b k.group ≠ 2) (hcop : cCop k.desc = cop)
    (hlimit : dWaits k.desc = true → waitExpired (dWaitLimit k.desc) k.marks = false) (hmet : s.opWaitMet b k.desc k.marks = true) (hp : s.poison = [])
    (hpass : s.firstRefusal b (([0, 1].filter (cUses k.desc (s.grpFirst b k.group + k.vslot) ·)).map fun n =>
      AccUnit.mk (cTensor k.desc n).extent.1 (cTensor k.desc n).extent.2 (if n = 0 then rightR else rightW)) = none)
    (hpast : ((s.grp b k.group).colls.filter fun x => x.vslot == k.vslot && x.accepted).length < 16) :
    (effCollective cop b []).run s = (Eff.all [advanceInst b k.group k.seq, placeSums b, rankFlush b]).run (s.inputGiven b k) := by
  have hwaits : ¬ (dWaits k.desc && waitExpired (dWaitLimit k.desc) k.marks) = true := by
    rw [Bool.and_eq_true]
    rintro ⟨h1, h2⟩
    exact absurd ((hlimit h1).symm.trans h2) (by decide)
  rw [effCollective, Eff.run_read, ho, if_neg (by decide), Eff.run_all_cons, endSums_none hs, Eff.run_all_cons, Eff.run_read]
  simp only [hc]
  rw [Eff.run_when, if_pos (by simp [hcop]), collWait, Eff.run_read, if_neg hg, if_neg hwaits, if_pos hmet, acceptColl_clean hb hp hpass hpast, ← Eff.run_all_cons]

theorem State.inputGiven_frame (b : Nat) (k : RankCur) : Frame (fun o => o == rMemActRd b) s (s.inputGiven b k) :=
  ((s.inputRead_frame b k).trans (onGrp_frame _ b k.group _ _)).trans (onGrp_frame _ b k.group _ _)

theorem State.inputGiven_out (b : Nat) (k : RankCur) : (s.inputGiven b k).out = s.out := s.inputRead_out b k

theorem State.inputGiven_cur (b : Nat) (k : RankCur) : ((s.inputGiven b k).rankBasin b).cur = none := by
  have hbasins : (s.inputGiven b k).dev.rnk.basins = ((dropCur b).run s).dev.rnk.basins := congrArg (fun d => d.rnk.basins) (s.inputRead_dev b k)
  rw [State.rankBasin, hbasins]
  exact congrArg RankBasin.cur (onRankBasin_basin b _ s)

theorem State.inputGiven_grp (b : Nat) (k : RankCur) : ∃ i : RankInst, (s.inputGiven b k).grp b k.group =
    { s.grp b k.group with
      colls := (s.grp b k.group).colls.map (RankColl.accept k.vslot k.seq (s.reg (rGlbSeed b)).toNat),
      insts := mput (s.grp b k.group).insts k.seq { i with
        vals := mput i.vals (nodeKey 0 (s.grpFirst b k.group + k.vslot)) (s.rankInput k.desc (s.grpFirst b k.group + k.vslot)) } } := by
  have hgrp : (s.inputRead b k).grp b k.group = s.grp b k.group :=
    State.grp_of_groups (congrArg (fun d => d.rnk.groups) (s.inputRead_dev b k)) b k.group
  refine ⟨{ (s.grp b k.group).inst k.seq with ops := cOps k.desc }, ?_⟩
  rw [State.inputGiven, onInst, onGrp_grp, onGrp_grp, hgrp]
  rfl

theorem State.inputGiven_coll (b : Nat) (k : RankCur) {y : RankColl}
    (hy : (s.grp b k.group).colls.find? (fun x => x.vslot == k.vslot && x.seq == k.seq) = some y) :
    ((s.inputGiven b k).grp b k.group).collOf k.vslot k.seq = some { y with accepted := true, seed := (s.reg (rGlbSeed b)).toNat } := by
  obtain ⟨i, hgrp⟩ := s.inputGiven_grp b k
  have hslot := List.find?_some hy
  simp only [Bool.and_eq_true, beq_iff_eq] at hslot
  rw [hgrp, RankGrp.collOf, find_map_coll, hy, Option.map_some, RankColl.accept, if_pos hslot]
  intro c
  unfold RankColl.accept
  split <;> rfl

theorem State.inputGiven_value (b : Nat) (k : RankCur) :
    mget? (((s.inputGiven b k).grp b k.group).inst k.seq).vals (nodeKey 0 (s.grpFirst b k.group + k.vslot)) =
      some (s.rankInput k.desc (s.grpFirst b k.group + k.vslot)) := by
  obtain ⟨i, hgrp⟩ := s.inputGiven_grp b k
  rw [hgrp, RankGrp.inst, mget, mget?_mput, Option.getD_some, mget?_mput]

/-! ### RANK_TIMEOUT (R326, R328) -/

/-- The instance has failed with a status, and its OPEN group is FAILED. -/
def State.instFailed (s : State) (b g q st : Nat) : State :=
  (groupFails b g).run ((onInst b g q fun i => { i with fail := some st, waits := [] }).run s)

theorem failInst_own {b g q st : Nat} (hf : ((s.grp b g).inst q).fail = none) (ho : ((s.grp b g).inst q).outcome = none) :
    (failInst b g q st none).run s = (failTail s b g q st).run (s.instFailed b g q st) := by
  have hall : ∀ cs : List Nat, (cs.filter fun c => (none : Option Nat) != some c) = cs := fun cs => by simp
  rw [failInst, Eff.run_read]
  simp only [hf, ho, hall, Option.isSome_none, Bool.or_self, Bool.false_eq_true, if_false]
  rw [Eff.run_all_cons, Eff.run_all_cons]
  rfl

theorem effRankTimeout_expired {b g q : Nat} {i : RankInst} (hi : mget? (s.grp b g).insts q = some i)
    (hw : (i.waits.any fun w => decide ((s.grp b g).timeout ≤ w.2.1)) = true) (hf : i.fail = none) (ho : i.outcome = none) :
    (effRankTimeout b g q).run s = (Eff.andThen (failTail s b g q 0x28) (rankFlush b)).run (s.instFailed b g q 0x28) := by
  have hinst : (s.grp b g).inst q = i := by rw [RankGrp.inst, mget, hi, Option.getD_some]
  rw [effRankTimeout, Eff.run_read]
  simp only [hi, hw, if_true]
  rw [Eff.run_andThen, failInst_own (hinst ▸ hf) (hinst ▸ ho), Eff.run_andThen]

/-- The state in which the FAILED group's event counts. -/
def State.groupFailed (s : State) (b g q st : Nat) : State :=
  (putFld (rRnkGrp b g) 0 2 2).run ((onInst b g q fun i => { i with fail := some st, waits := [] }).run s)

theorem State.groupFailed_frame (b g q st : Nat) : Frame (fun o => o == rRnkGrp b g) s (s.groupFailed b g q st) :=
  (onGrp_frame _ b g _ s).trans (putFld_frame (by simp) _ _ _)

theorem State.instFailed_open {b g q st : Nat} (h : s.grpState b g = 1) : s.instFailed b g q st = (countAt (0xF0 + b) 0).run (s.groupFailed b g q st) := by
  rw [State.instFailed, groupFails, Eff.run_read]
  exact (congrArg (fun e : Eff => e.run _) (if_pos h)).trans (Eff.run_andThen ..)

theorem State.groupFailed_fail (b g q st : Nat) : (((s.groupFailed b g q st).grp b g).inst q).fail = some st := by
  have hdev : (s.groupFailed b g q st).dev = ((onInst b g q fun i => { i with fail := some st, waits := [] }).run s).dev := putFld_dev _ _ _
  rw [State.grp_of_groups (congrArg (fun d => d.rnk.groups) hdev), onInst, onGrp_grp, RankGrp.inst, mget, mget?_mput, Option.getD_some]
end

/-! ### The obligation -/

theorem exec_collective {b cop : Nat} {c : Instr} (h : (cop, c) ∈ collectiveRows b []) (s : State) : exec c s = .next ((effCollective cop b []).run s) := by
  simp only [collectiveRows, List.mem_cons, List.not_mem_nil, or_false, Prod.mk.injEq] at h
  rcases h with ⟨rfl, rfl⟩ | ⟨rfl, rfl⟩ | ⟨rfl, rfl⟩ | ⟨rfl, rfl⟩ | ⟨rfl, rfl⟩ | ⟨rfl, rfl⟩ <;> rfl

/-- Settles O34: each stage of a collective's command is run on its clean inputs, and what follows it is the statement's tail. -/
theorem collectives : Obligations.Collectives := by
  refine ⟨fun s b a cop rest c hb hrow ho hs hc hf hl hcop ha hpass hp => ?_,
    fun s b cop k y c hb _ hrow ho hs hc hg hcop hlimit hmet hpass hpast hp hy => ?_, fun s b g q i hb hg hi hw hf hout hst hign => ?_⟩
  · refine ⟨_, exec_collective hrow s, (actRead b (sectorsOf a 192).length).run (s.fifoTaken b), ⟨?_, ?_, ?_, ?_, ?_⟩,
      effCollective_fetches hb ho hs hc hf hcop ha hpass hp⟩
    · rw [State.rankBasin_of_rnk (congrArg Dev.rnk (actRead_dev b _ _)), State.fifoTaken_basin, hf]
      rfl
    · rw [(actRead_frame b _ _).fld (by simp only [rRnkStatus, rMemActRd, beq_eq_false_iff_ne]; omega), State.fifoTaken_shown hf hl]
    · rw [actRead, bumpReg_run, State.reg_setReg, (s.fifoTaken_frame b).2.2 _ (by simp only [rRnkStatus, rMemActRd, beq_eq_false_iff_ne]; omega)]
    · exact ((s.fifoTaken_frame b).mono fun o h => by simp [h]).trans ((actRead_frame b _ _).mono fun o h => by simp [h])
    · rw [actRead_out, State.fifoTaken_out]
  · refine ⟨_, exec_collective hrow s, s.inputGiven b k, ⟨s.inputGiven_cur b k, s.inputGiven_coll b k hy, ?_, s.inputGiven_frame b k, s.inputGiven_out b k⟩,
      effCollective_accepts hb ho hs hc hg hcop hlimit hmet hp hpass hpast⟩
    rw [State.inputGiven_value, State.rankInput, hcop]
  · have hframe := s.groupFailed_frame b g q 0x28
    have hcount := countAt_frame (src := 0xF0 + b) (by omega) (by simp [retires]; omega) (by omega) 0 (s.groupFailed b g q 0x28)
    have hrnk : ((countAt (0xF0 + b) 0).run (s.groupFailed b g q 0x28)).dev.rnk = (s.groupFailed b g q 0x28).dev.rnk :=
      Eff.Only.devKeeps ((collectorActs_keeps (fun _ _ => rfl) (fun _ _ => rfl) fun _ _ => rfl).countAt (by omega) (by simp [retires]; omega) (by omega) 0) _
    refine ⟨_, rfl, s.instFailed b g q 0x28, ?_, effRankTimeout_expired hi hw hf hout⟩
    rw [State.instFailed_open hst]
    refine ⟨?_, ?_, ?_, hframe.1.trans hcount.1, hframe.2.1.trans hcount.2.1⟩
    · rw [State.grpState, hcount.fld (by simp [fltBlock, rRnkGrp]; omega), State.groupFailed, State.fld_putFld _ (by omega), Nat.mod_eq_of_lt (by decide)]
    · rw [State.grp_of_groups (congrArg Ranks.groups hrnk), State.groupFailed_fail]
    · rw [countAt_events 0 (by omega) (by simp [retires]; omega) (by omega), hframe.2.2 _ (by simp [rFltEvents, rRnkGrp]; omega)]
      rw [State.groupFailed, putFld_dev]
      exact hign

end Sys2Proof.Machine
end
section
/-! # Ports: what their updates leave, winding holes and releases (O13) -/

namespace Sys2Proof.Machine
open Sys2Proof

section
variable {s : State} {p : Nat}

/-! ### The state of a port -/

theorem onPort_port (p : Nat) (g : Port → Port) (s : State) : ((onPort p g).run s).port p = g (s.port p) := mget_mset _ _ _ _

theorem onPort_frame (r : Nat → Bool) (p : Nat) (g : Port → Port) (s : State) : Frame r s ((onPort p g).run s) := Frame.of_dev _ r s

theorem onPort_state (p : Nat) (g : Port → Port) (s : State) (q : Nat) : ((onPort p g).run s).pState q = s.pState q := rfl

theorem onPort_cause (p : Nat) (g : Port → Port) (s : State) (q : Nat) : ((onPort p g).run s).pCause q = s.pCause q := rfl

theorem onPort_out (p : Nat) (g : Port → Port) (s : State) : ((onPort p g).run s).out = s.out := rfl

theorem State.port_of_fab {t : State} (h : t.dev.fab = s.dev.fab) (p : Nat) : t.port p = s.port p := by rw [State.port, h, State.port]

theorem setPort_run (p st cause active : Nat) (s : State) : (setPort p st cause active).run s =
    (putFld (rIbnPState p) 4 3 ((List.range 4).filter (bitOf active)).length).run ((putFld (rIbnPState p) 8 4 active).run
      ((putFld (rIbnPState p) 16 8 cause).run ((putFld (rIbnPState p) 0 3 st).run s))) := by
  rw [setPort, Eff.run_all_cons, Eff.run_all_cons, Eff.run_all_cons, Eff.run_all_cons, Eff.run_all_done]

theorem setPort_frame {r : Nat → Bool} (h : r (rIbnPState p) = true) (st cause active : Nat) (s : State) :
    Frame r s ((setPort p st cause active).run s) := by
  rw [setPort_run]
  exact (((putFld_frame h _ _ _).trans (putFld_frame h _ _ _)).trans (putFld_frame h _ _ _)).trans (putFld_frame h _ _ _)

theorem setPort_dev (st cause active : Nat) (s : State) : ((setPort p st cause active).run s).dev = s.dev := by
  rw [setPort_run, putFld_dev, putFld_dev, putFld_dev, putFld_dev]

theorem setPort_out (st cause active : Nat) (s : State) : ((setPort p st cause active).run s).out = s.out := by
  rw [setPort_run, putFld_out, putFld_out, putFld_out, putFld_out]

theorem setPort_port (st cause active : Nat) (s : State) (q : Nat) : ((setPort p st cause active).run s).port q = s.port q :=
  State.port_of_fab (congrArg Dev.fab (setPort_dev st cause active s)) q

theorem setPort_state {st : Nat} (h : st < 8) (cause active : Nat) (s : State) : ((setPort p st cause active).run s).pState p = st := by
  rw [setPort_run, State.pState, State.fld_putFld_apart _ (by omega) (by omega), State.fld_putFld_apart _ (by omega) (by omega),
    State.fld_putFld_apart _ (by omega) (by omega), State.fld_putFld _ (by omega)]
  exact Nat.mod_eq_of_lt h

theorem setPort_cause {cause : Nat} (h : cause < 256) (st active : Nat) (s : State) : ((setPort p st cause active).run s).pCause p = cause := by
  rw [setPort_run, State.pCause, State.fld_putFld_apart _ (by omega) (by omega), State.fld_putFld_apart _ (by omega) (by omega),
    State.fld_putFld _ (by omega)]
  exact Nat.mod_eq_of_lt h

theorem setPort_active {active : Nat} (h : active < 16) (st cause : Nat) (s : State) : ((setPort p st cause active).run s).pActive p = active := by
  rw [setPort_run, State.pActive, State.fld_putFld_apart _ (by omega) (by omega), State.fld_putFld _ (by omega)]
  exact Nat.mod_eq_of_lt h

/-! ### Frames that leave a port -/

theorem sendControl_out (p ftype body : Nat) (s : State) : ((sendControl p ftype body).run s).out = .frame p (control ftype body) :: s.out := rfl

theorem sendControl_frame (r : Nat → Bool) (p ftype body : Nat) (s : State) : Frame r s ((sendControl p ftype body).run s) :=
  Eff.Only.frame (e := sendControl p ftype body) (by simp [sendControl, sendFrame, emit]) s

theorem sendControl_port (p ftype body : Nat) (s : State) (q : Nat) : ((sendControl p ftype body).run s).port q = s.port q := rfl

theorem sendControl_dev (p ftype body : Nat) (s : State) : ((sendControl p ftype body).run s).dev = s.dev := rfl

/-! ### TEST barges (R249) -/

theorem withFree_run (k : Nat → Eff) (s : State) : (withFree k).run s = (k (Config.freeValue s.freeCount)).run (Act.run s .free) := rfl

theorem sendTest_local (r : Nat → Bool) (p : Nat) : (sendTest p).Only (Act.Local r) := by
  simp [sendTest, onPort, onFab, sendFrame, emit]

/-- A TEST barge takes its bytes from the port's generator and leaves what the winding hole is. -/
theorem sendTest_keeps (p : Nat) : (sendTest p).Only (Act.Keeps fun d => ((mget {} d.fab.ports p).wind, (mget {} d.fab.ports p).windOk)) := by
  refine withFree_only.mpr fun _ => ⟨trivial, withFree_only.mpr fun _ => ⟨trivial, Eff.only_read.mpr fun s => ⟨?_, Eff.only_when.mpr fun _ => trivial⟩⟩⟩
  intro d
  simp only [mget_mset]

theorem sendTest_wind (s : State) : (((sendTest p).run s).port p).wind = (s.port p).wind ∧ (((sendTest p).run s).port p).windOk = (s.port p).windOk :=
  Prod.mk.inj (Eff.Only.devKeeps (sendTest_keeps p) s)

theorem sendTest_out (h : (s.port p).wind ≠ 2) : ((sendTest p).run s).out = s.out := by
  rw [sendTest, withFree_run, withFree_run, Eff.run_read, Eff.run_andThen, Eff.run_when, if_neg]
  · rfl
  · rw [beq_iff_eq]
    exact h

/-! ### Winding holes (R249, R291) -/

/-- The port is WINDING, with the hidden state that a start gives. -/
def State.winding (s : State) (p mode : Nat) : State :=
  (onPort p fun k => { k with wind := mode, windOk := false, windSent := [] }).run ((setPort p 4 (if s.bit rGlbRole 19 then s.pCause p else 0) 0).run s)

theorem windStart_run {mode : Nat} (h : s.pState p = 0 ∨ s.pState p = 5) : (windStart p mode).run s =
    (if mode = 2 then sendControl p 0x15 (s.helloBody p (15 - s.pRetired p)) else sendTest p).run (s.winding p mode) := by
  rw [windStart, Eff.run_read, if_pos h, Eff.run_all_cons, Eff.run_all_cons, Eff.run_all_cons, Eff.run_all_done]
  rfl

theorem State.winding_frame (mode : Nat) : Frame (fun o => o == rIbnPState p) s (s.winding p mode) :=
  (setPort_frame (by simp) _ _ _ s).trans (onPort_frame _ p _ _)

theorem State.winding_out (mode : Nat) : (s.winding p mode).out = s.out := by
  rw [State.winding, onPort_out, setPort_out]

theorem State.winding_state (mode : Nat) : (s.winding p mode).pState p = 4 := by
  rw [State.winding, onPort_state, setPort_state (by decide)]

theorem State.winding_port (mode : Nat) : ((s.winding p mode).port p).wind = mode ∧ ((s.winding p mode).port p).windOk = false := by
  rw [State.winding, onPort_port]
  exact ⟨rfl, rfl⟩

theorem windInternal_winds (h : s.pState p = 0 ∨ s.pState p = 5) :
    ((windStart p 1).run s).pState p = 4 ∧ (((windStart p 1).run s).port p).wind = 1 ∧ (((windStart p 1).run s).port p).windOk = false ∧
      Frame (fun o => o == rIbnPState p) s ((windStart p 1).run s) ∧ ((windStart p 1).run s).out = s.out := by
  have hframe := (sendTest_local (fun _ => false) p).frame (s.winding p 1)
  obtain ⟨hwind, hok⟩ := sendTest_wind (p := p) (s.winding p 1)
  obtain ⟨hmode, hnot⟩ := s.winding_port (p := p) 1
  rw [windStart_run h, if_neg (by decide)]
  refine ⟨?_, hwind.trans hmode, hok.trans hnot, (s.winding_frame 1).trans (hframe.mono (by simp)), ?_⟩
  · rw [State.pState, hframe.fld rfl]
    exact s.winding_state 1
  · rw [sendTest_out (by omega), State.winding_out]

theorem windExternal_winds (h : s.pState p = 0 ∨ s.pState p = 5) :
    ((windStart p 2).run s).pState p = 4 ∧ (((windStart p 2).run s).port p).wind = 2 ∧ (((windStart p 2).run s).port p).windOk = false ∧
      Frame (fun o => o == rIbnPState p) s ((windStart p 2).run s) ∧
      ((windStart p 2).run s).out = .frame p (control 0x15 (s.helloBody p (15 - s.pRetired p))) :: s.out := by
  have hframe := sendControl_frame (fun _ => false) p 0x15 (s.helloBody p (15 - s.pRetired p)) (s.winding p 2)
  obtain ⟨hmode, hnot⟩ := s.winding_port (p := p) 2
  rw [windStart_run h, if_pos rfl]
  refine ⟨?_, ?_, ?_, (s.winding_frame 2).trans (hframe.mono (by simp)), ?_⟩
  · rw [State.pState, hframe.fld rfl]
    exact s.winding_state 2
  · rw [sendControl_port, hmode]
  · rw [sendControl_port, hnot]
  · rw [sendControl_out, State.winding_out]

theorem windStop_stops (h : s.pState p = 4) :
    ((windStop p).run s).pState p = 0 ∧ ((windStop p).run s).pCause p = (if s.bit rGlbRole 19 then 5 else if (s.port p).enabled then 0 else 1) ∧
      (((windStop p).run s).port p).wind = 0 ∧ Frame (fun o => o == rIbnPState p) s ((windStop p).run s) ∧ ((windStop p).run s).out = s.out := by
  have hcause : (if s.bit rGlbRole 19 then 5 else if (s.port p).enabled then 0 else 1) < 256 := by
    split
    · decide
    · split <;> decide
  rw [windStop, Eff.run_read, if_pos h, Eff.run_andThen]
  refine ⟨?_, ?_, ?_, (setPort_frame (by simp) _ _ _ s).trans (onPort_frame _ p _ _), ?_⟩
  · rw [onPort_state, setPort_state (by decide)]
  · rw [onPort_cause, setPort_cause hcause]
  · rw [onPort_port]
  · rw [onPort_out, setPort_out]

/-! ### Releases (R295) -/

/-- A UNITS record stamped now. -/
def State.unitsRecord (s : State) (kind cause a b c d : Nat) : JReq := { typ := 5, body := unitsBody (unitsEntry kind cause a b c d s.now s.rtc) }

/-- Journal records are asked for, in order. -/
def journalAll (rs : List JReq) : Eff := onDev fun d => { d with jrn := d.jrn ++ rs }

theorem journalAll_nil (s : State) : (journalAll []).run s = s := by
  rw [journalAll, onDev_run]
  simp only [List.append_nil]
  rfl

theorem journalAll_append (xs ys : List JReq) (s : State) : (journalAll ys).run ((journalAll xs).run s) = (journalAll (xs ++ ys)).run s := by
  simp only [journalAll, onDev_run, ← List.append_assoc]
  rfl

theorem journalAll_jrn (rs : List JReq) (s : State) : ((journalAll rs).run s).dev.jrn = s.dev.jrn ++ rs := rfl

theorem journalAll_out (rs : List JReq) (s : State) : ((journalAll rs).run s).out = s.out := rfl

theorem journalAll_frame (r : Nat → Bool) (rs : List JReq) (s : State) : Frame r s ((journalAll rs).run s) := Frame.of_dev _ r s

theorem journalAll_record (rs : List JReq) (s : State) (kind cause a b c d : Nat) :
    ((journalAll rs).run s).unitsRecord kind cause a b c d = s.unitsRecord kind cause a b c d := rfl

theorem journalUnits_run (kind cause a b c d : Nat) (s : State) :
    (journalUnits kind cause a b c d).run s = (journalAll [s.unitsRecord kind cause a b c d]).run s := rfl

/-- Records that are asked for one after another, all of the same moment. -/
theorem journalUnits_each (kind cause a : Nat) (ks : List Nat) (s : State) :
    (Eff.each ks fun k => journalUnits kind cause a k 0 0).run s = (journalAll (ks.map fun k => s.unitsRecord kind cause a k 0 0)).run s := by
  induction ks generalizing s with
  | nil => rw [Eff.run_each_nil, List.map_nil, journalAll_nil]
  | cons k ks ih =>
    rw [Eff.run_each_cons, ih, journalUnits_run]
    simp only [journalAll_record]
    rw [journalAll_append, List.map_cons, List.singleton_append]

/-- The records that a release of the port asks for. -/
def State.releaseRecords (s : State) (p : Nat) : List JReq :=
  ((List.range 4).filter (bitOf (s.pRetired p))).map (fun k => s.unitsRecord 5 0 p k 0 0) ++
    (if (s.port p).retired then [s.unitsRecord 5 0 p 0xFF 0 0] else [])

theorem linkRelease_run (s : State) : (linkRelease p).run s = (journalAll (s.releaseRecords p)).run s := by
  rw [linkRelease, Eff.run_read, Eff.run_andThen, journalUnits_each, Eff.run_when, State.releaseRecords]
  split
  · rw [journalUnits_run, journalAll_record, journalAll_append]
  · rw [List.append_nil]

/-! ### The keyed commands of IBN_P_p_CTRL -/

theorem portCtrl_internal (p : Nat) (s : State) : (portCtrl p 0x7E1A0001).run s = (windStart p 1).run s := rfl

theorem portCtrl_external (p : Nat) (s : State) : (portCtrl p 0x7E1A0002).run s = (windStart p 2).run s := rfl

theorem portCtrl_stop (p : Nat) (s : State) : (portCtrl p 0x7E1A0003).run s = (windStop p).run s := rfl

theorem portCtrl_release (p : Nat) (s : State) : (portCtrl p 0x7E1A0004).run s = (linkRelease p).run s := rfl

theorem State.written_port (s : State) (rd : Nat) (l : Loc) (p : Nat) : (s.written rd l).port p = s.port p :=
  State.port_of_fab (State.written_keeps (p := Dev.fab) (fun _ _ => rfl) s rd l) p

theorem State.written_pState (s : State) (rd : Nat) (l : Loc) (p : Nat) : (s.written rd l).pState p = s.pState p := s.written_fld rd l _ _ _

theorem State.written_pRetired (s : State) (rd : Nat) (l : Loc) (p : Nat) : (s.written rd l).pRetired p = s.pRetired p := s.written_fld rd l _ _ _

theorem State.written_helloBody (s : State) (rd : Nat) (l : Loc) (p lanes : Nat) : (s.written rd l).helloBody p lanes = s.helloBody p lanes := by
  simp only [State.helloBody, State.chipId, State.written_fld]

theorem State.written_releaseRecords (s : State) (rd : Nat) (l : Loc) (p : Nat) : (s.written rd l).releaseRecords p = s.releaseRecords p := by
  simp only [State.releaseRecords, State.unitsRecord, State.rtc, State.written_pRetired, State.written_port, State.written_now, State.written_reg]

variable {rd : Nat} {l : Loc}

theorem exec_windInternal (h : Writes s rd (rIbnPCtrl p) l) : exec (.windInternal rd p) s = .next ((windStart p 1).run (s.written rd l)) :=
  congrArg Host.Outcome.next ((writeReg_run h _).trans (portCtrl_internal p _))

theorem exec_windExternal (h : Writes s rd (rIbnPCtrl p) l) : exec (.windExternal rd p) s = .next ((windStart p 2).run (s.written rd l)) :=
  congrArg Host.Outcome.next ((writeReg_run h _).trans (portCtrl_external p _))

theorem exec_windStop (h : Writes s rd (rIbnPCtrl p) l) : exec (.windStop rd p) s = .next ((windStop p).run (s.written rd l)) :=
  congrArg Host.Outcome.next ((writeReg_run h _).trans (portCtrl_stop p _))

theorem exec_linkRelease (h : Writes s rd (rIbnPCtrl p) l) : exec (.linkRelease rd p) s = .next ((journalAll (s.releaseRecords p)).run (s.written rd l)) := by
  have hrun := (writeReg_run h (portCtrl p 0x7E1A0004)).trans ((portCtrl_release p _).trans (linkRelease_run (p := p) _))
  rw [State.written_releaseRecords] at hrun
  exact congrArg Host.Outcome.next hrun

/-! ### TEST (R249) -/

theorem exec_test {got : List Byte} (hp : p < 16) (hst : s.pState p = 4) (hw : (s.port p).wind = 1 ∨ (s.port p).windOk = true) :
    exec (.test p got) s = .next ((sendTest p).run ((bumpReg (rIbnPCnt p 7) 64 (8 * ((s.port p).windSent.zip got).length)).run
      ((bumpReg (rIbnPCnt p 6) 64 (((s.port p).windSent.zip got).map fun x => bitErrors x.1 x.2).sum).run s))) := by
  have hrun : (effTest p got).run s = (sendTest p).run ((bumpReg (rIbnPCnt p 7) 64 (8 * ((s.port p).windSent.zip got).length)).run
      ((bumpReg (rIbnPCnt p 6) 64 (((s.port p).windSent.zip got).map fun x => bitErrors x.1 x.2).sum).run s)) := by
    rw [effTest, Eff.run_read, if_pos ⟨hp, hst, hw⟩, Eff.run_all_cons, Eff.run_all_cons, Eff.run_all_cons, Eff.run_all_done]
  exact congrArg Host.Outcome.next hrun
end

/-- Settles O13: the commands start from the written state, which differs from the state before in nothing that they read. -/
theorem windingAndRelease : Obligations.WindingAndRelease := by
  refine ⟨fun s rd p l _ hw hst => ?_, fun s rd p l _ hw hst => ?_, fun s rd p l _ hw => ?_, fun s p got hp hst hw => ?_⟩
  · have hst' : (s.written rd l).pState p = 0 ∨ (s.written rd l).pState p = 5 := by rwa [State.written_pState]
    have hwritten := s.written_frame rd l fun o => o == rIbnPState p
    obtain ⟨hi1, hi2, hi3, hi4, hi5⟩ := windInternal_winds hst'
    obtain ⟨he1, he2, he3, he4, he5⟩ := windExternal_winds hst'
    rw [State.written_helloBody, State.written_pRetired, State.written_out] at he5
    exact ⟨⟨_, exec_windInternal hw, hi1, hi2, hi3, hwritten.trans hi4, hi5.trans (s.written_out rd l)⟩,
      ⟨_, exec_windExternal hw, he1, he2, he3, hwritten.trans he4, he5⟩⟩
  · have hst' : (s.written rd l).pState p = 4 := by rwa [State.written_pState]
    obtain ⟨h1, h2, h3, h4, h5⟩ := windStop_stops hst'
    rw [State.written_bit, State.written_port] at h2
    exact ⟨_, exec_windStop hw, h1, h2, h3, (s.written_frame rd l _).trans h4, h5.trans (s.written_out rd l)⟩
  · refine ⟨_, exec_linkRelease hw, ?_, (s.written_frame rd l _).trans (journalAll_frame _ _ _), ?_⟩
    · rw [journalAll_jrn, State.written_keeps (p := Dev.jrn) (fun _ _ => rfl), List.append_assoc]
      rfl
    · rw [journalAll_out, State.written_out]
  · have hframe := (sendTest_local (fun o => o == rIbnPCnt p 6 || o == rIbnPCnt p 7) p).frame
    refine ⟨_, exec_test hp hst hw, ?_, ?_, ?_, fun hone => ?_⟩
    · rw [((sendTest_local (fun _ => false) p).frame _).2.2 _ rfl, bumpReg_run, State.reg_setReg_other (by simp [rIbnPCnt]), bumpReg_run, State.reg_setReg]
    · rw [((sendTest_local (fun _ => false) p).frame _).2.2 _ rfl, bumpReg_run, State.reg_setReg, bumpReg_run, State.reg_setReg_other (by simp [rIbnPCnt]),
        List.length_zip]
    · exact ((setReg_frame _ (by simp)).trans (setReg_frame _ (by simp))).trans (hframe _)
    · rw [sendTest_out (by rw [State.port_of_fab (s := s) (by rw [bumpReg_run, Act.setReg_dev, bumpReg_run, Act.setReg_dev]), hone]; decide), bumpReg_run, Act.setReg_out,
        bumpReg_run, Act.setReg_out]

end Sys2Proof.Machine
end
section
/-! # The reception of barges (O14) -/

namespace Sys2Proof.Machine
open Sys2Proof

section
variable {s : State} {p l : Nat} {b : Barge} {bs : List Byte}

theorem onFab_frame (r : Nat → Bool) (g : Fabric → Fabric) (s : State) : Frame r s ((onFab g).run s) := Frame.of_dev _ r s

theorem onFab_fab (g : Fabric → Fabric) (s : State) : ((onFab g).run s).dev.fab = g s.dev.fab := rfl

theorem onFab_out (g : Fabric → Fabric) (s : State) : ((onFab g).run s).out = s.out := rfl

/-- A barge has been taken in order: the port expects the next LSEQ, it counts, and its LACK goes out. -/
def State.bargeTaken (s : State) (p l : Nat) : State :=
  (sendControl p 0x12 l).run ((bumpReg (rIbnPCnt p 5) 64 1).run ((onPort p fun k => { k with rxSeq := (l + 1) % 4096 }).run s))

theorem State.bargeTaken_frame : Frame (fun o => o == rIbnPCnt p 5) s (s.bargeTaken p l) :=
  ((onPort_frame _ p _ s).trans (setReg_frame _ (by simp))).trans (sendControl_frame _ p _ _ _)

theorem State.bargeTaken_dev : (s.bargeTaken p l).dev = ((onPort p fun k => { k with rxSeq := (l + 1) % 4096 }).run s).dev := by
  rw [State.bargeTaken, sendControl_dev, bumpReg_run, Act.setReg_dev]

theorem State.bargeTaken_rxSeq : ((s.bargeTaken p l).port p).rxSeq = (l + 1) % 4096 := by
  rw [State.port_of_fab (congrArg Dev.fab State.bargeTaken_dev), onPort_port]

theorem State.bargeTaken_out : (s.bargeTaken p l).out = .frame p (control 0x12 l) :: s.out := by
  rw [State.bargeTaken, sendControl_out, bumpReg_run, Act.setReg_out, onPort_out]

theorem State.bargeTaken_count : (s.bargeTaken p l).reg (rIbnPCnt p 5) = w64 (satAdd 64 (s.reg (rIbnPCnt p 5)).toNat 1) := by
  rw [State.bargeTaken, (sendControl_frame (fun _ => false) p _ _ _).2.2 _ rfl, bumpReg_run, State.reg_setReg, (onPort_frame (fun _ => false) p _ s).2.2 _ rfl]

theorem State.bargeTaken_inbox : (s.bargeTaken p l).dev.fab.inbox = s.dev.fab.inbox := by
  rw [State.bargeTaken_dev]
  rfl

theorem effBargeReceive_here (hp : p < 16) (hst : s.pState p = 2) (hb : parseBarge bs = (some l, some b)) (hl : l = (s.port p).rxSeq) (hd : b.dest = s.chipId) :
    (effBargeReceive p bs false).run s = sweep.run ((onFab fun f => { f with inbox := f.inbox ++ [{ input := p, barge := b }] }).run (s.bargeTaken p l)) := by
  rw [effBargeReceive, Eff.run_read, if_neg (by simp [hst, hp])]
  simp only [hb]
  rw [if_neg (by simp [hl]), Eff.run_all_cons, Eff.run_all_cons, Eff.run_all_cons, Eff.run_all_cons, Eff.run_all_done, if_neg (by decide), if_pos hd, Eff.run_andThen]
  rfl

theorem effBargeReceive_onward (hp : p < 16) (hst : s.pState p = 2) (hb : parseBarge bs = (some l, some b)) (hl : l = (s.port p).rxSeq) (hd : b.dest ≠ s.chipId) :
    (effBargeReceive p bs false).run s = (forward p b).run (s.bargeTaken p l) := by
  rw [effBargeReceive, Eff.run_read, if_neg (by simp [hst, hp])]
  simp only [hb]
  rw [if_neg (by simp [hl]), Eff.run_all_cons, Eff.run_all_cons, Eff.run_all_cons, Eff.run_all_cons, Eff.run_all_done, if_neg (by decide), if_neg hd]
  rfl

theorem effBargeReceive_spoilt {o : Option Barge} (hp : p < 16) (hst : s.pState p = 2) (hb : parseBarge bs = (none, o)) (x : Bool) :
    (effBargeReceive p bs x).run s = (sendControl p 0x13 (s.port p).rxSeq).run s := by
  rw [effBargeReceive, Eff.run_read, if_neg (by simp [hst, hp])]
  simp only [hb]

theorem effBargeReceive_outOfOrder (hp : p < 16) (hst : s.pState p = 2) (hb : parseBarge bs = (some l, some b)) (hl : l ≠ (s.port p).rxSeq) (x : Bool) :
    (effBargeReceive p bs x).run s = s := by
  rw [effBargeReceive, Eff.run_read, if_neg (by simp [hst, hp])]
  simp only [hb]
  rw [if_pos (by simp [hl]), Eff.run_skip]
end

/-- Settles O14, by the four cases of what a whole barge's header and LSEQ tell. -/
theorem bargeReception : Obligations.BargeReception := by
  refine ⟨fun s p l b bs hp hst hb hl hd => ?_, fun s p l b bs hp hst hb hl hd => ?_, fun s p bs b hp hst hb => ?_, fun s p l b bs x hp hst hb hl => ?_⟩
  · refine ⟨_, rfl, (onFab fun f => { f with inbox := f.inbox ++ [{ input := p, barge := b }] }).run (s.bargeTaken p l), ⟨?_, ?_, ?_, ?_, ?_⟩,
      effBargeReceive_here hp hst hb hl hd⟩
    · exact State.bargeTaken_rxSeq (s := s) (p := p) (l := l)
    · rw [(onFab_frame (fun _ => false) _ _).2.2 _ rfl, State.bargeTaken_count]
    · rw [onFab_fab, State.bargeTaken_inbox]
    · rw [onFab_out, State.bargeTaken_out]
    · exact State.bargeTaken_frame.trans (onFab_frame _ _ _)
  · exact ⟨_, rfl, s.bargeTaken p l, ⟨State.bargeTaken_rxSeq, State.bargeTaken_out, State.bargeTaken_frame⟩, effBargeReceive_onward hp hst hb hl hd⟩
  · refine ⟨_, rfl, ?_⟩
    change ((effBargeReceive p bs false).run s).out = _ ∧ Frame _ s ((effBargeReceive p bs false).run s) ∧ ((effBargeReceive p bs false).run s).dev = s.dev
    rw [effBargeReceive_spoilt hp hst hb]
    exact ⟨sendControl_out _ _ _ _, sendControl_frame _ _ _ _ _, sendControl_dev _ _ _ _⟩
  · exact ⟨_, rfl, effBargeReceive_outOfOrder hp hst hb hl x⟩

end Sys2Proof.Machine
end
section
/-! # Source flows (O16) -/

namespace Sys2Proof.Machine
open Sys2Proof

section
variable {s t : State} {w : Waiting} {f : Nat} {x : SrcFlow}

/-! ### The inbox -/

theorem returnCredit_silentDev (p : Nat) (s : State) : ((returnCredit p).run s).dev = s.dev := by
  rw [returnCredit, Eff.run_read]
  split
  · exact sendControl_dev _ _ _ _
  · rw [Eff.run_skip]

theorem returnCredit_local (r : Nat → Bool) (p : Nat) : (returnCredit p).Only (Act.Local r) := by
  refine Eff.only_read.mpr fun s => ?_
  split
  · simp [sendControl, sendFrame, emit]
  · trivial

theorem leaveInbox_fab (w : Waiting) (s : State) : ((leaveInbox w).run s).dev.fab = { s.dev.fab with inbox := dropWaiting w s.dev.fab.inbox } := by
  rw [leaveInbox, Eff.run_andThen, returnCredit_silentDev, onFab_fab]

theorem leaveInbox_frame (r : Nat → Bool) (w : Waiting) (s : State) : Frame r s ((leaveInbox w).run s) := by
  rw [leaveInbox, Eff.run_andThen]
  exact (onFab_frame r _ s).trans ((returnCredit_local r _).frame _)

theorem leaveInbox_src (w : Waiting) (s : State) : ((leaveInbox w).run s).dev.fab.src = s.dev.fab.src := by rw [leaveInbox_fab]

theorem fromInbox_first {kind : Nat} {ok : State → Barge → Bool} (h : firstFit (fun b => b.kind == kind && ok s b) [] s.dev.fab.inbox = some w) (k : Waiting → Eff) :
    (fromInbox kind ok k).run s = (k w).run ((leaveInbox w).run s) := by
  rw [fromInbox, Eff.run_read, h, Eff.run_andThen]

/-! ### Source flows -/

theorem State.flow?_of_src (h : t.dev.fab.src = s.dev.fab.src) (f : Nat) : t.flow? f = s.flow? f := by rw [State.flow?, h, State.flow?]

theorem State.answerFlow_of_src (h : t.dev.fab.src = s.dev.fab.src) (b : Barge) : t.answerFlow b = s.answerFlow b := by
  simp only [State.answerFlow, State.flow?_of_src h]

theorem onFlow_run (h : s.flow? f = some x) (g : SrcFlow → SrcFlow) : (onFlow f g).run s = (onFab fun k => { k with src := mput k.src f (g x) }).run s := by
  have hget : mget? s.dev.fab.src f = some x := h
  rw [onFlow, onFab, onFab, onDev_run, onDev_run, Act.run, Act.run]
  simp only [hget]

theorem onFlow_flow (h : s.flow? f = some x) (g : SrcFlow → SrcFlow) : ((onFlow f g).run s).flow? f = some (g x) := by
  rw [onFlow_run h]
  exact mget?_mput _ _ _

theorem onFlow_frame (r : Nat → Bool) (f : Nat) (g : SrcFlow → SrcFlow) (s : State) : Frame r s ((onFlow f g).run s) := onFab_frame r _ s

theorem onFlow_events (h : s.flow? f = some x) (g : SrcFlow → SrcFlow) : ((onFlow f g).run s).dev.fab.events = s.dev.fab.events := by
  rw [onFlow_run h]
  rfl

theorem tellUser_src (f gen seq status : Nat) (s : State) : ((tellUser f gen seq status).run s).dev.fab.src = s.dev.fab.src := rfl

theorem tellUser_events (f gen seq status : Nat) (s : State) :
    ((tellUser f gen seq status).run s).dev.fab.events = s.dev.fab.events ++ [{ flow := f, gen := gen, seq := seq, status := status }] := rfl

theorem tryFence_open (h : s.flow? f = some x) (hx : x.state = 0) : (tryFence f).run s = s := by
  rw [tryFence, Eff.run_read, h]
  simp only [hx]
  rw [if_pos (by simp), Eff.run_skip]

/-! ### An OK answer (R276) -/

/-- The barge is ended and its user told. -/
def State.ended (s : State) (f gen seq : Nat) : State :=
  (tellUser f gen seq 0).run ((onFlow f fun y => { y with outs := y.outs.filter fun z => z.seq != seq }).run s)

theorem State.ended_flow (h : s.flow? f = some x) (gen seq : Nat) : (s.ended f gen seq).flow? f = some { x with outs := x.outs.filter fun z => z.seq != seq } :=
  (State.flow?_of_src (tellUser_src _ _ _ _ _) f).trans (onFlow_flow h _)

theorem State.ended_events (h : s.flow? f = some x) (gen seq : Nat) :
    (s.ended f gen seq).dev.fab.events = s.dev.fab.events ++ [{ flow := f, gen := gen, seq := seq, status := 0 }] := by
  rw [State.ended, tellUser_events, onFlow_events h]

theorem State.ended_frame (r : Nat → Bool) (gen seq : Nat) : Frame r s (s.ended f gen seq) := (onFlow_frame r f _ s).trans (onFab_frame r _ _)

theorem answered_ok {seq : Nat} {o : OutBarge} (h : s.flow? f = some x) (hx : x.state = 0)
    (ho : x.outs.find? (fun o => o.seq == seq && o.sent && o.answer.isNone) = some o) : (answered f seq 0).run s = s.ended f x.gen seq := by
  rw [answered, Eff.run_read, h]
  simp only [ho, if_true]
  rw [Eff.run_all_cons, Eff.run_all_cons, Eff.run_all_cons, Eff.run_all_done]
  exact tryFence_open (s := s.ended f x.gen seq) (s.ended_flow h x.gen seq) hx

theorem effAck_ok {o : OutBarge} (hw : firstFit (fun b => b.kind == 0x10 && true) [] s.dev.fab.inbox = some w) (ht : bitOf w.barge.arg 8 = false)
    (hf : s.answerFlow w.barge = some f) (hx : s.flow? f = some x) (hst : x.state = 0) (h0 : bitsOf w.barge.arg 0 8 = 0)
    (ho : x.outs.find? (fun o => o.seq == w.barge.seq && o.sent && o.answer.isNone) = some o) (es : List EccEvent) :
    (effAck es).run s = (Eff.all [settleTransit, drainUsers es, drainManage, sweep]).run (((leaveInbox w).run s).ended f x.gen w.barge.seq) := by
  have hsrc := leaveInbox_src w s
  rw [effAck, Eff.run_all_cons, fromInbox_first (ok := fun _ _ => true) hw, Eff.run_read, ht, if_neg (by decide), State.answerFlow_of_src hsrc, hf]
  simp only [h0]
  rw [answered_ok ((State.flow?_of_src hsrc f).trans hx) hst ho]

theorem effAck_transit (hw : firstFit (fun b => b.kind == 0x10 && true) [] s.dev.fab.inbox = some w) (ht : bitOf w.barge.arg 8 = true) (es : List EccEvent) :
    (effAck es).run s = (Eff.all [settleTransit, drainUsers es, drainManage, sweep]).run ((holdTransit w.barge).run ((leaveInbox w).run s)) := by
  rw [effAck, Eff.run_all_cons, fromInbox_first (ok := fun _ _ => true) hw, Eff.run_read, ht, if_pos rfl]

theorem effReadData_known {es : List EccEvent}
    (hw : firstFit (fun b => b.kind == 0x11 && !(inHbm b.addr && s.cowWait b.addr b.payload.length)) [] s.dev.fab.inbox = some w) (hf : s.answerFlow w.barge = some f) :
    (effReadData es).run s = (Eff.all [readDataWrite f w.barge es, settleTransit, drainUsers es, drainManage, sweep]).run ((leaveInbox w).run s) := by
  rw [effReadData, Eff.run_all_cons, fromInbox_first (ok := fun s b => !(inHbm b.addr && s.cowWait b.addr b.payload.length)) hw, Eff.run_read,
    State.answerFlow_of_src (leaveInbox_src w s), hf, Eff.run_all_cons (readDataWrite f w.barge es)]

/-! ### ACK_TIMEOUT (R270, R277) -/

theorem tellUser_each (f gen status : Nat) (os : List OutBarge) (s : State) :
    ((Eff.each os fun o => tellUser f gen o.seq status).run s).dev.fab.src = s.dev.fab.src ∧
    ((Eff.each os fun o => tellUser f gen o.seq status).run s).dev.fab.events =
      s.dev.fab.events ++ os.map (fun z => { flow := f, gen := gen, seq := z.seq, status := status }) ∧
    Frame (fun _ => false) s ((Eff.each os fun o => tellUser f gen o.seq status).run s) := by
  induction os generalizing s with
  | nil => exact ⟨rfl, (List.append_nil _).symm, Frame.refl _ s⟩
  | cons o os ih =>
    obtain ⟨hsrc, hevents, hframe⟩ := ih ((tellUser f gen o.seq status).run s)
    rw [Eff.run_each_cons]
    refine ⟨hsrc.trans (tellUser_src _ _ _ _ s), ?_, (onFab_frame _ _ s).trans hframe⟩
    rw [hevents, tellUser_events, List.append_assoc, List.map_cons, List.singleton_append]

/-- The flow is BROKEN, its waiting barges are dropped, and every user has been told. -/
def State.broken (s : State) (f : Nat) (x : SrcFlow) : State :=
  (Eff.each x.outs fun o => tellUser f x.gen o.seq 0x1E).run ((dropWaitingOf f).run ((onFlow f fun y => { y with state := 2, outs := [] }).run s))

theorem State.broken_flow (h : s.flow? f = some x) : (s.broken f x).flow? f = some { x with state := 2, outs := [] } :=
  (State.flow?_of_src (tellUser_each f x.gen 0x1E x.outs _).1 f).trans (onFlow_flow h _)

theorem State.broken_events (h : s.flow? f = some x) : (s.broken f x).dev.fab.events =
    s.dev.fab.events ++ x.outs.map (fun z => { flow := f, gen := x.gen, seq := z.seq, status := 0x1E }) := by
  have hdrop : ∀ u : State, ((dropWaitingOf f).run u).dev.fab.events = u.dev.fab.events := fun _ => rfl
  exact (tellUser_each f x.gen 0x1E x.outs _).2.1.trans (congrArg (· ++ _) ((hdrop _).trans (onFlow_events h _)))

theorem State.broken_frame : Frame (fun _ => false) s (s.broken f x) :=
  ((onFlow_frame _ f _ s).trans (onFab_frame _ _ _)).trans (tellUser_each f x.gen 0x1E x.outs _).2.2

theorem State.flowBasin_lt {q b : Nat} (h : s.flowBasin q = some b) : b < 16 := by
  have howner := s.qOwner_lt (q := q)
  unfold State.flowBasin at h
  split at h
  · exact Option.some.inj h ▸ howner
  · split at h
    · have := Option.some.inj h
      omega
    · exact absurd h (Option.some_ne_none b).symm

theorem flowCount_keeps {b : Nat} (hb : b < 16) (s : State) : ((countAt (0xC0 + b) 0).run s).dev.fab = s.dev.fab ∧ Frame fltBlock s ((countAt (0xC0 + b) 0).run s) :=
  ⟨Eff.Only.devKeeps (p := Dev.fab) ((collectorActs_keeps (fun _ _ => rfl) (fun _ _ => rfl) fun _ _ => rfl).countAt (by omega) (by simp [retires]; omega) (by omega) 0) s,
    countAt_frame (by omega) (by simp [retires]; omega) (by omega) 0 s⟩

theorem breakFlow_breaks (h : s.flow? f = some x) :
    ((breakFlow f none).run s).dev.fab = (s.broken f x).dev.fab ∧ SameHbm s ((breakFlow f none).run s) ∧ SameGates s ((breakFlow f none).run s) := by
  have hframe := s.broken_frame (f := f) (x := x)
  rw [breakFlow, Eff.run_read, h]
  dsimp only
  rw [Eff.run_all_cons, Eff.run_all_cons, Eff.run_all_cons, Eff.run_all_cons, Eff.run_all_done]
  simp only [Option.isSome_none, Bool.false_eq_true, if_false]
  rw [← State.broken.eq_1 s f x]
  cases hb : s.flowBasin (flowQueue f) with
  | none => exact ⟨rfl, hframe.1, hframe.2.1⟩
  | some b =>
    obtain ⟨hfab, hcount⟩ := flowCount_keeps (State.flowBasin_lt hb) (s.broken f x)
    dsimp only
    rw [Eff.run_andThen, Eff.run_skip]
    exact ⟨hfab, hframe.1.trans hcount.1, hframe.2.1.trans hcount.2.1⟩

theorem answered_timeout {o : OutBarge} (h : s.flow? f = some x) (hx : x.state = 0)
    (ho : x.outs.find? (fun o => o.sent && o.answer.isNone && decide (o.tick + s.ackTimeout ≤ s.now)) = some o) :
    (answered f o.seq 256).run s = (breakFlow f none).run s := by
  have hmem := List.mem_of_find?_eq_some ho
  have hsent := List.find?_some ho
  simp only [Bool.and_eq_true] at hsent
  obtain ⟨y, hy⟩ : ∃ y, x.outs.find? (fun z => z.seq == o.seq && z.sent && z.answer.isNone) = some y :=
    Option.isSome_iff_exists.mp (List.find?_isSome.mpr ⟨o, hmem, by simp [hsent.1]⟩)
  rw [answered, Eff.run_read, h]
  simp only [hy, hx, if_true]
  rfl

theorem effAckTimeout_breaks {queue dest cls : Nat} {o : OutBarge} (h : s.flow? (flowKey queue dest cls) = some x) (hx : x.state = 0)
    (ho : x.outs.find? (fun o => o.sent && o.answer.isNone && decide (o.tick + s.ackTimeout ≤ s.now)) = some o) :
    (effAckTimeout queue dest cls).run s = (Eff.all [settleTransit, drainUsers [], drainManage]).run ((breakFlow (flowKey queue dest cls) none).run s) := by
  rw [effAckTimeout, Eff.run_read]
  simp only [h, ho]
  rw [Eff.run_all_cons (answered _ _ _), answered_timeout h hx ho]

/-! ### FLOW_RESET (R278) -/

/-- The path that a source chooses is read from the registers and the fabric's state. -/
theorem State.choosePath_of_same (hr : t.reg = s.reg) (hf : t.dev.fab = s.dev.fab) (d : Nat) : t.choosePath d = s.choosePath d := by
  have hroute : t.routePort d = s.routePort d := by
    funext k
    have hbit : t.bit (rIbnRoute d) = s.bit (rIbnRoute d) := by funext i; rw [State.bit, hr, State.bit]
    have hfld : t.fld (rIbnRoute d) = s.fld (rIbnRoute d) := by funext i j; rw [State.fld, hr, State.fld]
    simp only [State.routePort, hbit, hfld]
  have hhas : t.hasRoute d = s.hasRoute d := by simp only [State.hasRoute, State.inReach, State.bit, hroute, hr, hf]
  have hreply : t.replyPath d = s.replyPath d := by simp only [State.replyPath, State.pState, State.bit, State.fld, hroute, hr]
  rw [State.choosePath, hhas, hreply, State.choosePath]

theorem flowReset_renews {b v : Nat} (hpres : s.qPresent (bitsOf v 0 8) = true) (hown : s.qOwner (bitsOf v 0 8) = b)
    (h : s.flow? (flowKey (bitsOf v 0 8) (bitsOf v 16 12) (bitsOf v 12 2)) = some x) (hx : x.state = 2 ∨ x.outs = []) :
    (flowReset b v).run s = (putFld (rIbnFlowResult b) 16 16 ((x.gen + 1) % 65536)).run ((putFld (rIbnFlowResult b) 0 8 0).run
      ((renewFlow (flowKey (bitsOf v 0 8) (bitsOf v 16 12) (bitsOf v 12 2))).run s)) := by
  have hidle : ¬ (x.state != 2 && !x.outs.isEmpty) = true := by rcases hx with hx | hx <;> simp [hx]
  rw [flowReset, Eff.run_read]
  simp only [hpres, hown, bne_self_eq_false, Bool.not_true, Bool.or_false, Bool.false_eq_true, if_false, h]
  rw [if_neg hidle, Eff.run_all_cons, Eff.run_all_cons, Eff.run_all_cons, Eff.run_all_done, flowResult]

theorem renewFlow_run (h : s.flow? f = some x) : (renewFlow f).run s =
    (onFab fun k => { k with src := mput k.src f { gen := (x.gen + 1) % 65536, path := (s.choosePath (flowDest f)).getD 0 } }).run s := by
  rw [renewFlow, Eff.run_read, h]

theorem exec_flowReset {rd b v : Nat} {l : Loc} (hw : Writes s rd (rIbnFlowReset b) l) (ho : s.isOpen b = true) (hpres : s.qPresent (bitsOf v 0 8) = true)
    (hown : s.qOwner (bitsOf v 0 8) = b) (h : s.flow? (flowKey (bitsOf v 0 8) (bitsOf v 16 12) (bitsOf v 12 2)) = some x) (hx : x.state = 2 ∨ x.outs = []) :
    exec (.flowReset rd b v) s = .next ((putFld (rIbnFlowResult b) 16 16 ((x.gen + 1) % 65536)).run ((putFld (rIbnFlowResult b) 0 8 0).run
      ((renewFlow (flowKey (bitsOf v 0 8) (bitsOf v 16 12) (bitsOf v 12 2))).run (s.written rd l)))) := by
  have hopen : (s.written rd l).isOpen b = true := by rw [State.isOpen, State.written_fld]; exact ho
  have hpres' : (s.written rd l).qPresent (bitsOf v 0 8) = true := by rw [State.qPresent, State.written_bit]; exact hpres
  have hown' : (s.written rd l).qOwner (bitsOf v 0 8) = b := by rw [State.qOwner_written]; exact hown
  have hsrc : (s.written rd l).dev.fab.src = s.dev.fab.src := State.written_keeps (p := fun d => d.fab.src) (fun _ _ => rfl) s rd l
  have hrun := (writeReg_run hw (onlyIf (fun s => s.isOpen b) (flowReset b v))).trans
    ((congrArg (fun e : Eff => e.run _) (if_pos hopen)).trans (flowReset_renews hpres' hown' ((State.flow?_of_src hsrc _).trans h) hx))
  exact congrArg Host.Outcome.next hrun
end

/-- Settles O16: each answer's own effect on its flow is run, and what follows it is the statement's tail. -/
theorem sourceFlows : Obligations.SourceFlows := by
  refine ⟨fun s w f x o hw ht hf hx hst h0 ho => ?_, fun s w hw ht => ?_, fun s w f es hw hf => ?_, fun s queue dest cls x o hx hst ho => ?_,
    fun s rd b v l x _ hw hopen hpres hown hx hidle => ?_⟩
  · have hx' := (State.flow?_of_src (leaveInbox_src w s) f).trans hx
    refine ⟨_, rfl, ((leaveInbox w).run s).ended f x.gen w.barge.seq, ⟨State.ended_flow hx' _ _, ?_, (leaveInbox_frame _ w s).trans (State.ended_frame _ _ _)⟩,
      effAck_ok hw ht hf hx hst h0 ho []⟩
    rw [State.ended_events hx', leaveInbox_fab]
  · refine ⟨_, rfl, (holdTransit w.barge).run ((leaveInbox w).run s), ⟨?_, ?_, (leaveInbox_frame _ w s).trans (onFab_frame _ _ _)⟩, effAck_transit hw ht []⟩
    · rw [holdTransit, onFab_fab, leaveInbox_fab]
    · rw [holdTransit, onFab_fab, leaveInbox_fab]
  · exact ⟨_, rfl, (leaveInbox w).run s, ⟨by rw [leaveInbox_fab], leaveInbox_src w s, leaveInbox_frame _ w s⟩, effReadData_known hw hf⟩
  · obtain ⟨hfab, hhbm, hgates⟩ := breakFlow_breaks hx
    refine ⟨_, rfl, (breakFlow (flowKey queue dest cls) none).run s, ⟨?_, ?_, hhbm, hgates⟩, effAckTimeout_breaks hx hst ho⟩
    · rw [State.flow?_of_src (congrArg Fabric.src hfab), State.broken_flow hx]
    · rw [hfab, State.broken_events hx]
  · have hfab : (s.written rd l).dev.fab = s.dev.fab := State.written_keeps (p := Dev.fab) (fun _ _ => rfl) s rd l
    have hx' := (State.flow?_of_src (congrArg Fabric.src hfab) _).trans hx
    have hpath := State.choosePath_of_same (s := s) (t := s.written rd l) (funext fun o => s.written_reg rd l o) hfab
    refine ⟨_, exec_flowReset hw hopen hpres hown hx hidle, ?_, ?_, ?_, ?_, ?_⟩
    · rw [State.flow?, putFld_dev, putFld_dev, renewFlow_run hx', onFab_fab, hpath]
      exact mget?_mput _ _ _
    · rw [State.fld_putFld_apart _ (by omega) (by omega), State.fld_putFld_lt (by decide) (by omega)]
    · rw [State.fld_putFld _ (by omega)]
      exact Nat.mod_mod _ _
    · rw [renewFlow_run hx']
      exact (((s.written_frame rd l _).trans (onFab_frame _ _ _)).trans (putFld_frame (by simp) _ _ _)).trans (putFld_frame (by simp) _ _ _)
    · rw [putFld_out, putFld_out, renewFlow_run hx', onFab_out, State.written_out]

end Sys2Proof.Machine
end
section
/-! # Joining (O17) -/

namespace Sys2Proof.Machine
open Sys2Proof

/-! ### What the passing of barges leaves -/

/-- An update of registers above the first page, of outputs, or of the engines' state that leaves who has been admitted and whether this chip has joined. -/
def Act.Passing (a : Act) : Prop := a.Local aboveGlb ∧ a.Keeps fun d => (d.fab.admitted, d.fab.joined)

/-- An effect of such updates alone. -/
abbrev Eff.Passing (e : Eff) : Prop := e.Only Act.Passing

theorem Eff.Passing.frame {e : Eff} (h : e.Passing) (s : State) : Frame aboveGlb s (e.run s) :=
  Eff.Only.frame (h.mono fun _ x => x.1) s

theorem Eff.Passing.keeps {e : Eff} (h : e.Passing) (s : State) :
    (e.run s).dev.fab.admitted = s.dev.fab.admitted ∧ (e.run s).dev.fab.joined = s.dev.fab.joined :=
  Prod.mk.inj (Eff.Only.devKeeps (p := fun d => (d.fab.admitted, d.fab.joined)) (h.mono fun _ x => x.2) s)

section
variable {off : Nat} {v : Word64} {p : Nat}

@[simp] theorem Act.passing_setReg : Act.Passing (.setReg off v) ↔ 0x1000 ≤ off := by simp [Act.Passing, aboveGlb]
@[simp] theorem Act.passing_emit {o : Output} : Act.Passing (.emit o) := ⟨Act.local_emit, trivial⟩
@[simp] theorem onFab_passing {g : Fabric → Fabric} : (onFab g).Passing ↔ ∀ f, (g f).admitted = f.admitted ∧ (g f).joined = f.joined := by
  constructor
  · exact fun h f => Prod.mk.inj ((onDev_only.mp h).2 { ({} : Dev) with fab := f })
  · exact fun h => onDev_only.mpr ⟨Act.local_dev, fun d => Prod.ext (h d.fab).1 (h d.fab).2⟩
@[simp] theorem onPort_passing {g : Port → Port} : (onPort p g).Passing := onFab_passing.mpr fun _ => ⟨rfl, rfl⟩
@[simp] theorem sendControl_passing {ftype body : Nat} : (sendControl p ftype body).Passing := Act.passing_emit
@[simp] theorem sendFrame_passing {bs : List Byte} : (sendFrame p bs).Passing := Act.passing_emit

@[simp] theorem returnCredit_passing : (returnCredit p).Passing := by
  refine Eff.only_read.mpr fun s => ?_
  split
  · exact sendControl_passing
  · trivial

@[simp] theorem sendOut_passing (w : Waiting) (cls used : Nat) : (sendOut p w cls used).Passing := by simp [sendOut]

@[simp] theorem pumpLoop_passing (n : Nat) : (pumpLoop p n).Passing := by
  induction n with
  | zero => trivial
  | succ n ih =>
    refine Eff.only_read.mpr fun s => ?_
    dsimp only
    split
    · split
      · exact ⟨sendOut_passing _ _ _, ih⟩
      · trivial
    · trivial

@[simp] theorem toPort_passing (input : Nat) (b : Barge) : (toPort p input b).Passing := ⟨onPort_passing, fun _ => pumpLoop_passing _⟩

@[simp] theorem sendReply_passing (hdr : Nat) (payload : List Byte) : (sendReply hdr payload).Passing := by
  refine Eff.only_read.mpr fun s => ?_
  dsimp only
  split
  · split
    · exact toPort_passing _ _
    · trivial
  · trivial

@[simp] theorem sendAck_passing (b : Barge) (status : Nat) (transit : Bool) : (sendAck b status transit).Passing := fun _ => sendReply_passing _ _

@[simp] theorem leaveInbox_passing (w : Waiting) : (leaveInbox w).Passing := ⟨onFab_passing.mpr fun _ => ⟨rfl, rfl⟩, returnCredit_passing⟩

@[simp] theorem putDst_passing (k : Nat) (x : DstFlow) : (putDst k x).Passing := onFab_passing.mpr fun _ => ⟨rfl, rfl⟩

@[simp] theorem breakDst_passing (k : Nat) : (breakDst k).Passing := by
  refine onFab_passing.mpr fun f => ?_
  split <;> exact ⟨rfl, rfl⟩

theorem refusalCount_passing {src : Nat} (h : src < 256) (hr : retires src = false) (h60 : src ≠ 0x60) : (countAt src 0).Passing :=
  (countAt_local h 0).and ((collectorActs_keeps (fun _ _ => rfl) (fun _ _ => rfl) fun _ _ => rfl).countAt h hr h60 0)

@[simp] theorem lockRefuse_passing {b : Nat} (hb : b < 16) (first last : Nat) (a : Asker) (st : Nat) (w : Option Nat) : (lockRefuse b first last a st w).Passing := by
  have hcount : ∀ base, base = 0x70 ∨ base = 0x80 → (countAt (base + b) 0).Passing := fun base hbase =>
    refusalCount_passing (by omega) (by simp [retires]; omega) (by omega)
  have hsource := hcount (if st = 0x16 then 0x70 else 0x80) (by split <;> simp)
  simp [lockRefuse, hsource]

theorem Barge.basin_lt (b : Barge) : b.basin < 16 := bitsOf_lt _ _ _

@[simp] theorem bargeRefused_passing (b : Barge) : (bargeRefused b).Passing := by
  refine Eff.only_read.mpr fun s => ?_
  split
  · split
    · exact lockRefuse_passing b.basin_lt _ _ _ _ _
    · trivial
  · trivial

theorem acceptBarge_passing {b : Barge} {check : State → Option Nat} {onRefuse perform : Eff} (hr : onRefuse.Passing) (hp : perform.Passing) :
    (acceptBarge b check onRefuse perform).Passing := by
  refine Eff.only_read.mpr fun s => ?_
  dsimp only
  repeat' split
  all_goals simp [hr, hp]

theorem takeBarge_passing {b : Barge} {perform : Eff} (hp : perform.Passing) : (takeBarge b perform).Passing := acceptBarge_passing (bargeRefused_passing b) hp

theorem sweepLoop_passing (n : Nat) : (sweepLoop n).Passing := by
  induction n with
  | zero => trivial
  | succ n ih =>
    refine Eff.only_read.mpr fun s => ?_
    split
    · refine Eff.only_all.mpr ?_
      simp [takeBarge_passing, ih]
    · trivial

theorem sweep_passing : sweep.Passing := fun _ => sweepLoop_passing _

theorem delivered_passing (b : Barge) : (delivered b).Passing := by simp [delivered]

end

/-- A state that the passing of barges leads to: HBM, gates and the registers of the first page as before, and the same chips admitted. -/
structure State.Passed (t s : State) : Prop where
  frame : Frame aboveGlb s t
  admitted : t.dev.fab.admitted = s.dev.fab.admitted
  joined : t.dev.fab.joined = s.dev.fab.joined

theorem Eff.Passing.passed {e : Eff} (h : e.Passing) (s : State) : (e.run s).Passed s := ⟨h.frame s, (h.keeps s).1, (h.keeps s).2⟩

theorem State.Passed.trans {s t u : State} (h : u.Passed t) (h' : t.Passed s) : u.Passed s :=
  ⟨h'.frame.trans h.frame, h.admitted.trans h'.admitted, h.joined.trans h'.joined⟩

theorem State.Passed.role {s t : State} (h : t.Passed s) (i : Nat) : t.bit rGlbRole i = s.bit rGlbRole i := h.frame.bit (by decide) i

/-! ### A barge that is next in its flow is performed (R271) -/

theorem older16_self (a : Nat) : older 16 a a = false := by
  simp only [older, decide_eq_false_iff_not]
  omega

theorem older32_self (a : Nat) : older 32 a a = false := by
  simp only [older, decide_eq_false_iff_not]
  omega

section
variable {s t : State} {w : Waiting} {b : Barge}

theorem NextOfFlow.of_dst (h : t.dev.fab.dst = s.dev.fab.dst) (hn : NextOfFlow s b) : NextOfFlow t b := by
  obtain ⟨e, he, hrest⟩ := hn
  exact ⟨e, by rw [h]; exact he, hrest⟩

theorem acceptBarge_next {check : State → Option Nat} (hn : NextOfFlow s b) (hc : check s = none) (onRefuse perform : Eff) :
    ∃ e, (acceptBarge b check onRefuse perform).run s = perform.run ((putDst b.dstKey e).run s) := by
  obtain ⟨e, he, hbroken, hgen, hseq, -⟩ := hn
  refine ⟨{ e with tick := s.now, expect := (b.seq + 1) % 2 ^ 32 }, ?_⟩
  rw [acceptBarge, Eff.run_read]
  simp only [he, hgen, older16_self, Bool.false_eq_true, if_false, if_true, hbroken, hseq, ite_self, older32_self, bne_self_eq_false, hc]
  rw [Eff.run_andThen]

theorem firstFit_fits {ok : Barge → Bool} : ∀ {l : Inbox} {seen : List (Nat × Bool)}, firstFit ok seen l = some w → ok w.barge = true
  | x :: xs, seen, h => by
    rw [firstFit] at h
    split at h
    next hx => exact Option.some.inj h ▸ (Bool.and_eq_true_iff.mp hx).1
    next => exact firstFit_fits h

/-- The checks of a barge of a management kind read registers alone. -/
theorem State.bargeCheck_of_reg (hr : t.reg = s.reg) (h : b.kind ≠ 1 ∧ b.kind ≠ 2 ∧ b.kind ≠ 4) : t.bargeCheck b = s.bargeCheck b := by
  obtain ⟨h1, h2, h4⟩ := h
  simp only [State.bargeCheck, State.isOpen, State.inReach, State.bargeLock, State.fld, State.bit, hr, h1, h2, h4, false_and, or_self, if_false]

/-- The first barge of a management kind, once it has left the inbox and been taken in its flow's order. -/
theorem fromInbox_arrived {kind : Nat} (h : Arrived s kind w) (hk : kind ≠ 1 ∧ kind ≠ 2 ∧ kind ≠ 4) (perform : Waiting → Eff) :
    ∃ u, u.Passed s ∧ (fromInbox kind (fun _ _ => true) fun w => takeBarge w.barge (perform w)).run s = (perform w).run u := by
  obtain ⟨hfit, hnext, hcheck⟩ := h
  have hkind : w.barge.kind = kind := by simpa using firstFit_fits hfit
  have hframe := leaveInbox_frame (fun _ => false) w s
  have hcheck' : ((leaveInbox w).run s).bargeCheck w.barge = none :=
    (State.bargeCheck_of_reg (funext fun o => hframe.2.2 o rfl) (hkind ▸ hk)).trans hcheck
  have hdst : ((leaveInbox w).run s).dev.fab.dst = s.dev.fab.dst := by rw [leaveInbox_fab]
  obtain ⟨e, he⟩ := acceptBarge_next (check := fun s => s.bargeCheck w.barge) (NextOfFlow.of_dst hdst hnext) hcheck' (bargeRefused w.barge) (perform w)
  exact ⟨(putDst w.barge.dstKey e).run ((leaveInbox w).run s), ((putDst_passing _ e).passed _).trans ((leaveInbox_passing w).passed s),
    (fromInbox_first (ok := fun _ _ => true) hfit _).trans he⟩
end

section
variable {s : State} {w : Waiting}

/-! ### JOIN (R290) -/

theorem effJoinRetry_due (hph : s.phase = 5 ∨ s.phase = 6) (hm : s.isMaster = false) (hj : s.dev.fab.joined = false) (hup : s.upPorts ≠ [])
    (ht : ∀ t0, s.dev.fab.joinTick = some t0 → t0 + 2 ^ 26 ≤ s.now) : effJoinRetry.run s =
      (Eff.andThen (sendManagement s.dev.fab.master 0x20 (joinPayload s.chipId s.serial)) (drainUsers [])).run
        ((onFab fun f => { f with joinTick := some s.now }).run s) := by
  have hphase : (s.phase == 5 || s.phase == 6) = true := by simpa using hph
  have hports : s.upPorts.isEmpty = false := by simpa using hup
  rw [effJoinRetry, Eff.run_read]
  dsimp only
  rw [if_pos]
  · rw [Eff.run_all_cons, Eff.run_all_cons, Eff.run_all_cons, Eff.run_all_done, Eff.run_andThen]
  · simp only [hphase, hm, hj, hports, Bool.not_false, Bool.and_self, Bool.true_and]
    cases hjt : s.dev.fab.joinTick with
    | none => rfl
    | some t0 => exact decide_eq_true (ht t0 hjt)

theorem answerJoin_new {u : State} (hm : u.isMaster = true) (hnew : mget? u.dev.fab.admitted (bitsOf (leNat w.barge.payload) 0 16) = none) :
    (answerJoin w).run u = (sendManagement (bitsOf (leNat w.barge.payload) 0 16) 0x21 w.barge.payload).run
      ((onFab fun f => { f with admitted := mput f.admitted (bitsOf (leNat w.barge.payload) 0 16) (bitsOf (leNat w.barge.payload) 64 64) }).run u) := by
  rw [answerJoin, Eff.run_read]
  simp only [hm, hnew, Bool.not_true, Bool.false_eq_true, if_false]
  rw [Eff.run_andThen]

theorem effJoin_new (h : Arrived s 0x20 w) (hm : s.isMaster = true) (hnew : mget? s.dev.fab.admitted (bitsOf (leNat w.barge.payload) 0 16) = none) :
    ∃ u, u.Passed s ∧ effJoin.run s = (Eff.all [sendManagement (bitsOf (leNat w.barge.payload) 0 16) 0x21 w.barge.payload, drainUsers [], sweep]).run
      ((onFab fun f => { f with admitted := mput f.admitted (bitsOf (leNat w.barge.payload) 0 16) (bitsOf (leNat w.barge.payload) 64 64) }).run u) := by
  obtain ⟨u, hu, hrun⟩ := fromInbox_arrived h (by decide) fun w => .andThen (delivered w.barge) (answerJoin w)
  have hv := ((delivered_passing w.barge).passed u).trans hu
  refine ⟨(delivered w.barge).run u, hv, ?_⟩
  rw [effJoin, Eff.run_all_cons, hrun, Eff.run_andThen, answerJoin_new ((hv.role 17).trans hm) (hv.admitted ▸ hnew), ← Eff.run_all_cons]

/-! ### ADMIT (R291) -/

/-- The chip has joined, and is in the reach unless its id is in conflict. -/
def admitChip : Eff := .andThen (.read fun s => Eff.when (!s.bit rGlbRole 19) (putBit rGlbRole 18 true)) (onFab fun f => { f with joined := true })

theorem admitChip_admits (u : State) : (u.bit rGlbRole 19 = false → (admitChip.run u).inReach = true) ∧
    (u.bit rGlbRole 19 = true → (admitChip.run u).inReach = u.inReach) ∧ (admitChip.run u).dev.fab.joined = true ∧
    SameHbm u (admitChip.run u) ∧ SameGates u (admitChip.run u) := by
  have hreach : (admitChip.run u).inReach = ((Eff.when (!u.bit rGlbRole 19) (putBit rGlbRole 18 true)).run u).inReach := rfl
  have hframe : Frame (fun o => o == rGlbRole) u (admitChip.run u) :=
    Eff.Only.frame (e := admitChip) (by simp [admitChip, onFab]) u
  refine ⟨fun h => ?_, fun h => ?_, rfl, hframe.1, hframe.2.1⟩
  · rw [hreach, h, Eff.run_when, if_pos (by decide)]
    exact State.bit_putBit _ (by decide)
  · rw [hreach, h, Eff.run_when, if_neg (by decide)]

theorem effAdmit_admits (h : Arrived s 0x21 w) : ∃ u, u.Passed s ∧ effAdmit.run s = sweep.run (admitChip.run u) := by
  obtain ⟨u, hu, hrun⟩ := fromInbox_arrived h (by decide) fun w => Eff.all
    [ delivered w.barge, .read fun s => Eff.when (!s.bit rGlbRole 19) (putBit rGlbRole 18 true), onFab fun f => { f with joined := true } ]
  refine ⟨(delivered w.barge).run u, ((delivered_passing w.barge).passed u).trans hu, ?_⟩
  rw [effAdmit, Eff.run_andThen, hrun, Eff.run_all_cons, Eff.run_all_cons, Eff.run_all_cons, Eff.run_all_done, admitChip, Eff.run_andThen]

/-! ### CONFLICT (R291) -/

/-- The chip's id is in conflict: it is out of the reach, the conflict counts, and the chip has had its answer. -/
def State.conflicted (s : State) : State :=
  (onFab fun f => { f with joined := true }).run ((countAt 0x36 0).run ((putBit rGlbRole 18 false).run ((putBit rGlbRole 19 true).run s)))

/-- Every port in use goes DOWN, with the conflict as its cause. -/
def portsLeave : Eff := Eff.each (List.range 16) fun p => .read fun s => if s.pState p = 5 then .skip else portDown p 5

theorem idConflict_run (s : State) : idConflict.run s = portsLeave.run s.conflicted := by
  rw [idConflict, Eff.run_all_cons, Eff.run_all_cons, Eff.run_all_cons, Eff.run_all_cons, Eff.run_all_cons, Eff.run_all_done]
  rfl

theorem effConflict_leaves (h : Arrived s 0x22 w) : ∃ u : State, u.Passed s ∧ effConflict.run s = (Eff.andThen portsLeave sweep).run u.conflicted := by
  obtain ⟨u, hu, hrun⟩ := fromInbox_arrived h (by decide) fun w => .andThen (delivered w.barge) idConflict
  refine ⟨(delivered w.barge).run u, ((delivered_passing w.barge).passed u).trans hu, ?_⟩
  rw [effConflict, Eff.run_andThen, hrun, Eff.run_andThen, idConflict_run, Eff.run_andThen]

theorem State.conflicted_frame : Frame (fun o => o == rGlbRole || fltBlock o) s s.conflicted :=
  (((putBit_frame (by simp) _ _).trans (putBit_frame (by simp) _ _)).trans
    ((countAt_frame (by decide) (by decide) (by decide) 0 _).mono fun o ho => by simp [ho])).trans (onFab_frame _ _ _)

theorem State.conflicted_role (i : Nat) : s.conflicted.bit rGlbRole i = ((putBit rGlbRole 18 false).run ((putBit rGlbRole 19 true).run s)).bit rGlbRole i := by
  rw [State.conflicted, (onFab_frame (fun _ => false) _ _).bit rfl, (countAt_frame (by decide) (by decide) (by decide) 0 _).bit (by decide)]
end

/-- Settles O17: the barge leaves the inbox and is performed, and all that passes meanwhile leaves GLB_ROLE and who has been admitted. -/
theorem joining : Obligations.Joining := by
  refine ⟨fun s hph hm hj hup ht => ?_, fun s w h hm hnew => ?_, fun s w h => ?_, fun s w h => ?_⟩
  · exact ⟨_, rfl, (onFab fun f => { f with joinTick := some s.now }).run s, ⟨rfl, onFab_frame _ _ s, rfl⟩, effJoinRetry_due hph hm hj hup ht⟩
  · obtain ⟨u, hu, hrun⟩ := effJoin_new h hm hnew
    refine ⟨_, rfl, _, ⟨?_, ?_, ?_⟩, hrun⟩
    · rw [onFab_fab]
      exact mget?_mput _ _ _
    · exact hu.frame.1.trans (onFab_frame (fun _ => false) _ u).1
    · exact hu.frame.2.1.trans (onFab_frame (fun _ => false) _ u).2.1
  · obtain ⟨u, hu, hrun⟩ := effAdmit_admits h
    have hsweep := sweep_passing.passed (admitChip.run u)
    obtain ⟨hin, hstays, hjoined, hhbm, hgates⟩ := admitChip_admits u
    refine ⟨_, congrArg Host.Outcome.next hrun, fun h19 => ?_, fun h19 => ?_, hsweep.joined.trans hjoined, (hu.frame.1.trans hhbm).trans hsweep.frame.1,
      (hu.frame.2.1.trans hgates).trans hsweep.frame.2.1⟩
    · exact (hsweep.role 18).trans (hin ((hu.role 19).trans h19))
    · exact (hsweep.role 18).trans ((hstays ((hu.role 19).trans h19)).trans (hu.role 18))
  · obtain ⟨u, hu, hrun⟩ := effConflict_leaves h
    refine ⟨_, rfl, u.conflicted, ⟨?_, ?_, rfl, hu.frame.1.trans State.conflicted_frame.1, hu.frame.2.1.trans State.conflicted_frame.2.1⟩, hrun⟩
    · rw [State.conflicted_role, State.bit_putBit_apart _ (by decide) (by decide), State.bit_putBit _ (by decide)]
    · rw [State.inReach, State.conflicted_role, State.bit_putBit _ (by decide)]

end Sys2Proof.Machine
end
section
/-! # Port training and the HELLO exchange (O53) -/

namespace Sys2Proof.Machine
open Sys2Proof

section
variable {s : State} {p : Nat}

/-! ### Training (R245, R293) -/

theorem onPort_active (p : Nat) (g : Port → Port) (s : State) (q : Nat) : ((onPort p g).run s).pActive q = s.pActive q := rfl

theorem onFab_state (g : Fabric → Fabric) (s : State) (q : Nat) : ((onFab g).run s).pState q = s.pState q := rfl

theorem onFab_active (g : Fabric → Fabric) (s : State) (q : Nat) : ((onFab g).run s).pActive q = s.pActive q := rfl

theorem onFab_port (g : Fabric → Fabric) (s : State) (q : Nat) : ((onFab g).run s).port q = mget {} (g s.dev.fab).ports q := rfl

theorem beginTraining_trains (h : s.pRetired p ≠ 15) : TrainsFromCold s p ((beginTraining p).run s) := by
  have hrun : (beginTraining p).run s =
      (onPort p fun k => { k with since := s.now, badAdapt := k.leftOut, leftOut := 0, helloSent := false }).run ((setPort p 1 0 0).run s) := by
    rw [beginTraining, Eff.run_read, Eff.run_all_cons, Eff.run_all_cons, Eff.run_all_cons, Eff.run_all_done, Eff.run_when, if_neg (by simpa using h)]
  rw [hrun]
  refine ⟨?_, ?_, ?_, ?_, (setPort_frame (by simp) _ _ _ s).trans (onPort_frame _ p _ _), ?_⟩
  · rw [onPort_state, setPort_state (by decide)]
  · rw [onPort_cause, setPort_cause (by decide)]
  · rw [onPort_active, setPort_active (by decide)]
  · rw [onPort_port]
  · rw [onPort_out, setPort_out]

theorem onlyIf_run {c : State → Bool} (h : c s = true) (e : Eff) : (onlyIf c e).run s = e.run s := by
  rw [onlyIf, Eff.run_read, if_pos h]

theorem effTraining_cold {lanes : Nat} (hp : p < 16) (hen : (s.port p).enabled = true) (hret : (s.port p).retired = false) (hst : s.pState p = 0)
    (hc : s.pCause p = 0) (hid : s.bit rGlbRole 19 = false) (hph : s.phase = 5 ∨ s.phase = 6) : (effTraining p lanes).run s = (beginTraining p).run s := by
  rw [effTraining, Eff.run_read, if_neg (by simp [hst])]
  refine onlyIf_run ?_ _
  rcases hph with hph | hph <;> simp [hp, hen, hret, hst, hc, hid, hph]

/-- The port's HELLO goes out. -/
def State.hello (s : State) (p lanes : Nat) : State :=
  (onPort p fun k => { k with helloSent := true }).run ((sendControl p 0x15 (s.helloBody p lanes)).run s)

theorem sendHello_first (h : (s.port p).helloSent = false) (lanes : Nat) : (sendHello p lanes).run s = s.hello p lanes := by
  rw [sendHello, Eff.run_read, h, if_neg (by decide), Eff.run_andThen]
  rfl

theorem sendHello_again (h : (s.port p).helloSent = true) (lanes : Nat) : (sendHello p lanes).run s = s := by
  rw [sendHello, Eff.run_read, h, if_pos rfl, Eff.run_skip]

theorem sendHello_frame (p lanes : Nat) (s : State) : Frame (fun _ => false) s ((sendHello p lanes).run s) :=
  Eff.Only.frame (e := sendHello p lanes) (by simp [sendHello, onPort, onFab, sendControl, sendFrame, emit]) s

theorem sendHello_flt (p lanes : Nat) (s : State) : ((sendHello p lanes).run s).dev.flt = s.dev.flt :=
  Eff.Only.devKeeps (p := Dev.flt) (by simp [sendHello, onPort, onFab, sendControl, sendFrame, emit]) s

theorem sendHello_out (p lanes : Nat) (s : State) : ((sendHello p lanes).run s).out =
    if (s.port p).helloSent then s.out else .frame p (control 0x15 (s.helloBody p lanes)) :: s.out := by
  cases h : (s.port p).helloSent with
  | true => rw [sendHello_again h, if_pos rfl]
  | false =>
    rw [sendHello_first h, if_neg (by decide)]
    rfl

theorem effTraining_hello {lanes : Nat} (hp : p < 16) (hst : s.pState p = 1) (hl : s.trainLanes p lanes ≠ 0) (hh : (s.port p).helloSent = false) :
    (effTraining p lanes).run s = s.hello p (s.trainLanes p lanes) := by
  rw [effTraining, Eff.run_read, if_pos ⟨hp, hst⟩, if_neg hl, sendHello_first hh]

/-- The port is DOWN with a cause, since now. -/
def State.downed (s : State) (p cause : Nat) : State := (onPort p fun k => { k with since := s.now }).run ((setPort p 0 cause 0).run s)

theorem portDown_run (p cause : Nat) (s : State) : (portDown p cause).run s = (closePort p).run (s.downed p cause) := by
  rw [portDown, Eff.run_read, Eff.run_all_cons, Eff.run_all_cons, Eff.run_all_cons, Eff.run_all_done]
  rfl

theorem State.downed_frame (cause : Nat) : Frame (fun o => o == rIbnPState p) s (s.downed p cause) :=
  (setPort_frame (by simp) _ _ _ s).trans (onPort_frame _ p _ _)

theorem State.downed_port {cause : Nat} (h : cause < 256) : (s.downed p cause).pState p = 0 ∧ (s.downed p cause).pCause p = cause ∧ (s.downed p cause).pActive p = 0 ∧
    ((s.downed p cause).port p).since = s.now := by
  refine ⟨?_, ?_, ?_, ?_⟩
  · rw [State.downed, onPort_state, setPort_state (by decide)]
  · rw [State.downed, onPort_cause, setPort_cause h]
  · rw [State.downed, onPort_active, setPort_active (by decide)]
  · rw [State.downed, onPort_port]

theorem State.downed_out (cause : Nat) : (s.downed p cause).out = s.out := by rw [State.downed, onPort_out, setPort_out]

/-- The lane is left out of the training. -/
def State.laneLeftOut (s : State) (p l : Nat) : State := (onPort p fun k => { k with leftOut := k.leftOut + 2 ^ l }).run s

theorem effLaneAdaptTimeout_late {l : Nat} (hp : p < 16) (hl : l < 4) (hst : s.pState p = 1) (ht : (s.port p).since + 2 ^ 22 ≤ s.now)
    (hret : bitOf (s.pRetired p) l = false) (hleft : bitOf (s.port p).leftOut l = false) : (effLaneAdaptTimeout p l).run s =
      (Eff.andThen (Eff.when (bitOf (s.port p).badAdapt l) (countAt 0x33 (4 * p + l))) processLanes).run ((calFail (16 + 4 * p + l) 1).run (s.laneLeftOut p l)) := by
  rw [effLaneAdaptTimeout, Eff.run_read]
  dsimp only
  rw [if_pos ⟨hp, hl, hst, ht, hret, hleft⟩, Eff.run_all_cons, Eff.run_all_cons, Eff.run_all_cons, Eff.run_all_cons, Eff.run_all_done, ← State.laneLeftOut.eq_1 s p l,
    Eff.run_andThen]

theorem calFail_port (n cause q : Nat) (s : State) : ((calFail n cause).run s).port q = s.port q := by
  rw [calFail_run]
  exact State.port_of_fab (by rw [bumpFld_dev, putFld_dev]) q
end

theorem portTraining : Stated.PortTraining := by
  refine ⟨fun s p lanes hp hen hret hst hc hid hph hr => ⟨_, congrArg Host.Outcome.next (effTraining_cold hp hen hret hst hc hid hph), beginTraining_trains hr⟩,
    fun s p lanes hp hst hl hh => ?_, fun s p hp hst hc ht hr => ?_, fun s p hp hst ht => ?_, fun s p l hp hl hst ht hret hleft => ?_⟩
  · refine ⟨_, congrArg Host.Outcome.next (effTraining_hello hp hst hl hh), rfl, ?_, (sendControl_frame _ _ _ _ _).trans (onPort_frame _ p _ _)⟩
    rw [State.hello, onPort_port]
  · refine ⟨_, congrArg Host.Outcome.next (onlyIf_run ?_ _), beginTraining_trains hr⟩
    rw [decide_eq_true hp, hst, hc, decide_eq_true ht]
    rfl
  · obtain ⟨h1, h2, h3, h4⟩ := s.downed_port (p := p) (cause := 2) (by decide)
    refine ⟨_, congrArg Host.Outcome.next ((onlyIf_run ?_ _).trans (portDown_run p 2 s)), s.downed p 2, ⟨h1, h2, h3, h4, s.downed_frame 2, s.downed_out 2⟩, rfl⟩
    rw [decide_eq_true hp, hst, decide_eq_true ht]
    rfl
  · obtain ⟨h1, h2⟩ := calFail_record (n := 16 + 4 * p + l) (cause := 1) (s := s.laneLeftOut p l)
    refine ⟨_, rfl, (calFail (16 + 4 * p + l) 1).run (s.laneLeftOut p l), ⟨?_, h1, h2, ?_⟩, effLaneAdaptTimeout_late hp hl hst ht hret hleft⟩
    · rw [calFail_port, State.laneLeftOut, onPort_port]
    · exact (onPort_frame _ p _ s).trans ((calFail_local _ 1).frame _)

/-! ### The HELLO exchange (R245 to R247, R249) -/

section
variable {s : State} {p : Nat}

theorem onFrame_run {ftype m : Nat} {frame : List Byte} (h : FrameArrives s p ftype frame m) (k : Nat → Eff) : (onFrame p ftype frame k).run s = (k m).run s := by
  obtain ⟨hp, h0, h5, hlen, htype, hbody⟩ := h
  rw [onFrame, Eff.run_read, htype, hlen, if_neg (by simp [hp, h0, h5]), hbody]

/-- The calibration records of the units. -/
def calRecords (o : Nat) : Bool := decide (0xE1000 ≤ o ∧ o < 0xE2000)

theorem lanesAdapted_local (hp : p < 16) (lanes : Nat) : (lanesAdapted p lanes).Only (Act.Local calRecords) := by
  refine Eff.only_each.mpr fun l hl => (calAccept_local _).wider fun o ho => ?_
  have hl4 := List.mem_range.mp (List.mem_filter.mp hl).1
  simp only [rCalRec, decide_eq_true_eq] at ho
  simp only [calRecords, decide_eq_true_eq]
  omega

theorem lanesAdapted_dev (p lanes : Nat) (s : State) : ((lanesAdapted p lanes).run s).dev = s.dev :=
  Eff.Only.devKeeps (p := fun d => d) (Eff.only_each.mpr fun _ _ => calAccept_keeps _ _) s

theorem lanesAdapted_out (p lanes : Nat) (s : State) : ((lanesAdapted p lanes).run s).out = s.out :=
  Eff.Only.out (Eff.only_each.mpr fun _ _ => calAccept_silent _) s

/-- The neighbour that a HELLO names appears in IBN_P_p_NEIGH. -/
def State.neighbourSeen (s : State) (p m : Nat) : State := (putFld (rIbnPNeigh p) 0 16 (bodyGet m 1 2 % 4096 + bodyGet m 3 1 % 16 * 4096)).run s

/-- A training port has had its neighbour's HELLO: its own has gone out, and its lanes have recorded their adaptation. -/
def State.helloed (s : State) (p lanes m : Nat) : State :=
  (lanesAdapted p (s.trainLanes p lanes)).run ((sendHello p (s.trainLanes p lanes)).run (s.neighbourSeen p m))

/-- The registers that a HELLO may change while its port trains on. -/
def helloRegs (p o : Nat) : Bool := o == rIbnPNeigh p || calRecords o

theorem State.neighbourSeen_frame (m : Nat) : Frame (fun o => o == rIbnPNeigh p) s (s.neighbourSeen p m) := putFld_frame (by simp) _ _ _

theorem State.neighbourSeen_dev (m : Nat) : (s.neighbourSeen p m).dev = s.dev := putFld_dev _ _ _

theorem State.helloed_frame (hp : p < 16) (lanes m : Nat) : Frame (helloRegs p) s (s.helloed p lanes m) :=
  (((s.neighbourSeen_frame m).mono fun o h => by simp only [helloRegs, h, Bool.true_or]).trans ((sendHello_frame _ _ _).mono (by simp))).trans
    (((lanesAdapted_local hp _).frame _).mono fun o h => by simp only [helloRegs, h, Bool.or_true])

theorem State.helloed_flt (lanes m : Nat) : (s.helloed p lanes m).dev.flt = s.dev.flt := by
  rw [State.helloed, lanesAdapted_dev, sendHello_flt, State.neighbourSeen_dev]

theorem State.neighbourSeen_helloBody (hp : p < 16) (m lanes : Nat) : (s.neighbourSeen p m).helloBody p lanes = s.helloBody p lanes := by
  have hframe := s.neighbourSeen_frame (p := p) m
  have hrole : (rGlbRole == rIbnPNeigh p) = false := by simp [rGlbRole, rIbnPNeigh]; omega
  have hreach : (rIbnReach == rIbnPNeigh p) = false := by simp [rIbnReach, rIbnPNeigh]; omega
  rw [State.helloBody, State.helloBody, State.chipId, State.chipId, hframe.fld hrole, hframe.fld hreach]

theorem State.helloed_out (hp : p < 16) (lanes m : Nat) : (s.helloed p lanes m).out =
    if (s.port p).helloSent then s.out else .frame p (control 0x15 (s.helloBody p (s.trainLanes p lanes))) :: s.out := by
  rw [State.helloed, lanesAdapted_out, sendHello_out, State.port_of_fab (congrArg Dev.fab (s.neighbourSeen_dev m)), State.neighbourSeen_helloBody hp,
    State.neighbourSeen, putFld_out]

theorem State.helloed_neighbour (hp : p < 16) (lanes m : Nat) : (s.helloed p lanes m).reg (rIbnPNeigh p) = (s.neighbourSeen p m).reg (rIbnPNeigh p) := by
  rw [State.helloed, ((lanesAdapted_local hp _).frame _).2.2 _ (by simp [calRecords, rIbnPNeigh]; omega), (sendHello_frame _ _ _).2.2 _ rfl]

theorem State.neighbourSeen_fields (m : Nat) : (s.neighbourSeen p m).fld (rIbnPNeigh p) 0 12 = bodyGet m 1 2 % 4096 ∧
    (s.neighbourSeen p m).fld (rIbnPNeigh p) 12 4 = bodyGet m 3 1 % 16 := by
  have h (a k : Nat) (hk : a + k ≤ 16) := State.fld_within_putFld (s := s) (off := rIbnPNeigh p) (lo := 0) (bodyGet m 1 2 % 4096 + bodyGet m 3 1 % 16 * 4096) a k (by decide) hk
  have h0 := h 0 12 (by decide)
  have h12 := h 12 4 (by decide)
  rw [Nat.zero_add] at h12
  rw [State.neighbourSeen]
  refine ⟨h0.trans ?_, h12.trans ?_⟩
  · rw [bitsOf, Nat.shiftRight_zero]
    omega
  · rw [bitsOf, Nat.shiftRight_eq_div_pow]
    omega

/-- The port is UP on its active lanes. -/
def State.portRaised (s : State) (p active : Nat) : State :=
  (onFab fun f => { f with firstUp := f.firstUp <|> some s.now }).run
    ((onPort p fun k => { k with txSeq := 0, rxSeq := 0, replay := [], credits := [8, 8, 8, 8] }).run ((setPort p 2 0 active).run s))

theorem portUp_run (p active : Nat) (s : State) : (portUp p active).run s = (Eff.andThen selfAdmit (pumpPort p)).run (s.portRaised p active) := by
  rw [portUp, Eff.run_read, Eff.run_all_cons, Eff.run_all_cons, Eff.run_all_cons, Eff.run_all_cons, Eff.run_all_cons, Eff.run_all_done, Eff.run_andThen]
  rfl

theorem State.portRaised_frame (active : Nat) : Frame (fun o => o == rIbnPState p) s (s.portRaised p active) :=
  ((setPort_frame (by simp) _ _ _ s).trans (onPort_frame _ p _ _)).trans (onFab_frame _ _ _)

theorem State.portRaised_state {active : Nat} (h : active < 16) : (s.portRaised p active).pState p = 2 ∧ (s.portRaised p active).pActive p = active := by
  rw [State.portRaised, onFab_state, onPort_state, setPort_state (by decide), onFab_active, onPort_active, setPort_active h]
  exact ⟨rfl, rfl⟩

theorem State.portRaised_port (active : Nat) : ((s.portRaised p active).port p).txSeq = 0 ∧ ((s.portRaised p active).port p).rxSeq = 0 ∧
    ((s.portRaised p active).port p).credits = [8, 8, 8, 8] := by
  rw [State.portRaised, onFab_port]
  dsimp only
  rw [← State.port, onPort_port]
  exact ⟨rfl, rfl, rfl⟩

theorem State.portRaised_out (active : Nat) : (s.portRaised p active).out = s.out := by
  rw [State.portRaised, onFab_out, onPort_out, setPort_out]

theorem State.trainLanes_and_lt (lanes x : Nat) : s.trainLanes p lanes &&& x < 16 := by
  have h1 : s.trainLanes p lanes &&& x ≤ s.trainLanes p lanes := Nat.and_le_left
  have h2 : s.trainLanes p lanes ≤ lanes % 16 := Nat.and_le_left
  omega

theorem effHello_up {lanes m : Nat} {frame : List Byte} (h : FrameArrives s p 0x15 frame m) (hst : s.pState p = 1) (ht : s.now ≤ (s.port p).since + 2 ^ 24)
    (hreach : bodyGet m 5 4 = s.fld rIbnReach 0 32) (hchip : bodyGet m 1 2 = s.fld (rIbnPNeigh p) 16 12) (hport : bodyGet m 3 1 = s.fld (rIbnPNeigh p) 28 4)
    (hw : s.trainLanes p lanes &&& bodyGet m 4 1 ≠ 0) :
    (effHello p lanes frame).run s = (portUp p (s.trainLanes p lanes &&& bodyGet m 4 1)).run (s.helloed p lanes m) := by
  rw [effHello, onFrame_run h, Eff.run_read]
  dsimp only
  rw [Eff.run_andThen, if_neg (by simp [hst]), if_pos ⟨hst, ht⟩, Eff.run_all_cons, Eff.run_all_cons, Eff.run_all_cons, Eff.run_all_done,
    if_neg (by simp [hreach, hchip, hport]), if_neg hw]
  rfl

theorem effHello_wrong {lanes m : Nat} {frame : List Byte} (h : FrameArrives s p 0x15 frame m) (hst : s.pState p = 1) (ht : s.now ≤ (s.port p).since + 2 ^ 24)
    (hwrong : bodyGet m 5 4 ≠ s.fld rIbnReach 0 32 ∨ bodyGet m 1 2 ≠ s.fld (rIbnPNeigh p) 16 12 ∨ bodyGet m 3 1 ≠ s.fld (rIbnPNeigh p) 28 4) :
    (effHello p lanes frame).run s = (portDown p 3).run ((countAt 0x36 p).run (s.helloed p lanes m)) := by
  rw [effHello, onFrame_run h, Eff.run_read]
  dsimp only
  rw [Eff.run_andThen, if_neg (by simp [hst]), if_pos ⟨hst, ht⟩, Eff.run_all_cons, Eff.run_all_cons, Eff.run_all_cons, Eff.run_all_done,
    if_pos (by simpa [or_assoc] using hwrong), Eff.run_andThen]
  rfl

/-- The winding hole knows whether the port has met itself. -/
def State.metItself (s : State) (p : Nat) (met : Bool) : State := (onPort p fun k => { k with windOk := met }).run s

theorem effHello_wind {lanes m : Nat} {frame : List Byte} (h : FrameArrives s p 0x15 frame m) (hst : s.pState p = 4) (hw : (s.port p).wind = 2) :
    (effHello p lanes frame).run s = (Eff.when (bodyGet m 1 2 == s.chipId && bodyGet m 3 1 == p && (s.port p).windSent.isEmpty) (sendTest p)).run
      ((s.neighbourSeen p m).metItself p (bodyGet m 1 2 == s.chipId && bodyGet m 3 1 == p)) := by
  rw [effHello, onFrame_run h, Eff.run_read]
  dsimp only
  rw [Eff.run_andThen, if_pos hst, if_pos hw, Eff.run_andThen]
  rfl
end

theorem helloExchange : Stated.HelloExchange := by
  refine ⟨fun s p lanes m frame h hst ht hreach hchip hport hw => ?_, fun s p lanes m frame h hst ht hwrong hign => ?_, fun s p lanes m frame h hst hw => ?_⟩
  · have hp := h.1
    have hframe := s.helloed_frame hp lanes m
    have hraised := (s.helloed p lanes m).portRaised_frame (p := p) (s.trainLanes p lanes &&& bodyGet m 4 1)
    have hneigh : (rIbnPNeigh p == rIbnPState p) = false := by simp [rIbnPNeigh, rIbnPState]
    obtain ⟨hup, hactive⟩ := (s.helloed p lanes m).portRaised_state (p := p) (s.trainLanes_and_lt (p := p) lanes (bodyGet m 4 1))
    obtain ⟨htx, hrx, hcredits⟩ := (s.helloed p lanes m).portRaised_port (p := p) (s.trainLanes p lanes &&& bodyGet m 4 1)
    obtain ⟨hchipSeen, hportSeen⟩ := s.neighbourSeen_fields (p := p) m
    refine ⟨_, congrArg Host.Outcome.next ((effHello_up h hst ht hreach hchip hport hw).trans (portUp_run _ _ _)), _,
      ⟨hup, hactive, ?_, ?_, ?_, htx, hrx, hcredits, hframe.1.trans hraised.1, hframe.2.1.trans hraised.2.1⟩, rfl⟩
    · rw [hraised.fld hneigh, State.fld, State.helloed_neighbour hp]
      exact hchipSeen
    · rw [hraised.fld hneigh, State.fld, State.helloed_neighbour hp]
      exact hportSeen
    · rw [State.portRaised_out, State.helloed_out hp]
  · have hp := h.1
    have hframe := s.helloed_frame hp lanes m
    have hcount := countAt_frame (src := 0x36) (by decide) (by decide) (by decide) p (s.helloed p lanes m)
    have hdown := ((countAt 0x36 p).run (s.helloed p lanes m)).downed_frame (p := p) 3
    obtain ⟨hst0, hcause, -, -⟩ := ((countAt 0x36 p).run (s.helloed p lanes m)).downed_port (p := p) (cause := 3) (by decide)
    refine ⟨_, congrArg Host.Outcome.next ((effHello_wrong h hst ht hwrong).trans (portDown_run _ _ _)), _,
      ⟨hst0, hcause, ?_, (hframe.1.trans hcount.1).trans hdown.1, (hframe.2.1.trans hcount.2.1).trans hdown.2.1⟩, rfl⟩
    rw [hdown.2.2 _ (by simp [rFltEvents, rIbnPState]; omega), countAt_events p (by decide) (by decide) (by decide) (by rw [State.helloed_flt]; exact hign),
      hframe.2.2 _ (by simp [helloRegs, calRecords, rFltEvents, rIbnPNeigh]; omega)]
  · refine ⟨_, congrArg Host.Outcome.next (effHello_wind h hst hw), ?_, ?_⟩
    · have hmet : (((s.neighbourSeen p m).metItself p (bodyGet m 1 2 == s.chipId && bodyGet m 3 1 == p)).port p).windOk = (bodyGet m 1 2 == s.chipId && bodyGet m 3 1 == p) := by
        rw [State.metItself, onPort_port]
      rw [Eff.run_when]
      split
      · exact (sendTest_wind _).2.trans hmet
      · exact hmet
    · exact ((s.neighbourSeen_frame m).trans (onPort_frame _ p _ _)).trans
        ((Eff.Only.frame (Eff.only_when.mpr fun _ => sendTest_local (fun _ => false) p) _).mono (by simp))

/-- Settles O53, by what a training, its timeouts and a HELLO run before the statement's tails. -/
theorem portTrainingAndHello : Obligations.PortTrainingAndHello := ⟨portTraining, helloExchange⟩

end Sys2Proof.Machine
end
section
/-! # Link retry, width changes, codewords and retraining (O54) -/

namespace Sys2Proof.Machine
open Sys2Proof

/-! ### Outputs stay -/

theorem Act.mem_out {o : Output} {s : State} (h : o ∈ s.out) (a : Act) : o ∈ (Act.run s a).out := by
  cases a with
  | emit x => exact List.mem_cons_of_mem _ h
  | _ => exact h

/-- What has gone out stays sent. -/
theorem Eff.mem_out {o : Output} : ∀ (e : Eff) {s : State}, o ∈ s.out → o ∈ (e.run s).out
  | .skip, _, h => h
  | .act a, _, h => Act.mem_out h a
  | .andThen e f, _, h => f.mem_out (e.mem_out h)
  | .read k, s, h => (k s).mem_out h

section
variable {s : State} {p : Nat}

/-! ### Replay (R261 to R263) -/

theorem resendOne_local (p : Nat) (r : Replay) : (resendOne p r).Only (Act.Local fun o => o == rIbnPCnt p 0 || fltBlock o) := by
  have hcount : (countAt 0x31 p).Only (Act.Local fun o => o == rIbnPCnt p 0 || fltBlock o) :=
    (countAt_only p (by decide) (by decide) (by decide)).wider fun o ho => by simp [ho]
  simp [resendOne, sendFrame, emit, onPort, onFab, hcount]

theorem resendLoop_local (p n : Nat) : (resendLoop p n).Only (Act.Local fun o => o == rIbnPCnt p 0 || fltBlock o) := by
  induction n with
  | zero => trivial
  | succ n ih =>
    refine Eff.only_read.mpr fun s => ?_
    split
    · split
      · trivial
      · exact ⟨resendOne_local p _, ih⟩
    · trivial

theorem resendFrom_frame (p i : Nat) (s : State) : Frame (fun o => o == rIbnPCnt p 0 || fltBlock o) s ((resendFrom p i).run s) := by
  rw [resendFrom, Eff.run_andThen]
  exact (onPort_frame _ p _ s).trans ((resendLoop_local p 32).frame _)

theorem resendOne_sends (p : Nat) (r : Replay) (s : State) : .frame p (bargeFrame (r.barge.bytes r.lseq)) ∈ ((resendOne p r).run s).out := by
  rw [resendOne, Eff.run_read, Eff.run_all_cons]
  exact Eff.mem_out _ List.mem_cons_self

/-- The first entry that waits to be sent again goes out, unless its TOWPATH slots would pass the cap. -/
theorem resendLoop_sends {r : Replay} (hr : (s.port p).replay.find? (·.again) = some r)
    (hcap : ¬ (r.barge.cls = 0 ∧ s.towCap p < (s.port p).towSlots + r.barge.slots)) (n : Nat) :
    .frame p (bargeFrame (r.barge.bytes r.lseq)) ∈ ((resendLoop p (n + 1)).run s).out := by
  rw [resendLoop, Eff.run_read, hr]
  dsimp only
  rw [if_neg hcap, Eff.run_andThen]
  exact Eff.mem_out _ (resendOne_sends p r s)

/-- An entry that is to be sent again. -/
def Replay.marked (r : Replay) : Replay := { r with again := true }

theorem find?_marked {rs : List Replay} {i : Nat} {r : Replay} (hr : rs[i]? = some r) (hnone : ∀ x ∈ rs.take i, x.again = false) :
    (rs.take i ++ (rs.drop i).map Replay.marked).find? (·.again) = some r.marked := by
  have htake : (rs.take i).find? (·.again) = none := List.find?_eq_none.mpr fun x hx => by simp [hnone x hx]
  have hdrop : rs.drop i = r :: rs.drop (i + 1) := by
    obtain ⟨hi, hri⟩ := List.getElem?_eq_some_iff.mp hr
    rw [List.drop_eq_getElem_cons hi, hri]
  rw [List.find?_append, htake, Option.none_or, hdrop, List.map_cons, List.find?_cons_of_pos rfl]

theorem resent (s : State) (p i : Nat) : Resent s p i ((resendFrom p i).run s) := by
  refine ⟨rfl, (resendFrom_frame p i s).1, (resendFrom_frame p i s).2.1, fun r hr hnone hcap => ?_⟩
  rw [resendFrom, Eff.run_andThen]
  have hfind := find?_marked hr hnone
  refine resendLoop_sends (p := p) (r := r.marked) ?_ ?_ 31
  · rw [onPort_port]
    exact hfind
  · rw [onPort_port]
    rintro ⟨hcls, hslots⟩
    rcases hcap with hcap | hcap
    · exact hcap hcls
    · exact Nat.not_le.mpr hslots hcap

theorem resendSeq_run {lseq i : Nat} (hi : (s.port p).replay.findIdx? (fun r => r.lseq == lseq) = some i) :
    (resendSeq p lseq).run s = (afterResend p).run ((resendFrom p i).run s) := by
  rw [resendSeq, Eff.run_read, hi, Eff.run_andThen]

theorem effLnak_resends {m i : Nat} {frame : List Byte} (h : FrameArrives s p 0x13 frame m) (hst : s.pState p = 2) (hl : (s.port p).lanes = none)
    (hi : (s.port p).replay.findIdx? (fun r => r.lseq == bodyGet m 1 2 % 4096) = some i) :
    (effLnak p frame).run s = (afterResend p).run ((resendFrom p i).run s) := by
  rw [effLnak, onFrame_run h, Eff.run_read, Eff.run_when, if_pos (by simp [hst, hl]), resendSeq_run hi]

theorem effReplayTimeout_resends {r : Replay} {rs : List Replay} (hr : (s.port p).replay = r :: rs) (hst : s.pState p = 2) (hl : (s.port p).lanes = none)
    (ht : r.tick + 8192 ≤ s.now) : (effReplayTimeout p).run s = (afterResend p).run ((resendFrom p 0).run s) := by
  have hi : (s.port p).replay.findIdx? (fun x => x.lseq == r.lseq) = some 0 := by
    rw [hr, List.findIdx?_cons, if_pos (beq_self_eq_true _)]
  rw [effReplayTimeout, Eff.run_read]
  simp only [hr]
  rw [if_pos ⟨hst, hl, ht⟩, resendSeq_run hi]

/-- The barges up to a position of the replay buffer are freed. -/
def State.lacked (s : State) (p i : Nat) : State := (onPort p fun k => { k with replay := k.replay.drop (i + 1) }).run s

theorem onPort_congr {f g : Port → Port} (h : f (s.port p) = g (s.port p)) : (onPort p f).run s = (onPort p g).run s := by
  have h' : f (mget {} s.dev.fab.ports p) = g (mget {} s.dev.fab.ports p) := h
  simp only [onPort, onFab, onDev_run, Act.run, h']

theorem effLack_frees {m i : Nat} {frame : List Byte} (h : FrameArrives s p 0x12 frame m)
    (hi : (s.port p).replay.findIdx? (fun r => r.lseq == bodyGet m 1 2 % 4096) = some i) : (effLack p frame).run s = (pumpPort p).run (s.lacked p i) := by
  rw [effLack, onFrame_run h, Eff.run_andThen]
  refine congrArg (pumpPort p).run (onPort_congr ?_)
  simp only [hi]

/-- The credits are those that a CREDIT frame tells. -/
def State.credited (s : State) (p m : Nat) : State :=
  (onPort p fun k => { k with credits := (List.range 4).map fun c => min 8 (bodyGet m (1 + c) 1) - k.unacked c }).run s

theorem effCredit_run {m : Nat} {frame : List Byte} (h : FrameArrives s p 0x11 frame m) : (effCredit p frame).run s = (pumpPort p).run (s.credited p m) := by
  rw [effCredit, onFrame_run h, Eff.run_andThen]
  rfl
end

theorem linkRetry : Stated.LinkRetry := by
  refine ⟨fun s p m i frame h hst hl hi => ⟨_, congrArg Host.Outcome.next (effLnak_resends h hst hl hi), _, resent s p i, rfl⟩,
    fun s p r rs hr hst hl ht => ⟨_, congrArg Host.Outcome.next (effReplayTimeout_resends hr hst hl ht), _, resent s p 0, rfl⟩,
    fun s p m i frame h hi => ⟨_, congrArg Host.Outcome.next (effLack_frees h hi), s.lacked p i, ⟨?_, onPort_frame _ p _ s, rfl⟩, rfl⟩,
    fun s p m frame h => ⟨_, congrArg Host.Outcome.next (effCredit_run h), s.credited p m, ⟨?_, onPort_frame _ p _ s, rfl⟩, rfl⟩⟩
  · rw [State.lacked, onPort_port]
  · rw [State.credited, onPort_port]

/-! ### Codewords (R240) -/

theorem length_toSymbols : ∀ (n : Nat) (bs : List Bool), (toSymbols n bs).length = n
  | 0, _ => rfl
  | n + 1, bs => congrArg (· + 1) (length_toSymbols n (bs.drop 10))

theorem length_rsFeed (gen rem : List Nat) (m : Nat) : (rsFeed gen rem m).length = 30 := by simp [rsFeed]

theorem length_rsFeeds (gen : List Nat) : ∀ (msg rem : List Nat), rem.length = 30 → (msg.foldl (rsFeed gen) rem).length = 30
  | [], _, h => h
  | m :: ms, rem, _ => length_rsFeeds gen ms (rsFeed gen rem m) (length_rsFeed gen rem m)

theorem length_rsEncode (msg : List Nat) : (rsEncode msg).length = msg.length + 30 := by
  rw [rsEncode, List.length_append]
  exact congrArg (msg.length + ·) (length_rsFeeds _ msg _ List.length_replicate)

theorem length_codewordsOf : ∀ (n seq : Nat) (slots : List (Bool × List Byte)), ∀ w ∈ codewordsOf n seq slots, w.length = 544
  | 0, _, _, w, h => absurd h List.not_mem_nil
  | n + 1, seq, slots, w, h => by
    rcases List.mem_cons.mp h with rfl | h
    · rw [length_rsEncode, cwMessage, length_toSymbols]
    · exact length_codewordsOf n (seq + 1) (slots.drop 40) w h

section
variable {s : State} {p : Nat}

theorem effCodewordUncorrectable_bad {word : List Nat} (hp : p < 16) (h0 : s.pState p ≠ 0) (h5 : s.pState p ≠ 5) (hw : rsDecode word = none) (hit : Bool) :
    (effCodewordUncorrectable p word hit).run s = (Eff.when (hit && s.pState p == 2) (sendControl p 0x13 (s.port p).rxSeq)).run
      ((countAt 0x30 p).run ((bumpReg (rIbnPCnt p 3) 64 1).run s)) := by
  rw [effCodewordUncorrectable, Eff.run_read, if_neg (by simp [hp, h0, h5, hw]), Eff.run_all_cons, Eff.run_all_cons, Eff.run_all_cons, Eff.run_all_done]

/-! ### Width changes (R248) -/

/-- The mask that a LANES frame leaves: the lanes that both ends have, the retired ones left out. -/
def State.lanesHeard (s : State) (p m : Nat) : Nat :=
  bodyGet m 1 1 &&& (match (s.port p).lanes with | some (a, _) => a | none => 15) &&& (15 - s.pRetired p)

theorem effLanes_run {m : Nat} {frame : List Byte} (h : FrameArrives s p 0x18 frame m) (hst : s.pState p = 2) :
    (effLanes p frame).run s = (onPort p fun k => { k with lanes := some (s.lanesHeard p m, bodyGet m 2 1 % 16) }).run s := by
  rw [effLanes, onFrame_run h, Eff.run_read, Eff.run_when, if_pos (by simp [hst])]
  rfl

/-- The port goes on, on the lanes of a mask. -/
def State.laneSwitched (s : State) (p mask : Nat) : State := (setPort p 2 0 mask).run ((onPort p fun k => { k with lanes := none }).run s)

theorem effLaneSwitch_run {mask cw : Nat} (hl : (s.port p).lanes = some (mask, cw)) (hst : s.pState p = 2) (h0 : mask ≠ 0) :
    (effLaneSwitch p).run s = (Eff.all [resendFrom p 0, afterResend p, processLanes]).run (s.laneSwitched p mask) := by
  rw [effLaneSwitch, Eff.run_read, hl]
  dsimp only
  rw [if_pos hst, Eff.run_andThen, if_neg h0, Eff.run_all_cons]
  rfl

/-! ### The end of a retrain (R264, R294) -/

theorem effRetrainDone_up {lanes : Nat} (hp : p < 16) (hst : s.pState p = 3) (ht : s.now ≤ (s.port p).since + 2 ^ 18) (hm : (lanes % 16) &&& (15 - s.pRetired p) ≠ 0) :
    (effRetrainDone p lanes).run s = (Eff.all [resendFrom p 0, pumpPort p, processLanes]).run
      ((setPort p 2 0 ((lanes % 16) &&& (15 - s.pRetired p))).run ((lanesAdapted p ((lanes % 16) &&& (15 - s.pRetired p))).run s)) := by
  have hgo : ¬ (16 ≤ p ∨ (s.pState p != 3) = true ∨ (s.port p).since + 2 ^ 18 < s.now) := by
    rw [hst]
    rintro (h | h | h)
    · exact absurd hp (Nat.not_lt.mpr h)
    · exact absurd h (by decide)
    · exact absurd ht (Nat.not_le.mpr h)
  rw [effRetrainDone, Eff.run_read]
  dsimp only
  rw [if_neg hgo, if_neg hm, Eff.run_all_cons (lanesAdapted _ _), Eff.run_all_cons (setPort _ _ _ _)]

/-- The port is retired, and its record is asked for. -/
def State.portRetired (s : State) (p cause : Nat) : State :=
  (journalUnits 4 cause p 0xFF 0 0).run ((onPort p fun k => { k with retired := true }).run ((setPort p 5 cause 0).run s))

theorem retirePort_run (p cause : Nat) (s : State) : (retirePort p cause).run s = (closePort p).run (s.portRetired p cause) := by
  rw [retirePort, Eff.run_all_cons, Eff.run_all_cons, Eff.run_all_cons, Eff.run_all_cons, Eff.run_all_done]
  rfl

theorem journalAll_port (rs : List JReq) (s : State) (q : Nat) : ((journalAll rs).run s).port q = s.port q := rfl

theorem onPort_now (p : Nat) (g : Port → Port) (s : State) : ((onPort p g).run s).now = s.now := rfl

theorem setPort_now (st cause active : Nat) (s : State) : ((setPort p st cause active).run s).now = s.now := by
  rw [setPort_run, putFld_run, Act.setReg_now, putFld_run, Act.setReg_now, putFld_run, Act.setReg_now, putFld_run, Act.setReg_now]

theorem onPort_jrn (p : Nat) (g : Port → Port) (s : State) : ((onPort p g).run s).dev.jrn = s.dev.jrn := rfl

theorem State.portRetired_frame (cause : Nat) : Frame (fun o => o == rIbnPState p) s (s.portRetired p cause) :=
  ((setPort_frame (by simp) _ _ _ s).trans (onPort_frame _ p _ _)).trans ((journalUnits_only _ _ _ _ _ _ _ _).frame _)

theorem State.portRetired_port {cause : Nat} (h : cause < 256) : (s.portRetired p cause).pState p = 5 ∧ (s.portRetired p cause).pCause p = cause ∧
    ((s.portRetired p cause).port p).retired = true := by
  have hjournal (u : State) := (journalUnits_only (fun _ => false) 4 cause p 0xFF 0 0 .none).frame u
  have hport : (s.portRetired p cause).port p = ((onPort p fun k => { k with retired := true }).run ((setPort p 5 cause 0).run s)).port p := by
    rw [State.portRetired, journalUnits_run, journalAll_port]
  refine ⟨?_, ?_, ?_⟩
  · rw [State.portRetired, State.pState, (hjournal _).fld rfl, ← State.pState, onPort_state, setPort_state (by decide)]
  · rw [State.portRetired, State.pCause, (hjournal _).fld rfl, ← State.pCause, onPort_cause, setPort_cause h]
  · rw [hport, onPort_port]

theorem State.unitsRecord_of_frame {t : State} {r : Nat → Bool} (h : Frame r s t) (hr : r rTbsRtc = false) (hn : t.now = s.now) (kind cause a b c d : Nat) :
    t.unitsRecord kind cause a b c d = s.unitsRecord kind cause a b c d := by
  rw [State.unitsRecord, State.rtc, h.2.2 _ hr, hn, State.unitsRecord, State.rtc]

theorem State.portRetired_jrn (cause : Nat) : (s.portRetired p cause).dev.jrn = s.dev.jrn ++ [s.unitsRecord 4 cause p 0xFF 0 0] := by
  have hrecord : ((onPort p fun k => { k with retired := true }).run ((setPort p 5 cause 0).run s)).unitsRecord 4 cause p 0xFF 0 0 = s.unitsRecord 4 cause p 0xFF 0 0 := by
    refine State.unitsRecord_of_frame ((setPort_frame (r := fun o => o == rIbnPState p) (by simp) _ _ _ s).trans (onPort_frame _ p _ _)) ?_ ?_ 4 cause p 0xFF 0 0
    · simp only [rTbsRtc, rIbnPState, beq_eq_false_iff_ne]
      omega
    · rw [onPort_now, setPort_now]
  have hjrn : ((onPort p fun k => { k with retired := true }).run ((setPort p 5 cause 0).run s)).dev.jrn = s.dev.jrn := by
    rw [onPort_jrn, setPort_dev]
  rw [State.portRetired, journalUnits_run, journalAll_jrn, hrecord, hjrn]
end

theorem widthAndRetrain : Stated.WidthAndRetrain := by
  refine ⟨fun s p m frame h hst => ?_, fun s p mask cw hp hl hst h0 hm => ?_, fun frames w hw => length_codewordsOf _ _ _ w hw, fun s p w word hit hw => ?_,
    fun s p word hit hp h0 h5 hign hw => ?_, fun s p lanes hp hst ht hm => ?_, fun s p hp hst ht => ?_⟩
  · refine ⟨_, congrArg Host.Outcome.next (effLanes_run h hst), ?_, onPort_frame _ p _ s, rfl⟩
    rw [onPort_port]
    rfl
  · refine ⟨_, congrArg Host.Outcome.next (effLaneSwitch_run hl hst h0), s.laneSwitched p mask, ⟨?_, ?_, ?_, ?_⟩, rfl⟩
    · rw [State.laneSwitched, setPort_state (by decide)]
    · rw [State.laneSwitched, setPort_active hm]
    · rw [State.laneSwitched, setPort_port, onPort_port]
    · exact (onPort_frame _ p _ s).trans (setPort_frame (by simp) _ _ _ _)
  · refine ⟨s, congrArg Host.Outcome.next ?_, rfl⟩
    rw [effCodewordUncorrectable, Eff.run_read, if_pos (by simp [hw]), Eff.run_skip]
  · have hcount := countAt_frame (src := 0x30) (by decide) (by decide) (by decide) p ((bumpReg (rIbnPCnt p 3) 64 1).run s)
    have hbump : Frame (fun o => o == rIbnPCnt p 3) s ((bumpReg (rIbnPCnt p 3) 64 1).run s) := setReg_frame _ (by simp)
    have hlast := (Eff.Only.frame (e := Eff.when (hit && s.pState p == 2) (sendControl p 0x13 (s.port p).rxSeq)) (r := fun _ => false)
      (Eff.only_when.mpr fun _ => by simp [sendControl, sendFrame, emit])) ((countAt 0x30 p).run ((bumpReg (rIbnPCnt p 3) 64 1).run s))
    refine ⟨_, congrArg Host.Outcome.next (effCodewordUncorrectable_bad hp h0 h5 hw hit), ?_, ?_, fun hhit hst => ?_,
      (hbump.1.trans hcount.1).trans hlast.1, (hbump.2.1.trans hcount.2.1).trans hlast.2.1⟩
    · rw [hlast.2.2 _ rfl, hcount.2.2 _ (by simp [fltBlock, rIbnPCnt]; omega), bumpReg_run, State.reg_setReg]
    · rw [hlast.2.2 _ rfl, countAt_events p (by decide) (by decide) (by decide) (by rw [bumpReg_run, Act.setReg_dev]; exact hign), hbump.2.2 _ (by simp [rIbnPCnt, rFltEvents]; omega)]
    · rw [hhit, hst, Eff.run_when, if_pos (by decide), sendControl_out]
      rfl
  · have hm16 : (lanes % 16) &&& (15 - s.pRetired p) < 16 := by
      have : (lanes % 16) &&& (15 - s.pRetired p) ≤ lanes % 16 := Nat.and_le_left
      omega
    have hadapt := (lanesAdapted_local hp ((lanes % 16) &&& (15 - s.pRetired p))).frame s
    have hset := setPort_frame (p := p) (r := fun o => o == rIbnPState p) (by simp) 2 0 ((lanes % 16) &&& (15 - s.pRetired p))
      ((lanesAdapted p ((lanes % 16) &&& (15 - s.pRetired p))).run s)
    exact ⟨_, congrArg Host.Outcome.next (effRetrainDone_up hp hst ht hm), _, ⟨setPort_state (by decide) _ _ _, setPort_active hm16 _ _ _, hadapt.1.trans hset.1,
      hadapt.2.1.trans hset.2.1⟩, rfl⟩
  · obtain ⟨h5, hcause, hret⟩ := s.portRetired_port (p := p) (cause := 6) (by decide)
    refine ⟨_, congrArg Host.Outcome.next ((onlyIf_run ?_ _).trans (retirePort_run p 6 s)), s.portRetired p 6, ⟨h5, hcause, hret, s.portRetired_jrn 6, s.portRetired_frame 6⟩, rfl⟩
    rw [decide_eq_true hp, hst, decide_eq_true ht]
    rfl

/-- Settles O54, by what each frame, timeout or word runs before the statement's tails. -/
theorem linkRetryAndWidth : Obligations.LinkRetryAndWidth := ⟨linkRetry, widthAndRetrain⟩

end Sys2Proof.Machine
end
section
/-! # Provisioning, the training timeout and the flash commands (O26) -/

namespace Sys2Proof.Machine
open Sys2Proof

section
variable {s : State} {rd v : Nat} {l : Loc}

theorem onImg_frame (r : Nat → Bool) (g : Img → Img) (s : State) : Frame r s ((onImg g).run s) := Frame.of_dev _ r s

theorem onImg_img (g : Img → Img) (s : State) : ((onImg g).run s).dev.img = g s.dev.img := rfl

theorem onImg_out (g : Img → Img) (s : State) : ((onImg g).run s).out = s.out := rfl

theorem onFlash_frame (r : Nat → Bool) (g : Flash → Flash) (s : State) : Frame r s ((onFlash g).run s) := Frame.of_dev _ r s

theorem onFlash_flash (g : Flash → Flash) (s : State) : ((onFlash g).run s).dev.flash = g s.dev.flash := rfl

theorem onFlash_out (g : Flash → Flash) (s : State) : ((onFlash g).run s).out = s.out := rfl

theorem putReg_frame {r : Nat → Bool} {off : Nat} (h : r off = true) (v : Nat) (s : State) : Frame r s ((putReg off v).run s) := setReg_frame _ h

theorem putReg_out (off v : Nat) (s : State) : ((putReg off v).run s).out = s.out := by rw [putReg_run, Act.setReg_out]

theorem putReg_dev (off v : Nat) (s : State) : ((putReg off v).run s).dev = s.dev := by rw [putReg_run, Act.setReg_dev]

theorem putReg_reg (off v : Nat) (s : State) : ((putReg off v).run s).reg off = w64 v := by rw [putReg_run, State.reg_setReg]

theorem State.written_flash (s : State) (rd : Nat) (l : Loc) : (s.written rd l).dev.flash = s.dev.flash :=
  State.written_keeps (p := Dev.flash) (fun _ _ => rfl) s rd l

theorem State.written_phase (s : State) (rd : Nat) (l : Loc) : (s.written rd l).phase = s.phase := s.written_fld rd l _ _ _

/-! ### IMG_PROVISION (R549, R550) -/

theorem State.written_imagePub (s : State) (rd : Nat) (l : Loc) : (s.written rd l).imagePub = s.imagePub := by
  simp only [State.imagePub, State.sections, State.written_fld, State.written_flash]

theorem exec_own (hw : Writes s rd rImgProvision l) (h0 : bitOf v 0 = true) (hk : v / 65536 = 0x0A7E) (hp : s.phase = 6) (hu : s.bit rImgStatus 6 = true) :
    exec (.own rd v) s = .next ((putReg rImgProvResult 1).run ((onImg fun g => { g with owner := sha256 s.imagePub }).run (s.written rd l))) := by
  have hprov : (effProvision v).run (s.written rd l) =
      (putReg rImgProvResult 1).run ((onImg fun g => { g with owner := sha256 s.imagePub }).run (s.written rd l)) := by
    rw [effProvision, Eff.run_read]
    dsimp only
    rw [if_pos h0, if_pos (by rw [State.written_phase, State.written_bit, hk, hp, hu]; rfl), Eff.run_andThen, State.written_imagePub]
  have hrun : (Eff.when (bitOf v 0) (writeReg rd rImgProvision (effProvision v))).run s = (effProvision v).run (s.written rd l) := by
    rw [Eff.run_when, if_pos h0, writeReg_run hw]
  exact congrArg Host.Outcome.next (hrun.trans hprov)

theorem exec_svnCommit (hw : Writes s rd rImgProvision l) (h0 : bitOf v 0 = false) (h1 : bitOf v 1 = true) (hk : v / 65536 = 0x0A7E) (hp : s.phase = 6)
    (hu : s.bit rImgStatus 6 = false) (hlt : s.dev.img.svnMin < s.fld rImgSvn 0 7) : exec (.svnCommit rd v) s =
      .next ((putReg rImgProvResult 1).run ((putFld rImgSvn 8 7 (s.fld rImgSvn 0 7)).run ((onImg fun g => { g with svnMin := s.fld rImgSvn 0 7 }).run (s.written rd l)))) := by
  have hprov : (effProvision v).run (s.written rd l) =
      (putReg rImgProvResult 1).run ((putFld rImgSvn 8 7 (s.fld rImgSvn 0 7)).run ((onImg fun g => { g with svnMin := s.fld rImgSvn 0 7 }).run (s.written rd l))) := by
    rw [effProvision, Eff.run_read]
    dsimp only
    rw [if_neg (by simp [h0]), if_pos h1, if_pos (by rw [State.written_phase, State.written_bit, hk, hp, hu]; rfl), State.written_fld, State.img_written, if_pos hlt,
      Eff.run_all_cons, Eff.run_all_cons, Eff.run_all_cons, Eff.run_all_done]
  have hrun : (Eff.when (bitOf v 1 && !bitOf v 0) (writeReg rd rImgProvision (effProvision v))).run s = (effProvision v).run (s.written rd l) := by
    rw [Eff.run_when, h0, h1, if_pos (by decide), writeReg_run hw]
  exact congrArg Host.Outcome.next (hrun.trans hprov)

/-! ### HBM training in time (R555) -/

theorem effHbmTrainTimeout_late {chan : Nat} (hp : s.phase = 5) (ht : s.dev.img.trained = false) (hn : s.dev.img.applyTick + 2 ^ 26 ≤ s.now) :
    (effHbmTrainTimeout chan).run s = (enterHalted 5).run ((countAt 0x14 chan).run s) := by
  rw [effHbmTrainTimeout, Eff.run_read, if_neg, Eff.run_andThen]
  rw [State.training, hp, ht, decide_eq_false (Nat.not_lt.mpr hn)]
  decide

/-! ### The flash commands (R562) -/

theorem State.written_flashOk (s : State) (rd : Nat) (l : Loc) (a : Nat) : (s.written rd l).flashOk a = s.flashOk a := by
  simp only [State.flashOk, State.written_flash]

theorem State.written_flashBuf (s : State) (rd : Nat) (l : Loc) : (s.written rd l).flashBuf = s.flashBuf := by
  simp only [State.flashBuf, State.written_reg]

/-- What a command that is taken runs. -/
theorem effFlashCmd_taken (hk : v / 65536 = 0xF1A5) (hv : v % 4 ≠ 0) (hb : s.fld rImgFlashStatus 0 2 ≠ 1) (hok : s.flashOk (s.reg rImgFlashAddr).toNat = true) :
    (v % 4 = 1 → (effFlashCmd v).run s = (issueOp (.erase (s.reg rImgFlashAddr).toNat) []).run ((putReg rImgFlashStatus 1).run s)) ∧
    (v % 4 = 2 → ∃ rest : List FlashOp, rest.length = 15 ∧
      (effFlashCmd v).run s = (issueOp (.program (s.reg rImgFlashAddr).toNat (s.flashBuf.take 256)) rest).run ((putReg rImgFlashStatus 1).run s)) ∧
    (v % 4 = 3 → (effFlashCmd v).run s =
      (putReg rImgFlashStatus 2).run ((putWords (rImgFlashBuf 0) 1024 (s.dev.flash.read (s.reg rImgFlashAddr).toNat 4096)).run s)) := by
  have hgo : ¬ (v / 65536 != 0xF1A5 || decide (v % 4 = 0) || decide (s.fld rImgFlashStatus 0 2 = 1)) = true := by simp [hk, hv, hb]
  rw [effFlashCmd, Eff.run_read]
  dsimp only
  rw [if_neg hgo, hok, if_neg (by decide)]
  refine ⟨fun h => ?_, fun h => ⟨(List.range 15).map fun i => .program ((s.reg rImgFlashAddr).toNat + 256 * (i + 1)) ((s.flashBuf.drop (256 * (i + 1))).take 256), ?_, ?_⟩,
    fun h => ?_⟩
  · simp only [h]
    rw [Eff.run_andThen]
  · rw [List.length_map, List.length_range]
  · simp only [h, Nat.mul_zero, Nat.add_zero, List.drop_zero]
    rw [Eff.run_andThen]
  · simp only [h]
    rw [Eff.run_andThen]

theorem issueOp_frame (r : Nat → Bool) (o : FlashOp) (rest : List FlashOp) (s : State) : Frame r s ((issueOp o rest).run s) :=
  Frame.of_dev _ r s

theorem issueOp_flash (o : FlashOp) (rest : List FlashOp) (s : State) : ((issueOp o rest).run s).dev.flash = { s.dev.flash with op := some (o, s.now), todo := rest } := rfl

theorem issueOp_reg (o : FlashOp) (rest : List FlashOp) (s : State) : ((issueOp o rest).run s).reg = s.reg := rfl

theorem issueOp_out (o : FlashOp) (rest : List FlashOp) (s : State) : ((issueOp o rest).run s).out = s.out := rfl

/-- A command that is issued: BUSY, with its first operation outstanding. -/
theorem issued (o : FlashOp) (rest : List FlashOp) (s : State) :
    ((issueOp o rest).run ((putReg rImgFlashStatus 1).run s)).reg rImgFlashStatus = 1#64 ∧
    ((issueOp o rest).run ((putReg rImgFlashStatus 1).run s)).dev.flash.op = some (o, s.now) ∧
    ((issueOp o rest).run ((putReg rImgFlashStatus 1).run s)).dev.flash.todo = rest ∧
    Frame (fun o => o == rImgFlashStatus) s ((issueOp o rest).run ((putReg rImgFlashStatus 1).run s)) ∧
    ((issueOp o rest).run ((putReg rImgFlashStatus 1).run s)).out = s.out := by
  refine ⟨?_, ?_, ?_, (putReg_frame (by simp) _ s).trans (issueOp_frame _ _ _ _), ?_⟩
  · rw [issueOp_reg, putReg_reg]
    rfl
  · rw [issueOp_flash, putReg_run, Act.setReg_now]
  · rw [issueOp_flash]
  · rw [issueOp_out, putReg_out]

theorem putWords_local {r : Nat → Bool} {off n : Nat} (h : ∀ i, i < n → r (off + 4 * i) = true) (bs : List Byte) : (putWords off n bs).Only (Act.Local r) := by
  refine Eff.only_each.mpr fun i hi => ?_
  simpa using h i (List.mem_range.mp hi)

theorem putWords_silent (off n : Nat) (bs : List Byte) : (putWords off n bs).Only Act.Silent := by simp [putWords]

theorem putWords_keeps {α : Type} (p : Dev → α) (off n : Nat) (bs : List Byte) : (putWords off n bs).Only (Act.Keeps p) := by
  simp [putWords]

theorem putWords_frame (off n : Nat) (bs : List Byte) (s : State) : Frame (fun _ => true) s ((putWords off n bs).run s) :=
  (putWords_local (fun _ _ => rfl) bs).frame s

theorem putWords_reg {off n i : Nat} (hi : i < n) (bs : List Byte) (s : State) : ((putWords off n bs).run s).reg (off + 4 * i) = w64 (getLe bs (4 * i) 4) :=
  putRegs_reg (f := fun i => off + 4 * i) (g := fun i => getLe bs (4 * i) 4) (fun x _ y _ h => by omega) (List.mem_range.mpr hi) s

theorem exec_flashErase (hw : Writes s rd rImgFlashCmd l) (h : v % 4 = 1) : exec (.flashErase rd v) s = .next ((effFlashCmd v).run (s.written rd l)) := by
  have hrun : (Eff.when (v % 4 == 1) (writeReg rd rImgFlashCmd (effFlashCmd v))).run s = (effFlashCmd v).run (s.written rd l) := by
    rw [Eff.run_when, if_pos (by simp [h]), writeReg_run hw]
  exact congrArg Host.Outcome.next hrun

theorem exec_flashProgram (hw : Writes s rd rImgFlashCmd l) (h : v % 4 = 2) : exec (.flashProgram rd v) s = .next ((effFlashCmd v).run (s.written rd l)) := by
  have hrun : (Eff.when (v % 4 == 2) (writeReg rd rImgFlashCmd (effFlashCmd v))).run s = (effFlashCmd v).run (s.written rd l) := by
    rw [Eff.run_when, if_pos (by simp [h]), writeReg_run hw]
  exact congrArg Host.Outcome.next hrun

theorem exec_flashRead (hw : Writes s rd rImgFlashCmd l) (h : v % 4 = 3) : exec (.flashRead rd v) s = .next ((effFlashCmd v).run (s.written rd l)) := by
  have hrun : (Eff.when (v % 4 == 3) (writeReg rd rImgFlashCmd (effFlashCmd v))).run s = (effFlashCmd v).run (s.written rd l) := by
    rw [Eff.run_when, if_pos (by simp [h]), writeReg_run hw]
  exact congrArg Host.Outcome.next hrun

/-! ### The end of an operation (R619, R620) -/

/-- The operation outstanding has taken effect. -/
def State.performed (s : State) (o : FlashOp) : State := (onFlash fun f => { f.perform o with op := none }).run s

theorem issued_next (n : FlashOp) (rest : List FlashOp) (s : State) (o : FlashOp) : ((issueOp n rest).run (s.performed o)).dev.flash.op = some (n, s.now) := by
  have hnow : (s.performed o).now = s.now := by rw [State.performed, onFlash, onDev_run, Act.dev_now]
  rw [issueOp_flash, hnow]

theorem effFlashOperationDone_next {o n : FlashOp} {t0 : Nat} {rest : List FlashOp} (ho : s.dev.flash.op = some (o, t0)) (hf : s.bit rClkStatus 4 = false)
    (ht : s.dev.flash.todo = n :: rest) : effFlashOperationDone.run s = (issueOp n rest).run (s.performed o) := by
  rw [effFlashOperationDone, Eff.run_read]
  simp only [ho, ht]
  rw [hf, if_neg (by decide), Eff.run_andThen, State.performed]

theorem effFlashOperationDone_last {o : FlashOp} {t0 : Nat} (ho : s.dev.flash.op = some (o, t0)) (hf : s.bit rClkStatus 4 = false)
    (ht : s.dev.flash.todo = []) (hd : s.dryDock = true) : effFlashOperationDone.run s = (putFld rImgFlashStatus 0 2 2).run (s.performed o) := by
  rw [effFlashOperationDone, Eff.run_read]
  simp only [ho, ht]
  rw [hf, if_neg (by decide), Eff.run_andThen, hd, if_pos rfl, State.performed]

theorem cutShort_local (r : Nat → Bool) (o : FlashOp) : (cutShort o).Only (Act.Local r) := by cases o <;> simp [cutShort]

theorem cutShort_silent (o : FlashOp) : (cutShort o).Only Act.Silent := by cases o <;> simp [cutShort, onFlash]

/-- A program cut short after its time: the flash has no operation, the error counts, and the command has ended with it. -/
def State.flashFailed (s : State) (o : FlashOp) : State :=
  (putBit rImgFlashStatus 2 true).run ((putFld rImgFlashStatus 0 2 2).run ((bumpFld rBrdSpi 16 16 1).run
    ((onFlash fun f => { f with op := none, todo := [] }).run ((cutShort o).run s))))

theorem effFlashTimeout_late {a t0 : Nat} {bs : List Byte} (ho : s.dev.flash.op = some (.program a bs, t0)) (ht : t0 + 2 ^ 22 ≤ s.now) (hd : s.dryDock = true)
    (hf : s.bit rClkStatus 4 = false) : effFlashTimeout.run s = s.flashFailed (.program a bs) := by
  rw [effFlashTimeout, Eff.run_read]
  simp only [ho]
  rw [hf, decide_eq_false (Nat.not_lt.mpr ht), if_neg (by decide), Eff.run_all_cons, Eff.run_all_cons, Eff.run_all_cons, Eff.run_all_cons, Eff.run_all_done, hd, if_pos rfl,
    Eff.run_andThen, State.flashFailed]

theorem State.flashFailed_frame (o : FlashOp) : Frame (fun o => o == rBrdSpi || o == rImgFlashStatus) s (s.flashFailed o) :=
  (((((cutShort_local _ o).frame s).trans (onFlash_frame _ _ _)).trans (bumpFld_frame (by simp) ..)).trans (putFld_frame (by simp) _ _ _)).trans (putBit_frame (by simp) _ _)

theorem State.flashFailed_flash (o : FlashOp) : (s.flashFailed o).dev.flash.op = none ∧ (s.flashFailed o).dev.flash.todo = [] := by
  rw [State.flashFailed, putBit_dev, putFld_dev, bumpFld_dev, onFlash_flash]
  exact ⟨rfl, rfl⟩

theorem State.flashFailed_count (o : FlashOp) : (s.flashFailed o).fld rBrdSpi 16 16 = satAdd 16 (s.fld rBrdSpi 16 16) 1 := by
  rw [State.flashFailed, putBit_run, State.fld_setReg_other (by decide), putFld_run, State.fld_setReg_other (by decide), State.fld_bumpFld _ (by decide),
    (onFlash_frame (fun _ => false) _ _).fld rfl, ((cutShort_local (fun _ => false) o).frame s).fld rfl]

theorem State.flashFailed_status (o : FlashOp) : (s.flashFailed o).bit rImgFlashStatus 2 = true ∧ (s.flashFailed o).fld rImgFlashStatus 0 2 = 2 := by
  rw [State.flashFailed]
  refine ⟨State.bit_putBit _ (by decide), ?_⟩
  rw [State.fld_putBit_apart _ (by decide) (by decide), State.fld_putFld_lt (by decide) (by decide)]

theorem State.flashFailed_out (o : FlashOp) : (s.flashFailed o).out = s.out := by
  rw [State.flashFailed, putBit_out, putFld_out, bumpFld_out, onFlash_out, (cutShort_silent o).out]
/-- The flash commands that are taken in dry-dock. -/
theorem flashCommands (hw : Writes s rd rImgFlashCmd l) (hk : v / 65536 = 0xF1A5) (hb : s.fld rImgFlashStatus 0 2 ≠ 1)
    (hok : s.flashOk (s.reg rImgFlashAddr).toNat = true) :
    (v % 4 = 1 → Completes (.flashErase rd v) s fun t => t.reg rImgFlashStatus = 1#64 ∧ t.dev.flash.op = some (.erase (s.reg rImgFlashAddr).toNat, s.now) ∧
      t.dev.flash.todo = [] ∧ Frame (fun o => o == rImgFlashStatus) s t ∧ t.out = s.out) ∧
    (v % 4 = 2 → Completes (.flashProgram rd v) s fun t => t.reg rImgFlashStatus = 1#64 ∧ t.dev.flash.todo.length = 15 ∧
      t.dev.flash.op = some (.program (s.reg rImgFlashAddr).toNat (s.flashBuf.take 256), s.now) ∧ Frame (fun o => o == rImgFlashStatus) s t ∧ t.out = s.out) ∧
    (v % 4 = 3 → Completes (.flashRead rd v) s fun t => t.reg rImgFlashStatus = 2#64 ∧
      (∀ i, i < 1024 → t.reg (rImgFlashBuf i) = w64 (getLe (s.dev.flash.read (s.reg rImgFlashAddr).toNat 4096) (4 * i) 4)) ∧ SameHbm s t ∧ SameGates s t ∧
      t.out = s.out) := by
  have hb' : (s.written rd l).fld rImgFlashStatus 0 2 ≠ 1 := by rwa [State.written_fld]
  have hok' : (s.written rd l).flashOk ((s.written rd l).reg rImgFlashAddr).toNat = true := by rwa [State.written_reg, State.written_flashOk]
  refine ⟨?_, ?_, ?_⟩
  · intro hv
    obtain ⟨hreg, hop, htodo, hframe, hout⟩ := issued (.erase (s.reg rImgFlashAddr).toNat) [] (s.written rd l)
    have hrun := (effFlashCmd_taken hk (by omega) hb' hok').1 hv
    rw [State.written_reg] at hrun
    rw [State.written_now] at hop
    refine ⟨_, (exec_flashErase hw hv).trans (congrArg Host.Outcome.next hrun), hreg, hop, htodo, (s.written_frame rd l _).trans hframe, hout.trans (s.written_out rd l)⟩
  · intro hv
    obtain ⟨rest, hlen, hrun⟩ := (effFlashCmd_taken hk (by omega) hb' hok').2.1 hv
    obtain ⟨hreg, hop, htodo, hframe, hout⟩ := issued (.program (s.reg rImgFlashAddr).toNat (s.flashBuf.take 256)) rest (s.written rd l)
    rw [State.written_reg, State.written_flashBuf] at hrun
    rw [State.written_now] at hop
    exact ⟨_, (exec_flashProgram hw hv).trans (congrArg Host.Outcome.next hrun), hreg, by rw [htodo, hlen], hop, (s.written_frame rd l _).trans hframe,
      hout.trans (s.written_out rd l)⟩
  · intro hv
    have hrun := (effFlashCmd_taken hk (by omega) hb' hok').2.2 hv
    rw [State.written_reg, State.written_flash] at hrun
    have hframe := putWords_frame (rImgFlashBuf 0) 1024 (s.dev.flash.read (s.reg rImgFlashAddr).toNat 4096) (s.written rd l)
    have hstatus := putReg_frame (r := fun o => o == rImgFlashStatus) (off := rImgFlashStatus) (by simp) 2 ((putWords (rImgFlashBuf 0) 1024 (s.dev.flash.read (s.reg rImgFlashAddr).toNat 4096)).run (s.written rd l))
    have hwritten := s.written_frame rd l fun _ => false
    refine ⟨_, (exec_flashRead hw hv).trans (congrArg Host.Outcome.next hrun), ?_, fun i hi => ?_, (hwritten.1.trans hframe.1).trans hstatus.1,
      (hwritten.2.1.trans hframe.2.1).trans hstatus.2.1, ?_⟩
    · rw [putReg_reg]
      rfl
    · rw [putReg_run, State.reg_setReg_other (by simp only [rImgFlashBuf, rImgFlashStatus]; omega)]
      exact putWords_reg hi _ _
    · rw [putReg_out, (putWords_silent _ _ _).out, State.written_out]
end

/-- Settles O26, by what each command and each end of an operation runs. -/
theorem startCommands : Obligations.StartCommands := by
  refine ⟨fun s rd v l hw h0 hk hp hu => ?_, fun s rd v l hw h0 h1 hk hp hu hlt => ?_, fun s chan hc hp ht hn hign => ?_, fun s rd v l hw hk hb hok => flashCommands hw hk hb hok,
    fun s o n t0 rest ho hf ht => ?_, fun s o t0 ho hf ht hd => ?_, fun s a t0 bs ho ht hd hf => ?_⟩
  · refine ⟨_, exec_own hw h0 hk hp hu, ?_, ?_, ((s.written_frame rd l _).trans (onImg_frame _ _ _)).trans (putReg_frame (by simp) _ _), ?_⟩
    · rw [putReg_dev, onImg_img]
    · rw [putReg_reg]
      rfl
    · rw [putReg_out, onImg_out, State.written_out]
  · refine ⟨_, exec_svnCommit hw h0 h1 hk hp hu hlt, ?_, ?_, ?_,
      (((s.written_frame rd l _).trans (onImg_frame _ _ _)).trans (putFld_frame (by simp) _ _ _)).trans (putReg_frame (by simp) _ _), ?_⟩
    · rw [putReg_dev, putFld_dev, onImg_img]
    · rw [putReg_run, State.fld_setReg_other (by decide), State.fld_putFld _ (by decide)]
      exact Nat.mod_eq_of_lt (bitsOf_lt _ 0 7)
    · rw [putReg_reg]
      rfl
    · rw [putReg_out, putFld_out, onImg_out, State.written_out]
  · have hcount := countAt_frame (src := 0x14) (by decide) (by decide) (by decide) chan s
    exact ⟨_, congrArg Host.Outcome.next (effHbmTrainTimeout_late hp ht hn), _,
      ⟨countAt_events chan (by decide) (by decide) (by decide) hign, hcount.1, hcount.2.1⟩, rfl⟩
  · exact ⟨_, congrArg Host.Outcome.next (effFlashOperationDone_next ho hf ht), by rw [issueOp_flash, State.performed, onFlash_flash], issued_next n rest s o,
      by rw [issueOp_flash], (onFlash_frame _ _ s).trans (issueOp_frame _ _ _ _), by rw [issueOp_out, State.performed, onFlash_out]⟩
  · refine ⟨_, congrArg Host.Outcome.next (effFlashOperationDone_last ho hf ht hd), ?_, ?_, ?_, (onFlash_frame _ _ s).trans (putFld_frame (by simp) _ _ _), ?_⟩
    · rw [putFld_dev, State.performed, onFlash_flash]
    · rw [putFld_dev, State.performed, onFlash_flash]
    · rw [State.fld_putFld_lt (by decide) (by decide)]
    · rw [putFld_out, State.performed, onFlash_out]
  · obtain ⟨hop, htodo⟩ := s.flashFailed_flash (.program a bs)
    obtain ⟨hbit, hfld⟩ := s.flashFailed_status (.program a bs)
    exact ⟨_, congrArg Host.Outcome.next (effFlashTimeout_late ho ht hd hf), hop, htodo, s.flashFailed_count _, hbit, hfld, s.flashFailed_frame _, s.flashFailed_out _⟩

end Sys2Proof.Machine
end
section
/-! # Start: fuses, the journal and the choice of a copy (O25) -/

namespace Sys2Proof.Machine
open Sys2Proof

section
variable {s : State}

/-! ### Step 1: the fuses (R534) -/

/-- Every register but IMG_SERIAL. -/
def butSerial (o : Nat) : Bool := o != rImgSerial

theorem butSerial_of_lt {o : Nat} (h : o < rImgSerial) : butSerial o = true := bne_iff_ne.mpr (Nat.ne_of_lt h)

theorem putSFld_local {r : Nat → Bool} {off : Nat} (h : r off = true) (lo w : Nat) (z : Int) : (putSFld off lo w z).Only (Act.Local r) := by
  simpa [putSFld] using h

theorem showT_local {r : Nat → Bool} {k : Nat} (h : r (rCalTs k) = true) (raw : Int) : (showT k raw).Only (Act.Local r) :=
  Eff.only_read.mpr fun _ => putSFld_local h _ _ _

theorem withStandIn_local {r : Nat → Bool} (k : Nat) {e : Int → Eff} (h : ∀ z, (e z).Only (Act.Local r)) : (withStandIn k e).Only (Act.Local r) := by
  simpa [withStandIn] using fun _ _ => h _

theorem withClockT_local {r : Nat → Bool} {e : Int → Eff} (h : ∀ z, (e z).Only (Act.Local r)) : (withClockT e).Only (Act.Local r) := by
  simpa [withClockT, h] using fun _ _ => withStandIn_local 97 h

theorem iroFactory_local {r : Nat → Bool} (h1 : r rClkIro = true) (h2 : r rCalIroFact = true) : iroFactory.Only (Act.Local r) := by
  refine withClockT_local fun z => Eff.only_read.mpr fun s => ?_
  exact ⟨putSFld_local h1 _ _ _, putSFld_local h2 _ _ _⟩

theorem iroSum_local {r : Nat → Bool} (h : r rClkIro = true) (hf : ∀ o, fltBlock o = true → r o = true) : iroSum.Only (Act.Local r) := by
  refine Eff.only_read.mpr fun s => ⟨putSFld_local h _ _ _, Eff.only_when.mpr fun _ => ?_⟩
  exact (countAt_only 0 (by decide) (by decide) (by decide)).wider hf

theorem butSerial_owner (i : Nat) : butSerial (rImgOwner 0 + 4 * i) = true := by
  simp only [butSerial, bne_iff_ne, rImgOwner, rImgSerial]
  omega

theorem butSerial_rCalTs {k : Nat} (hk : k < 98) : butSerial (rCalTs k) = true := butSerial_of_lt (by simp only [rCalTs, rImgSerial]; omega)

theorem butSerial_rCalTile {k : Nat} (hk : k < 96) : butSerial (rCalTile k) = true := butSerial_of_lt (by simp only [rCalTile, rImgSerial]; omega)

theorem butSerial_rPacTile {k : Nat} (hk : k < 96) : butSerial (rPacTile k) = true := butSerial_of_lt (by simp only [rPacTile, rImgSerial]; omega)

theorem butSerial_flt (o : Nat) (h : fltBlock o = true) : butSerial o = true :=
  butSerial_of_lt (Nat.lt_of_lt_of_le (mem_fltBlock.mp h).2 (by decide))

theorem loadFuses_split (s : State) : ∃ rest : Eff, rest.Only (Act.Local butSerial) ∧
    loadFuses.run s = rest.run ((putReg rImgSerial (Config.serial % 2 ^ 64)).run s) := by
  refine ⟨_, ?_, by rw [loadFuses, Eff.run_read, Eff.run_all_cons]⟩
  simp only [Eff.only_all, List.forall_mem_cons, Eff.only_each, Eff.only_read, putReg_only, putFld_only, Act.local_setReg, List.mem_range, Eff.only_andThen]
  exact ⟨putWords_local (fun i _ => butSerial_owner i) _, fun _ => by decide, butSerial_of_lt (by decide), butSerial_of_lt (by decide),
    fun k hk => butSerial_rCalTs hk, fun k hk => ⟨butSerial_rCalTile hk, fun _ => butSerial_rPacTile hk⟩, fun _ => butSerial_of_lt (by decide),
    fun _ => putSFld_local (butSerial_of_lt (by decide)) _ _ _, fun _ h => nomatch h⟩

theorem firstTrim_local (clockRaw : Int) : (firstTrim clockRaw).Only (Act.Local butSerial) := by
  simp only [firstTrim, Eff.only_all, List.forall_mem_cons]
  exact ⟨showT_local (butSerial_rCalTs (by decide)) _, iroFactory_local (butSerial_of_lt (by decide)) (butSerial_of_lt (by decide)),
    iroSum_local (butSerial_of_lt (by decide)) butSerial_flt, fun _ h => nomatch h⟩

/-- The fuses agree: phase 1, the serial number shown. -/
theorem exec_fuseRead (hp : s.dev.board.poreset = false) (h0 : s.phase = 0) (clockRaw : Int) : Completes (.fuseRead true clockRaw) s fun t =>
    t.phase = 1 ∧ t.reg rImgSerial = w64 (Config.serial % 2 ^ 64) ∧ SameHbm s t ∧ SameGates s t := by
  obtain ⟨rest, honly, hload⟩ := loadFuses_split s
  have hrun : (effFuseRead true clockRaw).run s = (putFld rImgStatus 0 4 1).run ((onCal fun c => { c with azRun := ((List.range 98).filter fun k => k != 96).map fun k => (k, s.now) }).run
      ((firstTrim clockRaw).run (rest.run ((putReg rImgSerial (Config.serial % 2 ^ 64)).run s)))) := by
    rw [effFuseRead, Eff.run_read, if_neg (by simp [hp, h0]), if_pos rfl, Eff.run_all_cons, Eff.run_all_cons, Eff.run_all_cons, Eff.run_all_cons, Eff.run_all_done, hload]
  have hserial := putReg_frame (r := fun _ => true) (off := rImgSerial) rfl (Config.serial % 2 ^ 64) s
  have hframe := (((honly.frame ((putReg rImgSerial (Config.serial % 2 ^ 64)).run s)).trans ((firstTrim_local clockRaw).frame _)).trans
    (Frame.of_dev (fun d => { d with cal := { d.cal with azRun := ((List.range 98).filter fun k => k != 96).map fun k => (k, s.now) } }) _ _)).trans
    (putFld_frame (off := rImgStatus) (by decide) 0 4 1)
  refine ⟨_, congrArg Host.Outcome.next hrun, ?_, ?_, hserial.1.trans hframe.1, hserial.2.1.trans hframe.2.1⟩
  · exact State.fld_putFld 1 (by decide)
  · exact (hframe.2.2 rImgSerial (by decide)).trans (putReg_reg _ _ s)

/-! ### Step 3: the journal (R502, R536 to R538) -/

/-- The registers that show what the start has found. -/
def copyRegs (o : Nat) : Bool := o == rImgStatus || o == rImgFailA || o == rImgFailB

theorem putCause_frame (c n : Nat) (s : State) : Frame copyRegs s ((putCause c n).run s) := putFld_frame (off := rImgStatus) rfl _ _ _

theorem putFail_local {r : Nat → Bool} (ha : r rImgFailA = true) (hb : r rImgFailB = true) (c : Nat) (f : Fail) : (putFail c f).Only (Act.Local r) := by
  have hreg : r (if c = 0 then rImgFailA else rImgFailB) = true := by split <;> assumption
  cases f with
  | none => simpa [putFail] using hreg
  | some f => simpa [putFail] using hreg

theorem putFail_keeps {α : Type} (p : Dev → α) (c : Nat) (f : Fail) : (putFail c f).Only (Act.Keeps p) := by
  cases f with
  | none => simp [putFail]
  | some f => simp [putFail]

/-- IMG_FAIL leaves IMG_STATUS. -/
theorem putFail_status (c : Nat) (f : Fail) (s : State) : ((putFail c f).run s).reg rImgStatus = s.reg rImgStatus :=
  ((putFail_local (r := fun o => o == rImgFailA || o == rImgFailB) (by decide) (by decide) c f).frame s).2.2 rImgStatus (by decide)

theorem putCause_apart {c n l k : Nat} (hc : c < 2) (hd : l + k ≤ 8 + 8 * c ∨ 16 + 8 * c ≤ l) (s : State) :
    ((putCause c n).run s).fld rImgStatus l k = s.fld rImgStatus l k :=
  State.fld_putFld_apart n (by omega) (by omega)

/-- A header's cause stands in its copy's field alone, and in IMG_FAIL. -/
theorem headerCause_keeps {c : Nat} (hc : c < 2) (s : State) :
    ((headerCause c).run s).phase = s.phase ∧ Frame copyRegs s ((headerCause c).run s) ∧ ((headerCause c).run s).dev = s.dev := by
  have hcause : ∀ n, ((putCause c n).run s).phase = s.phase ∧ Frame copyRegs s ((putCause c n).run s) ∧ ((putCause c n).run s).dev = s.dev := fun n =>
    ⟨putCause_apart hc (by omega) s, putCause_frame c n s, putFld_dev _ _ _⟩
  rw [headerCause, Eff.run_read]
  dsimp only
  split
  · exact hcause _
  split
  · exact hcause _
  split
  · exact hcause _
  obtain ⟨hphase, hframe, hdev⟩ := hcause 2
  rw [Eff.run_andThen]
  refine ⟨?_, hframe.trans ((putFail_local rfl rfl c none).frame _), ?_⟩
  · rw [State.phase, State.fld, putFail_status]
    exact hphase
  · exact (Eff.Only.devKeeps (p := id) (putFail_keeps id c none) _).trans hdev

theorem enterDryDock_run (cause : Nat) (s : State) : (enterDryDock cause).run s =
    (onDev fun d => { d with pci := { d.pci with vfEnable := false, pending := d.pci.pending.filter fun p => p / 64 == 0 } }).run
      ((onKeep fun k => { k with cleanStop := false, dryReq := false }).run ((putFld rImgStatus 24 8 cause).run ((putFld rImgStatus 0 4 7).run s))) := by
  rw [enterDryDock, Eff.run_all_cons, Eff.run_all_cons, Eff.run_all_cons, Eff.run_all_cons, Eff.run_all_done]

/-- What dry-dock shows in IMG_STATUS. -/
theorem enterDryDock_fld_eq (cause l k : Nat) (s : State) : ((enterDryDock cause).run s).fld rImgStatus l k =
    ((putFld rImgStatus 24 8 cause).run ((putFld rImgStatus 0 4 7).run s)).fld rImgStatus l k := by
  rw [enterDryDock_run]
  exact ((Frame.of_dev _ _ _).trans (Frame.of_dev _ (fun _ => false) _)).fld rfl l k

theorem enterDryDock_phase (cause : Nat) (s : State) : ((enterDryDock cause).run s).phase = 7 := by
  rw [State.phase, enterDryDock_fld_eq, State.fld_putFld_apart _ (by decide) (by decide), State.fld_putFld_lt (by decide) (by decide)]

theorem enterDryDock_cause (cause : Nat) (s : State) : ((enterDryDock cause).run s).fld rImgStatus 24 8 = cause % 256 := by
  rw [enterDryDock_fld_eq]
  exact State.fld_putFld cause (by decide)

theorem enterDryDock_frame (cause : Nat) (s : State) : Frame (fun o => o == rImgStatus) s ((enterDryDock cause).run s) := by
  rw [enterDryDock_run]
  exact (((putFld_frame (by simp) _ _ _).trans (putFld_frame (by simp) _ _ _)).trans (Frame.of_dev _ _ _)).trans (Frame.of_dev _ _ _)

/-- Dry-dock consumes the request for it and changes neither flash nor the image. -/
theorem enterDryDock_dev (cause : Nat) (s : State) : ((enterDryDock cause).run s).dev.keep.dryReq = false ∧
    ((enterDryDock cause).run s).dev.flash = s.dev.flash ∧ ((enterDryDock cause).run s).dev.img = s.dev.img := by
  have hkeeps : (enterDryDock cause).Only (Act.Keeps fun d => (d.flash, d.img)) := by simp [enterDryDock, onKeep]
  have hdev := hkeeps.devKeeps s
  refine ⟨?_, congrArg Prod.fst hdev, congrArg Prod.snd hdev⟩
  rw [enterDryDock_run]
  rfl

theorem enterDryDock_fld {cause l k : Nat} (h : 4 ≤ l) (hd : l + k ≤ 24) (s : State) : ((enterDryDock cause).run s).fld rImgStatus l k = s.fld rImgStatus l k := by
  rw [enterDryDock_fld_eq, State.fld_putFld_apart cause (by decide) (.inl hd), State.fld_putFld_apart 7 (by decide) (.inr h)]

theorem locateEnd_density (f : Flash) : f.locateEnd.density = f.density := by
  unfold Flash.locateEnd
  split <;> rfl

/-- SFDP is shown, with the density, and the end of the journal is found. -/
def readSfdp (p : Sfdp) : Eff := Eff.all [showSfdp p, onFlash fun f => { f with density := p.density }, onFlash Flash.locateEnd]

theorem readSfdp_run (p : Sfdp) (s : State) : (readSfdp p).run s =
    (onFlash Flash.locateEnd).run ((onFlash fun f => { f with density := p.density }).run ((showSfdp p).run s)) := by
  rw [readSfdp, Eff.run_all_cons, Eff.run_all_cons, Eff.run_all_cons, Eff.run_all_done]

theorem readSfdp_flash (p : Sfdp) (s : State) : ((readSfdp p).run s).dev.flash.density = p.density := by
  rw [readSfdp_run, onFlash_flash, locateEnd_density, onFlash_flash]

theorem readSfdp_frame (p : Sfdp) (s : State) : Frame (fun o => o == rBrdSpi) s ((readSfdp p).run s) := by
  rw [readSfdp_run]
  exact ((putFld_frame (by simp) _ _ _).trans (onFlash_frame _ _ _)).trans (onFlash_frame _ _ _)

theorem Sfdp.choice_lt (p : Sfdp) : p.choice.1 < 4 := by
  unfold Sfdp.choice
  split <;> simp

theorem bitsOf_add_mul_four {a b : Nat} (h : a < 4) : bitsOf (a + 4 * b) 0 2 = a := by
  simp only [bitsOf]
  omega

/-- BRD_SPI shows the read that the device has chosen. -/
theorem readSfdp_mode (p : Sfdp) (s : State) : ((readSfdp p).run s).fld rBrdSpi 0 2 = p.choice.1 := by
  have hmode : ∀ b c d : Nat, bitsOf (p.choice.1 + 4 * b + c % 32 * 8 + d % 256 * 256) 0 2 = p.choice.1 := fun b c d => by
    have h := p.choice_lt
    rw [show p.choice.1 + 4 * b + c % 32 * 8 + d % 256 * 256 = p.choice.1 + 4 * (b + c % 32 * 2 + d % 256 * 64) by omega]
    exact bitsOf_add_mul_four h
  rw [readSfdp_run]
  refine (((Frame.of_dev _ (fun _ => false) _).trans (Frame.of_dev _ _ _)).fld rfl 0 2).trans ?_
  exact (State.fld_within_putFld _ 0 2 (by decide) (by decide)).trans (hmode _ _ _)

theorem sfdp_ok {p : Sfdp} (hd : within 0x1000000 0x4000000 p.density = true) (ha : p.density = 0x1000000 ∨ p.choice.2.long.isSome = true ∨ p.entry = true) : p.ok = true := by
  have hmin : p.density = 0x1000000 → p.fourByte = false := fun h => by simp [Sfdp.fourByte, h]
  rw [Sfdp.ok, hd]
  rcases ha with h | h | h
  · simp [hmin h]
  · simp [h]
  · simp [h]

theorem effJournalRead_dry {p : Sfdp} (hp : s.phase = 2) (hf : s.forced = false) (hok : p.ok = true) (hd : s.dev.keep.dryReq = true) :
    (effJournalRead (some p)).run s = (enterDryDock 2).run ((readSfdp p).run s) := by
  rw [effJournalRead, Eff.run_read, if_neg (by simp [hp, hf]), Option.filter_some_pos hok]
  dsimp only
  rw [hd, if_pos rfl, readSfdp_run, Eff.run_all_cons, Eff.run_all_cons, Eff.run_all_cons, Eff.run_all_cons, Eff.run_all_done]

/-- The headers of both copies are read. -/
def readHeaders : Eff := Eff.all [putFld rImgStatus 0 4 3, headerCause 0, headerCause 1]

/-- The headers being read, the plausible copies are to be tried; with none of them the chip goes into dry-dock. -/
def tryCopies : Eff := .read fun t => .andThen (onImg fun g => { g with tries := t.dev.flash.tries }) (Eff.when t.dev.flash.tries.isEmpty (enterDryDock 1))

theorem effJournalRead_copies {p : Sfdp} (hp : s.phase = 2) (hf : s.forced = false) (hok : p.ok = true) (hd : s.dev.keep.dryReq = false) :
    (effJournalRead (some p)).run s = tryCopies.run (readHeaders.run ((readSfdp p).run s)) := by
  rw [effJournalRead, Eff.run_read, if_neg (by simp [hp, hf]), Option.filter_some_pos hok]
  dsimp only
  rw [hd, if_neg (by decide), readSfdp_run, readHeaders, tryCopies]
  simp only [Eff.run_all_cons, Eff.run_all_done]

theorem readHeaders_keeps (s : State) : (readHeaders.run s).phase = 3 ∧ Frame copyRegs s (readHeaders.run s) ∧ (readHeaders.run s).dev = s.dev := by
  obtain ⟨hp0, hf0, hd0⟩ := headerCause_keeps (c := 0) (by decide) ((putFld rImgStatus 0 4 3).run s)
  obtain ⟨hp1, hf1, hd1⟩ := headerCause_keeps (c := 1) (by decide) ((headerCause 0).run ((putFld rImgStatus 0 4 3).run s))
  rw [readHeaders, Eff.run_all_cons, Eff.run_all_cons, Eff.run_all_cons, Eff.run_all_done]
  exact ⟨hp1.trans (hp0.trans (State.fld_putFld 3 (by decide))), ((putFld_frame (off := rImgStatus) rfl _ _ _).trans hf0).trans hf1, hd1.trans (hd0.trans (putFld_dev _ _ _))⟩

/-- A requested dry-dock begins at the end of step 3. -/
theorem exec_journalRead_dry {p : Sfdp} (hp : s.phase = 2) (hf : s.forced = false) (hok : p.ok = true) (hd : s.dev.keep.dryReq = true) :
    Completes (.journalRead (some p)) s fun t => t.phase = 7 ∧ t.fld rImgStatus 24 8 = 2 ∧ t.dev.keep.dryReq = false ∧ t.dev.flash.density = p.density ∧
      SameHbm s t ∧ SameGates s t := by
  obtain ⟨hreq, hflash, -⟩ := enterDryDock_dev 2 ((readSfdp p).run s)
  have hsfdp := readSfdp_frame p s
  have hframe := enterDryDock_frame 2 ((readSfdp p).run s)
  exact ⟨_, congrArg Host.Outcome.next (effJournalRead_dry hp hf hok hd), enterDryDock_phase _ _, enterDryDock_cause _ _, hreq,
    (congrArg Flash.density hflash).trans (readSfdp_flash p s), hsfdp.1.trans hframe.1, hsfdp.2.1.trans hframe.2.1⟩

theorem tryCopies_shows {t : State} (h3 : t.phase = 3) : (tryCopies.run t).dev.flash = t.dev.flash ∧ (tryCopies.run t).dev.img.tries = t.dev.flash.tries ∧
    Frame (fun o => o == rImgStatus) t (tryCopies.run t) ∧
    (t.dev.flash.tries ≠ [] → (tryCopies.run t).phase = 3) ∧ (t.dev.flash.tries = [] → (tryCopies.run t).phase = 7 ∧ (tryCopies.run t).fld rImgStatus 24 8 = 1) := by
  rw [tryCopies, Eff.run_read, Eff.run_andThen, Eff.run_when]
  cases he : t.dev.flash.tries with
  | nil =>
    obtain ⟨-, hflash, himg⟩ := enterDryDock_dev 1 ((onImg fun g => { g with tries := [] }).run t)
    rw [if_pos (by rfl)]
    exact ⟨hflash, congrArg Img.tries himg, (onImg_frame _ _ _).trans (enterDryDock_frame _ _), fun h => absurd rfl h,
      fun _ => ⟨enterDryDock_phase _ _, enterDryDock_cause _ _⟩⟩
  | cons c rest =>
    rw [if_neg (by simp)]
    exact ⟨rfl, rfl, onImg_frame _ _ _, fun _ => h3, fun h => nomatch h⟩

theorem exec_journalRead_copies {p : Sfdp} (hp : s.phase = 2) (hf : s.forced = false) (hok : p.ok = true) (hd : s.dev.keep.dryReq = false) :
    Completes (.journalRead (some p)) s fun t => t.dev.flash.density = p.density ∧ t.dev.img.tries = t.dev.flash.tries ∧ t.fld rBrdSpi 0 2 = p.choice.1 ∧
      (t.dev.flash.tries ≠ [] → t.phase = 3) ∧ (t.dev.flash.tries = [] → t.phase = 7 ∧ t.fld rImgStatus 24 8 = 1) ∧ SameHbm s t ∧ SameGates s t := by
  obtain ⟨h3, hcopies, hdev⟩ := readHeaders_keeps ((readSfdp p).run s)
  obtain ⟨hflash, htries, hframe, hsome, hnone⟩ := tryCopies_shows h3
  have hsfdp := readSfdp_frame p s
  refine ⟨_, congrArg Host.Outcome.next (effJournalRead_copies hp hf hok hd), ?_, htries.trans (congrArg Flash.tries hflash.symm), ?_, fun h => hsome ?_, fun h => hnone ?_,
    (hsfdp.1.trans hcopies.1).trans hframe.1, (hsfdp.2.1.trans hcopies.2.1).trans hframe.2.1⟩
  · exact (congrArg Flash.density (hflash.trans (congrArg Dev.flash hdev))).trans (readSfdp_flash p s)
  · exact (hframe.fld (by decide) 0 2).trans ((hcopies.fld (by decide) 0 2).trans (readSfdp_mode p s))
  · rwa [← hflash]
  · rwa [← hflash]

/-! ### Step 4: verification (R545 to R548) -/

/-- SVN, digest and ROLE of the copy chosen. -/
def showCopy (ss : List Sect) (b : List Byte) (owned : Bool) : Eff := Eff.all
  [ putFld rImgSvn 0 7 (imgSvn b), putWords (rImgDigest 0) 8 (sha256 b),
    Eff.each (sectsOf ss 1) fun r => applyRole r owned ]

theorem chooseCopy_run (c : Nat) (b : List Byte) (s : State) : ∃ ss, (chooseCopy c b).run s = (putFld rImgStatus 0 4 4).run ((showCopy ss b s.owned).run
    ((putReg rImgSeq (imgSeq b)).run ((putBit rImgStatus 6 (!s.owned)).run ((putFld rImgStatus 4 2 (c + 1)).run ((putCause c 0).run s))))) := by
  rw [chooseCopy, Eff.run_read]
  cases parseImage b with
  | ok ss => exact ⟨ss, by simp only [showCopy, Eff.run_all_cons, Eff.run_all_done]⟩
  | error _ => exact ⟨[], by simp only [showCopy, Eff.run_all_cons, Eff.run_all_done]⟩

theorem applyRole_keeps {α : Type} {p : Dev → α} (hp : ∀ d x, p { d with fab := x } = p d) (r : Sect) (owned : Bool) : (applyRole r owned).Only (Act.Keeps p) := by
  simp [applyRole, onFab, hp]

theorem applyRole_local {q : Nat → Bool} (h : q rGlbRole = true) (r : Sect) (owned : Bool) : (applyRole r owned).Only (Act.Local q) := by
  simp [applyRole, onFab, h]

theorem applyRole_silent (r : Sect) (owned : Bool) : (applyRole r owned).Only Act.Silent := by
  simp [applyRole, onFab]

/-- What `showCopy` writes. -/
def copyShown (o : Nat) : Bool := o != rImgStatus && o != rImgSeq

theorem copyShown_digest (i : Nat) : copyShown (rImgDigest 0 + 4 * i) = true := by
  simp only [copyShown, Bool.and_eq_true, bne_iff_ne, rImgDigest, rImgStatus, rImgSeq]
  omega

theorem showCopy_local (ss : List Sect) (b : List Byte) (owned : Bool) : (showCopy ss b owned).Only (Act.Local copyShown) := by
  simp only [showCopy, Eff.only_all, List.forall_mem_cons, Eff.only_each, putFld_only, Act.local_setReg]
  exact ⟨fun _ => by decide, putWords_local (fun i _ => copyShown_digest i) _, fun r _ => applyRole_local (by decide) r owned, fun _ h => nomatch h⟩

theorem showCopy_img (ss : List Sect) (b : List Byte) (owned : Bool) (s : State) : ((showCopy ss b owned).run s).dev.img = s.dev.img := by
  refine Eff.Only.devKeeps (p := fun d => d.img) ?_ s
  simp only [showCopy, Eff.only_all, List.forall_mem_cons, Eff.only_each]
  exact ⟨by simp, putWords_keeps _ _ _ _, fun r _ => applyRole_keeps (fun _ _ => rfl) r owned, fun _ h => nomatch h⟩

theorem showCopy_out (ss : List Sect) (b : List Byte) (owned : Bool) (s : State) : ((showCopy ss b owned).run s).out = s.out := by
  refine Eff.Only.out (e := showCopy ss b owned) ?_ s
  simp only [showCopy, Eff.only_all, List.forall_mem_cons, Eff.only_each]
  exact ⟨by simp, putWords_silent _ _ _, fun r _ => applyRole_silent r owned, fun _ h => nomatch h⟩

theorem chooseCopy_local (c : Nat) (b : List Byte) : (chooseCopy c b).Only (Act.Local fun _ => true) := by
  refine Eff.only_read.mpr fun s => ?_
  simp only [putCause, Eff.only_all, List.forall_mem_cons, Eff.only_each, putFld_only, putBit_only, putReg_only, Act.local_setReg]
  exact ⟨fun _ => trivial, fun _ => trivial, fun _ => trivial, trivial, fun _ => trivial, putWords_local (fun _ _ => rfl) _, fun r _ => applyRole_local rfl r _,
    fun _ => trivial, fun _ h => nomatch h⟩

/-- A copy that verifies is chosen. -/
theorem chooseCopy_shows {c : Nat} (hc : c < 2) (b : List Byte) (s : State) : ((chooseCopy c b).run s).phase = 4 ∧ ((chooseCopy c b).run s).fld rImgStatus 4 2 = c + 1 ∧
    ((chooseCopy c b).run s).fld rImgStatus (8 + 8 * c) 8 = 0 ∧ ((chooseCopy c b).run s).reg rImgSeq = w64 (imgSeq b) ∧
    ((chooseCopy c b).run s).out = s.out ∧ ((chooseCopy c b).run s).dev.img = s.dev.img ∧ SameHbm s ((chooseCopy c b).run s) ∧ SameGates s ((chooseCopy c b).run s) := by
  obtain ⟨ss, hrun⟩ := chooseCopy_run c b s
  have hshown := fun u => (showCopy_local ss b s.owned).frame u
  have hstatus : ∀ l k u, ((showCopy ss b s.owned).run ((putReg rImgSeq (imgSeq b)).run u)).fld rImgStatus l k = u.fld rImgStatus l k := fun l k u =>
    ((hshown _).fld (by decide) l k).trans ((putReg_frame (r := fun o => o == rImgSeq) (by simp) _ u).fld (by decide) l k)
  rw [hrun]
  refine ⟨State.fld_putFld 4 (by decide), ?_, ?_, ?_, ?_, ?_, ?_⟩
  · rw [State.fld_putFld_apart 4 (by decide) (by decide), hstatus, State.fld_putBit_apart _ (by decide) (by decide), State.fld_putFld _ (by decide)]
    exact Nat.mod_eq_of_lt (by omega)
  · rw [State.fld_putFld_apart 4 (by decide) (by omega), hstatus, State.fld_putBit_apart _ (by decide) (by omega), State.fld_putFld_apart _ (by decide) (by omega), putCause,
      State.fld_putFld_lt (by decide) (by omega)]
  · refine ((putFld_frame (r := fun o => o == rImgStatus) (by simp) 0 4 4).2.2 rImgSeq (by decide)).trans (((hshown _).2.2 rImgSeq (by decide)).trans ?_)
    exact putReg_reg _ _ _
  · rw [putFld_out, showCopy_out, putReg_out, putBit_out, putFld_out, putCause, putFld_out]
  · rw [putFld_dev, showCopy_img, putReg_dev, putBit_dev, putFld_dev, putCause, putFld_dev]
  · have hall := (chooseCopy_local c b).frame s
    rw [hrun] at hall
    exact ⟨hall.1, hall.2.1⟩

/-- A copy does not verify: its cause is shown and counted, and after the last the chip goes into dry-dock. -/
def rejectCopy (c : Nat) (v : Verdict) (rest : List Nat) : Eff := Eff.all
  [ putCause c v.cause, Eff.when (v.cause == 2 || v.cause == 3 || v.cause == 6 || v.cause == 8) (putFail c v.fail),
    countAt 0x45 c, Eff.when rest.isEmpty (enterDryDock 1) ]

theorem countAt_img {src : Nat} (hs : src < 256) (hr : retires src = false) (h60 : src ≠ 0x60) (u : Nat) (s : State) :
    ((countAt src u).run s).dev.img = s.dev.img :=
  Eff.Only.devKeeps (p := Dev.img) ((collectorActs_keeps (p := Dev.img) (fun _ _ => rfl) (fun _ _ => rfl) fun _ _ => rfl).countAt hs hr h60 u) s

/-- What a rejection shows before the last. -/
theorem rejectCopy_run (c : Nat) (v : Verdict) (rest : List Nat) (s : State) : ∃ u : State, u.reg rImgStatus = ((putCause c v.cause).run s).reg rImgStatus ∧
    u.dev.img = s.dev.img ∧ SameHbm s u ∧ SameGates s u ∧ (rejectCopy c v rest).run s = (Eff.when rest.isEmpty (enterDryDock 1)).run u := by
  have hfail : (Eff.when (v.cause == 2 || v.cause == 3 || v.cause == 6 || v.cause == 8) (putFail c v.fail)).Only
      (Act.Local fun o => o == rImgFailA || o == rImgFailB) := Eff.only_when.mpr fun _ => putFail_local rfl rfl c v.fail
  have himg : (Eff.when (v.cause == 2 || v.cause == 3 || v.cause == 6 || v.cause == 8) (putFail c v.fail)).Only (Act.Keeps Dev.img) :=
    Eff.only_when.mpr fun _ => putFail_keeps Dev.img c v.fail
  have hshown := putCause_frame c v.cause s
  have hframe := (hfail.frame ((putCause c v.cause).run s))
  have hcount := fun u => countAt_frame (src := 0x45) (by decide) (by decide) (by decide) c u
  refine ⟨_, ?_, ?_, (hshown.1.trans hframe.1).trans (hcount _).1, (hshown.2.1.trans hframe.2.1).trans (hcount _).2.1,
    by rw [rejectCopy, Eff.run_all_cons, Eff.run_all_cons, Eff.run_all_cons, Eff.run_all_cons, Eff.run_all_done]⟩
  · exact ((hcount _).2.2 rImgStatus (by decide)).trans (hframe.2.2 rImgStatus (by decide))
  · exact (countAt_img (src := 0x45) (by decide) (by decide) (by decide) c _).trans <| (himg.devKeeps _).trans (congrArg Dev.img (putFld_dev _ _ _))

/-- After the last copy the chip is in dry-dock; otherwise it goes on with the next. -/
theorem rejectCopy_shows {c : Nat} (hc : c < 2) (v : Verdict) (rest : List Nat) (h3 : s.phase = 3) :
    ((rejectCopy c v rest).run s).dev.img = s.dev.img ∧ SameHbm s ((rejectCopy c v rest).run s) ∧ SameGates s ((rejectCopy c v rest).run s) ∧
    ((rejectCopy c v rest).run s).fld rImgStatus (8 + 8 * c) 8 = v.cause % 256 ∧
    (rest = [] → ((rejectCopy c v rest).run s).phase = 7) ∧ (rest ≠ [] → ((rejectCopy c v rest).run s).phase = 3) := by
  obtain ⟨u, hreg, himg, hhbm, hgates, hrun⟩ := rejectCopy_run c v rest s
  have hcause : u.fld rImgStatus (8 + 8 * c) 8 = v.cause % 256 := by
    rw [State.fld, hreg]
    exact State.fld_putFld v.cause (by omega)
  have hphase : u.phase = 3 := by
    rw [State.phase, State.fld, hreg]
    exact (putCause_apart hc (by omega) s).trans h3
  rw [hrun]
  cases rest with
  | nil =>
    obtain ⟨-, -, hdock⟩ := enterDryDock_dev 1 u
    have hframe := enterDryDock_frame 1 u
    exact ⟨hdock.trans himg, hhbm.trans hframe.1, hgates.trans hframe.2.1, (enterDryDock_fld (by omega) (by omega) u).trans hcause, fun _ => enterDryDock_phase 1 u,
      fun h => absurd rfl h⟩
  | cons d rest => exact ⟨himg, hhbm, hgates, hcause, (fun h => nomatch h), fun _ => hphase⟩

theorem effImageVerify_run {c : Nat} {rest : List Nat} (h3 : s.phase = 3) (hf : s.forced = false) (ht : s.dev.img.tries = c :: rest) : effImageVerify.run s =
    (if (verifyImage (s.dev.flash.copy c) s.serial s.dev.img.owner s.dev.img.svnMin).cause = 0 then chooseCopy c (s.dev.flash.copy c)
      else rejectCopy c (verifyImage (s.dev.flash.copy c) s.serial s.dev.img.owner s.dev.img.svnMin) rest).run ((onImg fun g => { g with tries := rest }).run s) := by
  rw [effImageVerify, Eff.run_read, if_neg (by simp [h3, hf]), ht, Eff.run_andThen]
  rfl

/-- The first copy still to be tried is chosen or rejected. -/
theorem exec_imageVerify {c : Nat} {rest : List Nat} (h3 : s.phase = 3) (hf : s.forced = false) (ht : s.dev.img.tries = c :: rest) (hc : c < 2) :
    Completes .imageVerify s fun t => t.dev.img.tries = rest ∧ SameHbm s t ∧ SameGates s t ∧
      ((verifyImage (s.dev.flash.copy c) s.serial s.dev.img.owner s.dev.img.svnMin).cause = 0 →
        t.phase = 4 ∧ t.fld rImgStatus 4 2 = c + 1 ∧ t.fld rImgStatus (8 + 8 * c) 8 = 0 ∧ t.reg rImgSeq = w64 (imgSeq (s.dev.flash.copy c)) ∧ t.out = s.out) ∧
      ((verifyImage (s.dev.flash.copy c) s.serial s.dev.img.owner s.dev.img.svnMin).cause ≠ 0 →
        t.fld rImgStatus (8 + 8 * c) 8 = (verifyImage (s.dev.flash.copy c) s.serial s.dev.img.owner s.dev.img.svnMin).cause % 256 ∧
        (rest = [] → t.phase = 7) ∧ (rest ≠ [] → t.phase = 3)) := by
  have hrun := effImageVerify_run h3 hf ht
  have htries := onImg_frame (fun _ => false) (fun g => { g with tries := rest }) s
  by_cases hv : (verifyImage (s.dev.flash.copy c) s.serial s.dev.img.owner s.dev.img.svnMin).cause = 0
  · rw [if_pos hv] at hrun
    obtain ⟨hphase, hcopy, hcause, hseq, hout, himg, hhbm, hgates⟩ := chooseCopy_shows hc (s.dev.flash.copy c) ((onImg fun g => { g with tries := rest }).run s)
    exact ⟨_, congrArg Host.Outcome.next hrun, congrArg Img.tries himg, htries.1.trans hhbm, htries.2.1.trans hgates, fun _ => ⟨hphase, hcopy, hcause, hseq, hout⟩,
      fun h => absurd hv h⟩
  · rw [if_neg hv] at hrun
    obtain ⟨himg, hhbm, hgates, hcause, hlast, hnext⟩ := rejectCopy_shows (s := (onImg fun g => { g with tries := rest }).run s) hc
      (verifyImage (s.dev.flash.copy c) s.serial s.dev.img.owner s.dev.img.svnMin) rest h3
    exact ⟨_, congrArg Host.Outcome.next hrun, congrArg Img.tries himg, htries.1.trans hhbm, htries.2.1.trans hgates, fun h => absurd h hv, fun _ => ⟨hcause, hlast, hnext⟩⟩

end
end Sys2Proof.Machine
end
section
/-! # Start: the application of the image, the boot self-tests and the opening of the basins (O25) -/

namespace Sys2Proof.Machine
open Sys2Proof

/-! ### Step 5 touches neither HBM nor gates (R551, R552) -/

/-- An effect that touches neither HBM nor gates. -/
abbrev Eff.OnRegs (e : Eff) : Prop := e.Only (Act.Local fun _ => true)

theorem applyClk_onRegs (c : Sect) : (applyClk c).OnRegs := by simp [applyClk]

theorem discardSpan_onRegs : discardSpan.OnRegs := by simp [discardSpan, onClk]

theorem applyCal_onRegs (c : Sect) : (applyCal c).OnRegs := by
  have hsum := iroSum_local (r := fun _ => true) rfl fun _ _ => rfl
  have hspan := discardSpan_onRegs
  simp [applyCal, putSFld, hsum, hspan]

theorem applyPac_onRegs (c : Sect) : (applyPac c).OnRegs := by simp [applyPac]

theorem pmbFail_onRegs : pmbFail.OnRegs := by
  have hcount : (countAt 0x08 0).OnRegs := (countAt_only 0 (by decide) (by decide) (by decide)).wider fun _ _ => rfl
  simp [pmbFail, onPace, hcount]

theorem takeVoutMode_onRegs (m : Option Nat) : (takeVoutMode m).OnRegs := by
  cases m with
  | none => exact pmbFail_onRegs
  | some v => simp [takeVoutMode, onPace]

theorem applyFlt_onRegs (c : Sect) : (applyFlt c).OnRegs := by simp [applyFlt]

theorem applyStp_onRegs (c : Sect) : (applyStp c).OnRegs := by simp [applyStp, onKeep]

theorem applyMem_onRegs (c : Sect) : (applyMem c).OnRegs := by simp [applyMem]

theorem applyBasin_onRegs (c : Sect) : (applyBasin c).OnRegs := by simp [applyBasin]

theorem applyQueue_onRegs (ss : List Sect) (c : Sect) : (applyQueue ss c).OnRegs := by simp [applyQueue]

theorem applyCodec_onRegs (c : Sect) : (applyCodec c).OnRegs := by simp [applyCodec, loadLens, onCodec]

theorem applyIbn_onRegs (c : Sect) : (applyIbn c).OnRegs := by simp [applyIbn, onFab, onImg]

theorem applyPorts_onRegs (ss : List Sect) : (applyPorts ss).OnRegs := by
  refine Eff.only_each.mpr fun p _ => ?_
  split <;> simp [onPort, onFab]

theorem applyWhf_onRegs (c : Sect) : (applyWhf c).OnRegs := by simp [applyWhf]

theorem applySet_onRegs (c : Sect) : (applySet c).OnRegs := by simp [applySet]

theorem applyMtr_onRegs (c : Sect) : (applyMtr c).OnRegs := by simp [applyMtr, onMtr, onKeep]

theorem applyTol_onRegs (c : Sect) : (applyTol c).OnRegs := by simp [applyTol, onTol]

theorem applyLcd_onRegs (c : Sect) : (applyLcd c).OnRegs := by simp [applyLcd]

theorem lcdEval_onRegs : lcdEval.OnRegs := by simp [lcdEval, lcdRise, lcdDark, putSegments, onLcd]

theorem applySections_onRegs (ss : List Sect) (vout : Option Nat) : (applySections ss vout).OnRegs := by
  refine Eff.only_read.mpr fun s => ?_
  simp [applyClk_onRegs, applyCal_onRegs, applyPac_onRegs, takeVoutMode_onRegs, applyFlt_onRegs, applyStp_onRegs, applyMem_onRegs, applyBasin_onRegs, applyQueue_onRegs,
    applyCodec_onRegs, applyIbn_onRegs, applyPorts_onRegs, applyWhf_onRegs, applySet_onRegs, applyMtr_onRegs, applyTol_onRegs, applyLcd_onRegs, lcdEval_onRegs]

theorem applyUnit_onRegs (e : UEntry) : (applyUnit e).OnRegs := by
  unfold applyUnit
  split <;> simp [setPort, onPort, onFab]

theorem meterLayers_onRegs (es : List UEntry) : (meterLayers es).OnRegs := by
  refine Eff.only_read.mpr fun s => Eff.only_each.mpr fun c _ => ⟨by simp, ?_⟩
  unfold runtimeLayer
  split <;> simp

theorem applyJournal_onRegs (es : List UEntry) : (applyJournal es).OnRegs := by
  refine Eff.only_read.mpr fun s => ?_
  simp [badPageEntry, showBadPages, applyUnit_onRegs, meterLayers_onRegs]

theorem applyImage_onRegs (ss : List Sect) (es : List UEntry) (vout : Option Nat) : (applyImage ss es vout).OnRegs := by
  simp [applyImage, applySections_onRegs, applyJournal_onRegs, onImg]

section
variable {s : State}

/-- Step 5 ends with IN_FORCE, in phase TRAIN. -/
theorem applyImage_shows (ss : List Sect) (es : List UEntry) (vout : Option Nat) (s : State) :
    ((applyImage ss es vout).run s).phase = 5 ∧ ((applyImage ss es vout).run s).bit rGlbRole 31 = true ∧ ((applyImage ss es vout).run s).dev.img.applyTick = s.now := by
  rw [applyImage, Eff.run_read, Eff.run_all_cons, Eff.run_all_cons, Eff.run_all_cons, Eff.run_all_cons, Eff.run_all_cons, Eff.run_all_done]
  refine ⟨?_, ?_, rfl⟩
  · exact ((onImg_frame (fun _ => false) _ _).fld rfl 0 4).trans (State.fld_putFld 5 (by decide))
  · refine ((onImg_frame (fun _ => false) _ _).bit rfl 31).trans (((putFld_frame (r := fun o => o == rImgStatus) (by simp) 0 4 5).bit (by decide) 31).trans ?_)
    exact State.bit_putBit true (by decide)

theorem exec_sectionApply (h4 : s.phase = 4) (vout : Option Nat) : Completes (.sectionApply vout) s
    (Reaching (fun u => u = (applyImage s.sections (liveUnits (allUnits s.dev.flash.records)) vout).run s ∧
      u.phase = 5 ∧ u.bit rGlbRole 31 = true ∧ u.dev.img.applyTick = s.now ∧ SameHbm s u ∧ SameGates s u) (afterApply (liveUnits (allUnits s.dev.flash.records)))) := by
  obtain ⟨hphase, hforce, htick⟩ := applyImage_shows s.sections (liveUnits (allUnits s.dev.flash.records)) vout s
  have hframe := (applyImage_onRegs s.sections (liveUnits (allUnits s.dev.flash.records)) vout).frame s
  have hrun : (effSectionApply vout).run s = (afterApply (liveUnits (allUnits s.dev.flash.records))).run
      ((applyImage s.sections (liveUnits (allUnits s.dev.flash.records)) vout).run s) := by
    rw [effSectionApply, Eff.run_read]
    dsimp only
    rw [if_neg (by simp [h4]), Eff.run_andThen]
  exact ⟨_, congrArg Host.Outcome.next hrun, _, ⟨rfl, hphase, hforce, htick, hframe.1, hframe.2.1⟩, rfl⟩

/-! ### Effects on an array of registers -/

/-- Effects that each change one register of an array, in turn: each register changes once. -/
theorem Eff.run_each_reg {f : Nat → Eff} {off : Nat → Nat} {g : Nat → Word64 → Word64} (hin : ∀ x u, ((f x).run u).reg (off x) = g x (u.reg (off x)))
    (hout : ∀ x o u, o ≠ off x → ((f x).run u).reg o = u.reg o) (hinj : ∀ x y, off x = off y → x = y) {xs : List Nat} (hnd : xs.Nodup) {x : Nat} (hx : x ∈ xs)
    (s : State) : ((Eff.each xs f).run s).reg (off x) = g x (s.reg (off x)) := by
  have hlater : ∀ (ys : List Nat) (u : State), x ∉ ys → ((Eff.each ys f).run u).reg (off x) = u.reg (off x) := by
    intro ys
    induction ys with
    | nil => exact fun u _ => congrFun (congrArg State.reg (Eff.run_each_nil f u)) _
    | cons y ys ih =>
      intro u hy
      rw [Eff.run_each_cons, ih _ fun h => hy (List.mem_cons_of_mem _ h)]
      exact hout y _ u fun h => hy (List.mem_cons.mpr (.inl (hinj _ _ h)))
  induction xs generalizing s with
  | nil => exact absurd hx (List.not_mem_nil)
  | cons y ys ih =>
    obtain ⟨hy, hys⟩ := List.nodup_cons.mp hnd
    rw [Eff.run_each_cons]
    rcases List.mem_cons.mp hx with rfl | hx
    · rw [hlater ys _ hy, hin]
    · rw [ih hys hx, hout y _ s fun h => hy (hinj _ _ h ▸ hx)]

/-! ### The boot self-tests (R554) -/

/-- A tile that is under test comes into service. -/
def admitTile (t : Nat) : Eff := .read fun u => Eff.when (u.tileState t == 3) (putFld (rPacTile t) 18 2 0)

/-- PAC_TILE of a tile after the test. -/
def inService (w : Word64) : Word64 := if bitsOf w.toNat 18 2 = 3 then setFld w 18 2 0 else w

theorem admitTile_reg (t : Nat) (u : State) : ((admitTile t).run u).reg (rPacTile t) =
    inService (u.reg (rPacTile t)) := by
  rw [admitTile, Eff.run_read, Eff.run_when, State.tileState, State.fld, inService]
  by_cases h : bitsOf (u.reg (rPacTile t)).toNat 18 2 = 3
  · rw [if_pos (beq_iff_eq.mpr h), if_pos h, putFld_run, State.reg_setReg]
  · rw [if_neg (mt beq_iff_eq.mp h), if_neg h]

theorem admitTile_frame (t : Nat) (u : State) : Frame (fun o => o == rPacTile t) u ((admitTile t).run u) :=
  Eff.Only.frame (e := admitTile t) (by simp [admitTile]) u

/-- The tiles under test come into service. -/
def admitTiles : Eff := Eff.each (List.range 96) admitTile

theorem admitTiles_state {k : Nat} (hk : k < 96) (h3 : s.tileState k = 3) : (admitTiles.run s).tileState k = 0 := by
  have hreg := Eff.run_each_reg (f := admitTile) (off := rPacTile) (g := fun _ => inService) admitTile_reg (fun t o u ho => (admitTile_frame t u).2.2 o (by simpa using ho))
    (fun x y h => by simp only [rPacTile] at h; omega) List.nodup_range (List.mem_range.mpr hk) s
  rw [State.tileState, State.fld] at h3
  rw [admitTiles, State.tileState, State.fld, hreg, inService, if_pos h3, bitsOf_setFld _ _ _ _ (by decide), Nat.mod_eq_of_lt (by decide)]

theorem pumpJournal_img (s : State) : (pumpJournal.run s).dev.img = s.dev.img :=
  Eff.Only.devKeeps (p := Dev.img) (pumpJournal_only (fun _ => by simp [onFlash]) fun _ => by simp) s

theorem pumpJournal_cal (s : State) : (pumpJournal.run s).dev.cal = s.dev.cal :=
  Eff.Only.devKeeps (p := Dev.cal) (pumpJournal_only (fun _ => by simp [onFlash]) fun _ => by simp) s

/-- What a self-test in which every tile and the codec pass runs. -/
theorem effTileSelftestDone_passed (h5 : s.phase = 5) (ht : s.dev.img.tested = false) : (effTileSelftestDone [] false).run s =
    pumpJournal.run ((onImg fun g => { g with tested := true, codecFail := false }).run ((putBit rImgSelftest 7 false).run ((putFld rImgSelftest 0 7 0).run (admitTiles.run s)))) := by
  rw [effTileSelftestDone, Eff.run_read]
  dsimp only
  have hbad : ((List.range 96).filter fun t => ([] : List Nat).contains t && s.tileState t == 3) = [] := by simp
  rw [if_neg (by simp [State.training, h5, ht]), hbad]
  simp only [Eff.run_all_cons, Eff.run_all_done, Eff.run_each_nil, Eff.run_when, List.length_nil]
  rfl

theorem exec_tileSelftestDone (h5 : s.phase = 5) (ht : s.dev.img.tested = false) : Completes (.tileSelftestDone [] false) s fun t =>
    t.dev.img.tested = true ∧ t.fld rImgSelftest 0 7 = 0 ∧ t.bit rImgSelftest 7 = false ∧ (∀ k, k < 96 → s.tileState k = 3 → t.tileState k = 0) ∧ SameHbm s t ∧ SameGates s t := by
  have hpump := pumpJournal_frame ((onImg fun g => { g with tested := true, codecFail := false }).run
    ((putBit rImgSelftest 7 false).run ((putFld rImgSelftest 0 7 0).run (admitTiles.run s))))
  have htail := (onImg_frame (fun _ => false) (fun g => { g with tested := true, codecFail := false })
    ((putBit rImgSelftest 7 false).run ((putFld rImgSelftest 0 7 0).run (admitTiles.run s)))).trans hpump
  have hshow := (putFld_frame (s := admitTiles.run s) (off := rImgSelftest) (r := fun o => o == rImgSelftest) (by simp) 0 7 0).trans
    (putBit_frame (off := rImgSelftest) (by simp) 7 false)
  have htiles := Eff.Only.frame (e := admitTiles) (r := fun _ => true) (by simp [admitTiles, admitTile]) s
  refine ⟨_, congrArg Host.Outcome.next (effTileSelftestDone_passed h5 ht), ?_, ?_, ?_, fun k hk h3 => ?_, (htiles.1.trans hshow.1).trans htail.1,
    (htiles.2.1.trans hshow.2.1).trans htail.2.1⟩
  · rw [pumpJournal_img, onImg_img]
  · rw [htail.fld rfl, State.fld_putBit_apart _ (by decide) (by decide), State.fld_putFld_lt (by decide) (by decide)]
  · rw [htail.bit rfl, State.bit_putBit _ (by decide)]
  · exact (htail.fld rfl 18 2).trans ((hshow.fld (beq_eq_false_iff_ne.mpr (by simp only [rPacTile, rImgSelftest]; omega)) 18 2).trans (admitTiles_state hk h3))

/-! ### HBM: training, test and zeroing (R554, R555, R162) -/

/-- Every pseudo-channel's calibration is accepted, with its delays. -/
def acceptDelays (ds : List (List Int)) : Eff := Eff.all
  [ showBadPages, Eff.each (List.range 32) fun k => calAccept (80 + k), onCal fun c => { c with delays := (List.range 32).map fun k => (k, ds.getD k []) },
    onImg fun g => { g with trained := true } ]

theorem effHbmTrainingDone_clean {ds : List (List Int)} (h5 : s.phase = 5) (ht : s.dev.img.trained = false) (hn : s.now ≤ s.dev.img.applyTick + 2 ^ 26) :
    (effHbmTrainingDone [] ds).run s = pumpJournal.run ((acceptDelays ds).run s) := by
  rw [effHbmTrainingDone, Eff.run_read, if_neg (by simp only [State.training, h5, ht, decide_eq_false (Nat.not_lt.mpr hn)]; decide), acceptDelays]
  simp only [Eff.run_all_cons, Eff.run_all_done, Eff.run_each_nil]

theorem acceptDelays_onRegs (ds : List (List Int)) : (acceptDelays ds).OnRegs := by
  have haccept : ∀ k, (calAccept k).OnRegs := fun k => (calAccept_local k).wider fun _ _ => rfl
  simp [acceptDelays, showBadPages, haccept, onCal, onImg]

theorem acceptDelays_shows (ds : List (List Int)) (s : State) : ((acceptDelays ds).run s).dev.img.trained = true ∧
    ((acceptDelays ds).run s).dev.cal.delays = (List.range 32).map fun k => (k, ds.getD k []) := by
  rw [acceptDelays, Eff.run_all_cons, Eff.run_all_cons, Eff.run_all_cons, Eff.run_all_cons, Eff.run_all_done]
  exact ⟨rfl, rfl⟩

theorem exec_hbmTrainingDone {ds : List (List Int)} (h5 : s.phase = 5) (ht : s.dev.img.trained = false) (hn : s.now ≤ s.dev.img.applyTick + 2 ^ 26) :
    Completes (.hbmTrainingDone [] ds) s fun t => t.dev.img.trained = true ∧ t.dev.cal.delays = (List.range 32).map (fun k => (k, ds.getD k [])) ∧
      SameHbm s t ∧ SameGates s t := by
  obtain ⟨htrained, hdelays⟩ := acceptDelays_shows ds s
  have hframe := (acceptDelays_onRegs ds).frame s
  have hpump := pumpJournal_frame ((acceptDelays ds).run s)
  refine ⟨_, congrArg Host.Outcome.next (effHbmTrainingDone_clean h5 ht hn), ?_, ?_, hframe.1.trans hpump.1, hframe.2.1.trans hpump.2.1⟩
  · rw [pumpJournal_img, htrained]
  · rw [pumpJournal_cal, hdelays]

theorem effHbmBistDone_clean (h5 : s.phase = 5) (ht : s.dev.img.trained = true) (hb : s.dev.img.bist = false) :
    (effHbmBistDone []).run s = pumpJournal.run ((onImg fun g => { g with bist := true }).run ((putFld rImgSelftest 8 9 0).run s)) := by
  rw [effHbmBistDone, Eff.run_read]
  dsimp only [List.foldl_nil, List.length_nil]
  rw [if_neg (by simp [State.training, h5, ht, hb])]
  simp only [Eff.run_all_cons, Eff.run_all_done, Eff.run_each_nil]

theorem exec_hbmBistDone (h5 : s.phase = 5) (ht : s.dev.img.trained = true) (hb : s.dev.img.bist = false) :
    Completes (.hbmBistDone []) s fun t => t.dev.img.bist = true ∧ t.fld rImgSelftest 8 9 = 0 ∧ SameHbm s t ∧ SameGates s t := by
  have hshow := putFld_frame (s := s) (off := rImgSelftest) (r := fun o => o == rImgSelftest) (by simp) 8 9 0
  have htail := (onImg_frame (fun _ => false) (fun g => { g with bist := true }) ((putFld rImgSelftest 8 9 0).run s)).trans (pumpJournal_frame _)
  refine ⟨_, congrArg Host.Outcome.next (effHbmBistDone_clean h5 ht hb), ?_, ?_, hshow.1.trans htail.1, hshow.2.1.trans htail.2.1⟩
  · rw [pumpJournal_img, onImg_img]
  · rw [htail.fld rfl, State.fld_putFld_lt (by decide) (by decide)]

/-- HBM holds zeros, with valid codes. -/
theorem exec_hbmZeroingDone (h5 : s.phase = 5) (hb : s.dev.img.bist = true) (hz : s.bit rMemStatus 0 = false) :
    Completes .hbmZeroingDone s fun t => (∀ a, t.byte a = 0#8) ∧ t.poison = [] ∧ t.bit rMemStatus 0 = true ∧ SameGates s t ∧
      RegsBut (fun o => o == rMemStatus) s t ∧ t.out = s.out := by
  have hrun : effHbmZeroingDone.run s = (putBit rMemStatus 0 true).run (Act.run s .zeroHbm) := by
    rw [effHbmZeroingDone, Eff.run_read, if_neg (by simp [State.training, h5, hb, hz]), Eff.run_andThen, Eff.run_act]
  have hshow := putBit_frame (s := Act.run s .zeroHbm) (off := rMemStatus) (r := fun o => o == rMemStatus) (by simp) 0 true
  refine ⟨_, congrArg Host.Outcome.next hrun, fun a => (hshow.1.1 a).trans rfl, hshow.1.2.trans rfl, State.bit_putBit true (by decide), hshow.2.1, hshow.2.2, ?_⟩
  rw [putBit_out]
  rfl

/-! ### Steps 9 and 10 (R556, R557) -/

theorem exec_joinWaitEnd (h5 : s.phase = 5) (hn : s.dev.img.applyTick + 2 ^ s.dev.img.joinLog ≤ s.now) :
    Completes .joinWaitEnd s fun t => t.dev.img.joined = true ∧ Frame (fun _ => false) s t ∧ t.out = s.out := by
  have hrun : effJoinWaitEnd.run s = (onImg fun g => { g with joined := true }).run s := by
    rw [effJoinWaitEnd, Eff.run_read, Eff.run_when, if_pos (by simp [State.training, h5, hn])]
  exact ⟨_, congrArg Host.Outcome.next hrun, rfl, onImg_frame _ _ s, rfl⟩

/-- An enabled basin opens; on an unowned chip basin 0 alone. -/
def openBasin (s : State) (b : Nat) : Eff := Eff.when (s.bit (rLckBasin b) 2 && (b == 0 || !s.bit rImgStatus 6)) (putFld (rLckBasin b) 0 2 1)

/-- LCK_BASIN of a basin when the basins have opened. -/
def opened (s : State) (b : Nat) (w : Word64) : Word64 := if (s.bit (rLckBasin b) 2 && (b == 0 || !s.bit rImgStatus 6)) = true then setFld w 0 2 1 else w

theorem openBasin_reg (s : State) (b : Nat) (u : State) : ((openBasin s b).run u).reg (rLckBasin b) = opened s b (u.reg (rLckBasin b)) := by
  rw [openBasin, Eff.run_when, opened]
  split
  · rw [putFld_run, State.reg_setReg]
  · rfl

theorem openBasin_frame (s : State) (b : Nat) (u : State) : Frame (fun o => o == rLckBasin b) u ((openBasin s b).run u) :=
  Eff.Only.frame (e := openBasin s b) (by simp [openBasin]) u

/-- The basins open, in order. -/
def openBasins (s : State) : Eff := Eff.each (List.range 16) (openBasin s)

theorem openBasins_reg {b : Nat} (hb : b < 16) : ((openBasins s).run s).reg (rLckBasin b) = opened s b (s.reg (rLckBasin b)) :=
  Eff.run_each_reg (f := openBasin s) (off := rLckBasin) (openBasin_reg s) (fun b o u ho => (openBasin_frame s b u).2.2 o (by simpa using ho))
    (fun x y h => by simp only [rLckBasin] at h; omega) List.nodup_range (List.mem_range.mpr hb) s

theorem exec_basinsOpen (hr : s.readyToOpen = true) : Completes .basinsOpen s fun t => t.phase = 6 ∧ t.reg rImgOpenTick = w64 s.now ∧
    (∀ b, b < 16 → s.bit (rLckBasin b) 2 = true → (b = 0 ∨ s.bit rImgStatus 6 = false) → t.isOpen b = true) ∧
    (∀ b, b < 16 → s.bit (rLckBasin b) 2 = false → t.reg (rLckBasin b) = s.reg (rLckBasin b)) ∧ SameHbm s t ∧ SameGates s t ∧ t.out = s.out := by
  have hrun : effBasinsOpen.run s = (putFld rImgStatus 0 4 6).run ((putReg rImgOpenTick s.now).run ((openBasins s).run s)) := by
    rw [effBasinsOpen, Eff.run_read, if_neg (by simp [hr]), Eff.run_all_cons, Eff.run_all_cons, Eff.run_all_cons, Eff.run_all_done]
    rfl
  have hopen := Eff.Only.frame (e := openBasins s) (r := fun _ => true) (by simp [openBasins, openBasin]) s
  have hquiet := Eff.Only.out (e := openBasins s) (by simp [openBasins, openBasin]) s
  have hshow := (putReg_frame (r := fun o => o == rImgStatus || o == rImgOpenTick) (off := rImgOpenTick) (by simp) s.now ((openBasins s).run s)).trans
    (putFld_frame (off := rImgStatus) (by simp) 0 4 6)
  have hbasin : ∀ b, b < 16 → ((putFld rImgStatus 0 4 6).run ((putReg rImgOpenTick s.now).run ((openBasins s).run s))).reg (rLckBasin b) = opened s b (s.reg (rLckBasin b)) :=
    fun b hb => (hshow.2.2 (rLckBasin b) (by simp [rLckBasin, rImgStatus, rImgOpenTick]; omega)).trans (openBasins_reg hb)
  refine ⟨_, congrArg Host.Outcome.next hrun, State.fld_putFld 6 (by decide), ?_, fun b hb he hu => ?_, fun b hb he => ?_, hopen.1.trans hshow.1, hopen.2.1.trans hshow.2.1, ?_⟩
  · exact ((putFld_frame (r := fun o => o == rImgStatus) (off := rImgStatus) (by simp) 0 4 6).2.2 rImgOpenTick (by decide)).trans (putReg_reg _ _ _)
  · have hcond : (s.bit (rLckBasin b) 2 && (b == 0 || !s.bit rImgStatus 6)) = true := by
      rcases hu with rfl | hu
      · simp [he]
      · simp [he, hu]
    rw [State.isOpen, State.fld, hbasin b hb, opened, if_pos hcond, bitsOf_setFld _ _ _ _ (by decide)]
    rfl
  · rw [hbasin b hb, opened, if_neg (by simp [he])]
  · rw [putFld_out, putReg_out, hquiet]
end

/-- Settles O25, step by step. -/
theorem startSteps : Obligations.StartSteps :=
  ⟨fun _ clockRaw hp h0 => exec_fuseRead hp h0 clockRaw, fun _ _ hp hf hd ha hr => exec_journalRead_dry hp hf (sfdp_ok hd ha) hr,
    fun _ _ hp hf hd ha hr => exec_journalRead_copies hp hf (sfdp_ok hd ha) hr, fun _ _ _ h3 hf ht hc => exec_imageVerify h3 hf ht hc,
    fun _ vout h4 => exec_sectionApply h4 vout, fun _ h5 ht => exec_tileSelftestDone h5 ht, fun _ _ h5 ht hn => exec_hbmTrainingDone h5 ht hn,
    fun _ h5 ht hb => exec_hbmBistDone h5 ht hb, fun _ h5 hb hz => exec_hbmZeroingDone h5 hb hz, fun _ h5 hn => exec_joinWaitEnd h5 hn, fun _ hr => exec_basinsOpen hr⟩

end Sys2Proof.Machine
end
section
/-! # Entries granted in turn, and the serving commands (O35) -/

namespace Sys2Proof.Machine
open Sys2Proof

section
variable {s : State} {q kind : Nat} {e : Entry}

/-! ### The grant of a turn (Table 6.7) -/

/-- The state in which a granted entry is carried out: its kind's turn has advanced. -/
def State.granted (s : State) (kind : Nat) (turn : Turn) : State := (onWork fun w => { w with turns := mput w.turns kind turn }).run s

theorem State.granted_frame (s : State) (kind : Nat) (turn : Turn) : Frame (fun _ => false) s (s.granted kind turn) := Frame.of_dev _ _ s

/-- An entry of a SERVE or WHARF queue is carried out once its turn is granted. -/
theorem takeUp_granted (h : EntryGranted s q kind e) (hk : kind = 2 ∨ kind = 3) :
    ∃ turn, ∀ (cmd : Nat → Bool) (body : Entry → Eff), cmd e.cmd = true → (takeUp q cmd body).run s = (body e).run (s.granted kind turn) := by
  obtain ⟨hs, hj, hq, turn, hg⟩ := h
  have hkind : (decide (kind = 2) || decide (kind = 3)) = true := by simpa using hk
  refine ⟨turn, fun cmd body hc => ?_⟩
  rw [takeUp, Eff.run_read, hs]
  dsimp only
  rw [hj, hc, if_neg (by decide), hq, if_pos hkind, Sys2Proof.Machine.granted, Eff.run_read, hg]
  dsimp only
  rw [if_pos rfl, Eff.run_andThen]
  rfl

/-! ### CANCEL and RELEASE (R361, R364) -/

/-- What CANCEL makes of a request. -/
def Req.cancelled (r : Req) : Req :=
  if r.state = 2 ∨ r.state = 3 then { r with state := 7 }
  else if r.state = 1 ∨ r.state = 4 ∨ r.state = 5 ∨ r.state = 6 then { r with cancel := true } else r

theorem Serve.req_upd (v : Serve) (k : Nat) (g : Req → Req) : (v.upd k g).req k = g (v.req k) := mget_mset _ _ _ _

theorem Serve.req_upd_other (v : Serve) {k j : Nat} (h : j ≠ k) (g : Req → Req) : (v.upd k g).req j = v.req j := mget_mset_other h _

/-- The state after CANCEL, before its entry ends. -/
def State.cancelled (s : State) (k : Nat) : State := (onSrv fun v => v.upd k Req.cancelled).run s

theorem onSrv_frame (g : Serve → Serve) (s : State) : Frame (fun _ => false) s ((onSrv g).run s) := Frame.of_dev _ _ s

theorem onSrv_srv (g : Serve → Serve) (s : State) : ((onSrv g).run s).dev.srv = g s.dev.srv := rfl

theorem onSrv_out (g : Serve → Serve) (s : State) : ((onSrv g).run s).out = s.out := rfl

theorem effCancel_run (h : EntryGranted s q 2 e) (hc : e.cmd = 0x102) (h0 : e.get 20 44 = 0) (hk : e.get 16 2 ∈ s.slots (s.qOwner q))
    (hst : (s.req (e.get 16 2)).state ≠ 0) (hgen : (s.req (e.get 16 2)).gen = e.get 18 2) :
    ∃ turn, (effCancel q).run s = (finish q e.idx { status := 0 }).run ((s.granted 2 turn).cancelled (e.get 16 2)) := by
  obtain ⟨turn, hrun⟩ := takeUp_granted h (.inl rfl)
  have hslot : ((s.granted 2 turn).slots ((s.granted 2 turn).qOwner q)).contains (e.get 16 2) = true := List.contains_iff_mem.mpr hk
  have hreq : (s.granted 2 turn).req (e.get 16 2) = s.req (e.get 16 2) := rfl
  refine ⟨turn, ?_⟩
  rw [effCancel, hrun _ _ (by simp [hc]), Eff.run_read]
  dsimp only
  rw [h0, if_neg (by decide), hslot, hreq, hgen, if_neg (by simp [hst]), Eff.run_andThen]
  rfl

theorem exec_cancel (h : EntryGranted s q 2 e) (hc : e.cmd = 0x102) (h0 : e.get 20 44 = 0) (hk : e.get 16 2 ∈ s.slots (s.qOwner q))
    (hst : (s.req (e.get 16 2)).state ≠ 0) (hgen : (s.req (e.get 16 2)).gen = e.get 18 2) :
    Completes (.cancel q) s (Reaching (fun u => (∀ j, j ≠ e.get 16 2 → u.req j = s.req j) ∧ Frame (fun _ => false) s u ∧ u.out = s.out ∧
        ((s.req (e.get 16 2)).state = 2 ∨ (s.req (e.get 16 2)).state = 3 → u.req (e.get 16 2) = { s.req (e.get 16 2) with state := 7 }) ∧
        ((s.req (e.get 16 2)).state = 4 ∨ (s.req (e.get 16 2)).state = 5 → u.req (e.get 16 2) = { s.req (e.get 16 2) with cancel := true }))
      (finish q e.idx { status := 0 })) := by
  obtain ⟨turn, hrun⟩ := effCancel_run h hc h0 hk hst hgen
  have hreq : ((s.granted 2 turn).cancelled (e.get 16 2)).req (e.get 16 2) = (s.req (e.get 16 2)).cancelled := Serve.req_upd _ _ _
  refine ⟨_, congrArg Host.Outcome.next hrun, (s.granted 2 turn).cancelled (e.get 16 2), ⟨fun j hj => Serve.req_upd_other s.dev.srv hj Req.cancelled,
    (s.granted_frame 2 turn).trans (onSrv_frame _ _), rfl, fun hrun => ?_, fun hmoor => ?_⟩, rfl⟩
  · rw [hreq, Req.cancelled, if_pos hrun]
  · rw [hreq, Req.cancelled, if_neg (by omega), if_pos (by omega)]

/-- The state after RELEASE, before its entry ends. -/
def State.released (s : State) (b h : Nat) (ps : List Nat) : State := (onSrv fun v =>
  let w := ps.foldl (fun (u : Serve) g => u.dropRef b g) v
  { w with handles := mput w.handles (h % 65536) { gen := h / 65536, pages := none } }).run s

theorem Serve.dropRefs_reqs (ps : List Nat) (b : Nat) (v : Serve) : (ps.foldl (fun (u : Serve) g => u.dropRef b g) v).reqs = v.reqs := by
  induction ps generalizing v with
  | nil => rfl
  | cons p ps ih => rw [List.foldl_cons, ih, Serve.dropRef, Serve.updBasin]

theorem effRelease_run {ps : List Nat} (h : EntryGranted s q 2 e) (hc : e.cmd = 0x104) (h0 : e.get 20 44 = 0) (hp : s.handlePages (s.qOwner q) (e.get 16 4) = some ps) :
    ∃ turn, (effRelease q).run s = (finish q e.idx { status := 0 }).run ((s.granted 2 turn).released (s.qOwner q) (e.get 16 4) ps) := by
  obtain ⟨turn, hrun⟩ := takeUp_granted h (.inl rfl)
  have hpages : (s.granted 2 turn).handlePages ((s.granted 2 turn).qOwner q) (e.get 16 4) = some ps := hp
  refine ⟨turn, ?_⟩
  rw [effRelease, hrun _ _ (by simp [hc]), Eff.run_read]
  dsimp only
  rw [h0, if_neg (by decide), hpages]
  dsimp only
  rw [Eff.run_andThen]
  rfl

theorem exec_release {ps : List Nat} (h : EntryGranted s q 2 e) (hc : e.cmd = 0x104) (h0 : e.get 20 44 = 0) (hp : s.handlePages (s.qOwner q) (e.get 16 4) = some ps) :
    Completes (.release q) s (Reaching (fun u => mget? u.dev.srv.handles (e.get 16 4 % 65536) = some { gen := e.get 16 4 / 65536, pages := none } ∧
        u.dev.srv.reqs = s.dev.srv.reqs ∧ Frame (fun _ => false) s u ∧ u.out = s.out)
      (finish q e.idx { status := 0 })) := by
  obtain ⟨turn, hrun⟩ := effRelease_run h hc h0 hp
  exact ⟨_, congrArg Host.Outcome.next hrun, _, ⟨mget?_mput _ _ _, Serve.dropRefs_reqs _ _ _, (s.granted_frame 2 turn).trans (onSrv_frame _ _), rfl⟩, rfl⟩

/-! ### Reads of HBM on a basin's behalf -/

theorem srvRead_clean (hp : s.poison = []) {a n : Nat} (ha : inHbm a = true) (hn : n ≠ 0) (b : Nat) :
    (srvRead b a n []).run s = (actRead b (sectorsOf a n).length).run s := by
  rw [srvRead, Eff.run_read, if_neg hn, if_pos ha, Eff.run_andThen, readSectors_clean hp]

theorem srvBytes_clean (hp : s.poison = []) {a n : Nat} (ha : inHbm a = true) (host : HostBytes) : s.srvBytes host a n = some (s.bytes a n) := by
  rw [State.srvBytes, if_pos ha, anyPoison_clean hp, if_neg (by decide)]

/-- A state in which basin `b` has been counted sectors that it has read, and its queue's turn taken, since `s`. -/
structure Counted (s : State) (b : Nat) (t : State) : Prop where
  frame : Frame (fun o => o == rMemActRd b) s t
  mem : t.mem = s.mem
  poison : t.poison = s.poison
  srv : t.dev.srv = s.dev.srv
  whf : t.dev.whf = s.dev.whf
  pci : t.dev.pci = s.dev.pci
  queues : t.dev.work.queues = s.dev.work.queues
  now : t.now = s.now
  out : t.out = s.out

theorem Counted.granted (s : State) (b kind : Nat) (turn : Turn) : Counted s b (s.granted kind turn) where
  frame := (s.granted_frame kind turn).mono (r := fun _ => false) fun _ h => Bool.noConfusion h
  mem := rfl
  poison := rfl
  srv := rfl
  whf := rfl
  pci := rfl
  queues := rfl
  now := rfl
  out := rfl

theorem Counted.actRead {b : Nat} {t : State} (h : Counted s b t) (n : Nat) : Counted s b ((actRead b n).run t) where
  frame := h.frame.trans (actRead_frame b n t)
  mem := h.mem
  poison := h.poison
  srv := (congrArg Dev.srv (actRead_dev b n t)).trans h.srv
  whf := (congrArg Dev.whf (actRead_dev b n t)).trans h.whf
  pci := (congrArg Dev.pci (actRead_dev b n t)).trans h.pci
  queues := (congrArg (fun d : Dev => d.work.queues) (actRead_dev b n t)).trans h.queues
  now := h.now
  out := (actRead_out b n t).trans h.out

/-- The registers of the activity counters lie below those of windows, queues and serving. -/
theorem rMemActRd_apart {b o : Nat} (hb : b < 16) (ho : 0x31100 ≤ o) : (o == rMemActRd b) = false :=
  beq_eq_false_iff_ne.mpr (by simp only [rMemActRd]; omega)

theorem Counted.refusal {b : Nat} {t : State} (h : Counted s b t) (hb : b < 16) (us : List AccUnit) : t.firstRefusal b us = s.firstRefusal b us :=
  State.firstRefusal_of_windows (fun k _ => h.frame.2.2 _ (rMemActRd_apart hb (by simp only [rLckWin]; omega))) h.pci us

theorem Counted.reg {b : Nat} {t : State} (h : Counted s b t) (hb : b < 16) {o : Nat} (ho : 0x31100 ≤ o) : t.reg o = s.reg o :=
  h.frame.2.2 o (rMemActRd_apart hb ho)

theorem Counted.slots {b : Nat} {t : State} (h : Counted s b t) (hb : b < 16) : t.slots b = s.slots b := by
  have hcfg : t.reg (rSrvCfg b) = s.reg (rSrvCfg b) := h.reg hb (by simp only [rSrvCfg]; omega)
  simp only [State.slots, State.reqQuota, State.slotBase, State.fld, hcfg]

theorem Counted.req {b : Nat} {t : State} (h : Counted s b t) (k : Nat) : t.req k = s.req k := by rw [State.req, h.srv, State.req]

/-! ### SUBMIT (R337) -/

/-- A request that enters a slot. -/
def State.newReq (s : State) (b k q : Nat) (e : Entry) (r : Req) : Req :=
  { r with
    basin := b, queue := q, tag := e.tag, gen := ((s.req k).gen + 1) % 65536, submitTick := s.now, admitSeq := ((s.srvBasin b).admits + 1) % 2 ^ 32 }

/-- The state after SUBMIT, before its entry ends. -/
def State.submitted (s : State) (b k q : Nat) (e : Entry) (r : Req) : State :=
  (onSrv fun v => (v.updBasin b fun x => { x with admits := (v.basin b).admits + 1 }).upd k fun _ =>
    { r with basin := b, queue := q, tag := e.tag, gen := ((s.req k).gen + 1) % 65536, submitTick := s.now, admitSeq := ((v.basin b).admits + 1) % 2 ^ 32 }).run s

theorem State.submitted_req (s : State) (b k q : Nat) (e : Entry) (r : Req) : (s.submitted b k q e r).req k = s.newReq b k q e r := Serve.req_upd _ _ _

theorem State.submitted_other (s : State) {j k : Nat} (h : j ≠ k) (b q : Nat) (e : Entry) (r : Req) : (s.submitted b k q e r).req j = s.req j :=
  Serve.req_upd_other _ h _

theorem submitReq_run {b k : Nat} {c : SrvCfg} {bs : List Byte} (hok : reqOk bs = true) (hunits : s.firstRefusal b (submitUnits c bs) = none)
    (hh : (parseReq bs).handle = 0) (hb : (parseReq bs).hblocks = 0) (hk : (s.slots b).find? (fun k => (s.req k).state == 0) = some k) :
    (submitReq b c q e bs).run s =
      (finish q e.idx { status := 0, detail := k + ((s.req k).gen + 1) % 65536 * 2 ^ 16 }).run (s.submitted b k q e (parseReq bs)) := by
  rw [submitUnits] at hunits
  rw [submitReq, Eff.run_read]
  dsimp only
  rw [hok, if_neg (by decide), checkUnits_pass hunits, if_neg (by simp [hh, hb]), hk]
  dsimp only
  rw [Eff.run_andThen]
  rfl

theorem effSubmit_run {c : SrvCfg} (h : EntryGranted s q 2 e) (hc : e.cmd = 0x101) (h0 : e.get 22 42 = 0) (hcfg : (s.srvBasin (s.qOwner q)).cfg = some c)
    (hst : s.srvState (s.qOwner q) = 1) (ha : inHbm (e.get 16 6) = true) (hp : s.poison = [])
    (hr : s.firstRefusal (s.qOwner q) [⟨e.get 16 6, e.get 16 6 + 127, rightR⟩] = none) :
    ∃ t, Counted s (s.qOwner q) t ∧ (effSubmit q [] []).run s = (submitReq (s.qOwner q) c q e (s.bytes (e.get 16 6) 128)).run t := by
  obtain ⟨turn, hrun⟩ := takeUp_granted h (.inl rfl)
  have hgranted := Counted.granted s (s.qOwner q) 2 turn
  have hread := hgranted.actRead (sectorsOf (e.get 16 6) 128).length
  have howner : (s.granted 2 turn).qOwner q = s.qOwner q := rfl
  have hcfg' : ((s.granted 2 turn).srvBasin (s.qOwner q)).cfg = some c := hcfg
  have hst' : (s.granted 2 turn).srvState (s.qOwner q) = 1 := hst
  refine ⟨_, hread, ?_⟩
  rw [effSubmit, hrun _ _ (by simp [hc]), Eff.run_read]
  dsimp only
  rw [h0, if_neg (by decide), howner, hcfg']
  dsimp only
  rw [hst', if_neg (by decide), checkUnits_pass ((hgranted.refusal (s.qOwner_lt q) _).trans hr), Eff.run_andThen,
    srvRead_clean (hgranted.poison.trans hp) ha (by decide), Eff.run_read, srvBytes_clean (hread.poison.trans hp) ha, State.bytes_of_mem hread.mem]

theorem exec_submit {k : Nat} {c : SrvCfg} (h : EntryGranted s q 2 e) (hc : e.cmd = 0x101) (h0 : e.get 22 42 = 0) (hcfg : (s.srvBasin (s.qOwner q)).cfg = some c)
    (hst : s.srvState (s.qOwner q) = 1) (ha : inHbm (e.get 16 6) = true) (hp : s.poison = [])
    (hr : s.firstRefusal (s.qOwner q) [⟨e.get 16 6, e.get 16 6 + 127, rightR⟩] = none) (hok : reqOk (s.bytes (e.get 16 6) 128) = true)
    (hunits : s.firstRefusal (s.qOwner q) (submitUnits c (s.bytes (e.get 16 6) 128)) = none) (hh : (parseReq (s.bytes (e.get 16 6) 128)).handle = 0)
    (hb : (parseReq (s.bytes (e.get 16 6) 128)).hblocks = 0) (hk : (s.slots (s.qOwner q)).find? (fun k => (s.req k).state == 0) = some k) :
    Completes (.submit q [] []) s (Reaching (fun u => u.req k = s.newReq (s.qOwner q) k q e (parseReq (s.bytes (e.get 16 6) 128)) ∧
        (∀ j, j ≠ k → u.req j = s.req j) ∧ Frame (fun o => o == rMemActRd (s.qOwner q)) s u ∧ u.out = s.out)
      (finish q e.idx { status := 0, detail := k + ((s.req k).gen + 1) % 65536 * 2 ^ 16 })) := by
  obtain ⟨t, ht, hrun⟩ := effSubmit_run h hc h0 hcfg hst ha hp hr
  have hfree : (fun k => (t.req k).state == 0) = fun k => (s.req k).state == 0 := funext fun k => by rw [ht.req]
  have hslot : (t.slots (s.qOwner q)).find? (fun k => (t.req k).state == 0) = some k := by rw [ht.slots (s.qOwner_lt q), hfree, hk]
  have hsub := submitReq_run (q := q) (e := e) hok ((ht.refusal (s.qOwner_lt q) _).trans hunits) hh hb hslot
  rw [ht.req] at hsub
  refine ⟨_, congrArg Host.Outcome.next (hrun.trans hsub), t.submitted (s.qOwner q) k q e (parseReq (s.bytes (e.get 16 6) 128)),
    ⟨?_, fun j hj => (t.submitted_other hj _ _ _ _).trans (ht.req j), ht.frame.trans ((onSrv_frame _ t).mono fun _ h => Bool.noConfusion h), ht.out⟩, rfl⟩
  rw [State.submitted_req, State.newReq, State.newReq, ht.req, ht.now, State.srvBasin, ht.srv, State.srvBasin]

/-! ### CONFIGURE (R333, R334) -/

theorem Counted.qOwner {b : Nat} {t : State} (h : Counted s b t) (hb : b < 16) (p : Nat) : t.qOwner p = s.qOwner p ∧ t.qKind p = s.qKind p ∧
    t.qPresent p = s.qPresent p ∧ t.qEnabled p = s.qEnabled p := by
  have hcfg : t.reg (rQueCfg p) = s.reg (rQueCfg p) := h.reg hb (by simp only [rQueCfg]; omega)
  have hstatus : t.reg (rQueStatus p) = s.reg (rQueStatus p) := h.reg hb (by simp only [rQueStatus]; omega)
  simp only [State.qOwner, State.qKind, State.qPresent, State.qEnabled, State.qState, State.fld, State.bit, hcfg, hstatus, and_self]

theorem Counted.cowWait {b : Nat} {t : State} (h : Counted s b t) (a n : Nat) : t.cowWait a n = s.cowWait a n := by rw [State.cowWait, h.whf, State.cowWait]

/-- The state after CONFIGURE, before it writes its pool meta area and its entry ends. -/
def State.configured (s : State) (b : Nat) (c : SrvCfg) : State :=
  (wakeNode 4).run ((putFld (rSrvState b) 0 2 1).run ((onSrv fun v => v.updBasin b fun x => { x with cfg := some c, refs := [] }).run s))

theorem configured_run {b mlen : Nat} {c : SrvCfg} (hcow : s.cowWait c.poolMeta (8 * c.poolPages) = false)
    (hbases : c.bases.all (fun x => x % 64 == 0 && inHbm x) = true) (hunits : s.firstRefusal b (configUnits s b c mlen) = none)
    (hp : s.qPresent c.stepQueue = true) (hk : s.qKind c.stepQueue = 0) (ho : s.qOwner c.stepQueue = b) (he : s.qEnabled c.stepQueue = true) :
    (configured b c q e mlen).run s = (Eff.andThen (metaWrite b) (finish q e.idx { status := 0 })).run (s.configured b c) := by
  rw [configUnits] at hunits
  rw [Sys2Proof.Machine.configured, Eff.run_read]
  dsimp only
  rw [hcow, if_neg (by decide), hbases, if_neg (by decide), checkUnits_pass hunits, if_pos (by simp [hp, hk, ho, he])]
  rw [Eff.run_all_cons, Eff.run_all_cons, Eff.run_all_cons, Eff.run_all_cons, Eff.run_all_cons, Eff.run_all_done, Eff.run_andThen]
  rfl

/-- What CONFIGURE writes. -/
def configureRegs (b o : Nat) : Bool := o == rMemActRd b || o == rSrvState b || o == rClkGate || o == rClkGateStatus

theorem wakeNode_run (n : Nat) (s : State) : (wakeNode n).run s =
    (putBit rClkGateStatus 2 false).run ((putBit rClkGateStatus n false).run ((putBit rClkGate 2 false).run ((putBit rClkGate n false).run s))) := by
  rw [wakeNode, Eff.run_all_cons, Eff.run_all_cons, Eff.run_all_cons, Eff.run_all_cons, Eff.run_all_done]

theorem wakeNode_frame {r : Nat → Bool} (h1 : r rClkGate = true) (h2 : r rClkGateStatus = true) (n : Nat) (s : State) : Frame r s ((wakeNode n).run s) := by
  rw [wakeNode_run]
  exact (((putBit_frame h1 _ _).trans (putBit_frame h1 _ _)).trans (putBit_frame h2 _ _)).trans (putBit_frame h2 _ _)

theorem wakeNode_dev (n : Nat) (s : State) : ((wakeNode n).run s).dev = s.dev := by
  rw [wakeNode_run, putBit_dev, putBit_dev, putBit_dev, putBit_dev]

theorem wakeNode_out (n : Nat) (s : State) : ((wakeNode n).run s).out = s.out := by
  rw [wakeNode_run, putBit_out, putBit_out, putBit_out, putBit_out]

theorem State.configured_dev (s : State) (b : Nat) (c : SrvCfg) :
    (s.configured b c).dev = ((onSrv fun v => v.updBasin b fun x => { x with cfg := some c, refs := [] }).run s).dev := by
  rw [State.configured, wakeNode_dev, putFld_dev]

theorem Serve.basin_updBasin (v : Serve) (b : Nat) (g : SrvBasin → SrvBasin) : (v.updBasin b g).basin b = g (v.basin b) := mget_mset _ _ _ _

theorem State.configured_basin (s : State) (b : Nat) (c : SrvCfg) : (s.configured b c).srvBasin b = { s.srvBasin b with cfg := some c, refs := [] } := by
  rw [State.srvBasin, s.configured_dev, onSrv_srv, Serve.basin_updBasin, State.srvBasin]

theorem State.configured_frame (s : State) (b : Nat) (c : SrvCfg) : Frame (configureRegs b) s (s.configured b c) :=
  ((onSrv_frame _ s).mono (r := fun _ => false) fun _ h => Bool.noConfusion h).trans <|
    (putFld_frame (off := rSrvState b) (by simp [configureRegs]) 0 2 1).trans (wakeNode_frame (by simp [configureRegs]) (by simp [configureRegs]) 4 _)

theorem State.configured_out (s : State) (b : Nat) (c : SrvCfg) : (s.configured b c).out = s.out := by
  rw [State.configured, wakeNode_out, putFld_out, onSrv_out]

theorem State.configured_state (s : State) (b : Nat) (c : SrvCfg) : (s.configured b c).srvState b = 1 := by
  have hgate : (rSrvState b == rClkGate || rSrvState b == rClkGateStatus) = false := by
    simp only [rSrvState, rClkGate, rClkGateStatus, Bool.or_eq_false_iff, beq_eq_false_iff_ne]
    omega
  rw [State.configured, State.srvState, (wakeNode_frame (r := fun o => o == rClkGate || o == rClkGateStatus) (by simp) (by simp) 4 _).fld hgate, State.fld_putFld_lt (by decide) (by decide)]

theorem effConfigure_run {a n tb : Nat} (h : EntryGranted s q 2 e) (hc : e.cmd = 0x100) (h0 : e.get 22 42 = 0) (hst : s.srvState (s.qOwner q) = 0)
    (hquota : s.reqQuota (s.qOwner q) ≠ 0) (hea : e.get 16 6 = a) (ha : inHbm a = true) (hok : cfgOk (s.bytes a 128) = true) (hp : s.poison = [])
    (hn : bget (s.bytes a 128) 6 1 + 1 = n) (htb : bget (s.bytes a 128) 0 6 = tb)
    (hr : s.firstRefusal (s.qOwner q) [⟨a, a + 127, rightR⟩, ⟨tb, tb + 8 * n - 1, rightR⟩] = none) (htable : inHbm tb = true) :
    ∃ t, Counted s (s.qOwner q) t ∧
      (effConfigure q [] []).run s = (configured (s.qOwner q) (configOf s a) q e (bget (s.bytes a 128) 40 4)).run t := by
  obtain ⟨turn, hrun⟩ := takeUp_granted h (.inl rfl)
  have hgranted := Counted.granted s (s.qOwner q) 2 turn
  have hread := hgranted.actRead (sectorsOf a 128).length
  have hread2 := hread.actRead (sectorsOf tb (8 * n)).length
  have howner : (s.granted 2 turn).qOwner q = s.qOwner q := rfl
  have hst' : (s.granted 2 turn).srvState (s.qOwner q) = 0 := hst
  have hquota' : (s.granted 2 turn).reqQuota (s.qOwner q) ≠ 0 := hquota
  have hbytes : (s.granted 2 turn).bytes a 128 = s.bytes a 128 := State.bytes_of_mem rfl a 128
  refine ⟨_, hread2, ?_⟩
  rw [effConfigure, hrun _ _ (by simp [hc]), Eff.run_read]
  dsimp only
  rw [h0, if_neg (by decide), howner, hst', if_neg (by simp [hquota']), hea, if_pos ha, hbytes]
  dsimp only
  rw [hok, if_neg (by decide), hn, htb, checkUnits_pass ((hgranted.refusal (s.qOwner_lt q) _).trans hr), Eff.run_all_cons, Eff.run_all_cons, Eff.run_all_cons, Eff.run_all_done,
    srvRead_clean (hgranted.poison.trans hp) ha (by decide), srvRead_clean (hread.poison.trans hp) htable (by omega), Eff.run_read,
    anyPoison_clean (hread2.poison.trans hp), anyPoison_clean (hread2.poison.trans hp), if_neg (by simp), configOf, hn, htb]
  refine congrArg (fun c => (configured (s.qOwner q) c q e (bget (s.bytes a 128) 40 4)).run _) (congrArg (fun bs : List Nat => { parseCfg (s.bytes a 128) with bases := bs }) ?_)
  exact List.map_congr_left fun k _ => State.num_of_mem hread2.mem _ _

theorem cfgOk_table {bs : List Byte} (h : cfgOk bs = true) : inHbm (bget bs 0 6) = true := by
  have hall : [bget bs 0 6, (parseCfg bs).poolMeta, (parseCfg bs).listArea, (parseCfg bs).manifest, (parseCfg bs).program, (parseCfg bs).patchTable].all inHbm = true :=
    (Bool.and_eq_true_iff.mp h).2
  exact List.all_eq_true.mp hall _ (List.mem_cons_self ..)

theorem inHbm_of_le {a n : Nat} (h : a + n ≤ hbmSize) (hn : 0 < n) : inHbm a = true := decide_eq_true (by omega)

theorem exec_configure {a mlen : Nat} {c : SrvCfg} (hrun : ∃ t, Counted s (s.qOwner q) t ∧ (effConfigure q [] []).run s = (configured (s.qOwner q) (configOf s a) q e mlen).run t)
    (hcfg : configOf s a = c) (hcow : s.cowWait c.poolMeta (8 * c.poolPages) = false) (hbases : c.bases.all (fun x => x % 64 == 0 && inHbm x) = true)
    (hunits : s.firstRefusal (s.qOwner q) (configUnits s (s.qOwner q) c mlen) = none) (hp : s.qPresent c.stepQueue = true) (hk : s.qKind c.stepQueue = 0)
    (ho : s.qOwner c.stepQueue = s.qOwner q) (he : s.qEnabled c.stepQueue = true) :
    Completes (.configure q [] []) s (Reaching (fun u => u.srvState (s.qOwner q) = 1 ∧ (u.srvBasin (s.qOwner q)).cfg = some c ∧
        (u.srvBasin (s.qOwner q)).refs = [] ∧ u.dev.work.queues = s.dev.work.queues ∧ Frame (configureRegs (s.qOwner q)) s u ∧ u.out = s.out)
      (.andThen (metaWrite (s.qOwner q)) (finish q e.idx { status := 0 }))) := by
  obtain ⟨t, ht, hrun⟩ := hrun
  obtain ⟨ho', hk', hp', he'⟩ := ht.qOwner (s.qOwner_lt q) c.stepQueue
  have hquota : t.reqQuota (s.qOwner q) = s.reqQuota (s.qOwner q) := by
    simp only [State.reqQuota, State.fld, ht.reg (s.qOwner_lt q) (o := rSrvCfg (s.qOwner q)) (by simp only [rSrvCfg]; omega)]
  have hrefuse : t.firstRefusal (s.qOwner q) (configUnits t (s.qOwner q) c mlen) = none := by
    rw [ht.refusal (s.qOwner_lt q)]
    simp only [configUnits, hquota]
    exact hunits
  have hconf := configured_run (q := q) (e := e) ((ht.cowWait _ _).trans hcow) hbases hrefuse (hp'.trans hp) (hk'.trans hk) (ho'.trans ho) (he'.trans he)
  rw [hcfg] at hrun
  refine ⟨_, congrArg Host.Outcome.next (hrun.trans hconf), t.configured (s.qOwner q) c, ⟨t.configured_state _ c, ?_, ?_, ?_,
    (ht.frame.mono fun _ h => ?_).trans (t.configured_frame _ c), (t.configured_out _ c).trans ht.out⟩, rfl⟩
  · rw [State.configured_basin]
  · rw [State.configured_basin]
  · rw [State.configured_dev]
    exact ht.queues
  · rw [configureRegs, h]
    rfl
end

/-- Settles O35: each command's turn is granted, its checks pass, and it takes effect before its entry ends. -/
theorem servingCommands : Obligations.ServingCommands :=
  ⟨fun _ _ _ h hc h0 hst hq hcow ha hok hp hr hbases hunits hpr hk ho he =>
      exec_configure (effConfigure_run h hc h0 hst hq rfl (inHbm_of_le ha (by decide)) hok hp rfl rfl hr (cfgOk_table hok)) rfl hcow hbases hunits hpr hk ho he,
    fun _ _ _ _ _ h hc h0 hcfg hst ha hp hr hok hunits hh hb hk => exec_submit h hc h0 hcfg hst (inHbm_of_le ha (by decide)) hp hr hok hunits hh hb hk,
    fun _ _ _ h hc h0 hk hst hgen => exec_cancel h hc h0 hk hst hgen,
    fun _ _ _ _ h hc h0 hp => exec_release h hc h0 hp⟩

end Sys2Proof.Machine
end
section
/-! # Steps of serving (O36) -/

namespace Sys2Proof.Machine
open Sys2Proof

/-- A configuration of one page, whose step program runs on queue 1. -/
def smallCfg : SrvCfg :=
  { bases := [0x100000], pageBytes := 64, poolPages := 1, poolMeta := 0x110000, listArea := 0x120000, manifest := 0x130000, program := 0x140000,
    programLen := 64, patchTable := 0x150000, patchCount := 0, stepQueue := 1, rowBudget := 64, chunk := 64, stepReqs := 8 }

/-- A chip whose basin 0 serves one request in PREFILL: of its two prompt tokens the first is the last word of HBM, and the second, which is next, lies beyond it. -/
def promptAtEnd : State :=
  { regs := [(rLckBasin 0, 1#64), (rQueCfg 1, 0x80000000#64), (rQueStatus 1, 1#64), (rSrvCfg 0, 0x1000#64), (rSrvState 0, 1#64)]
    dev := { srv := { basins := [(0, { cfg := some smallCfg })],
                      reqs := [(0, { state := 2, pos := 1, plen := 2, maxTok := 1, pages := 1, promptAddr := hbmSize - 4 })] } } }

/-- A request's pages are released and its slot is FREE, all but what the engine does in its pool meta area. -/
def freePages (b e : Nat) (zero : Bool) : Eff := .read fun s => Eff.all
  [ dropMove e, Eff.each (s.reqPages b e) fun p => releasePage b p.2 zero,
    Eff.each (s.req e).held fun g => releasePage b g zero, onSrv fun v => v.upd e fun r => { r with state := 0, held := [] } ]

theorem freeSlot_run (b e : Nat) (zero : Bool) (s : State) : (freeSlot b e zero).run s = (metaTraffic b).run ((freePages b e zero).run s) := by
  rw [freeSlot, Eff.run_read, freePages, Eff.run_read]
  simp only [Eff.run_all_cons, Eff.run_all_done]

theorem metaWrite_only {r : Act → Prop} {b : Nat} (hfree : r .free) (hread : ∀ n, (actRead b n).Only r) (hwrite : ∀ n, (actWrite b n).Only r)
    (hbm : ∀ a bs, (writeHbm a bs).Only r) : (metaWrite b).Only r := by
  refine Eff.only_read.mpr fun s => ?_
  split
  · simp [hfree, hread, hwrite, hbm]
  · trivial

theorem metaTraffic_only {r : Act → Prop} {b : Nat} (h : (metaWrite b).Only r) : (metaTraffic b).Only r := by
  refine Eff.only_read.mpr fun s => ?_
  split
  · exact Eff.only_when.mpr fun _ => h
  · trivial

theorem metaTraffic_srv (b : Nat) (s : State) : ((metaTraffic b).run s).dev.srv = s.dev.srv :=
  Eff.Only.devKeeps (p := Dev.srv) (metaTraffic_only (metaWrite_only trivial (fun _ => by simp [actRead]) (fun _ => by simp [actWrite])
    fun a bs => writeHbm_keeps (fun _ _ => rfl) (fun _ _ => rfl) a bs)) s

/-- The counters of basin 0's activity. -/
def activityRegs (o : Nat) : Bool := o == rMemActRd 0 || o == rMemActWr 0

theorem metaTraffic_within (s : State) : RegsBut activityRegs s ((metaTraffic 0).run s) :=
  Eff.Only.regsBut (metaTraffic_only (metaWrite_only trivial (fun _ => by simp [actRead, Act.Within, activityRegs]) (fun _ => by simp [actWrite, Act.Within, activityRegs]) (writeHbm_within _))) s

/-- Where no slot of the basin is held, nothing is composed. -/
theorem composed_nothing {s : State} {b : Nat} (h : ∀ e ∈ s.slots b, (s.req e).state = 0) (c : SrvCfg) : s.composed [] b c = { srv := s.dev.srv } := by
  have hnone : (s.slots b).filter (fun e => [1, 2, 3, 5, 7].contains (s.dev.srv.req e).state) = [] :=
    List.filter_eq_nil_iff.mpr fun e he => by
      have h0 : (s.dev.srv.req e).state = 0 := h e he
      rw [h0]
      decide
  rw [State.composed, compose, buildOrder, hnone]
  rfl

/-- A step in which nothing is composed needs nothing read. -/
theorem settleBuild_nothing {s : State} {b : Nat} {c : SrvCfg} (h : s.composed [] b c = { srv := s.dev.srv }) (k : Eff) (n : Nat) (seen : List Nat) :
    (settleBuild b [] [] (fun t => some (t.composed [] b c)) k (n + 1) seen).run s = k.run s := by
  rw [settleBuild, Eff.run_read, h]
  dsimp only
  rw [Eff.run_andThen]
  rfl

/-- A step of whose requests one cannot be read goes on without it. -/
theorem settleBuild_bad {s : State} {b : Nat} {c : SrvCfg} {x : Build} {i : StepItem} (hx : s.composed [] b c = x)
    (hbad : x.items.filter (((Eff.each (x.items.filter fun i => !([] : List Nat).contains i.slot) (readItem b x [])).run s).itemBad [] b x) = [i]) (k : Eff) (n : Nat) :
    (settleBuild b [] [] (fun t => some (t.composed [] b c)) k (n + 1) []).run s = (settleBuild b [] [] (fun t => some (t.composed [] b c)) k n (x.items.map (·.slot))).run
      ((endReq b i.slot 4).run ((Eff.each (x.items.filter fun i => !([] : List Nat).contains i.slot) (readItem b x [])).run s)) := by
  rw [settleBuild, Eff.run_read, hx]
  dsimp only
  rw [Eff.run_andThen, Eff.run_read]
  rw [hbad, if_neg (by simp), Eff.run_andThen, Eff.run_each_cons, Eff.run_each_nil]
  rfl

/-- A request that ends without a completion of its own. -/
theorem endReq_run {s : State} {b e oc : Nat} (h7 : (s.req e).state = 2) (hout : (s.req e).outEn = false) :
    (endReq b e oc).run s = (metaTraffic b).run ((freePages b e (oc == 4)).run ((onSrv fun v => v.upd e fun r => { r with state := 8, outcome := oc }).run s)) := by
  rw [endReq, Eff.run_read]
  dsimp only
  rw [if_neg (by simp [h7]), if_neg (by simp [h7]), hout]
  simp only [Eff.run_all_cons, Eff.run_all_done, Eff.run_when, Bool.false_and, Bool.false_eq_true, if_false, freeSlot_run]

/-- The step that basin 0 composes. -/
def promptBuild : Build := (buildAt promptAtEnd 0).composed [] 0 smallCfg
/-- The state once what that step needs has been read. -/
def promptRead : State := (Eff.each (promptBuild.items.filter fun i => !([] : List Nat).contains i.slot) (readItem 0 promptBuild [])).run (buildAt promptAtEnd 0)

/-- The state once the request has ended, but for the traffic in the pool meta area. -/
def promptEnded : State := (freePages 0 0 true).run ((onSrv fun v => v.upd 0 fun r => { r with state := 8, outcome := 4 }).run promptRead)

theorem promptRead_bad : promptBuild.items.filter (promptRead.itemBad [] 0 promptBuild) = [{ slot := 0, first := 1, rows := 1, sample := true, gen := 0 }] := by decide +kernel

/-- Nothing is left to compose. -/
theorem promptEnded_nothing : ((metaTraffic 0).run promptEnded).composed [] 0 smallCfg = { srv := ((metaTraffic 0).run promptEnded).dev.srv } := by
  have hcfg : ((metaTraffic 0).run promptEnded).reg (rSrvCfg 0) = promptEnded.reg (rSrvCfg 0) := metaTraffic_within promptEnded _ (by decide)
  have hslots : ((metaTraffic 0).run promptEnded).slots 0 = promptEnded.slots 0 := by
    simp only [State.slots, State.reqQuota, State.slotBase, State.fld, hcfg]
  have hfree : ∀ e ∈ promptEnded.slots 0, (promptEnded.req e).state = 0 := by decide +kernel
  refine composed_nothing (fun e he => ?_) smallCfg
  rw [hslots] at he
  rw [State.req, metaTraffic_srv]
  exact hfree e he

/-- The request cannot be read and ends POISON, and no step runs. -/
theorem promptAtEnd_run : (effStepBuild 0 [] []).run promptAtEnd = (metaTraffic 0).run promptEnded := by
  have hcfg : (promptAtEnd.srvBasin 0).cfg = some smallCfg := rfl
  have hgo : ¬ (promptAtEnd.tended 0 || !promptAtEnd.canBuild 0 smallCfg) = true := by decide +kernel
  have hlen : (promptAtEnd.slots 0).length = 1 := by decide
  have hend : (endReq 0 0 4).run promptRead = (metaTraffic 0).run promptEnded := endReq_run (by decide +kernel) (by decide +kernel)
  rw [effStepBuild, Eff.run_read, hcfg]
  dsimp only
  rw [if_neg hgo, withMeta, Eff.run_andThen, readSectors_clean rfl, Eff.run_read, anyPoison_clean rfl, if_neg (by decide), hlen,
    Eff.run_all_cons, Eff.run_all_cons, Eff.run_all_cons, Eff.run_all_done]
  refine (settleBuild_bad (s := buildAt promptAtEnd 0) (x := promptBuild) rfl promptRead_bad _ 1).trans ?_
  refine (congrArg (Eff.run _) hend).trans ?_
  refine (settleBuild_nothing promptEnded_nothing _ 0 _).trans ?_
  rw [Eff.run_read, promptEnded_nothing]
  rfl

/-- Refutes O36: the statement has the first byte of every prompt in HBM, not every token that the step reads; a token beyond HBM cannot be read, the request ends
POISON and no step is launched. -/
theorem not_servingSteps : ¬ Obligations.ServingSteps := by
  rintro ⟨hbuild, -⟩
  obtain ⟨t, ht, hstep, -⟩ := hbuild promptAtEnd 0 smallCfg (by decide) rfl (by decide) (by decide +kernel) rfl (by decide) (by decide +kernel)
  obtain rfl : (effStepBuild 0 [] []).run promptAtEnd = t := Host.Outcome.next.inj ht
  have hidle : promptEnded.bit (rSrvState 0) 2 = false := by decide +kernel
  rw [promptAtEnd_run, State.bit, metaTraffic_within promptEnded _ (by decide), ← State.bit, hidle] at hstep
  cases hstep

end Sys2Proof.Machine
end
section
/-!
# What goes on of itself, and the numbers of a set's epochs (O37)

The next epoch of a set is never numbered 0: nothing that the wharf does of itself, or that ends a queue's entry, makes it so. Nor does any of it count an error of HBM,
where its reads find none.
-/
namespace Sys2Proof.Machine
open Sys2Proof

/-! ### Ordinary updates -/

/-- The set's next epoch has a number. -/
def Wharf.numbered (w : Wharf) (k : Nat) : Prop := 1 ≤ (mget {} w.sets k).nextEpoch

/-- An update that keeps it so, and writes no error count of an HBM channel (MEM_CH). -/
def Act.Ordinary (k : Nat) : Act → Prop
  | .dev f => ∀ d, d.whf.numbered k → (f d).whf.numbered k
  | .setReg off _ => 0x30180 ≤ off ∨ off < 0x30100
  | .resetRegs _ => False
  | _ => True

/-- Effects of such updates alone. -/
abbrev Eff.Ordinary (k : Nat) (e : Eff) : Prop := e.Only (Act.Ordinary k)

theorem Eff.Ordinary.run {k : Nat} : ∀ {e : Eff}, e.Ordinary k → ∀ s : State, s.dev.whf.numbered k → (e.run s).dev.whf.numbered k
  | .skip, _, _, hs => hs
  | .act a, ho, s, hs => by
    cases a with
    | dev f => exact ho s.dev hs
    | _ => exact hs
  | .andThen _ _, ho, s, hs => Eff.Ordinary.run ho.2 _ (Eff.Ordinary.run ho.1 s hs)
  | .read _, ho, s, hs => Eff.Ordinary.run (ho s) s hs

theorem Eff.Ordinary.within {k : Nat} {e : Eff} (h : e.Ordinary k) : e.Only (Act.Within fun o => decide (0x30180 ≤ o ∨ o < 0x30100)) :=
  h.mono fun a ha => by
    cases a with
    | setReg off v => exact decide_eq_true ha
    | resetRegs => exact ha.elim
    | _ => trivial

/-- Registers of an array that lies above the counters lie above them. -/
@[simp] theorem above_counters {base x : Nat} (h : 0x30180 ≤ base) : 0x30180 ≤ base + x := Nat.le_add_right_of_le h

section
variable {k : Nat}

@[simp] theorem Act.ordinary_setReg {off : Nat} {v : Word64} : Act.Ordinary k (.setReg off v) ↔ 0x30180 ≤ off ∨ off < 0x30100 := Iff.rfl
@[simp] theorem Act.ordinary_emit {o : Output} : Act.Ordinary k (.emit o) := trivial
@[simp] theorem Act.ordinary_free : Act.Ordinary k .free := trivial
@[simp] theorem Act.ordinary_store {a : Nat} {bs : List Byte} : Act.Ordinary k (.store a bs) := trivial
@[simp] theorem Act.ordinary_raiseGate {b g v : Nat} : Act.Ordinary k (.raiseGate b g v) := trivial
@[simp] theorem Act.ordinary_poison {a : Nat} {on : Bool} : Act.Ordinary k (.poison a on) := trivial

@[simp] theorem onWork_ordinary {g : Work → Work} : (onWork g).Ordinary k := fun _ hd => hd
@[simp] theorem onCodec_ordinary {g : Codec → Codec} : (onCodec g).Ordinary k := fun _ hd => hd
@[simp] theorem onQueue_ordinary {q : Nat} {g : Queue → Queue} : (onQueue q g).Ordinary k := onWork_ordinary
theorem onWhf_ordinary {g : Wharf → Wharf} (h : ∀ w, (g w).sets = w.sets) : (onWhf g).Ordinary k := fun d hd => by
  rw [Wharf.numbered, h]
  exact hd

theorem onSet_ordinary {j : Nat} {g : WSet → WSet} (h : ∀ w, 1 ≤ w.nextEpoch → 1 ≤ (g w).nextEpoch) : (onSet j g).Ordinary k := fun d hd => by
  by_cases hk : k = j
  · subst hk
    rw [Wharf.numbered, mget_mset]
    exact h _ hd
  · rw [Wharf.numbered, mget_mset_other hk]
    exact hd

@[simp] theorem onDrive_ordinary {d : Nat} {g : Drive → Drive} : (onDrive d g).Ordinary k := onWhf_ordinary fun _ => rfl
@[simp] theorem onEpoch_ordinary {j : Nat} {g : EpochRun → EpochRun} : (onEpoch j g).Ordinary k := onSet_ordinary fun _ h => h
@[simp] theorem onRestore_ordinary {j : Nat} {g : RestoreRun → RestoreRun} : (onRestore j g).Ordinary k := onSet_ordinary fun _ h => h

/-! ### Counting, memory and messages -/

@[simp] theorem onFlt_ordinary {g : Collector → Collector} : (onFlt g).Ordinary k := fun _ hd => hd
@[simp] theorem onDue_ordinary {g : Due → Due} : (onDue g).Ordinary k := fun _ hd => hd
@[simp] theorem onPending_ordinary {g : List Nat → List Nat} : (onPending g).Ordinary k := fun _ hd => hd

@[simp] theorem raiseMsix_ordinary (f v : Nat) : (raiseMsix f v).Ordinary k := by simp [raiseMsix]

@[simp] theorem capture_ordinary (c : Capture) : (capture c).Ordinary k := by simp [capture]

@[simp] theorem reactions_ordinary (src rx : Nat) : (reactions src rx).Ordinary k := by
  simp only [reactions, Eff.only_all, List.forall_mem_cons, Eff.only_when]
  refine ⟨fun _ => by simp, fun _ => by simp, fun _ => by simp, fun _ => by simp [pinChange, setBit8], fun _ => by simp [causeBasinReset], fun _ => ?_,
    fun _ => by simp [causeChipReset], fun _ h => nomatch h⟩
  split <;> simp

/-- An event at a source that retires nothing and restores no tolls. -/
theorem event_ordinary {src : Nat} (hr : retires src = false) (h60 : src ≠ 0x60) (u : Nat) : (countAt src u).Ordinary k := by
  have hwith : (countWith src u 0 (tileBudget src)).Ordinary k := by simp [countWith, trip, hr, h60, setBit8]
  exact hwith

/-- An event at a source of a basin. -/
theorem countAt_ordinary {src : Nat} (h : 0x70 ≤ src) (u : Nat) : (countAt src u).Ordinary k := event_ordinary (by simp [retires]; omega) (by omega) u

@[simp] theorem actRead_ordinary (b n : Nat) : (actRead b n).Ordinary k := by simp [actRead]
@[simp] theorem actWrite_ordinary (b n : Nat) : (actWrite b n).Ordinary k := by simp [actWrite]
@[simp] theorem wakeNode_ordinary (n : Nat) : (wakeNode n).Ordinary k := by simp [wakeNode, rClkGate, rClkGateStatus]

@[simp] theorem readSectors_ordinary (b : Nat) (secs : List Nat) : (readSectors b secs []).Ordinary k := by
  have hcount : (countAt (0x90 + b) 0).Ordinary k := countAt_ordinary (by omega) 0
  simp [readSectors, sectorErrors, hcount]

@[simp] theorem rmwErrors_ordinary (a n : Nat) : (rmwErrors a n []).Ordinary k := by simp [rmwErrors, sectorErrors]

theorem mget?_mapped {α β : Type} (g : α → β) (m : Map α) (k : Nat) : mget? (m.map fun e => (e.1, g e.2)) k = (mget? m k).map g := by
  induction m with
  | nil => rfl
  | cons e m ih =>
    by_cases he : e.1 = k
    · simp [mget?, he]
    · simp only [mget?, List.map_cons] at ih ⊢
      simp [he, ih]

/-- A set once a write has made its pages dirty. -/
def WSet.dirtied (a n : Nat) (w : WSet) : WSet := { w with dirty := ((bigPages a n).filter w.holds).foldl sins w.dirty }

theorem markDirty_ordinary (a n : Nat) : (markDirty a n).Ordinary k := fun d hd => by
  change 1 ≤ (mget {} (d.whf.sets.map fun e : Nat × WSet => (e.1, e.2.dirtied a n)) k).nextEpoch
  rw [Wharf.numbered, mget] at hd
  rw [mget, mget?_mapped (WSet.dirtied a n)]
  cases h : mget? d.whf.sets k with
  | none => exact Nat.le_refl 1
  | some w =>
    rw [h] at hd
    exact hd

@[simp] theorem writeHbm_ordinary (a : Nat) (bs : List Byte) : (writeHbm a bs).Ordinary k := by
  have hdirty : (markDirty a bs.length).Ordinary k := markDirty_ordinary a bs.length
  simp [writeHbm, markRawPages, hdirty]

@[simp] theorem sendWrite_ordinary (f a : Nat) (bs : List Byte) : (sendWrite f a bs).Ordinary k := by simp [sendWrite]

@[simp] theorem lockRefuse_ordinary (b first last : Nat) (a : Asker) (st : Nat) (w : Option Nat) : (lockRefuse b first last a st w).Ordinary k := by
  have hcount : ∀ base, base = 0x70 ∨ base = 0x80 → (countAt (base + b) 0).Ordinary k := fun base hbase =>
    countAt_ordinary (by omega) 0
  have hsource := hcount (if st = 0x16 then 0x70 else 0x80) (by split <;> simp)
  simp [lockRefuse, hsource]

@[simp] theorem writeAny_ordinary (b : Nat) (a : Asker) (p : Nat) (bs : List Byte) : (writeAny b a p bs).Ordinary k := by
  unfold writeAny
  split <;> simp

/-! ### The end of a queue's entry -/

@[simp] theorem queueMessage_ordinary (q : Nat) : (queueMessage q).Ordinary k := fun _ => ⟨onQueue_ordinary, raiseMsix_ordinary _ _⟩

@[simp] theorem queueError_ordinary (q cause : Nat) : (queueError q cause).Ordinary k := by
  have hcount : ∀ s : State, (countAt (0xB0 + s.qOwner q) 0).Ordinary k := fun s => countAt_ordinary (by omega) 0
  simp [queueError, hcount]

@[simp] theorem postOne_ordinary (q : Nat) (e : Entry) (f : Fin) : (postOne q e f).Ordinary k := by
  refine Eff.only_read.mpr fun s => ?_
  dsimp only
  split <;> simp [messageAtPost]

@[simp] theorem postLoop_ordinary (q n : Nat) : (postLoop q n).Ordinary k := by
  induction n with
  | zero => trivial
  | succ n ih =>
    refine Eff.only_read.mpr fun s => ?_
    split
    · simp
    · split <;> simp [ih]

@[simp] theorem settleLoop_ordinary (q n : Nat) : (settleLoop q n).Ordinary k := by
  induction n with
  | zero => trivial
  | succ n ih =>
    refine Eff.only_read.mpr fun s => ?_
    split <;> simp [setFin, ih]

@[simp] theorem finish_ordinary (q idx : Nat) (f : Fin) : (finish q idx f).Ordinary k := by simp [finish, setFin, settleQueue, post]

@[simp] theorem finishCurrent_ordinary (q : Nat) (f : Fin) : (finishCurrent q f).Ordinary k := by
  refine Eff.only_read.mpr fun s => ?_
  split <;> simp

@[simp] theorem endEntry_ordinary (posted : Bool) (q st n : Nat) : (endEntry posted q st n).Ordinary k := by
  unfold endEntry
  split <;> simp

/-! ### Buffers and drive commands -/

@[simp] theorem sramPut_ordinary (a : Nat) (bs : List Byte) : (sramPut a bs).Ordinary k := onWhf_ordinary fun _ => rfl
@[simp] theorem showWharf_ordinary : showWharf.Ordinary k := by simp [showWharf, rWhfStatus]
@[simp] theorem takeBuf_ordinary (i : Nat) : (takeBuf i).Ordinary k := ⟨onWhf_ordinary fun _ => rfl, showWharf_ordinary⟩
@[simp] theorem freeBuffer_ordinary (i : Nat) : (freeBuffer i).Ordinary k := ⟨onWhf_ordinary fun _ => rfl, showWharf_ordinary⟩

@[simp] theorem releaseManifest_ordinary (j : Nat) : (releaseManifest j).Ordinary k := onWhf_ordinary fun w => by split <;> rfl

@[simp] theorem placeCmd_ordinary (d : Nat) (c : DrvCmd) : (placeCmd d c).Ordinary k := by simp [placeCmd, showDrive, driveDoorbell]

@[simp] theorem submit_ordinary (d op slba nlb buf cid : Nat) (role : DrvRole) : (submit d op slba nlb buf cid role).Ordinary k := by simp [submit]

@[simp] theorem flushAll_ordinary (j : Nat) : (flushAll j).Ordinary k := by simp [flushAll]

/-! ### Runs on a set -/

@[simp] theorem failRun_ordinary (j st : Nat) : (failRun j st).Ordinary k := onSet_ordinary fun _ h => h

@[simp] theorem setIdle_ordinary (j : Nat) : (setIdle j).Ordinary k := by
  have hclear : (onSet j fun _ => {}).Ordinary k := onSet_ordinary fun _ _ => Nat.le_refl 1
  simp [setIdle, setSetState, hclear]

theorem holdManifest_ordinary (j : Nat) : (onWhf fun w => { w with manifest := some j }).Ordinary k := onWhf_ordinary fun _ => rfl

@[simp] theorem endEpoch_ordinary (j : Nat) (e : EpochRun) (st : Nat) : (endEpoch j e st).Ordinary k := by
  have hset : (onSet j fun w => { w with epoch := none, armed := [], copies := [], stalled := [] }).Ordinary k := onSet_ordinary fun _ h => h
  refine Eff.only_read.mpr fun s => ?_
  simp only [Eff.only_all, List.forall_mem_cons, Eff.only_when, Eff.only_each]
  refine ⟨by simp, by simp [setLastStatus], by simp, fun _ d _ => ?_, hset, by simp, by simp, fun _ h => nomatch h⟩
  split <;> simp [setWptr, setTail]

@[simp] theorem endRestore_ordinary (j : Nat) (r : RestoreRun) (st : Nat) : (endRestore j r st).Ordinary k := by
  have hset : (onSet j fun w => { w with restore := none }).Ordinary k := onSet_ordinary fun _ h => h
  simp only [endRestore, Eff.only_all, List.forall_mem_cons]
  refine ⟨by simp, by simp [setLastStatus], by simp, ?_, hset, by simp, by simp, fun _ h => nomatch h⟩
  split <;> simp

/-! ### An epoch goes on -/

theorem State.setOwner_lt (s : State) (j : Nat) : s.setOwner j < 16 := bitsOf_lt _ _ _

@[simp] theorem metaPut_ordinary (j a : Nat) (bs : List Byte) : (metaPut j a bs []).Ordinary k := by simp [metaPut]

@[simp] theorem writeManifest_ordinary (j : Nat) (e : EpochRun) : (writeManifest j [] e).Ordinary k := by
  simp [writeManifest]

@[simp] theorem beginCommit_ordinary (j : Nat) (e : EpochRun) : (beginCommit j [] e).Ordinary k := by
  refine Eff.only_read.mpr fun s => ?_
  simp only [Eff.only_all, List.forall_mem_cons, Eff.only_read]
  refine ⟨by simp [setSetState], holdManifest_ordinary j, by simp, by simp, by simp [setWptr], by simp, fun t => ?_, fun _ h => nomatch h⟩
  split <;> simp

@[simp] theorem committed_ordinary (j : Nat) (e : EpochRun) : (committed j e).Ordinary k := by
  refine Eff.only_read.mpr fun s => ?_
  simp only [Eff.only_all, List.forall_mem_cons, Eff.only_each]
  exact ⟨by simp, by simp, by simp, by simp [setLastStatus], by simp, fun _ _ => by simp [setTail], onSet_ordinary fun _ _ => Nat.le_add_left 1 _, by simp, by simp,
    fun _ h => nomatch h⟩

@[simp] theorem advanceEpoch_ordinary (j : Nat) (e : EpochRun) : (advanceEpoch j [] e).Ordinary k := by
  refine Eff.only_read.mpr fun s => ?_
  dsimp only
  split
  · trivial
  · split
    · simp
    · simp only [Eff.only_ite]
      simp

/-! ### Definitions, adoptions and restores -/

@[simp] theorem installDef_ordinary (j q : Nat) (d : SetDef) (rings : List (Nat × Nat × Nat)) (n : Nat) : (installDef j q d rings (n + 1) []).Ordinary k := by
  refine Eff.only_read.mpr fun s => ⟨by simp, Eff.only_read.mpr fun t => ?_⟩
  split
  · exact ⟨onSet_ordinary fun _ h => h, by simp⟩
  · simp only [Eff.only_all, List.forall_mem_cons, Eff.only_each]
    exact ⟨by simp, by simp, fun _ _ => by simp [setWptr, setTail], by simp, by simp, onSet_ordinary fun _ _ => Nat.le_add_left 1 n, by simp, fun _ h => nomatch h⟩

@[simp] theorem adoptDone_ordinary (j : Nat) (a : AdoptRun) : (adoptDone j a).Ordinary k := by
  refine Eff.only_read.mpr fun s => ?_
  dsimp only
  split
  · exact ⟨onSet_ordinary fun _ h => h, by simp⟩
  · simp

@[simp] theorem advanceAdopt_ordinary (j : Nat) (a : AdoptRun) : (advanceAdopt j a).Ordinary k := by
  refine Eff.only_read.mpr fun s => ?_
  split
  · trivial
  split
  · simp only [Eff.only_all, List.forall_mem_cons]
    exact ⟨by simp, onSet_ordinary fun _ h => h, by simp, by simp, fun _ h => nomatch h⟩
  split
  · simp
  dsimp only
  split
  · simp
  split
  · trivial
  · simp only [Eff.only_all, List.forall_mem_cons]
    exact ⟨holdManifest_ordinary j, onSet_ordinary fun _ h => h, by simp, fun _ h => nomatch h⟩

/-- A failed check of the archive, counted. -/
theorem archiveCount_ordinary (s : State) (j : Nat) : (countAt (0xE0 + s.setOwner j) 0).Ordinary k :=
  countAt_ordinary (by omega) 0

@[simp] theorem applyExtent_ordinary (j : Nat) (rr : RestoreRun) (w : WantExtent) (x : List Byte) (buf : Nat) : (applyExtent j rr w x buf []).Ordinary k := by
  refine Eff.only_read.mpr fun s => ?_
  dsimp only
  split
  · exact Eff.only_ite.mpr ⟨fun _ => by simp [archiveCount_ordinary], fun _ => Eff.only_ite.mpr ⟨fun _ => trivial, fun _ => by simp⟩⟩
  · simp

@[simp] theorem beginExtents_ordinary (j : Nat) (r : RestoreRun) : (beginExtents j r []).Ordinary k := by
  refine Eff.only_read.mpr fun s => ?_
  dsimp only
  split
  · trivial
  · simp only [Eff.only_all, List.forall_mem_cons]
    refine ⟨by simp, by simp, ?_, fun _ h => nomatch h⟩
    split <;> simp

@[simp] theorem finishRestore_ordinary (j : Nat) (r : RestoreRun) : (finishRestore j r []).Ordinary k := by
  refine Eff.only_read.mpr fun s => ?_
  dsimp only
  split <;> simp

@[simp] theorem advanceRestore_ordinary (j : Nat) (r : RestoreRun) : (advanceRestore j [] r).Ordinary k := by
  refine Eff.only_read.mpr fun s => ?_
  have harchive := archiveCount_ordinary (k := k) s j
  have hhold := holdManifest_ordinary (k := k) j
  dsimp only
  refine Eff.only_ite.mpr ⟨fun _ => trivial, fun _ => ?_⟩
  split
  · simp
  refine Eff.only_ite.mpr ⟨fun _ => by simp, fun _ => Eff.only_ite.mpr ⟨fun _ => ?_, fun _ => Eff.only_ite.mpr ⟨fun _ => ?_, fun _ => ?_⟩⟩⟩
  · split
    · simp [hhold]
    · simp
  · split
    · simp [harchive]
    · split
      · split <;> simp
      · simp
  · split
    · simp
    · simp
    · refine Eff.only_ite.mpr ⟨fun _ => by simp [harchive], fun _ => ?_⟩
      split <;> simp

@[simp] theorem advanceSet_ordinary (j : Nat) : (advanceSet [] j).Ordinary k := by
  refine Eff.only_read.mpr fun s => ?_
  dsimp only
  split <;> simp

theorem pumpWharf_ordinary : pumpWharf.Ordinary k := by simp [pumpWith]
end

/-! ### DEFINE_SET of a list with reserved bytes -/

/-- A set list of one tensor: 32,768 BF16 elements at 0x200000. The last byte of its entry, which the entry's fields leave reserved, is 1. -/
def reservedList : List Byte :=
  zeros 128 ++ leBytes 128
    0x100000000000000000000000000000000000000000000000000000000000000000000000000000000000001000000010000000100008000000000000000000500000000000000000000000000000000000000000000000000000000000000020000000100000001000000010000800000000000010000000000000000200000

/-- DEFINE_SET of set 0 with that list at 0x10000, META at 0x400000 and one copy-on-write page at 0x500000. -/
def reservedEntry : Entry :=
  { idx := 0, bytes := 0x10000000000500000000000000040000000000000000000010000000000010000000000000000000000000000000000000000000000000200, stage := .fetched }

/-- A chip whose queue 0, a WHARF queue of basin 0, has that entry next, and whose set 0, UNDEFINED, would number its next epoch 0. -/
def reservedState : State :=
  { regs := [(rLckWin 0 0, 0xF#64), (rLckWin 0 1, 0x5FFFFF000#64), (rLckBasin 0, 1#64), (rQueCfg 0, 0x80040430#64), (rQueStatus 0, 1#64), (rWhfSetCfg 0, 0x110#64)]
    mem := memWrite [] 0x10000 reservedList
    dev := { whf := { sets := [(0, { nextEpoch := 0 })] }, work := { queues := [(0, { owed := [reservedEntry] })] } } }

theorem granted_of_first {o : Option (Nat × Turn)} {q : Nat} (h : o.map Prod.fst = some q) : ∃ turn, o = some (q, turn) := by
  obtain ⟨p, rfl, rfl⟩ := Option.map_eq_some_iff.mp h
  exact ⟨p.2, rfl⟩

theorem reserved_granted : EntryGranted reservedState 0 3 reservedEntry :=
  ⟨by decide +kernel, by decide +kernel, by decide +kernel, granted_of_first (by decide +kernel)⟩

theorem reserved_defines : SetDefines reservedState 0 reservedEntry reservedList := by decide +kernel

/-- Nothing runs on a set, and nothing of it is to be undone. -/
def WSet.rests (w : WSet) : Bool := w.epoch.isNone && w.restore.isNone && w.adopt.isNone && !w.undo

theorem mget_of_all {α : Type} {p : α → Bool} {d : α} (hd : p d = true) (m : Map α) (h : (m.all fun e => p e.2) = true) (i : Nat) : p (mget d m i) = true := by
  induction m with
  | nil => exact hd
  | cons e m ih =>
    obtain ⟨i', v⟩ := e
    rw [List.all_cons, Bool.and_eq_true] at h
    by_cases heq : i' = i
    · simpa [mget, mget?, heq] using h.1
    · simpa [mget, mget?, heq] using ih h.2

/-- Where every set rests the wharf has nothing to do. -/
theorem pumpWharf_rests {s : State} (h : (s.dev.whf.sets.all fun e => e.2.rests) = true) : pumpWharf.run s = s := by
  have hset : ∀ j, (advanceSet [] j).run s = s := fun j => by
    have hrest : (s.wset j).rests = true := mget_of_all (p := WSet.rests) rfl _ h j
    simp only [WSet.rests, Bool.and_eq_true, Option.isNone_iff_eq_none, Bool.not_eq_true'] at hrest
    obtain ⟨⟨⟨hepoch, hrestore⟩, hadopt⟩, hundo⟩ := hrest
    simp [advanceSet, hepoch, hrestore, hadopt, hundo]
  exact Eff.run_each_still fun _ _ => Eff.run_each_still fun j _ => hset j

/-- The entry ends with a bad parameter, and the set is as it was. -/
theorem reserved_refused : (mget {} ((Eff.andThen (takeUp 0 (· == 0x200) fun e => .andThen (setStage 0 e.idx .running) (defineSet 0 [] e)) pumpWharf).run
    reservedState).dev.whf.sets 0).nextEpoch = 0 := by
  rw [Eff.run_andThen, pumpWharf_rests (by decide +kernel)]
  decide +kernel

/-- Refutes O37: the statement asks nothing of the reserved bytes 104 to 127 of a set-list entry, which DEFINE_SET checks; the entry then ends BAD_DESCRIPTOR and its set is
not defined. -/
theorem not_checkpointSets : ¬ Obligations.CheckpointSets := by
  rintro ⟨hdefine, -⟩
  obtain ⟨t, ht, u, ⟨-, -, -, hnext, -⟩, hrun⟩ := hdefine reservedState 0 reservedEntry reservedList reserved_granted (by decide +kernel) (by decide +kernel) reserved_defines
  obtain rfl := Host.Outcome.next.inj ht
  have hu : u.dev.whf.numbered 0 := Nat.le_of_eq (hnext.symm : 1 = (mget {} u.dev.whf.sets 0).nextEpoch)
  have htail := Eff.Ordinary.run (k := 0) (e := .andThen (finishCurrent 0 { status := 0, detail := (setDefOf reservedState reservedEntry reservedList).pageList.length }) pumpWharf)
    ⟨finishCurrent_ordinary _ _, pumpWharf_ordinary⟩ u hu
  rw [← hrun, Wharf.numbered] at htail
  rw [reserved_refused] at htail
  cases htail

end Sys2Proof.Machine
end

section
/-!
# Copies of armed pages, staging, drive commands and drive enabling (O38)
-/
namespace Sys2Proof.Machine
open Sys2Proof

variable {s : State}

/-! ### A copy of an armed page (R389, R390) -/

theorem onSet_frame (r : Nat → Bool) (k : Nat) (g : WSet → WSet) (s : State) : Frame r s ((onSet k g).run s) := Frame.of_dev _ r s

theorem onSet_out (k : Nat) (g : WSet → WSet) (s : State) : ((onSet k g).run s).out = s.out := rfl

theorem onSet_wset (k : Nat) (g : WSet → WSet) (s : State) : ((onSet k g).run s).wset k = g (s.wset k) := mget_mset ..

theorem actWrite_frame (b n : Nat) (s : State) : Frame (fun o => o == rMemActWr b) s ((actWrite b n).run s) := setReg_frame _ (by simp)

/-- The page is copied from `src` to `dst`, with its forms. -/
def movePage (b src dst : Nat) : Eff := .read fun s => Eff.all
  [ actWrite b 2048, writeHbm dst (s.bytes src 65536), Eff.each (List.range 16) fun j => setForm (dst / 4096 + j) (s.coded (src / 4096 + j)) ]

theorem movePage_run (b src dst : Nat) (s : State) : (movePage b src dst).run s =
    (Eff.each (List.range 16) fun j => setForm (dst / 4096 + j) (s.coded (src / 4096 + j))).run ((writeHbm dst (s.bytes src 65536)).run ((actWrite b 2048).run s)) := by
  rw [movePage, Eff.run_read, Eff.run_all_cons, Eff.run_all_cons, Eff.run_all_cons, Eff.run_all_done]

theorem movePage_only {r : Act → Prop} {b src dst : Nat} (hact : (actWrite b 2048).Only r) (hwrite : ∀ bs, (writeHbm dst bs).Only r) (hdev : ∀ f, r (.dev f)) :
    (movePage b src dst).Only r := by
  simp [movePage, hact, hwrite, setForm, onCodec, hdev]

theorem movePage_noGate (b src dst : Nat) : (movePage b src dst).Only Act.NoGate :=
  movePage_only (by simp [actWrite, Act.NoGate]) (writeHbm_noGate dst) fun _ => trivial

theorem movePage_within (b src dst : Nat) : (movePage b src dst).Only (Act.Within fun o => o == rMemActWr b) :=
  movePage_only (by simp [actWrite, Act.Within]) (writeHbm_within _ dst) fun _ => trivial

theorem movePage_silent (b src dst : Nat) : (movePage b src dst).Only Act.Silent :=
  movePage_only (by simp [actWrite]) (writeHbm_silent dst) fun _ => trivial

theorem State.length_bytes (s : State) (a n : Nat) : (s.bytes a n).length = n := by simp [State.bytes]

theorem State.getD_bytes (s : State) (a : Nat) {n i : Nat} (h : i < n) : (s.bytes a n).getD i 0#8 = s.byte (a + i) := by
  simp [State.bytes, h]

/-- Forms are no bytes. -/
theorem setForms_mem (xs : List Nat) (page : Nat → Nat) (coded : Nat → Bool) (s : State) :
    ((Eff.each xs fun j => setForm (page j) (coded j)).run s).mem = s.mem := by
  induction xs generalizing s with
  | nil => rfl
  | cons x xs ih => rw [Eff.run_each_cons, ih]; rfl

theorem movePage_byte (h : s.poison = []) (b src : Nat) {dst : Nat} (hd : dst + 65536 ≤ hbmSize) (x : Nat) :
    ((movePage b src dst).run s).byte x = if dst ≤ x ∧ x < dst + 65536 then s.byte (src + (x - dst)) else s.byte x := by
  have hact := actWrite_frame b 2048 s
  have hclean := (writeHbm_clean (s := (actWrite b 2048).run s) (a := dst) (bs := s.bytes src 65536) (hact.1.2.trans h) (by rw [State.length_bytes]; exact hd)).2 x
  rw [movePage_run, State.byte, setForms_mem]
  rw [State.length_bytes] at hclean
  refine hclean.trans ?_
  split
  case isTrue hx => rw [State.getD_bytes _ _ (by omega)]
  case isFalse => exact hact.1.1 x

/-- The set after its page has been copied. -/
def WSet.copied (page c : Nat) (w : WSet) : WSet := { w with
  armed := w.armed.filter fun p => p != page, copies := w.copies ++ [(page, c)], stalled := sdel w.stalled page }

/-- The chip after a page of a set has been copied to a free copy page. -/
def State.cowMoved (s : State) (k page c : Nat) : State :=
  (onSet k (WSet.copied page c)).run ((bumpFld (rWhfSetStalls k) 0 32 1).run
    ((movePage (s.setOwner k) (65536 * page) ((s.wset k).defn.cowAddr + 65536 * c)).run ((actRead (s.setOwner k) 2048).run s)))

theorem cowCopy_moves {k page c : Nat} (hm : page ∈ (s.wset k).armed) (hc : (s.wset k).freeCow = some c) (hp : s.poison = []) :
    (cowCopy k page []).run s = pumpWharf.run (s.cowMoved k page c) := by
  have hclean : ((actRead (s.setOwner k) 2048).run s).anyPoison (65536 * page) 65536 = false := anyPoison_clean ((actRead_frame _ _ s).1.2.trans hp) _ _
  rw [cowCopy, Eff.run_read]
  dsimp only
  rw [if_neg (by simpa using hm), hc]
  dsimp only
  rw [Eff.run_all_cons, Eff.run_all_cons, Eff.run_all_cons, Eff.run_all_done, readSectors_clean hp, Eff.run_read, hclean, if_neg (by decide),
    Eff.run_all_cons, Eff.run_all_cons, Eff.run_all_cons, Eff.run_all_cons, Eff.run_all_cons, Eff.run_all_cons, Eff.run_all_done, State.cowMoved, movePage_run]
  rfl

theorem State.cowMoved_byte {k page c : Nat} (hp : s.poison = []) (hd : (s.wset k).defn.cowAddr + 65536 * c + 65536 ≤ hbmSize) (x : Nat) :
    (s.cowMoved k page c).byte x = if (s.wset k).defn.cowAddr + 65536 * c ≤ x ∧ x < (s.wset k).defn.cowAddr + 65536 * c + 65536
      then s.byte (65536 * page + (x - ((s.wset k).defn.cowAddr + 65536 * c))) else s.byte x := by
  rw [State.cowMoved, (onSet_frame (fun _ => true) k _ _).1.1, (bumpFld_frame (r := fun _ => true) rfl 0 32 1 _).1.1, movePage_byte ((actRead_frame _ _ s).1.2.trans hp) _ _ hd]
  simp only [(actRead_frame (s.setOwner k) 2048 s).1.1]

theorem cowCopy_completes {k page c : Nat} (hk : k < 16) (hm : page ∈ (s.wset k).armed) (hc : (s.wset k).freeCow = some c) (hp : s.poison = [])
    (hd : (s.wset k).defn.cowAddr + 65536 * c + 65536 ≤ hbmSize) :
    Completes (.cowCopy k page []) s (Reaching (fun t =>
      (∀ i, i < 65536 → t.byte ((s.wset k).defn.cowAddr + 65536 * c + i) = s.byte (65536 * page + i)) ∧
      (∀ a, (a < (s.wset k).defn.cowAddr + 65536 * c ∨ (s.wset k).defn.cowAddr + 65536 * c + 65536 ≤ a) → t.byte a = s.byte a) ∧
      ¬ page ∈ (t.wset k).armed ∧ (page, c) ∈ (t.wset k).copies ∧ t.fld (rWhfSetStalls k) 0 32 = satAdd 32 (s.fld (rWhfSetStalls k) 0 32) 1 ∧
      SameGates s t ∧ RegsBut (fun o => o == rWhfSetStalls k || o == rMemActRd (s.setOwner k) || o == rMemActWr (s.setOwner k)) s t ∧ t.out = s.out) pumpWharf) := by
  have howner := s.setOwner_lt k
  have hread := actRead_frame (s.setOwner k) 2048 s
  have hbyte := fun x => State.cowMoved_byte (page := page) hp hd x
  have hset : (s.cowMoved k page c).wset k = WSet.copied page c _ := onSet_wset k _ _
  have hgate := (movePage_noGate (s.setOwner k) (65536 * page) ((s.wset k).defn.cowAddr + 65536 * c)).sameGates ((actRead (s.setOwner k) 2048).run s)
  have hregs := (movePage_within (s.setOwner k) (65536 * page) ((s.wset k).defn.cowAddr + 65536 * c)).regsBut ((actRead (s.setOwner k) 2048).run s)
  have hcount : (rWhfSetStalls k == rMemActWr (s.setOwner k)) = false ∧ (rWhfSetStalls k == rMemActRd (s.setOwner k)) = false := by
    simp only [rWhfSetStalls, rMemActWr, rMemActRd, beq_eq_false_iff_ne]; omega
  refine ⟨_, congrArg Host.Outcome.next (cowCopy_moves hm hc hp), _, ⟨fun i hi => ?_, fun a ha => ?_, ?_, ?_, ?_, ?_, ?_, ?_⟩, rfl⟩
  · rw [hbyte, if_pos (by omega), Nat.add_sub_cancel_left]
  · rw [hbyte, if_neg (by omega)]
  · rw [hset]
    simp [WSet.copied]
  · rw [hset]
    simp [WSet.copied]
  · rw [State.cowMoved, (onSet_frame (fun _ => false) k _ _).fld rfl, State.fld_bumpFld 1 (by decide), State.fld, hregs _ hcount.1, hread.2.2 _ hcount.2]
    rfl
  · exact hread.2.1.trans (hgate.trans ((bumpFld_frame (r := fun _ => true) rfl 0 32 1 _).2.1.trans (onSet_frame (fun _ => true) k _ _).2.1))
  · intro o ho
    simp only [Bool.or_eq_false_iff] at ho
    obtain ⟨⟨ho1, ho2⟩, ho3⟩ := ho
    rw [State.cowMoved, (onSet_frame (fun _ => false) k _ _).2.2 o rfl, (bumpFld_frame (r := fun o => o == rWhfSetStalls k) (by simp) 0 32 1 _).2.2 o ho1, hregs o ho3, hread.2.2 o ho2]
  · rw [State.cowMoved, onSet_out, bumpFld_out, (movePage_silent _ _ _).out, actRead_out]

/-! ### A drive's completion (R383) -/

theorem onDrive_frame (r : Nat → Bool) (d : Nat) (g : Drive → Drive) (s : State) : Frame r s ((onDrive d g).run s) := Frame.of_dev _ r s

theorem onDrive_out (d : Nat) (g : Drive → Drive) (s : State) : ((onDrive d g).run s).out = s.out := rfl

theorem onDrive_drive (d : Nat) (g : Drive → Drive) (s : State) : ((onDrive d g).run s).drive d = g (s.drive d) := mget_mset ..

theorem State.drive_of_dev {t : State} (h : t.dev = s.dev) (d : Nat) : t.drive d = s.drive d := by rw [State.drive, h, State.drive]

theorem showDrive_frame {r : Nat → Bool} {d : Nat} (h : r (rWhfDrvStatus d) = true) (s : State) : Frame r s ((showDrive d).run s) := by
  rw [showDrive, Eff.run_read]
  exact putFld_frame h ..

theorem showDrive_dev (d : Nat) (s : State) : ((showDrive d).run s).dev = s.dev := by rw [showDrive, Eff.run_read, putFld_dev]

theorem showDrive_out (d : Nat) (s : State) : ((showDrive d).run s).out = s.out := by rw [showDrive, Eff.run_read, putFld_out]

/-- PF0 writes no doorbell without Bus Master Enable (R607). -/
theorem driveDoorbell_masked (h : s.busMaster 0 = false) (off v : Nat) : (driveDoorbell off v).run s = s := by
  rw [driveDoorbell, Eff.run_read, h, if_neg (by decide), Eff.run_skipped]

/-- The completion entry at the head of a drive's completion ring. -/
def State.cqe (s : State) (d : Nat) : List Byte := s.sram (0x880000 + 0x10000 * d + 16 * (s.drive d).cqHead) 16

/-- A drive after the completion at its head has been taken. -/
def Drive.taken (n : Nat) (x : List Byte) (k : Drive) : Drive := { k with
  cqHead := (k.cqHead + 1) % n, phase := if (k.cqHead + 1) % n = 0 then !k.phase else k.phase, sqHead := bitsOf (getLe x 8 4) 0 16 % n }

/-- A drive without the command that a completion names. -/
def Drive.without (x : List Byte) (k : Drive) : Drive := { k with cmds := k.cmds.eraseP fun c => c.cid == bitsOf (getLe x 12 4) 0 16 }

/-- The chip after a drive's completion has been taken and counted, its command taken away. -/
def State.completed (s : State) (d : Nat) : State :=
  (showDrive d).run ((onDrive d (Drive.without (s.cqe d))).run ((bumpReg (rWhfDrvDone d) 64 1).run ((onDrive d (Drive.taken (s.drvDepth d) (s.cqe d))).run s)))

theorem nvmeCompletion_ok {d : Nat} {c : DrvCmd} (hr : s.drvState d = 1) (hphase : bitOf (getLe (s.cqe d) 12 4) 16 = (s.drive d).phase) (hok : bitsOf (getLe (s.cqe d) 12 4) 17 15 = 0)
    (hc : (s.drive d).cmds.find? (fun x => x.cid == bitsOf (getLe (s.cqe d) 12 4) 0 16) = some c) (hb : s.busMaster 0 = false) (es : List EccEvent) :
    (nvmeCompletion d es).run s = (Eff.andThen (if c.again = true then placeCmd d { c with again := false, tick := s.now } else cmdDone d c es) (pumpWith es)).run (s.completed d) := by
  have hmask := driveDoorbell_masked (s := (onDrive d (Drive.taken (s.drvDepth d) (s.cqe d))).run s) hb (rWhfDrvCqdb d) (((s.drive d).cqHead + 1) % s.drvDepth d)
  rw [State.cqe] at hphase hok hc
  rw [nvmeCompletion, Eff.run_read]
  dsimp only
  rw [if_neg (by simp [hr, hphase]), hc]
  dsimp only
  rw [hok, Eff.run_all_cons, Eff.run_all_cons, Eff.run_all_cons, Eff.run_all_cons, Eff.run_all_done, Eff.run_andThen, State.completed]
  refine congrArg (pumpWith es).run ?_
  refine (congrArg (Eff.run _) hmask).trans ?_
  cases hagain : c.again
  · rw [Bool.and_false, if_neg (by decide), if_pos (by decide), if_neg (by decide), Eff.run_all_cons, Eff.run_all_cons, Eff.run_all_cons, Eff.run_all_done, Eff.run_andThen]
    rfl
  · rw [Bool.and_true, if_pos (by decide), if_pos rfl, Eff.run_all_cons, Eff.run_all_cons, Eff.run_all_cons, Eff.run_all_done, Eff.run_andThen]
    rfl

theorem State.completed_drive (d : Nat) : (s.completed d).drive d = Drive.without (s.cqe d) (Drive.taken (s.drvDepth d) (s.cqe d) (s.drive d)) := by
  rw [State.completed, State.drive_of_dev (showDrive_dev ..), onDrive_drive, bumpReg_run, State.drive_of_dev (Act.setReg_dev ..), onDrive_drive]

theorem nvmeCompletion_completes {d : Nat} {c : DrvCmd} (hr : s.drvState d = 1) (hphase : bitOf (getLe (s.cqe d) 12 4) 16 = (s.drive d).phase)
    (hok : bitsOf (getLe (s.cqe d) 12 4) 17 15 = 0) (hc : (s.drive d).cmds.find? (fun x => x.cid == bitsOf (getLe (s.cqe d) 12 4) 0 16) = some c) (hb : s.busMaster 0 = false)
    (es : List EccEvent) :
    Completes (.nvmeCompletion d es) s (Reaching (fun u => u.reg (rWhfDrvDone d) = w64 (satAdd 64 (s.reg (rWhfDrvDone d)).toNat 1) ∧
        (u.drive d).cmds = (s.drive d).cmds.eraseP (fun x => x.cid == c.cid) ∧ (u.drive d).cqHead = ((s.drive d).cqHead + 1) % s.drvDepth d ∧
        Frame (fun o => o == rWhfDrvDone d || o == rWhfDrvStatus d) s u ∧ u.out = s.out)
      (.andThen (if c.again = true then placeCmd d { c with again := false, tick := s.now } else cmdDone d c es) (pumpWith es))) := by
  have hcid : c.cid = bitsOf (getLe (s.cqe d) 12 4) 0 16 := by simpa using List.find?_some hc
  refine ⟨_, congrArg Host.Outcome.next (nvmeCompletion_ok hr hphase hok hc hb es), s.completed d, ⟨?_, ?_, ?_, ?_, ?_⟩, rfl⟩
  · rw [State.completed, (showDrive_frame (r := fun o => o == rWhfDrvStatus d) (by simp) _).2.2 _ (by simp [rWhfDrvDone, rWhfDrvStatus]),
      (onDrive_frame (fun _ => false) d _ _).2.2 _ rfl, bumpReg_run, State.reg_setReg, (onDrive_frame (fun _ => false) d _ _).2.2 _ rfl]
  · rw [State.completed_drive, hcid]
    rfl
  · rw [State.completed_drive]
    rfl
  · rw [State.completed, bumpReg_run]
    exact (((onDrive_frame _ d _ s).trans (setReg_frame _ (by simp))).trans (onDrive_frame _ d _ _)).trans (showDrive_frame (by simp) _)
  · rw [State.completed, showDrive_out, onDrive_out, bumpReg_run, Act.setReg_out, onDrive_out]

/-! ### A command out of time (R384) -/

/-- A drive has FAILED, with DRIVE_ERROR. -/
def driveFails (d : Nat) : Eff := .andThen (putFld (rWhfDrvStatus d) 0 2 2) (putFld (rWhfDrvStatus d) 12 8 0x32)

theorem driveFails_frame (d : Nat) (s : State) : Frame (fun o => o == rWhfDrvStatus d) s ((driveFails d).run s) := by
  rw [driveFails, Eff.run_andThen]
  exact (putFld_frame (by simp) ..).trans (putFld_frame (by simp) ..)

theorem nvmeTimeout_late {d : Nat} (hr : s.drvState d = 1) (hlate : ((s.drive d).cmds.any fun c => decide (c.tick + 2 ^ s.fld rWhfCfg 3 6 ≤ s.now)) = true) :
    (nvmeTimeout d).run s = (Eff.andThen (dropDrive d true) pumpWharf).run ((countAt 0x23 d).run ((driveFails d).run s)) := by
  rw [nvmeTimeout, Eff.run_read, if_pos (by rw [hr, hlate]; rfl), Eff.run_all_cons, Eff.run_all_cons, Eff.run_all_cons, Eff.run_all_cons, Eff.run_all_cons, Eff.run_all_done,
    driveFails, Eff.run_andThen, Eff.run_andThen]

theorem nvmeTimeout_completes {d : Nat} (hd : d < 8) (hr : s.drvState d = 1) (hlate : ((s.drive d).cmds.any fun c => decide (c.tick + 2 ^ s.fld rWhfCfg 3 6 ≤ s.now)) = true)
    (hi : s.dev.flt.ignored.contains 0x23 = false) :
    Completes (.nvmeTimeout d) s (Reaching (fun u => u.drvState d = 2 ∧ u.fld (rWhfDrvStatus d) 12 8 = 0x32 ∧
        u.reg (rFltEvents 0x23) = w64 (satAdd 32 (s.reg (rFltEvents 0x23)).toNat 1) ∧ SameHbm s u ∧ SameGates s u)
      (.andThen (dropDrive d true) pumpWharf)) := by
  have hfails := driveFails_frame d s
  have hcount := countAt_frame (src := 0x23) (by decide) (by decide) (by decide) d ((driveFails d).run s)
  have hapart : fltBlock (rWhfDrvStatus d) = false := by simp [fltBlock, rWhfDrvStatus]; omega
  have hdev : ((driveFails d).run s).dev = s.dev := by rw [driveFails, Eff.run_andThen, putFld_dev, putFld_dev]
  refine ⟨_, congrArg Host.Outcome.next (nvmeTimeout_late hr hlate), _, ⟨?_, ?_, ?_, hfails.1.trans hcount.1, hfails.2.1.trans hcount.2.1⟩, rfl⟩
  · rw [State.drvState, hcount.fld hapart, driveFails, Eff.run_andThen, State.fld_putFld_apart _ (by decide) (by decide), State.fld_putFld_lt (by decide) (by decide)]
  · rw [hcount.fld hapart, driveFails, Eff.run_andThen, State.fld_putFld_lt (by decide) (by decide)]
  · rw [countAt_events d (by decide) (by decide) (by decide) (by rw [hdev]; exact hi), hfails.2.2 _ (by simp [rFltEvents, rWhfDrvStatus]; omega)]

/-! ### Enabling and disabling a drive (R381, R384) -/

/-- The chip after a drive has been enabled. -/
def State.driveEnabled (s : State) (d : Nat) : State := (onDrive d fun _ => {}).run ((wakeNode 5).run ((putReg (rWhfDrvStatus d) 1).run s))

theorem driveEnable_ready {d : Nat} (h0 : s.drvState d = 0) (hs : outbound (s.reg (rWhfDrvSqdb d)).toNat = true) (hc : outbound (s.reg (rWhfDrvCqdb d)).toNat = true)
    (hrid : s.fld (rWhfDrvCtrl d) 16 16 ≠ 0)
    (hpass : s.firstRefusal 0 [⟨(s.reg (rWhfDrvSqdb d)).toNat, (s.reg (rWhfDrvSqdb d)).toNat + 3, rightW⟩,
      ⟨(s.reg (rWhfDrvCqdb d)).toNat, (s.reg (rWhfDrvCqdb d)).toNat + 3, rightW⟩] = none) :
    (driveEnable d).run s = s.driveEnabled d := by
  rw [driveEnable, Eff.run_read]
  dsimp only
  rw [if_neg (by simp [h0]), if_neg (by simp [hs, hc, hrid]), checkUnits_pass hpass, Eff.run_all_cons, Eff.run_all_cons, Eff.run_all_cons, Eff.run_all_done, State.driveEnabled]

theorem driveEnable_completes {rd d : Nat} {l : Loc} (hd : d < 8) (hw : Writes s rd (rWhfDrvCmd d) l) (h0 : s.drvState d = 0)
    (hs : outbound (s.reg (rWhfDrvSqdb d)).toNat = true) (hc : outbound (s.reg (rWhfDrvCqdb d)).toNat = true) (hrid : s.fld (rWhfDrvCtrl d) 16 16 ≠ 0)
    (hpass : s.firstRefusal 0 [⟨(s.reg (rWhfDrvSqdb d)).toNat, (s.reg (rWhfDrvSqdb d)).toNat + 3, rightW⟩,
      ⟨(s.reg (rWhfDrvCqdb d)).toNat, (s.reg (rWhfDrvCqdb d)).toNat + 3, rightW⟩] = none) :
    Completes (.driveEnable rd d) s fun t => t.reg (rWhfDrvStatus d) = 1#64 ∧ t.drive d = {} ∧
      Frame (fun o => o == rWhfDrvStatus d || o == rClkGate || o == rClkGateStatus) s t ∧ t.out = s.out := by
  have hready : (driveEnable d).run (s.written rd l) = (s.written rd l).driveEnabled d := driveEnable_ready (by rw [State.drvState, State.written_fld]; exact h0)
    (by rw [State.written_reg]; exact hs) (by rw [State.written_reg]; exact hc) (by rw [State.written_fld]; exact hrid)
    (by rw [State.firstRefusal_written, State.written_reg, State.written_reg]; exact hpass)
  refine ⟨_, congrArg Host.Outcome.next ((writeReg_run hw _).trans hready), ?_, onDrive_drive d _ _, ?_, ?_⟩
  · rw [State.driveEnabled, (onDrive_frame (fun _ => false) d _ _).2.2 _ rfl,
      (wakeNode_frame (r := fun o => o == rClkGate || o == rClkGateStatus) (by simp) (by simp) 5 _).2.2 _
        (by simp only [Bool.or_eq_false_iff, beq_eq_false_iff_ne, rWhfDrvStatus, rClkGate, rClkGateStatus]; omega), putReg_reg]
    rfl
  · exact (((s.written_frame rd l _).trans (putReg_frame (by simp) 1 _)).trans (wakeNode_frame (by simp) (by simp) 5 _)).trans (onDrive_frame _ d _ _)
  · rw [State.driveEnabled, onDrive_out, wakeNode_out, putReg_out, State.written_out]

theorem showWharf_frame {r : Nat → Bool} (h : r rWhfStatus = true) (s : State) : Frame r s (showWharf.run s) := by
  rw [showWharf, Eff.run_read]
  exact putReg_frame h ..

theorem showWharf_dev (s : State) : (showWharf.run s).dev = s.dev := by rw [showWharf, Eff.run_read, putReg_dev]

theorem showWharf_out (s : State) : (showWharf.run s).out = s.out := by rw [showWharf, Eff.run_read, putReg_out]

theorem dropDrive_only {r : Act → Prop} {d : Nat} (hdev : ∀ f, r (.dev f)) (hdrive : ∀ v, r (.setReg (rWhfDrvStatus d) v)) (hwhf : ∀ v, r (.setReg rWhfStatus v))
    (keep : Bool) : (dropDrive d keep).Only r := by
  simp [dropDrive, onWhf, onDrive, showDrive, showWharf, failRun, onSet, hdev, hdrive, hwhf]

/-- The chip after a drive has been disabled, before the sets that used it end. -/
def State.driveDisabled (s : State) (d : Nat) : State :=
  showWharf.run ((putReg (rWhfDrvStatus d) 0).run ((onDrive d fun _ => {}).run
    ((onWhf fun w => { w with quarantined := w.quarantined.filter fun e => e.2 != d }).run ((dropDrive d false).run s))))

theorem driveDisable_run (d : Nat) (s : State) : (driveDisable d).run s = pumpWharf.run (s.driveDisabled d) := by
  rw [driveDisable, Eff.run_all_cons, Eff.run_all_cons, Eff.run_all_cons, Eff.run_all_cons, Eff.run_all_cons, Eff.run_all_cons, Eff.run_all_done, State.driveDisabled]

theorem State.driveDisabled_dev (d : Nat) : (s.driveDisabled d).dev = ((onDrive d fun _ => {}).run
    ((onWhf fun w => { w with quarantined := w.quarantined.filter fun e => e.2 != d }).run ((dropDrive d false).run s))).dev := by
  rw [State.driveDisabled, showWharf_dev, putReg_dev]

theorem driveDisable_completes {rd d : Nat} {l : Loc} (hw : Writes s rd (rWhfDrvCmd d) l) :
    Completes (.driveDisable rd d) s (Reaching (fun u => u.reg (rWhfDrvStatus d) = 0#64 ∧ u.drive d = {} ∧ (∀ x ∈ u.dev.whf.quarantined, x.2 ≠ d) ∧
      Frame (fun o => o == rWhfDrvStatus d || o == rWhfStatus) s u ∧ u.out = s.out) pumpWharf) := by
  have hdrop : ∀ v, Frame (fun o => o == rWhfDrvStatus d || o == rWhfStatus) v ((dropDrive d false).run v) := fun v =>
    (dropDrive_only (fun _ => Act.local_dev) (by simp) (by simp) false).frame v
  have hquiet : ((dropDrive d false).run (s.written rd l)).out = s.out :=
    ((dropDrive_only (fun _ => trivial) (fun _ => trivial) (fun _ => trivial) false).out _).trans (s.written_out rd l)
  refine ⟨_, congrArg Host.Outcome.next ((writeReg_run hw _).trans (driveDisable_run d _)), (s.written rd l).driveDisabled d, ⟨?_, ?_, fun x hx => ?_, ?_, ?_⟩, rfl⟩
  · rw [State.driveDisabled, (showWharf_frame (r := fun o => o == rWhfStatus) (by simp) _).2.2 _ (by simp [rWhfStatus, rWhfDrvStatus]; omega), putReg_reg]
    rfl
  · rw [State.drive_of_dev (State.driveDisabled_dev d), onDrive_drive]
  · rw [State.driveDisabled_dev] at hx
    simpa using (List.mem_filter.mp hx).2
  · exact ((((s.written_frame rd l _).trans (hdrop _)).trans ((Frame.of_dev _ _ _).trans (onDrive_frame _ d _ _))).trans (putReg_frame (by simp) 0 _)).trans
      (showWharf_frame (by simp) _)
  · rw [State.driveDisabled, showWharf_out, putReg_out, onDrive_out]
    exact hquiet

/-! ### The staging of an extent (R391, R392) -/

/-- A set without the page that has been staged. -/
def WSet.staged (w : WSet) : WSet := match w.copies with
  | _ :: cs => { w with copies := cs }
  | [] => { w with armed := w.armed.drop 1 }

theorem WSet.staged_armed {w : WSet} (h : w.copies = []) : w.staged.armed = w.armed.drop 1 := by
  rw [WSet.staged, h]

/-- What the staging of an extent does before its drive command: the set moves on, the codec counts the units, a buffer takes the extent, and WPTR moves. -/
def stagePrepare (k i b d : Nat) (w : WSet) (units : List ((Bool × List Byte) × List Byte)) (x : List Byte) (ptr : Nat) : Eff := Eff.all
  [ onSet k WSet.staged, onEpoch k (fun e => { e with next := e.next + 1 }), Eff.each units fun p => setUnitCoded b w.defn p.1 p.2, takeBuf i, sramPut (bufAt i) x, setWptr k d ptr ]

section
variable {k i b d : Nat} {w : WSet} {units : List ((Bool × List Byte) × List Byte)} {x : List Byte} {ptr : Nat}

/-- The registers that the staging writes. -/
def stageRegs (k b d : Nat) (o : Nat) : Bool :=
  o == rCdcBlocks b 0 || o == rCdcBlocks b 1 || o == rCdcSurvey b || o == rWhfStatus || o == rWhfSetRing k d

theorem setUnitCoded_only {r : Act → Prop} (hdev : ∀ f : Codec → Codec, (onCodec f).Only r) (hreg : ∀ o v, stageRegs k b d o = true → r (.setReg o v)) (f : SetDef)
    (u : Bool × List Byte) (bs : List Byte) : (setUnitCoded b f u bs).Only r := by
  have hblocks : ∀ j v, j < 2 → r (.setReg (rCdcBlocks b j) v) := fun j v hj => hreg _ v (by
    have hj' : j = 0 ∨ j = 1 := by omega
    rcases hj' with rfl | rfl <;> simp [stageRegs])
  simp only [setUnitCoded, surveyUnit, Eff.only_when, Eff.only_andThen, Eff.only_read, bumpReg_only]
  refine fun _ => ⟨fun s => hblocks _ _ (by split <;> decide), fun s => Eff.only_ite.mpr ⟨fun _ => ⟨hdev _, ?_⟩, fun _ => trivial⟩⟩
  rw [bumpFld_only]
  exact fun _ _ => hreg _ _ (by simp [stageRegs])

theorem stagePrepare_local : (stagePrepare k i b d w units x ptr).Only (Act.Local (stageRegs k b d)) := by
  have hcoded := fun f u bs => setUnitCoded_only (k := k) (b := b) (d := d) (r := Act.Local (stageRegs k b d)) (fun _ => Act.local_dev) (fun o v h => by simpa using h) f u bs
  simp [stagePrepare, hcoded, onEpoch, onSet, takeBuf, onWhf, showWharf, sramPut, setWptr, stageRegs]

theorem stagePrepare_armed (s : State) : (((stagePrepare k i b d w units x ptr).run s).wset k).armed = (s.wset k).staged.armed := by
  have hcoded := fun f u bs => setUnitCoded_only (k := k) (b := b) (d := d) (r := Act.Keeps fun y => (mget {} y.whf.sets k).armed) (fun _ => onDev_only.mpr fun _ => rfl)
    (fun _ _ _ => trivial) f u bs
  have hkeep := Eff.Only.devKeeps (p := fun y => (mget {} y.whf.sets k).armed) (e := Eff.all [onEpoch k (fun e => { e with next := e.next + 1 }),
    Eff.each units fun p => setUnitCoded b w.defn p.1 p.2, takeBuf i, sramPut (bufAt i) x, setWptr k d ptr])
    (by simp [hcoded, onEpoch, onSet, takeBuf, onWhf, showWharf, sramPut, setWptr, mget_mset]) ((onSet k WSet.staged).run s)
  exact hkeep.trans (congrArg WSet.armed (onSet_wset k WSet.staged s))

theorem stagePrepare_inUse (s : State) : i ∈ ((stagePrepare k i b d w units x ptr).run s).dev.whf.inUse := by
  rw [stagePrepare, Eff.run_all_cons, Eff.run_all_cons, Eff.run_all_cons, Eff.run_all_cons]
  have honly : (Eff.all [sramPut (bufAt i) x, setWptr k d ptr]).Only (Act.Keeps fun y => y.whf.inUse) := by simp [sramPut, onWhf, setWptr]
  rw [honly.devKeeps, takeBuf, Eff.run_andThen, showWharf_dev]
  exact mem_sins.mpr (.inl rfl)

theorem stagePrepare_drive (s : State) (j : Nat) : ((stagePrepare k i b d w units x ptr).run s).drive j = s.drive j := by
  have hcoded := fun f u bs => setUnitCoded_only (k := k) (b := b) (d := d) (r := Act.Keeps fun y => mget {} y.whf.drives j) (fun _ => onDev_only.mpr fun _ => rfl)
    (fun _ _ _ => trivial) f u bs
  have honly : (stagePrepare k i b d w units x ptr).Only (Act.Keeps fun y => mget {} y.whf.drives j) := by
    simp [stagePrepare, hcoded, onEpoch, onSet, takeBuf, onWhf, showWharf, sramPut, setWptr]
  exact honly.devKeeps s
end

theorem sramPut_drive (a : Nat) (bs : List Byte) (s : State) (d : Nat) : ((sramPut a bs).run s).drive d = s.drive d := rfl

theorem placeCmd_drive (d : Nat) (c : DrvCmd) (s : State) : ((placeCmd d c).run s).drive d =
    { s.drive d with sqTail := ((s.drive d).sqTail + 1) % s.drvDepth d, cmds := (s.drive d).cmds ++ [c] } := by
  have htail : ∀ n, (Eff.all [showDrive d, driveDoorbell (rWhfDrvSqdb d) n]).Only (Act.Keeps fun y => mget {} y.whf.drives d) := fun n => by
    simp [showDrive, driveDoorbell, sendWrite]
  rw [placeCmd, Eff.run_read]
  dsimp only
  rw [Eff.run_all_cons, Eff.run_all_cons, Eff.run_all_cons, State.drive, (htail _).devKeeps, ← State.drive, onDrive_drive, sramPut_drive, sramPut_drive]

theorem placeCmd_local (d : Nat) (c : DrvCmd) : (placeCmd d c).Only (Act.Local fun o => o == rWhfDrvStatus d) := by
  simp [placeCmd, sramPut, onWhf, onDrive, showDrive, driveDoorbell, sendWrite]

theorem placeCmd_keeps {α : Type} (p : Dev → α) (hdrive : ∀ d v, p { d with whf := { d.whf with drives := v } } = p d)
    (hram : ∀ d v, p { d with whf := { d.whf with sram := v } } = p d) (d : Nat) (c : DrvCmd) : (placeCmd d c).Only (Act.Keeps p) := by
  simp [placeCmd, sramPut, onWhf, onDrive, showDrive, driveDoorbell, sendWrite, hdrive, hram]

theorem State.setDrive_lt (s : State) (k n : Nat) : (s.setDrives k).getD n 0 < 8 := by
  rcases Nat.lt_or_ge n (s.setDrives k).length with hn | hn
  · rw [getD_of_lt hn]
    exact List.mem_range.mp (List.mem_filter.mp (List.getElem_mem hn)).1
  · rw [getD_of_le hn]
    decide

theorem submit_prepared (k i b d : Nat) (w : WSet) (units : List ((Bool × List Byte) × List Byte)) (x : List Byte) (ptr op slba nlb buf cid : Nat) (role : DrvRole) (s : State) :
    (submit d op slba nlb buf cid role).run ((setWptr k d ptr).run ((sramPut (bufAt i) x).run ((takeBuf i).run ((Eff.each units fun p => setUnitCoded b w.defn p.1 p.2).run
      ((onEpoch k fun e => { e with next := e.next + 1 }).run ((onSet k WSet.staged).run s)))))) =
    (placeCmd d { cid := cid, op := op, slba := slba, nlb := nlb, buf := buf, sends := 1, tick := ((stagePrepare k i b d w units x ptr).run s).now, role := role }).run
      ((stagePrepare k i b d w units x ptr).run s) := by
  rw [stagePrepare, Eff.run_all_cons, Eff.run_all_cons, Eff.run_all_cons, Eff.run_all_cons, Eff.run_all_cons, Eff.run_all_cons, Eff.run_all_done, submit, Eff.run_read]

/-- The staging of the next page, uncoded, makes one drive command. -/
theorem stageExtent_stages {k p i d ti ext : Nat} {e : EpochRun} {x : WTensor} (he : (s.wset k).epoch = some e) (hf : e.fail = none) (h3 : s.setState k = 3)
    (hcopies : (s.wset k).copies = []) (harmed : (s.wset k).armed.head? = some p) (hpage : pageExtent p 0 (s.wset k).defn.tensors = some (ti, x, ext)) (hbuf : s.freeBuf = some i)
    (hd : d = (s.setDrives k).getD (e.next % (s.setDrives k).length) 0) (hr : s.drvState d = 1) (hroom : s.drvRoom d = true) (hp : s.poison = []) (hraw : s.dev.codec.coded = []) :
    ∃ units xs ptr c, (stageExtent k []).run s =
      (placeCmd d c).run ((stagePrepare k i (s.setOwner k) d (s.wset k) units xs ptr).run ((actRead (s.setOwner k) 2048).run s)) := by
  obtain ⟨rest, hlist⟩ : ∃ rest, (s.wset k).armed = p :: rest := by
    cases hl : (s.wset k).armed with
    | nil => rw [hl] at harmed; cases harmed
    | cons y ys => rw [hl] at harmed; cases harmed; exact ⟨ys, rfl⟩
  have hclean := anyPoison_clean (s := (actRead (s.setOwner k) 2048).run s) ((actRead_frame _ _ s).1.2.trans hp) (65536 * p) 65536
  have huncoded : ((List.range 16).any fun j => ((actRead (s.setOwner k) 2048).run s).coded (65536 * p / 4096 + j)) = false := by
    simp [State.coded, actRead_dev, hraw]
  rw [stageExtent, Eff.run_read]
  dsimp only
  rw [he, hcopies, hlist, hbuf]
  dsimp only
  rw [hpage]
  dsimp only
  rw [← hd, if_neg (by simp [h3, hf]), if_neg (by simp [hr]), if_neg (by simp [hroom]), Eff.run_all_cons, Eff.run_all_cons, Eff.run_all_cons, Eff.run_all_done,
    readSectors_clean hp, Eff.run_read, hclean, if_neg (by decide), huncoded, if_neg (by decide),
    Eff.run_all_cons, Eff.run_all_cons, Eff.run_all_cons, Eff.run_all_cons, Eff.run_all_cons, Eff.run_all_cons, Eff.run_all_cons, Eff.run_all_done]
  exact ⟨_, _, _, _, submit_prepared ..⟩

theorem stageExtent_completes {k p i d ti ext : Nat} {e : EpochRun} {x : WTensor} (he : (s.wset k).epoch = some e) (hf : e.fail = none) (h3 : s.setState k = 3)
    (hcopies : (s.wset k).copies = []) (harmed : (s.wset k).armed.head? = some p) (hpage : pageExtent p 0 (s.wset k).defn.tensors = some (ti, x, ext)) (hbuf : s.freeBuf = some i)
    (hd : d = (s.setDrives k).getD (e.next % (s.setDrives k).length) 0) (hr : s.drvState d = 1) (hroom : s.drvRoom d = true) (hp : s.poison = []) (hraw : s.dev.codec.coded = []) :
    Completes (.extentStaged k []) s fun t => (t.wset k).armed = (s.wset k).armed.drop 1 ∧ i ∈ t.dev.whf.inUse ∧ (t.drive d).cmds.length = (s.drive d).cmds.length + 1 ∧
      (t.drive d).sqTail = ((s.drive d).sqTail + 1) % s.drvDepth d ∧ SameHbm s t ∧ SameGates s t := by
  obtain ⟨units, xs, ptr, c, hrun⟩ := stageExtent_stages he hf h3 hcopies harmed hpage hbuf hd hr hroom hp hraw
  have howner := s.setOwner_lt k
  have hd8 : d < 8 := hd ▸ s.setDrive_lt k _
  have hread := actRead_frame (s.setOwner k) 2048 s
  have hprep := (stagePrepare_local (k := k) (i := i) (b := s.setOwner k) (d := d) (w := s.wset k) (units := units) (x := xs) (ptr := ptr)).frame ((actRead (s.setOwner k) 2048).run s)
  have hplace := (placeCmd_local d c).frame ((stagePrepare k i (s.setOwner k) d (s.wset k) units xs ptr).run ((actRead (s.setOwner k) 2048).run s))
  have hset : ((actRead (s.setOwner k) 2048).run s).wset k = s.wset k := by rw [State.wset, actRead_dev, State.wset]
  have hdrive : ((stagePrepare k i (s.setOwner k) d (s.wset k) units xs ptr).run ((actRead (s.setOwner k) 2048).run s)).drive d = s.drive d := by
    rw [stagePrepare_drive, State.drive_of_dev (actRead_dev ..)]
  have hdepth : ((stagePrepare k i (s.setOwner k) d (s.wset k) units xs ptr).run ((actRead (s.setOwner k) 2048).run s)).drvDepth d = s.drvDepth d := by
    rw [State.drvDepth, hprep.fld (by simp only [stageRegs, Bool.or_eq_false_iff, beq_eq_false_iff_ne, rWhfDrvCtrl, rCdcBlocks, rCdcSurvey, rWhfStatus, rWhfSetRing]; omega),
      hread.fld (by simp only [beq_eq_false_iff_ne, rWhfDrvCtrl, rMemActRd]; omega), State.drvDepth]
  refine ⟨_, congrArg Host.Outcome.next hrun, ?_, ?_, ?_, ?_, (hread.1.trans hprep.1).trans hplace.1, (hread.2.1.trans hprep.2.1).trans hplace.2.1⟩
  · rw [State.wset, (placeCmd_keeps (fun y => (mget {} y.whf.sets k).armed) (fun _ _ => rfl) (fun _ _ => rfl) d c).devKeeps]
    exact (stagePrepare_armed _).trans (by rw [hset, WSet.staged_armed hcopies])
  · rw [(placeCmd_keeps (fun y => y.whf.inUse) (fun _ _ => rfl) (fun _ _ => rfl) d c).devKeeps]
    exact stagePrepare_inUse _
  · rw [placeCmd_drive, hdrive, List.length_append]
    rfl
  · rw [placeCmd_drive, hdrive, hdepth]


/-- Settles O38, command by command: each tail that the statement leaves open is the model's own, and the registers that a part writes lie apart. -/
theorem checkpointDrives : Obligations.CheckpointDrives :=
  ⟨fun _ _ _ _ hk hm hc hp _ hd _ => cowCopy_completes hk hm hc hp hd,
    fun _ _ _ _ _ _ _ _ _ _ he hf h3 hcopies harmed hpage hbuf hd hr hroom hp hraw => stageExtent_completes he hf h3 hcopies harmed hpage hbuf hd hr hroom hp hraw,
    fun _ _ _ es _ hr hphase hok hc hb => nvmeCompletion_completes hr hphase hok hc hb es,
    fun _ _ hd hr hlate hi => nvmeTimeout_completes hd hr hlate hi,
    fun _ _ _ _ hd hw => ⟨fun h0 hs hc hrid hpass => driveEnable_completes hd hw h0 hs hc hrid hpass, driveDisable_completes hw⟩⟩

end Sys2Proof.Machine
end

section
/-!
# What a flow's end sets off (O29)

The users of flows are told how their barges ended: programs, copies and collectives go on, with what follows in the wharf and the serving engine. All of it is ordinary,
but for what it does to tiles.
-/
namespace Sys2Proof.Machine
open Sys2Proof

section
variable {k : Nat}

/-! ### Hidden state -/

@[simp] theorem onFab_ordinary {g : Fabric → Fabric} : (onFab g).Ordinary k := fun _ hd => hd
@[simp] theorem onSrv_ordinary {g : Serve → Serve} : (onSrv g).Ordinary k := fun _ hd => hd
@[simp] theorem onRanks_ordinary {g : Ranks → Ranks} : (onRanks g).Ordinary k := fun _ hd => hd
@[simp] theorem onReads_ordinary {g : List OutRead → List OutRead} : (onReads g).Ordinary k := fun _ hd => hd
@[simp] theorem onPace_ordinary {g : Pace → Pace} : (onPace g).Ordinary k := fun _ hd => hd
@[simp] theorem onPort_ordinary {p : Nat} {g : Port → Port} : (onPort p g).Ordinary k := onFab_ordinary
@[simp] theorem onFlow_ordinary {f : Nat} {g : SrcFlow → SrcFlow} : (onFlow f g).Ordinary k := onFab_ordinary
@[simp] theorem onProg_ordinary {q : Nat} {g : Prog → Prog} : (onProg q g).Ordinary k := onQueue_ordinary
@[simp] theorem onEngine_ordinary {e : Nat} {g : CopyRun → CopyRun} : (onEngine e g).Ordinary k := onWork_ordinary
@[simp] theorem onRankBasin_ordinary {b : Nat} {g : RankBasin → RankBasin} : (onRankBasin b g).Ordinary k := onRanks_ordinary
@[simp] theorem onGrp_ordinary {b g : Nat} {f : RankGrp → RankGrp} : (onGrp b g f).Ordinary k := onRanks_ordinary
@[simp] theorem onInst_ordinary {b g q : Nat} {f : RankInst → RankInst} : (onInst b g q f).Ordinary k := onGrp_ordinary
@[simp] theorem onTile_ordinary {t : Nat} {g : Tile → Tile} : (onTile t g).Ordinary k := onPace_ordinary

/-! ### Barges -/

@[simp] theorem sendOut_ordinary (p : Nat) (w : Waiting) (cls used : Nat) : (sendOut p w cls used).Ordinary k := by
  simp [sendOut, sendFrame, returnCredit, sendControl]

@[simp] theorem pumpLoop_ordinary (p n : Nat) : (pumpLoop p n).Ordinary k := by
  induction n with
  | zero => trivial
  | succ n ih =>
    refine Eff.only_read.mpr fun s => Eff.only_ite.mpr ⟨fun _ => ?_, fun _ => trivial⟩
    split
    · exact ⟨sendOut_ordinary _ _ _ _, ih⟩
    · trivial

@[simp] theorem toPort_ordinary (p input : Nat) (b : Barge) : (toPort p input b).Ordinary k := by simp [toPort, pumpPort]

@[simp] theorem launch_ordinary (f seq : Nat) : (launch f seq).Ordinary k := by
  refine Eff.only_read.mpr fun s => ?_
  split
  · trivial
  split
  · trivial
  simp only [Eff.only_all, List.forall_mem_cons, Eff.only_when]
  refine ⟨by simp, fun _ => ?_, ?_, fun _ h => nomatch h⟩
  · split <;> simp
  · split <;> simp

@[simp] theorem breakFlow_ordinary (f : Nat) (refusal : Option Nat) : (breakFlow f refusal).Ordinary k := by
  refine Eff.only_read.mpr fun s => ?_
  split
  · trivial
  simp only [Eff.only_all, List.forall_mem_cons]
  refine ⟨by simp, by simp [dropWaitingOf], by simp [tellUser], ?_, fun _ h => nomatch h⟩
  split
  · exact ⟨by split <;> simp, countAt_ordinary (by omega) 0⟩
  · trivial

@[simp] theorem tryFence_ordinary (f : Nat) : (tryFence f).Ordinary k := by
  refine Eff.only_read.mpr fun s => ?_
  split
  · trivial
  refine Eff.only_ite.mpr ⟨fun _ => trivial, fun _ => ?_⟩
  split
  · simp
  · split <;> simp

@[simp] theorem enqueueFlow_ordinary (f hdr : Nat) (payload : List Byte) : (enqueueFlow f hdr payload).Ordinary k := by
  refine Eff.only_read.mpr fun s => ?_
  split <;> simp [fence]

@[simp] theorem openFlow_ordinary (f : Nat) : (openFlow f).Ordinary k := by simp [openFlow]

@[simp] theorem needFlow_ordinary (f : Nat) : (needFlow f).Ordinary k := by
  refine Eff.only_read.mpr fun s => Eff.only_ite.mpr ⟨fun _ => trivial, fun _ => Eff.only_ite.mpr ⟨fun _ => by simp, fun _ => ?_⟩⟩
  refine withFree_only.mpr fun t => ⟨trivial, ?_⟩
  split
  · simp
  · exact event_ordinary (by decide) (by decide) 0

/-! ### Gates and programs -/

@[simp] theorem armEpoch_ordinary (j : Nat) : (armEpoch j).Ordinary k := by
  refine Eff.only_read.mpr fun s => ?_
  dsimp only
  split
  · trivial
  refine Eff.only_ite.mpr ⟨fun _ => by simp, fun _ => ?_⟩
  simp only [Eff.only_all, List.forall_mem_cons]
  exact ⟨by simp [setSetState], by simp, onSet_ordinary fun _ h => h, fun _ h => nomatch h⟩

@[simp] theorem armOnGate_ordinary (b g : Nat) : (armOnGate b g).Ordinary k := by
  refine Eff.only_read.mpr fun s => Eff.only_each.mpr fun j _ => Eff.only_read.mpr fun t => ?_
  split <;> simp

@[simp] theorem raiseTo_ordinary (b g v : Nat) : (raiseTo b g v).Ordinary k := by
  have hpump := pumpWharf_ordinary (k := k)
  simp [raiseTo, hpump]

@[simp] theorem addGate_ordinary (b g n : Nat) : (addGate b g n).Ordinary k := by simp [addGate]

@[simp] theorem progEnd_ordinary (q st : Nat) : (progEnd q st).Ordinary k := by
  refine Eff.only_read.mpr fun s => ?_
  split <;> simp

@[simp] theorem readDesc_ordinary (q : Nat) : (readDesc q []).Ordinary k := by
  refine Eff.only_read.mpr fun s => ?_
  split <;> simp

@[simp] theorem opDone_ordinary (q : Nat) : (opDone q []).Ordinary k := by
  refine Eff.only_read.mpr fun s => ?_
  have howner := s.qOwner_lt q
  split
  · trivial
  · have hreg : 0x30180 ≤ rGlbOpDone (s.qOwner q) ∨ rGlbOpDone (s.qOwner q) < 0x30100 := by simp only [rGlbOpDone]; omega
    simp only [Eff.only_all, List.forall_mem_cons, Eff.only_when]
    exact ⟨by simp, by simpa using hreg, by simp, fun _ h => nomatch h⟩

/-! ### The serving engine and copies -/

@[simp] theorem metaTraffic_ordinary (b : Nat) : (metaTraffic b).Ordinary k := by
  refine Eff.only_read.mpr fun s => ?_
  split
  · refine Eff.only_when.mpr fun _ => Eff.only_read.mpr fun t => ?_
    split <;> simp
  · trivial

@[simp] theorem writeList_ordinary (b e : Nat) (new : List (Nat × Nat)) : (writeList b e new).Ordinary k := by
  refine Eff.only_read.mpr fun s => ?_
  split <;> simp

@[simp] theorem zeroPage_ordinary (b g : Nat) : (zeroPage b g).Ordinary k := by
  refine Eff.only_read.mpr fun s => ?_
  split
  · simp [markRaw, markDirty_ordinary]
  · trivial

@[simp] theorem releasePage_ordinary (b g : Nat) (zero : Bool) : (releasePage b g zero).Ordinary k := by simp [releasePage]

@[simp] theorem dropMove_ordinary (e : Nat) : (dropMove e).Ordinary k := by simp [dropMove, dropRead, rDmaStatus]

@[simp] theorem freeSlot_ordinary (b e : Nat) (zero : Bool) : (freeSlot b e zero).Ordinary k := by simp [freeSlot]

@[simp] theorem endReq_ordinary (b e outcome : Nat) : (endReq b e outcome).Ordinary k := by simp [endReq]

@[simp] theorem pageOut_ordinary (b e : Nat) : (pageOut b e).Ordinary k := by
  refine Eff.only_read.mpr fun s => ?_
  split <;> simp

@[simp] theorem pageBack_ordinary (b e : Nat) : (pageBack b e).Ordinary k := by
  refine Eff.only_read.mpr fun s => ?_
  split <;> simp

@[simp] theorem moveEnd_ordinary (e st : Nat) : (moveEnd e st).Ordinary k := by simp [moveEnd]

@[simp] theorem copyEnd_ordinary (e st : Nat) : (copyEnd e st).Ordinary k := by
  refine Eff.only_read.mpr fun s => ?_
  split <;> simp [dropRead, rDmaStatus]

@[simp] theorem copyAdvance_ordinary (e : Nat) : (copyAdvance e).Ordinary k := by
  refine Eff.only_read.mpr fun s => ?_
  split
  · split <;> simp
  · trivial

@[simp] theorem copyAnswer_ordinary (e seq st : Nat) : (copyAnswer e seq st).Ordinary k := by
  refine Eff.only_read.mpr fun s => ?_
  split
  · trivial
  split <;> simp [copyStop]

/-! ### Collectives -/

@[simp] theorem groupFails_ordinary (b g : Nat) : (groupFails b g).Ordinary k := by
  have hcount : (countAt (0xF0 + b) 0).Ordinary k := countAt_ordinary (by omega) 0
  simp [groupFails, hcount]

@[simp] theorem collFails_ordinary (b g : Nat) (c : RankColl) (st : Nat) : (collFails b g c st).Ordinary k := by simp [collFails, failGate, rankResult]

@[simp] theorem writeElems_ordinary (b : Nat) (t : TDesc) (os : List OutElem) : (writeElems b t os).Ordinary k := by simp [writeElems]

@[simp] theorem collOk_ordinary (b g : Nat) (c : RankColl) : (collOk b g c).Ordinary k := by
  refine Eff.only_read.mpr fun s => Eff.only_ite.mpr ⟨fun _ => by simp, fun _ => ?_⟩
  split
  · simp
  · simp [clearCovered]

@[simp] theorem complete_ordinary (b g : Nat) (c : RankColl) (st : Nat) : (complete b g c st).Ordinary k := by simp [complete]

@[simp] theorem rankDoneLoop_ordinary (b g v n : Nat) : (rankDoneLoop b g v n).Ordinary k := by
  induction n with
  | zero => trivial
  | succ n ih =>
    refine Eff.only_read.mpr fun s => ?_
    split
    · split <;> simp [ih]
    · trivial

@[simp] theorem rankDone_ordinary (b g : Nat) : (rankDone b g).Ordinary k := by simp [rankDone]

@[simp] theorem sendCode_ordinary (b g q : Nat) (node : Nat × Nat) (dest : Nat) (down : Bool) (code : Nat) : (sendCode b g q node dest down code).Ordinary k := by
  simp [sendCode, rankSend]

@[simp] theorem giveStatus_ordinary (b g q st : Nat) : (giveStatus b g q st).Ordinary k := onGrp_ordinary
end

/-! ### The error count of a channel -/

/-- The low part of channel 0's count of correctable errors. -/
def State.ceCount (s : State) : Nat := s.fld (rMemCh 0) 0 18

/-- The effect leaves that count as it is. Of the parts that a flow's end sets off, those that touch tiles are not ordinary: a register array that is indexed by a tile that
is not there could run into the counters, but no update of a tile reaches the low 18 bits of a register. -/
def Eff.KeepsCe (e : Eff) : Prop := ∀ s : State, (e.run s).ceCount = s.ceCount

theorem Eff.Ordinary.keepsCe {k : Nat} {e : Eff} (h : e.Ordinary k) : e.KeepsCe := fun s => by
  rw [State.ceCount, State.fld, h.within.regsBut s _ (by decide)]
  rfl

theorem Eff.KeepsCe.skip : Eff.skip.KeepsCe := fun _ => rfl

theorem Eff.KeepsCe.andThen {e f : Eff} (he : e.KeepsCe) (hf : f.KeepsCe) : (Eff.andThen e f).KeepsCe := fun s => by rw [Eff.run_andThen, hf, he]

theorem Eff.KeepsCe.read {f : State → Eff} (h : ∀ s, (f s).KeepsCe) : (Eff.read f).KeepsCe := fun s => by rw [Eff.run_read, h]

theorem Eff.KeepsCe.all {es : List Eff} (h : ∀ e ∈ es, e.KeepsCe) : (Eff.all es).KeepsCe := by
  induction es with
  | nil => exact fun s => by rw [Eff.run_all_done]
  | cons e es ih =>
    intro s
    rw [Eff.run_all_cons, ih fun x hx => h x (List.mem_cons_of_mem _ hx), h e (List.mem_cons_self ..)]

theorem Eff.KeepsCe.each {α : Type} {xs : List α} {f : α → Eff} (h : ∀ x, (f x).KeepsCe) : (Eff.each xs f).KeepsCe := by
  induction xs with
  | nil => exact fun s => by rw [Eff.run_each_nil]
  | cons x xs ih =>
    intro s
    rw [Eff.run_each_cons, ih, h]

theorem putFld_keepsCe {off lo w x : Nat} (hlo : 18 ≤ lo) (hw : lo + w ≤ 64) : (putFld off lo w x).KeepsCe := fun s => by
  by_cases hoff : off = rMemCh 0
  · subst hoff
    exact State.fld_putFld_apart x hw (by omega)
  · rw [State.ceCount, putFld_run, State.fld_setReg_other (Ne.symm hoff)]
    rfl

theorem trimStep_keepsCe (t : Nat) : (trimStep t).KeepsCe := Eff.KeepsCe.read fun s => by
  dsimp only
  split
  · exact Eff.KeepsCe.skip
  refine .andThen (Eff.Ordinary.keepsCe (k := 0) onTile_ordinary) ?_
  split
  · exact Eff.KeepsCe.skip
  · refine .all fun e he => ?_
    simp only [List.mem_cons, List.not_mem_nil, or_false] at he
    rcases he with rfl | rfl | rfl
    · exact putFld_keepsCe (by decide) (by decide)
    · exact putFld_keepsCe (by decide) (by decide)
    · exact Eff.Ordinary.keepsCe (k := 0) (by simp [calAccept])

theorem startStoppage_keepsCe (t slot : Nat) : (startStoppage t slot).KeepsCe := Eff.KeepsCe.read fun s => .all fun e he => by
  simp only [List.mem_cons, List.not_mem_nil, or_false] at he
  rcases he with rfl | rfl | rfl | rfl | rfl | rfl | rfl
  · exact Eff.Ordinary.keepsCe (k := 0) ⟨fun _ hd => hd, fun _ hd => hd⟩
  · exact putFld_keepsCe (by decide) (by decide)
  · exact Eff.Ordinary.keepsCe (k := 0) (by simp [rStpStatus])
  · exact Eff.Ordinary.keepsCe (k := 0) (by simp [rStpStatus])
  · exact Eff.Ordinary.keepsCe (k := 0) (by simp [rStpTaken])
  · exact Eff.Ordinary.keepsCe (k := 0) (by simp [rStpMaxDefer])
  · exact Eff.Ordinary.keepsCe (k := 0) onPace_ordinary

theorem tileBoundary_keepsCe (ts : List Nat) : (tileBoundary ts).KeepsCe := .andThen (.each trimStep_keepsCe) (.read fun s => by
  split
  · exact Eff.KeepsCe.skip
  split
  · split
    · exact Eff.KeepsCe.skip
    · exact startStoppage_keepsCe _ _
  · exact Eff.KeepsCe.skip)

theorem dropSums_keepsCe (b : Nat) (p : RankSum → Bool) : (dropSums b p).KeepsCe := .read fun _ =>
  .andThen (Eff.Ordinary.keepsCe (k := 0) onRankBasin_ordinary) (tileBoundary_keepsCe _)

theorem failInst_keepsCe (b g q st : Nat) (src : Option Nat) : (failInst b g q st src).KeepsCe := Eff.KeepsCe.read fun s => by
  dsimp only
  split
  · exact Eff.KeepsCe.skip
  refine .all fun e he => ?_
  simp only [List.mem_cons, List.not_mem_nil, or_false] at he
  rcases he with rfl | rfl | rfl | rfl | rfl | rfl | rfl | rfl
  · exact Eff.Ordinary.keepsCe (k := 0) onInst_ordinary
  · exact Eff.Ordinary.keepsCe (k := 0) (groupFails_ordinary b g)
  · refine Eff.Ordinary.keepsCe (k := 0) ?_
    split <;> simp
  · exact Eff.Ordinary.keepsCe (k := 0) (by simp)
  · exact Eff.Ordinary.keepsCe (k := 0) onRankBasin_ordinary
  · exact dropSums_keepsCe b _
  · exact Eff.Ordinary.keepsCe (k := 0) (giveStatus_ordinary _ _ _ _)
  · exact Eff.Ordinary.keepsCe (k := 0) (rankDone_ordinary b g)

theorem rankFlushLoop_keepsCe (b n : Nat) : (rankFlushLoop b n).KeepsCe := by
  induction n with
  | zero => exact Eff.KeepsCe.skip
  | succ n ih =>
    have hpop : (onRankBasin b fun r => { r with out := r.out.drop 1 }).KeepsCe := Eff.Ordinary.keepsCe (k := 0) onRankBasin_ordinary
    have hfails : ∀ g q, (Eff.all [onRankBasin b fun r => { r with out := r.out.drop 1 }, failInst b g q 0x1E none, rankFlushLoop b n]).KeepsCe := fun g q => .all fun e he => by
      simp only [List.mem_cons, List.not_mem_nil, or_false] at he
      rcases he with rfl | rfl | rfl
      · exact hpop
      · exact failInst_keepsCe _ _ _ _ _
      · exact ih
    refine .read fun s => ?_
    split
    · exact Eff.KeepsCe.skip
    dsimp only
    split
    · exact hfails _ _
    split
    · exact Eff.Ordinary.keepsCe (k := 0) (event_ordinary (by decide) (by decide) 0)
    refine .andThen (Eff.Ordinary.keepsCe (k := 0) (needFlow_ordinary _)) (.read fun t => ?_)
    split
    · split
      · exact hfails _ _
      · refine .all fun e he => ?_
        simp only [List.mem_cons, List.not_mem_nil, or_false] at he
        rcases he with rfl | rfl | rfl | rfl
        · exact hpop
        · exact Eff.Ordinary.keepsCe (k := 0) onRankBasin_ordinary
        · exact Eff.Ordinary.keepsCe (k := 0) (enqueueFlow_ordinary _ _ _)
        · exact ih
    · exact Eff.KeepsCe.skip

theorem rankAnswer_keepsCe (b dest seq st : Nat) : (rankAnswer b dest seq st).KeepsCe := Eff.KeepsCe.read fun s => by
  split
  · exact Eff.KeepsCe.skip
  refine .all fun e he => ?_
  simp only [List.mem_cons, List.not_mem_nil, or_false] at he
  rcases he with rfl | rfl | rfl
  · exact Eff.Ordinary.keepsCe (k := 0) onRankBasin_ordinary
  · unfold Eff.when
    split
    · refine .read fun t => ?_
      split
      · exact failInst_keepsCe _ _ _ _ _
      · exact Eff.KeepsCe.skip
    · exact Eff.KeepsCe.skip
  · exact rankFlushLoop_keepsCe b _

theorem tellOne_keepsCe (e : FlowEvent) : (tellOne e []).KeepsCe := Eff.KeepsCe.read fun s => by
  dsimp only
  split
  · refine Eff.Ordinary.keepsCe (k := 0) ?_
    split
    · split <;> simp
    · simp
  split
  · exact rankAnswer_keepsCe _ _ _ _
  · exact Eff.KeepsCe.skip

theorem drainLoop_keepsCe (n : Nat) : (drainLoop [] n).KeepsCe := by
  induction n with
  | zero => exact Eff.KeepsCe.skip
  | succ n ih =>
    refine .read fun s => ?_
    split
    · exact Eff.KeepsCe.skip
    refine .all fun e he => ?_
    simp only [List.mem_cons, List.not_mem_nil, or_false] at he
    rcases he with rfl | rfl | rfl
    · exact Eff.Ordinary.keepsCe (k := 0) onFab_ordinary
    · exact tellOne_keepsCe _
    · exact ih

theorem pumpJournal_keepsCe : pumpJournal.KeepsCe := fun s => by
  rw [State.ceCount, ((pumpJournal_local fun _ => false).frame s).fld rfl]
  rfl

/-- The rest of a lengthsman's read counts no error. -/
theorem lengthsmanTail_keepsCe (a : Nat) : (lengthsmanTail a).KeepsCe := .all fun e he => by
  simp only [List.mem_cons, List.not_mem_nil, or_false] at he
  rcases he with rfl | rfl | rfl
  · exact Eff.Ordinary.keepsCe (k := 0) (by simp [rMemScrub, rMemScrubLast])
  · exact drainLoop_keepsCe _
  · exact pumpJournal_keepsCe


/-! ### An error at a spare in use -/

/-- A chip whose lengthsman is at the spare pool's only page, to which page 1 has gone. -/
def spareState : State :=
  { regs := [(rMemStatus, 0x2001#64), (rMemScrub, 0x5FFFFF000#64), (rMemBadpage 0, 0x1001#64)] }

/-- A correctable error there. -/
def spareError : EccEvent := { sector := 0x5FFFFF000, kind := .correctable, chan := 0, pseudo := 0, bank := 0, row := 0 }

/-- The sector is page 1's, which the lengthsman does not read: nothing is counted. -/
theorem spareError_uncounted : ((effLengthsmanRead [spareError] []).run spareState).ceCount = 0 := by decide +kernel

/-- Refutes O29: an error that is named at a sector of a spare in use is its page's, which the lengthsman does not read there; nothing is counted, while the statement
asks that the channel's count rises. -/
theorem not_hbmUpkeep : ¬ Obligations.HbmUpkeep := by
  rintro ⟨-, herror, -⟩
  obtain ⟨t, ht, u, ⟨hcount, -⟩, hrun⟩ := (herror spareState spareError (by decide +kernel) (by decide) (by decide +kernel) (by decide +kernel) rfl).1 rfl
  obtain rfl := Host.Outcome.next.inj ht
  have hone : u.fld (rMemCh 0) 0 32 = 1 := hcount.trans (by decide +kernel)
  have hu : u.ceCount = 1 := by
    have hmod : u.ceCount = u.fld (rMemCh 0) 0 32 % 2 ^ 18 := by
      simp only [State.ceCount, State.fld, bitsOf]
      omega
    rw [hmod, hone, Nat.mod_eq_of_lt (by decide)]
  have htail := lengthsmanTail_keepsCe (spareState.fld rMemScrub 0 35) u
  rw [← hrun, hu, spareError_uncounted] at htail
  cases htail


end Sys2Proof.Machine
end
